-- ==== Sys2Proof/Word.lean ====
section
/-! DEFINITION. The word types of the EZ-900 model and the type of a keyed table. -/

namespace Sys2Proof

/-- One byte (R6). -/
abbrev Byte := BitVec 8

/-- A run of bytes, lowest address first (R6: every multi-byte field is little-endian). -/
abbrev Bytes := List Byte

/-- An FP32 value as its 32 bits (R192). -/
abbrev F32 := BitVec 32

/-- A keyed table: (key, value) pairs, keys strictly rising. -/
abbrev Table (α : Type) := List (Nat × α)

end Sys2Proof
end

