-- ==== Sys2Proof/Machine/Wire.lean ====
section
/-! DEFINITION. The structures that reach the part from outside as operands: transport packets (R343),
delivery and lockstep messages (R231, R429), flits (R315) and time probes (R331). -/

namespace Sys2Proof.Machine

/-- A transport packet: the header of R343 and its data. -/
structure Packet where
  opcode : Nat
  flags : Nat
  srcNode : Nat
  destQp : Nat
  srcQp : Nat
  psn : Nat
  key : Nat
  length : Nat
  addr : Nat
  msgLen : Nat
  aethPsn : Nat
  syndrome : Nat
  hint : Nat
  data : Bytes
  icrc : Nat
  deriving DecidableEq, Repr

/-- A delivery message (R231) or a lockstep message (R429): header, body entries and MSG_CRC. -/
structure Message where
  kind : Nat
  pipeline : Nat
  consumer : Nat
  sender : Nat
  count : Nat
  index : Nat
  value : Nat
  body : Bytes
  crc : Nat
  deriving DecidableEq, Repr

/-- A received flit (R315). `crc` is the CRC field as received. -/
structure Flit where
  type : Nat
  vc : Nat
  valid : Nat
  dest : Nat
  hops : Nat
  seq : Nat
  ack : Nat
  creditVc : Nat
  creditCount : Nat
  payload : Bytes
  crc : Nat
  deriving DecidableEq, Repr

/-- One time probe (R331): the four timestamps in units of 62.5 ps (t4 is 0 in a probe that asks), and what the parent reports of itself. -/
structure Probe where
  t1 : Nat
  t2 : Nat
  t3 : Nat
  t4 : Nat
  peerAligned : Bool
  peerHoldover : Bool
  peerDepth : Nat
  deriving DecidableEq, Repr

/-- What an access to a code word meets (R248): errors of stored symbols (symbol, bits changed), the word that it reaches in place of
its own, and the symbols that the re-read shows in error again (R255). -/
structure WordFault where
  flips : List (Nat × Nat)
  reached : Option Nat
  again : List Nat
  deriving DecidableEq, Repr

/-- An access of an engine to its operand store or its cluster's store (R252, R253): bits of the word that have changed in the SRAM
since the last access, and the bytes written at an offset; none for a read. -/
structure StoreAccess where
  cluster : Bool
  word : Nat
  flips : List Nat
  write : Option (Nat × Bytes)
  deriving DecidableEq, Repr

/-- A reel as a volume's reel table holds it (R66, R72). -/
structure Reel where
  start : Nat
  dataset : Nat
  first : Nat
  slateCap : Nat
  blockCap : Nat
  codec : Nat
  level : Nat
  sealed : Bool
  slates : Nat
  blocks : Nat
  nextUnit : Nat
  tbOpen : Nat
  fw : Nat
  footer : Nat
  deriving DecidableEq, Repr

/-- What the dies of a magazine report in their parameter pages (R279, R281): bits per cell, an SLC mode, data and spare
bytes of a page, planes, LUNs, capacity in bytes, erase blocks, rated program/erase cycles, and whether all dies agree. -/
structure DieReport where
  bitsPerCell : Nat
  slcMode : Bool
  pageData : Nat
  pageSpare : Nat
  planes : Nat
  luns : Nat
  dieBytes : Nat
  dieBlocks : Nat
  endurance : Nat
  uniform : Bool
  deriving DecidableEq, Repr

/-- ONFI operations that the part sends to a flash die (R281); `stop` ends all work on a magazine's channels (R310). -/
inductive FlashOp where
  | reset
  | resetLun
  | readId
  | readParameterPage
  | readUniqueId
  | setFeatures
  | getFeatures
  | volumeSelect
  | zqLong
  | zqShort
  | dcc
  | readDqTraining
  | writeDqTraining
  | read
  | program
  | erase
  | readStatus
  | stop
  deriving DecidableEq, Repr

/-- A code word as a flash read decodes it (R282): its metadata and its data. -/
structure FlashRead where
  volume : Nat
  block : Nat
  wsn : Nat
  cls : Nat
  crc : Nat
  data : Bytes
  deriving DecidableEq, Repr

/-- What an inserted magazine brings: `known` names one that left this node; else its format, volumes (number, blocks,
read-only), block contents (key volume × 2^40 + block) and reel tables (key volume × 2^32 + reel). -/
structure MagImage where
  known : Option Nat
  formatted : Bool
  userBlocks : Nat
  spares : Nat
  sparesUsed : Table Nat
  volumes : List (Nat × Nat × Bool)
  content : Table Bytes
  reels : Table Reel
  deriving DecidableEq, Repr

/-- How one unit's test ended (R405, R406): its first failing pattern, 0xFFFF if none, whether the repeat of the phase failed too,
and the signatures observed and expected there. -/
structure TestOut where
  unit : Nat
  failPattern : Nat
  repeatFails : Bool
  signature : Nat
  expected : Nat
  tempPeak : Int
  deriving DecidableEq, Repr

/-! What a decoder finds in a bitstream. The standards that R145 names define it; the manual adds what is done with it. -/

/-- Kinds of damage (R164, codes 1 to 5): data that ended early, a marker, chunk, unit, page or header that is invalid, invalid
entropy-coded data, a format checksum that failed, and a missing reference frame. -/
inductive DecodeFault where
  | ended
  | malformed
  | entropy
  | checksum
  | missing
  deriving DecidableEq, Repr

/-- One error: its kind, whether it hits a header that fixes geometry or rate, and the byte where the decoder found it. -/
structure Damage where
  kind : DecodeFault
  header : Bool
  off : Nat
  deriving DecidableEq, Repr

/-- An error in a JPEG scan: the components of the scan, the MCU of the scan where it lies, and the number, from 1, of the next
restart marker of the scan, none without one. -/
structure JpegDamage where
  err : Damage
  scan : List Nat
  mcu : Nat
  restart : Option Nat
  deriving DecidableEq, Repr

/-- A component of a JPEG: its quantization table and the blocks of its scans in raster order; a block is 64 decoded integers,
row by row. -/
structure JpegComp where
  quant : List Nat
  blocks : List (List Int)
  deriving DecidableEq, Repr

/-- The scans of a JPEG: lines that a DNL segment states, restart interval in MCUs, components and errors. -/
structure JpegScan where
  lines : Nat
  restart : Nat
  comps : List JpegComp
  damage : List JpegDamage
  deriving DecidableEq, Repr, Inhabited

/-- An error in a PNG's image data: the pass and the row of the pass that the damaged data feeds first. -/
structure PngDamage where
  err : Damage
  pass : Nat
  row : Nat
  deriving DecidableEq, Repr

/-- The image of a PNG: palette (R, G, B), tRNS entries (of a palette its alphas, else the samples that are transparent), the
samples of each pixel as stored, and errors. -/
structure PngScan where
  palette : List (Nat × Nat × Nat)
  trns : Option (List Nat)
  pixels : List (List Nat)
  damage : List PngDamage
  deriving DecidableEq, Repr, Inhabited

/-- An error in a WebP: in its alpha, or in a partition from a macroblock on. -/
structure WebpDamage where
  err : Damage
  alpha : Bool
  block : Nat
  deriving DecidableEq, Repr

/-- The image of a lossy WebP: per pixel Y, U, V and its ALPH samples, and errors. -/
structure WebpScan where
  pixels : List (Nat × Nat × Nat)
  alphas : List Nat
  damage : List WebpDamage
  deriving DecidableEq, Repr, Inhabited

/-- Profiles of R157. -/
inductive VideoProfile where
  | constrainedBaseline
  | main
  | high
  | main10
  | other
  deriving DecidableEq, Repr, Inhabited

/-- A coded frame: its index in display order, none where it is never shown, and whether it is a random access point: an IDR or
CRA picture, or an AV1 key frame shown (R158). -/
structure VideoFrame where
  display : Option Nat
  random : Bool
  deriving DecidableEq, Repr

/-- What a parse of a video stream finds: damage that ends it; profile, level times 10, bit depth, chroma_format_idc, field or MBAFF
coding; frame size; matrix_coefficients and the full-range flag; samples across a macroblock, CTU or superblock; the frames in
decoding order; and the access or temporal units. -/
structure VideoHead where
  bad : Option Damage
  profile : VideoProfile
  level : Nat
  depth : Nat
  chroma : Nat
  field : Bool
  width : Nat
  height : Nat
  coeffs : Nat
  full : Bool
  block : Nat
  order : List VideoFrame
  units : Nat
  deriving DecidableEq, Repr, Inhabited

/-- An error in a frame: the macroblocks or CTUs of its slice, or the superblocks of its tile, in decoding order, and the position
of the one where the error lies. -/
structure VideoDamage where
  err : Damage
  area : List Nat
  place : Nat
  deriving DecidableEq, Repr

/-- A decoded frame: its size, the samples of its planes Y, Cb, Cr, and errors. -/
structure VideoPicture where
  width : Nat
  height : Nat
  samples : List Nat
  damage : List VideoDamage
  deriving DecidableEq, Repr

/-- An error in an audio stream: the sample frames of the damaged frame, packet or page. -/
structure AudioDamage where
  err : Damage
  first : Nat
  count : Nat
  deriving DecidableEq, Repr

/-- The sample frames of an audio stream, each its channels' integers, those of damaged frames among them, and errors. -/
structure AudioScan where
  frames : List (List Int)
  damage : List AudioDamage
  deriving DecidableEq, Repr, Inhabited

end Sys2Proof.Machine
end

