-- ==== Sys2Proof/Syntax.lean ====
section
/-! DEFINITION. The commands of the block: one constructor per row of the opcode table.
Operands are what reaches the part from outside with the step: bus values, bytes that PCIe or the flash returns,
received packets, sensor readings, the identity of the ring pair, queue, unit or pipeline concerned, and whether a
fault of the surroundings (a PCIe error, an engine fault) met the step. A Kenlet command's parameters are in the
128-byte entry that COMMAND_FETCH brought in; its row names the outstanding command by ring pair and CMD_ID. -/

namespace Sys2Proof

open Machine (Packet Message Flit Probe DieReport MagImage TestOut StoreAccess WordFault FlashRead)

/-- One command or event of the EZ-900. -/
inductive Instr where
  -- BAR0 and rings (sub: the sub-link whose BAR0 is accessed)
  | ctrlEnable (sub : Nat)
  | controllerReset (sub : Nat)
  | admDepthWrite (sub : Nat) (v : BitVec 32)
  | registerWrite (sub off size : Nat) (v : BitVec 64)
  | sqTailDoorbell (sub pair : Nat) (v : BitVec 32)
  | cqHeadDoorbell (sub pair : Nat) (v : BitVec 32)
  | eventStatusWrite (sub : Nat) (v : BitVec 32)
  | eventMaskWrite (sub : Nat) (v : BitVec 32)
  | refusalRead (sub : Nat)
  | ringErrorRead (sub : Nat)
  | timebaseRead (sub off size : Nat)
  | commandFetch (pair : Nat) (entry list data : Option Bytes)
  | completionWrite (pair cid : Nat) (pcieOk : Bool)
  | coalesceTimer (pair : Nat)
  | workSliceEnd (pair cid units : Nat) (faults : List (Nat × WordFault))
  -- admin family
  | identify (pair cid : Nat) (pcieOk : Bool)
  | createRingPair (pair cid : Nat)
  | deleteRingPair (pair cid : Nat)
  | resetRingPair (pair cid : Nat) (lost : List Nat)
  | getEvent (pair cid : Nat)
  | getField (pair cid : Nat) (pcieOk : Bool)
  | setField (pair cid : Nat)
  | firmwareStage (pair cid : Nat)
  | firmwareActivate (pair cid : Nat)
  | activationReset
  -- catalog family
  | catalogLoad (pair cid : Nat)
  | catalogUnload (pair cid : Nat)
  | catalogLookup (pair cid : Nat) (pcieOk : Bool)
  | routingSummaryLoad (pair cid : Nat)
  -- pipeline family
  | pipelineDeclare (pair cid : Nat)
  | pipelineStart (pair cid : Nat)
  | pipelineStop (pair cid : Nat)
  | pipelineDelete (pair cid : Nat)
  | modelPackageLoad (pair cid : Nat)
  | shotRecordsLoad (pair cid : Nat)
  | tokenTableLoad (pair cid : Nat)
  | consumerAttach (pair cid : Nat)
  | pipelineCheckpoint (pair cid : Nat) (pcieOk : Bool)
  | pipelineRestore (pair cid : Nat)
  -- storage family
  | read (pair cid : Nat) (pcieOk : Bool)
  | write (pair cid : Nat)
  | flush (pair cid : Nat)
  | trim (pair cid : Nat)
  | volumeCreate (pair cid : Nat)
  | volumeDelete (pair cid : Nat)
  | magazineFormat (pair cid : Nat)
  | fold (pair cid : Nat)
  | rebuild (pair cid : Nat) (pcieOk : Bool) (weak : List Nat)
  | magazineEject (pair cid : Nat)
  | reelOpen (pair cid : Nat)
  | reelSamples (pair cid : Nat)
  | reelSeal (pair cid : Nat) (pcieOk : Bool)
  | wearReport (pair cid : Nat) (pcieOk : Bool)
  -- links, transport and shaping families
  | topologyLoad (pair cid : Nat)
  | peerIdentityLoad (pair cid : Nat)
  | regionRegister (pair cid : Nat)
  | regionRevoke (pair cid : Nat)
  | revokeDrainComplete (index : Nat)
  | qpCreate (pair cid : Nat)
  | qpModifyReady (pair cid : Nat)
  | qpModifyReset (pair cid : Nat)
  | qpModifyError (pair cid : Nat)
  | qpModifyQuery (pair cid : Nat) (pcieOk : Bool)
  | qpDestroy (pair cid : Nat)
  | callSheetLoad (pair cid : Nat)
  | shaperFlowSet (pair cid : Nat)
  | policerSet (pair cid : Nat)
  -- observation family
  | errorRingRead (pair cid : Nat) (pcieOk : Bool) (badWords : List Nat)
  | countersRead (pair cid : Nat) (pcieOk : Bool)
  | traceConfig (pair cid : Nat)
  | lockstepConfig (pair cid : Nat)
  | dailiesRun (pair cid : Nat) (pcieOk : Bool)
  | logbookRead (pair cid : Nat) (pcieOk : Bool)
  | clapperFreezeNow (pair cid : Nat)
  | clapperFreezeAt (pair cid : Nat)
  | clapperRelease (pair cid : Nat) (ballHigh : Bool)
  | operatingPointSet (pair cid : Nat)
  | scrubPass (pair cid : Nat) (faults : List (Nat × WordFault))
  | initFill (pair cid : Nat)
  -- field test and identity families
  | testRotationSet (pair cid : Nat)
  | testRun (pair cid : Nat) (outs : List TestOut) (temp : Int)
  | testResultsRead (pair cid : Nat) (pcieOk : Bool)
  | unitRetire (pair cid : Nat)
  | attestReport (pair cid : Nat) (pcieOk : Bool)
  | certRead (pair cid : Nat) (pcieOk : Bool)
  -- schedules and the pool
  | scheduleComplete (pipeline epoch : Nat)
  | schedule (pipeline epoch : Nat)
  | scheduleWindowRebuild (pipeline epoch window : Nat) (failed : Option Nat)
  | poolAlloc (owner cls stack bytes sample stage op : Nat) (filling : List Nat)
  | allocGrant (cls stack : Nat) (filling : List Nat)
  | poolFree (handle owner stage op caller : Nat)
  | poolShare (handle n owner stage op caller : Nat) (filling : List Nat)
  | poolAdd (handle k owner stage op caller : Nat)
  | poolRelease (handle owner stage op caller : Nat)
  -- engine queues and the fetch stage
  | engineEntryIssue (sample queue : Nat)
  | engineCompletion (queue : Nat) (flips : Bytes)
  | blockDecompress (queue : Nat)
  | crcVerify (queue : Nat)
  | fetchRepeat (sample queue : Nat)
  | slatePredicate (queue : Nat)
  | minhash (queue : Nat) (pcieOk : Bool)
  | sinkHeadPoll (pipeline instance_ head : Nat) (pcieOk : Bool)
  -- media, transform, model and token engines
  | imageDecode (queue : Nat)
  | videoDecode (queue : Nat)
  | audioDecode (queue : Nat)
  | cropResample (queue : Nat)
  | flip (queue : Nat)
  | affineWarp (queue : Nat)
  | colourJitter (queue : Nat)
  | normalize (queue : Nat)
  | convert (queue : Nat)
  | expression (queue : Nat)
  | audioGain (queue : Nat)
  | scoreModel (queue : Nat)
  | embedModel (queue : Nat)
  | tokenize (queue : Nat)
  | grammar (queue : Nat)
  | tokenMask (queue : Nat)
  | scoreFilter (queue : Nat)
  | splice (pipeline epoch span : Nat)
  | deliver (queue : Nat)
  | sampleDigest (queue : Nat) (pcieOk : Bool)
  -- stack-engine memory commands
  | copy (queue : Nat) (cmd : Bytes) (faults : List (Nat × WordFault))
  | fill (queue : Nat) (cmd : Bytes) (faults : List (Nat × WordFault))
  | gather (queue : Nat) (cmd : Bytes) (faults : List (Nat × WordFault))
  | scatter (queue : Nat) (cmd : Bytes) (faults : List (Nat × WordFault))
  | hash (queue : Nat) (cmd : Bytes) (faults : List (Nat × WordFault))
  | atomic (queue : Nat) (cmd : Bytes) (faults : List (Nat × WordFault))
  | predicateScan (queue : Nat) (cmd : Bytes) (faults : List (Nat × WordFault))
  | compress (queue : Nat) (cmd : Bytes) (faults : List (Nat × WordFault))
  | decompress (queue : Nat) (cmd : Bytes) (faults : List (Nat × WordFault))
  -- engine faults and votes
  | engineParityError (queue : Nat) (access : Option StoreAccess)
  | engineHang (queue : Nat)
  | checkMismatchVote (queue slot2 : Nat)
  | voteResult (queue : Nat) (result : Bytes) (core : Nat)
  | suspectClear (unit : Nat)
  -- delivery
  | slotWrite (sample : Nat)
  | slotNoticeSend (pipeline consumer batch : Nat) (flushStatus : Nat)
  | noticeCoalesceTimer (pipeline consumer batch : Nat)
  | slotNotice (m : Message)
  | releaseNotice (m : Message)
  | spanReport (m : Message)
  | spanResult (m : Message)
  | placement (m : Message)
  | pieceNotice (m : Message)
  | spanFetchStart (pipeline epoch span : Nat)
  | batchRelease (pipeline consumer : Nat)
  | headReadTimer (pipeline consumer : Nat)
  | headReadComplete (pipeline consumer : Nat) (head : BitVec 64)
  -- stack memory
  | codeWordRead (stack idx : Nat) (faults : List (Nat × WordFault)) (reader : Nat)
  | codeWordWrite (stack idx off : Nat) (data : Bytes) (fault : WordFault) (writer : Nat)
  | scrubStep (stack : Nat) (fault : WordFault)
  -- magazines and flash
  | presenceRise (magazine : Nat)
  | insertionDebounce (magazine : Nat) (stillPresent fault : Bool) (diesPerChannel : List Nat) (report : DieReport)
      (channelRates : List Nat) (image : MagImage)
  | magazineReady (magazine : Nat)
  | attentionButton (magazine : Nat)
  | ejectWindowExpiry (magazine : Nat)
  | ejectPowerOff (magazine : Nat)
  | ejectInhibitTimeout (magazine : Nat)
  | surpriseRemoval (magazine : Nat)
  | magazinePowerFault (magazine : Nat)
  | programInhibitSet (pwrWarn : Bool) (railPct : Nat)
  | programInhibitClear
  | flashAbort (railPct : Nat) (busy : List (Nat × Nat))
  | flashReadComplete (volume block : Nat) (reads : List (Option FlashRead))
  | flashProgramComplete (pair cid : Nat) (lastPage : Bool)
  | programFail (stripe die : Nat) (second : Option Nat)
  | stripeVerify (stripe : Nat) (reads : List (Nat × Option Nat))
  | backgroundFold (magazine units : Nat)
  | garbageCollection (magazine group : Nat)
  | staticWearLevelling (magazine : Nat)
  | relocationSwitch (volume block : Nat)
  | interfaceRetrainTimer
  -- links and time
  | portStateAdvance (port : Nat) (peerNode peerPort lanes : Nat)
  | portBoundExpiry (port : Nat)
  | portRetryTimer (port : Nat)
  | flit (port : Nat) (f : Flit)
  | replay (port : Nat) (f : Flit)
  | replayLimit (port : Nat) (lockLost : Bool)
  | disable (port : Nat)
  | identityExchange (port : Nat) (nonce key signature : Bytes)
  | timeReady (port : Nat)
  | timeProbeTimer
  | timeProbe (port : Nat) (p : Probe)
  -- transport
  | workRequestPost (qp kind : Nat) (addr : BitVec 64) (key : Nat) (data : Bytes) (len : Nat)
  | writePacket (port vc : Nat) (p : Packet)
  | readReq (port vc : Nat) (p : Packet) (data : Bytes)
  | readResp (port : Nat) (p : Packet)
  | send (port vc : Nat) (p : Packet)
  | flushPacket (port vc : Nat) (p : Packet)
  | ack (port : Nat) (p : Packet)
  | nak (port : Nat) (p : Packet)
  | ackTimer (qp : Nat)
  | retryTimer (qp : Nat)
  | nakBackoffExpiry (qp : Nat)
  | contextFetchComplete (port qp : Nat)
  -- shaping
  | wheelSlot
  | overflowSlot
  | vc3MessageStart (port : Nat) (relayed : Bool)
  | gateTransition (port : Nat)
  | callSheetActivate (port : Nat)
  -- errors, tests and spares
  | packageFatalError (die cause : Nat) (linkUp : Bool)
  | rotationTestDue (cluster : Nat) (temp : Int)
  | takeover (cluster : Nat)
  | testComplete (out : TestOut)
  | testDeferralRetry (cluster : Nat) (temp : Int)
  | requalificationRetest (slot : Nat) (temp : Int) (dayPassed : Bool) (out : TestOut)
  | suspectTest (unit : Nat) (temp : Int)
  -- lockstep, clapper and observation events
  | digest (m : Message)
  | match_ (m : Message)
  | recordsRequest (m : Message)
  | records (m : Message)
  | chainRequest (m : Message)
  | chain (m : Message)
  | freeze (m : Message)
  | forward (m : Message)
  | lockstepTimeout (pipeline : Nat)
  | clapperPinAssert
  | clapperPinDeassert
  | clapperAtReached
  | dailiesPeriod
  | logbookWrite
  -- power, reset and boot
  | powerOnReset (bifPins : Nat)
  | pwrgdFall
  | supplySample (rails : List Nat)
  | warmReset
  | serviceButton (holdMs : Nat)
  | pcieFundamentalReset
  | perstDeassert
  | bootStageEnd (ok : Bool) (haltCause : Nat) (failedStacks : List Nat)
  | bootWatchdog
  | powerCapSample (watts : Nat) (below100ms : Bool)
  | thermalThreshold (die : Nat) (temp : Int)
  | thermalStep (die : Nat) (temp : Int)
  | avsAdjust (rail : Nat) (slackPs : Int)
  | domainSwitchGateEnd (domain : Nat)
  | droopStretch (cluster lowestMv : Nat)
  | droopRecover (cluster : Nat)
  | i3cRequest (kind arg : Nat)
  | pldmWarmReset
  | pldmLocateLed (on : Bool)
  | safeRemoval (magazine : Nat)
  | crystalFailure
  | visibilityReadComplete (qp : Nat)
  deriving DecidableEq, Repr

end Sys2Proof
end

