-- ==== Sys2Proof/Decode.lean ====
section
/-! DEFINITION. The commands a table word spells: the opcode table gives no row any bits, so no word spells a command. -/

namespace Sys2Proof

/-- The command that the table's bits spell in a word; the table gives no bits to any row. -/
def decodeTableWord (_nbits _w : Nat) : Option Instr := none

end Sys2Proof
end

