-- ==== Sys2Proof/Machine/Bytes.lean ====
section
/-! DEFINITION. Little-endian fields of byte structures (R6) and the byte helpers every layout uses. -/

namespace Sys2Proof.Machine

/-- `n` zero bytes. -/
def zeros (n : Nat) : Bytes := List.replicate n 0

/-- The byte at offset `i`; 0 beyond the end. -/
def byteAt (bs : Bytes) (i : Nat) : Nat := (bs[i]?.getD 0).toNat

/-- Little-endian value of a run of bytes (R6). -/
def leVal : Bytes → Nat
  | [] => 0
  | b :: t => b.toNat + 256 * leVal t

/-- `n` bytes from offset `off`; short where the run ends first. -/
def sub (bs : Bytes) (off n : Nat) : Bytes := (bs.drop off).take n

/-- Little-endian field of `n` bytes at offset `off` (R6). -/
def field (bs : Bytes) (off n : Nat) : Nat := leVal (sub bs off n)

/-- The low `n` bytes of `v`, little-endian (R6). -/
def putLE : Nat → Nat → Bytes
  | 0, _ => []
  | n + 1, v => BitVec.ofNat 8 v :: putLE n (v / 256)

/-- Are all bytes zero? -/
def allZero (bs : Bytes) : Bool := bs.all (fun b => b == 0)

/-- Are the `n` bytes from `off` all zero? (R7: reserved bytes.) -/
def zeroAt (bs : Bytes) (off n : Nat) : Bool := allZero (sub bs off n)

/-- Bits [hi:lo] of `v` (R6). -/
def bits (v hi lo : Nat) : Nat := (v / 2 ^ lo) % 2 ^ (hi + 1 - lo)

/-- Bit `i` of `v`. -/
def bitOf (v i : Nat) : Bool := v.testBit i

/-- Make a run exactly `n` bytes long: cut, or padded with zeros. -/
def fitTo (n : Nat) (bs : Bytes) : Bytes := bs.take n ++ zeros (n - bs.length)

/-- Round up to a multiple of `m`. -/
def roundUp (n m : Nat) : Nat := if m = 0 then n else (n + m - 1) / m * m

/-- Ceiling of a division. -/
def ceilDiv (a b : Nat) : Nat := if b = 0 then 0 else (a + b - 1) / b

/-- Two's-complement value of `v` in `w` bits. -/
def signedOf (w v : Nat) : Int := if v % 2 ^ w < 2 ^ (w - 1) then (v % 2 ^ w : Nat) else ((v % 2 ^ w : Nat) : Int) - (2 ^ w : Nat)

/-- Write bytes `b` over `bs` at offset `off`, the rest unchanged; `bs` is long enough. -/
def patch (bs : Bytes) (off : Nat) (b : Bytes) : Bytes :=
  (fitTo off bs) ++ b ++ bs.drop (off + b.length)

/-- Bytes of an ASCII string. -/
def ascii (s : String) : Bytes := s.toList.map fun c => BitVec.ofNat 8 c.toNat

/-- Split a run into pieces of `n` bytes, at most `k` of them. -/
def pieces (n : Nat) : Nat → Bytes → List Bytes
  | 0, _ => []
  | k + 1, bs => if bs.isEmpty then [] else bs.take n :: pieces n k (bs.drop n)

end Sys2Proof.Machine
end

