-- ==== Sys2Proof/Config.lean ====
section
/-! DEFINITION. What an implementation fixes, and the free values.
The numbered constants are the manual's. Every `opaque` below is a value the manual leaves open, or a function that an
outside standard defines (a codec's bitstream, a signature scheme) and the manual only names: nothing in Lean can
evaluate one, so a statement that mentions it holds whatever it is. -/

namespace Sys2Proof.Config

open Sys2Proof.Machine

/-- Ring pairs of the package (R31). -/
def ringPairs : Nat := 256

/-- MSI-X vectors of the package (R31). -/
def vectors : Nat := 512

/-- Storage tags of a pair (R60). -/
def storageTags : Nat := 32

/-- Long operations paused or running at most (R58). -/
def maxLong : Nat := 64

/-- GET_EVENT commands outstanding at most (R55). -/
def maxGetEvent : Nat := 16

/-- Events queued at most (R55). -/
def maxEvents : Nat := 256

/-- Records an error ring holds (R381). -/
def errRingSize : Nat := 64

/-- Pipelines of a node (R111). -/
def pipelines : Nat := 16

/-- Consumers of a pipeline (R135). -/
def consumers : Nat := 4096

/-- Is the part an EZ900-A1-LX (else -LC)? Both behave alike (R1). -/
opaque isLX : Bool

/-- The boot loader image in the boot flash (R463). -/
opaque stage1Loader : Bytes

/-- The firmware bundle installed at manufacture (R463). -/
opaque factoryBundle : Bytes

/-- What firmware bank B holds from manufacture (R463). -/
opaque spareBundle : Bytes

/-- FW_RELEASE of a bundle (R50). -/
opaque fwRelease : Bytes → Nat

/-- OPCAT_VERSION of a bundle (R50). -/
opaque opcatVersion : Bytes → Nat

/-- KENLET_VERSION of a bundle: minor, then major (R33, R50). -/
opaque kenletMinor : Bytes → Nat

/-- KENLET_VERSION major of a bundle (R33, R50). -/
opaque kenletMajor : Bytes → Nat

/-- SECURITY_VERSION of a bundle (R464). -/
opaque securityVersion : Bytes → Nat

/-- Does the image carry a signature that verifies against a key of the boot ROM (R463)? -/
opaque bundleVerifies : Bytes → Bool

/-- Is the certificate an X.509 DER certificate with a P-384 key, signed by the installed one (R465)? First the installed
certificate, empty when none. -/
opaque certAccepts : Bytes → Bytes → Bool

/-- The uncompressed public key of the device identity (R467): 97 bytes. -/
opaque identityKey : Bytes

/-- The device identity certificate, DER (R463, R468). -/
opaque deviceCert : Bytes

/-- The manufacturing CA certificate, DER (R463, R468). -/
opaque caCert : Bytes

/-- ECDSA P-384 with the device identity key over the SHA-384 of the message: r then s, 96 bytes (R469). -/
opaque identitySign : Bytes → Bytes

/-- Does an ECDSA P-384 signature verify: key or certificate, message, signature (R325, R209)? -/
opaque ecdsaVerifies : Bytes → Bytes → Bytes → Bool

/-- A free natural number, one for each use. -/
opaque freeNat : Nat → Nat

/-- A free byte, one for each use. -/
opaque freeByte : Nat → Byte

/-- Free bytes: `n` of them, for use number `t`. -/
def freeBytes (t n : Nat) : Bytes := (List.range n).map fun i => freeByte (t * 2 ^ 32 + i)

/-- A free yes or no, one for each use. -/
opaque freeBool : Nat → Bool

/-- The unit's own cycle count that a Waiquel record carries (R439): local clocks are not modelled. -/
opaque localCycles : Nat → Nat

/-- What an RC counter reads once its count no longer fits its width: the manual states neither wrap nor saturation. -/
opaque counterOver : Nat → Nat → Nat

/-- How far the host has moved HEAD of a ring in its memory when the part looks: one value for each use (R440, R263). -/
opaque ringHead : Nat → Nat

/-- The bytes a stack engine's encoder makes: codec, level, firmware release, original bytes (R70, R148). -/
opaque compress : Nat → Nat → Nat → Bytes → Bytes

/-- Record type of the logbook record that R19 asks for when a unit's count changes without an error or a retirement;
R444 lists none. -/
opaque countType : Nat

/-- Temperature that a retirement or remap record carries (R444), one for each use. -/
opaque recordTemp : Nat → Nat

/-- Status with which a command completes whose firmware operation met a poison signal (R250, R251): no chapter states it. -/
opaque failStatus : Nat → Nat

/-- What a checkpoint's CATALOG_DIGEST holds for a dataset without a committed catalog: version and size (R143 states
neither). -/
opaque noCatalog : Nat × Nat

/-- The message whose SHA-384 an end of a link signs (R325): its own nonce, the peer's nonce, its own and the peer's node, its own
and the peer's port. R325 does not state the order of the parts. -/
opaque identityMessage : Bytes → Bytes → Nat → Nat → Nat → Nat → Bytes

/-- The scans of a JPEG of ITU-T T.81, of which R153 supports the frame. -/
opaque jpegScan : Bytes → JpegScan

/-- The image of a PNG of ISO/IEC 15948 after its IHDR. -/
opaque pngScan : Bytes → PngScan

/-- The image of a lossy WebP of RFC 9649 and RFC 6386. -/
opaque webpScan : Bytes → WebpScan

/-- The headers and the frames of an H.264, H.265 or AV1 stream, by FORMAT (R157, R158). -/
opaque videoHead : Nat → Bytes → VideoHead

/-- What decoding gives, by FORMAT: of the frames in decoding order, so many from a position on; later frames predict from frames
in which damage is filled mean grey (R165). -/
opaque videoPictures : Nat → Bytes → Nat → Nat → List VideoPicture

/-- A FLAC stream of RFC 9639 after its STREAMINFO. -/
opaque flacScan : Bytes → AudioScan

/-- An Opus stream in Ogg, decoded at an output rate by the fixed-point reference decoder (R159). -/
opaque opusScan : Nat → Bytes → AudioScan

/-- Where an error that is no damage of the data (codes 6 to 9 of R164) counts as found: the operator, the code, the operator's
parameters, and the sample's slate and bytes, on which R167 lets it depend. -/
opaque limitOffset : Nat → Nat → Bytes → Bytes → Nat

/-- Work units a transform operator other than EXPRESSION takes: operator, lane results of its output, parameter block. R198 counts
256 lane results of one instruction and the manual does not list the operators' instructions. -/
opaque teUnits : Nat → Nat → Bytes → Nat

/-- Index that the rounding of a NaN coordinate to an integer gives (R201, R202, R207). -/
opaque nanIndex : Int

/-- Sextant of a hue whose floor is not 0 to 5 after the reduction (R204). -/
opaque hueSextant : F32 → Nat

/-- Value of an expression instruction whose IMM the opcode table does not list: opcode and IMM (R207). -/
opaque exprOpen : Nat → Nat → F32

/-- Work units of a model package: its PACKAGE_ID and its ME cycles for a sample (R211). The manual says that the package fixes the
cost, and gives no count of TE instructions. -/
opaque modelUnits : Nat → Nat → Nat

/-- Work units of an entry of an operator whose chapter defines none: SCORE_FILTER and DELIVER, by identifier. -/
opaque plainWork : Nat → Nat

/-- The 208 bytes of a SHA-384 context that has taken in a message so far (R261). The manual does not lay it out. -/
opaque shaContext : Bytes → Bytes

/-- What HASH makes of a context that no HASH command wrote: the context, the bytes, and whether it is the last command. -/
opaque shaOther : Bytes → Bytes → Bool → Bytes

/-- How the 8-byte result word of COMPRESS holds the stored length and the raw flag (R261). -/
opaque compressResult : Nat → Bool → Nat

/-- What the analog side of a link measured: field identifier and use (R337). -/
opaque lineValue : Nat → Nat → Nat

/-- RESULT of a completion for which the manual states none, by the command's order number (R47: operation-specific). -/
opaque openResult : Nat → Nat

/-- The marks of a span's result that only its ledger node can tell, pipeline and span given: offsets that fill no unit of their own, and
offsets that fill more than one. No message carries them (R231). -/
opaque spliceMarks : Nat → Nat → Nat → List (Nat × Nat)

/-- START of a piece whose sequence holds earlier pieces of other nodes, by pipeline, unit and segment (R231). -/
opaque remoteStart : Nat → Nat → Nat → Nat

/-- Token and mask-row bytes of a piece that another node wrote, by pipeline, epoch, position, piece and the CRC-32C reported for it
(R230). -/
opaque remotePiece : Nat → Nat → Nat → Nat → Nat → Bytes × Bytes

/-- Token-descriptor FLAGS of a document that another node holds, by pipeline, epoch and position (R229). -/
opaque remoteFlags : Nat → Nat → Nat → Nat

/-- SAMPLE, POSITION and SHIFT, and the slate fields, of a slot that no position fills, by pipeline and unit (R218, R223). -/
opaque fillerBytes : Nat → Nat → Bytes

/-- The slate fields of a sequence's record, by pipeline and unit (R218). -/
opaque sequenceSlate : Nat → Nat → Bytes

/-- LDPC parity of a flash code word's data and metadata, 480 bytes (R282). -/
opaque ldpc : Bytes → Bytes

end Sys2Proof.Config
end

