-- ==== Sys2Proof/Machine/Crc.lean ====
section
/-! DEFINITION. The cyclic checks the manual uses: CRC-32C, the flit CRC-64 of R315, and the CRC-32 of PNG chunks (R164). -/

namespace Sys2Proof.Machine

/-- One bit step of a reflected CRC. -/
def crcStep (w : Nat) (poly c : BitVec w) : BitVec w :=
  if c.getLsbD 0 then (c >>> 1) ^^^ poly else c >>> 1

/-- Feed one byte into a reflected CRC register. -/
def crcByte (w : Nat) (poly c : BitVec w) (b : Byte) : BitVec w :=
  let c0 := c ^^^ b.setWidth w
  let s := crcStep w poly
  s (s (s (s (s (s (s (s c0)))))))

/-- CRC-32C (Castagnoli, reflected polynomial 0x82F63B78, initial and final XOR all ones). -/
def crc32c (bs : Bytes) : Nat :=
  ((bs.foldl (crcByte 32 0x82F63B78#32) 0xFFFFFFFF#32) ^^^ 0xFFFFFFFF#32).toNat

/-- The flit CRC of R315: CRC-64 with polynomial 0x42F0_E1EB_A9EA_3693, reflected. -/
def crc64 (bs : Bytes) : Nat :=
  ((bs.foldl (crcByte 64 0xC96C5795D7870F42#64) 0xFFFFFFFFFFFFFFFF#64) ^^^ 0xFFFFFFFFFFFFFFFF#64).toNat

/-- The CRC-32 of a PNG chunk (ISO/IEC 15948; reflected polynomial 0xEDB88320). -/
def crc32 (bs : Bytes) : Nat :=
  ((bs.foldl (crcByte 32 0xEDB88320#32) 0xFFFFFFFF#32) ^^^ 0xFFFFFFFF#32).toNat

/-- CRC-32C of the first `n` bytes, as a 4-byte field. -/
def withCrc (bs : Bytes) : Bytes := bs ++ putLE 4 (crc32c bs)

end Sys2Proof.Machine
end

