-- ==== Sys2Proof/Machine/Flags.lean ====
section
/-! DEFINITION. Status codes (R63), event codes (R55), EVENT_STATUS bits (R33), error causes (R380) and classes (R12). -/

namespace Sys2Proof.Machine

abbrev stOk : Nat := 0x0000
abbrev stPendingSlice : Nat := 0x0001
abbrev stFlushed : Nat := 0x0002
abbrev stInvalidOpcode : Nat := 0x0010
abbrev stInvalidField : Nat := 0x0011
abbrev stWrongRing : Nat := 0x0012
abbrev stCmdIdInUse : Nat := 0x0013
abbrev stInvalidHandle : Nat := 0x0014
abbrev stDataAddress : Nat := 0x0015
abbrev stPrecondition : Nat := 0x0016
abbrev stCfgBusy : Nat := 0x0020
abbrev stBusy : Nat := 0x0021
abbrev stNoResources : Nat := 0x0022
abbrev stAborted : Nat := 0x0030
abbrev stMediaReadOnly : Nat := 0x0040
abbrev stMediaRemoved : Nat := 0x0041
abbrev stMediaError : Nat := 0x0042
abbrev stOutOfRange : Nat := 0x0043
abbrev stSupplyLow : Nat := 0x0044
abbrev stSignature : Nat := 0x0050
abbrev stVersion : Nat := 0x0051
abbrev stRemoteAccess : Nat := 0x0060
abbrev stRetryExceeded : Nat := 0x0061
abbrev stQpError : Nat := 0x0062
abbrev stFrozen : Nat := 0x0070
abbrev stPackageFatal : Nat := 0x0071

/-- EVENT_STATUS bit EVENT_PENDING (R33). -/
abbrev evPending : BitVec 5 := 1
/-- EVENT_STATUS bit EVENT_LOST. -/
abbrev evLost : BitVec 5 := 2
/-- EVENT_STATUS bit RING_ERR. -/
abbrev evRingErr : BitVec 5 := 4
/-- EVENT_STATUS bit ERR_OVERFLOW. -/
abbrev evErrOverflow : BitVec 5 := 8
/-- EVENT_STATUS bit FATAL. -/
abbrev evFatal : BitVec 5 := 16

/-- CORRECTED (R12, R378). -/
abbrev clsCorrected : Nat := 0
/-- CONTAINED. -/
abbrev clsContained : Nat := 1
/-- UNIT_FATAL. -/
abbrev clsUnitFatal : Nat := 2
/-- PACKAGE_FATAL. -/
abbrev clsPackageFatal : Nat := 3

/-- Unit designator of a type and an index (R377). -/
abbrev unitDes (type index : Nat) : Nat := type * 4096 + index

abbrev uPackage : Nat := 0
abbrev uDie (d : Nat) : Nat := unitDes 1 d
abbrev uCluster (c : Nat) : Nat := unitDes 2 c
abbrev uSlot (i : Nat) : Nat := unitDes 3 i
abbrev uLogical (i : Nat) : Nat := unitDes 4 i
abbrev uIde (i : Nat) : Nat := unitDes 5 i
abbrev uVde (i : Nat) : Nat := unitDes 6 i
abbrev uAde (i : Nat) : Nat := unitDes 7 i
abbrev uTke (i : Nat) : Nat := unitDes 8 i
abbrev uSe (i : Nat) : Nat := unitDes 9 i
abbrev uStack (i : Nat) : Nat := unitDes 10 i
abbrev uChannel (i : Nat) : Nat := unitDes 11 i
abbrev uMagazine (i : Nat) : Nat := unitDes 12 i
abbrev uPort (i : Nat) : Nat := unitDes 13 i
abbrev uCp (i : Nat) : Nat := unitDes 14 i

/-- Die code of the die that holds a unit (R377, the die table of "The Package at a Glance"). -/
def dieOf (u : Nat) : Nat :=
  let t := u / 4096
  let i := u % 4096
  if t = 1 then i
  else if t = 2 then i / 8
  else if t = 3 then i / 40
  else if t = 4 then i / 32
  else if t = 5 then i / 32
  else if t = 6 then i / 8
  else if t = 7 then i / 8
  else if t = 8 then i / 16
  else if t = 9 then 4 + i / 4
  else if t = 10 then 4 + i
  else if t = 13 then 2
  else 3

/-- Is the code a unit designator of a unit the package has (R377)? -/
def desDefined (u : Nat) : Bool :=
  let t := u / 4096
  let i := u % 4096
  let n := match t with
    | 0 => 1
    | 1 => 12
    | 2 => 16
    | 3 => 80
    | 4 => 64
    | 5 => 64
    | 6 => 16
    | 7 => 16
    | 8 => 32
    | 9 => 32
    | 10 => 8
    | 11 => 64
    | 12 => 8
    | 13 => 18
    | 14 => 4
    | _ => 0
  decide (i < n)

end Sys2Proof.Machine
end

