-- ==== Sys2Proof/Machine/Table.lean ====
section
/-! DEFINITION. Operations on keyed tables: one home for every sparse piece of state. -/

namespace Sys2Proof.Machine

/-- The value at key `n`, if listed. -/
def tget {α : Type} : Table α → Nat → Option α
  | [], _ => none
  | (k, v) :: t, n => if k = n then some v else tget t n

/-- The value at key `n`, or `d` where the table lists none. -/
def tgetD {α : Type} (t : Table α) (n : Nat) (d : α) : α := (tget t n).getD d

/-- Is key `n` listed? -/
def thas {α : Type} (t : Table α) (n : Nat) : Bool := (tget t n).isSome

/-- Write `a` at key `n`, keeping the keys rising. -/
def tput {α : Type} : Table α → Nat → α → Table α
  | [], n, a => [(n, a)]
  | (k, v) :: t, n, a =>
    if n < k then (n, a) :: (k, v) :: t
    else if k = n then (n, a) :: t
    else (k, v) :: tput t n a

/-- Remove key `n`. -/
def tdel {α : Type} : Table α → Nat → Table α
  | [], _ => []
  | (k, v) :: t, n => if k = n then tdel t n else (k, v) :: tdel t n

/-- Apply `f` to the value at key `n`, where one is listed. -/
def tmod {α : Type} (t : Table α) (n : Nat) (f : α → α) : Table α :=
  match tget t n with
  | none => t
  | some a => tput t n (f a)

/-- Write into a table whose unlisted keys read `d`: the value `d` is never listed. -/
def tputD {α : Type} [DecidableEq α] (t : Table α) (n : Nat) (a d : α) : Table α :=
  if a = d then tdel t n else tput t n a

/-- The values of a table, in key order. -/
def tvals {α : Type} (t : Table α) : List α := t.map Prod.snd

/-- Keep the entries that satisfy `p`. -/
def tfilter {α : Type} (t : Table α) (p : Nat → α → Bool) : Table α := t.filter fun kv => p kv.1 kv.2

/-- Apply `f` to every value. -/
def tmapv {α : Type} (t : Table α) (f : Nat → α → α) : Table α := t.map fun kv => (kv.1, f kv.1 kv.2)

/-- Keys strictly rising: the canonical form of a table. -/
def tsorted {α : Type} : Table α → Bool
  | [] => true
  | (k, _) :: t => t.all (fun kv => decide (k < kv.1)) && tsorted t

/-- Canonical form of a table whose unlisted keys read `d`: keys rising, no entry equal to `d`. -/
def tcanon {α : Type} [DecidableEq α] (d : α) (t : Table α) : Bool :=
  tsorted t && t.all (fun kv => decide (kv.2 ≠ d))

end Sys2Proof.Machine
end

