-- ==== Sys2Proof/Machine/State.lean ====
section
/-! DEFINITION. The state of one EZ-900 node, as plain data, and the state after reset.
Every register, ring, queue, table, counter and pin the manual names has a home here. Configurable fields and counters
(R56 and the field tables of the chapters) live in ONE sparse table keyed by field identifier, whose unlisted
entries read the reset value of the manual's tables. -/

namespace Sys2Proof.Machine

/-- Why the machine stops. No meaning raises it: every row of the table has an effect in every state, and a row that
cannot happen in a state leaves the state as it is. Kept so that a step's three outcomes are typed (safe). -/
inductive Fault where
  /-- Raised by nobody; a stop on it would be safe. -/
  | noEffectStated (what : String)
  deriving DecidableEq, Repr

/-- Why a command has no meaning here. -/
inductive Refusal where
  /-- Raised by exec's arm of a row that has no meaning yet (none is left); safe. -/
  | notModelled (mnemonic : String)
  deriving DecidableEq, Repr

/-- How a PCIe request leaves: through which sub-link's endpoint (R32), and whether it carries the Relaxed Ordering and the ID-Based
Ordering attribute (R30). -/
structure Tlp where
  endpoint : Nat
  relaxed : Bool
  idBased : Bool
  deriving DecidableEq, Repr

/-- What the part sends out, oldest first: the observable side of every step. An MSI-X write leaves through the endpoint whose share
holds the vector and carries no ordering attribute (R30, R32). -/
inductive Output where
  | readReturn (v : Nat)
  | pcieWrite (via : Tlp) (addr : Nat) (bytes : Bytes)
  | pcieRead (endpoint addr len : Nat)
  | msix (vector : Nat)
  | packet (vc : Nat) (p : Packet)
  | flit (port : Nat) (f : Flit)
  | control (port kind arg : Nat)
  | message (node : Nat) (m : Message)
  | workDone (qp id status result : Nat)
  | flashOp (op : FlashOp) (magazine arg : Nat)
  | pin (name : String) (level : Nat)
  | sideband (kind arg : Nat)
  | poolGrant (owner handle : Nat)
  deriving DecidableEq, Repr

/-- Where an outstanding command stands. -/
inductive CmdPhase where
  | waiting
  | running
  | finished
  deriving DecidableEq, Repr

/-- A fetched command whose completion is not yet written (R40, R48). `data` is none after a PCIe error (R46). -/
structure Cmd where
  pair : Nat
  cid : Nat
  ord : Nat
  opcode : Nat
  entry : Bytes
  list : Bytes
  data : Option Bytes
  phase : CmdPhase
  status : Nat
  result : Nat
  handle : Nat
  tbDone : Nat
  wait : List Nat
  deriving DecidableEq, Repr

/-- A ring pair (R39 to R44). `resetLost`: during a RESET_RING_PAIR, the completions lost so far (R53). -/
structure RingPair where
  storage : Bool
  fence : Bool
  sqBase : Nat
  cqBase : Nat
  sqLog2 : Nat
  cqLog2 : Nat
  vector : Nat
  coalC : Nat
  coalT : Nat
  sqHead : Nat
  sqTail : Nat
  cqHead : Nat
  cqTail : Nat
  phase : Bool
  stopped : Bool
  unsignalled : Nat
  resetLost : Option Nat
  deriving DecidableEq, Repr

/-- A long operation, paused or running (R57, R58). `target` names the unit it holds; `removed`: the magazine that it works on has been
quiesced or has gone since it paused (R309, R310). -/
structure LongOp where
  opcode : Nat
  pair : Nat
  target : Nat
  entry : Bytes
  data : Bytes
  progress : Nat
  paused : Bool
  handle : Nat
  cid : Nat
  removed : Bool
  deriving DecidableEq, Repr

/-- An asynchronous event (R55). -/
structure Event where
  code : Nat
  unit : Nat
  detail : Nat
  tb : Nat
  deriving DecidableEq, Repr

/-- The configuration space of an endpoint, as far as R30 names it: the device power state (0 D0, 3 D3hot), Max_Payload_Size and
Max_Read_Request_Size in bytes, the link's width and data rate in MT/s, and the AER status registers. -/
structure PcieFn where
  power : Nat
  maxPayload : Nat
  maxRead : Nat
  width : Nat
  rate : Nat
  aerCorrectable : BitVec 32
  aerUncorrectable : BitVec 32
  deriving DecidableEq, Repr

/-- BAR0 and what serves it (R33 to R37, R488). Registers the manual lays out are bit vectors. -/
structure Kenlet where
  bifMode : Nat
  fns : Table PcieFn
  en : Bool
  rdy : Bool
  booted : Bool
  bootStage : Nat
  haltCause : Nat
  fatal : Bool
  frozen : Bool
  admSqLog2 : Nat
  admCqLog2 : Nat
  admSqBase : BitVec 64
  admCqBase : BitVec 64
  evStatus : BitVec 5
  evMask : BitVec 5
  refusal : BitVec 32
  ringError : BitVec 32
  fatalInfo : BitVec 64
  tbLatch : Table Nat
  msixTable : Table (BitVec 32)
  msixPba : List Nat
  rings : Table RingPair
  cmds : List Cmd
  nextOrd : Nat
  longOps : List LongOp
  nextHandle : Nat
  events : List Event
  deriving DecidableEq, Repr

/-- A catalog run (R77). -/
structure Run where
  first : Nat
  count : Nat
  reel : Nat
  slateBase : Nat
  volume : Nat
  deriving DecidableEq, Repr

/-- A staged catalog slice (R78). -/
structure Slice where
  no : Nat
  total : Nat
  lo : Nat
  hi : Nat
  runs : List Run
  deriving DecidableEq, Repr

/-- A load being staged (R83). -/
structure Staged where
  pair : Nat
  version : Nat
  size : Nat
  slices : List Slice
  deriving DecidableEq, Repr

/-- A committed catalog (R84). -/
structure Catalog where
  version : Nat
  size : Nat
  runs : List Run
  deriving DecidableEq, Repr

/-- A routing summary entry (R80). -/
structure Route where
  first : Nat
  count : Nat
  node : Nat
  deriving DecidableEq, Repr

/-- A routing summary held, and the first batch it governs (R85, R86). -/
structure Summary where
  fromBatch : Nat
  version : Nat
  size : Nat
  entries : List Route
  deriving DecidableEq, Repr

/-- Catalogs, summaries and reel tables. `held` keeps a running pipeline's old runs, key pipeline × 2^16 + dataset,
until its next step boundary (R84). Reels: key volume × 2^32 + reel; `headers`: reel ↦ STATE of its header, as read once and kept
while a run refers to the reel (R90). -/
structure CatalogState where
  committed : Table Catalog
  staged : Table Staged
  summaries : Table (List Summary)
  held : Table (List Run)
  reels : Table Reel
  headers : Table Nat
  deriving DecidableEq, Repr

/-- A stage table entry (R113). -/
structure StageE where
  id : Nat
  kind : Nat
  classes : Nat
  firstOp : Nat
  opCount : Nat
  deriving DecidableEq, Repr

/-- An operator table entry (R114). -/
structure OpE where
  op : Nat
  stage : Nat
  pOff : Nat
  pLen : Nat
  budget : Nat
  stream : Nat
  slot : Nat
  deriving DecidableEq, Repr

/-- A declaration (R112). `raw` is the image as last declared. -/
structure Decl where
  batch : Nat
  epochs : Nat
  tail : Nat
  corrupt : Nat
  shotMode : Nat
  datasets : List Nat
  stages : List StageE
  ops : List OpE
  params : Bytes
  outputBytes : Nat
  opcat : Nat
  seed : Bytes
  raw : Bytes
  deriving DecidableEq, Repr

/-- A consumer as attached (R135). -/
structure Consumer where
  slotFirst : Nat
  slotCount : Nat
  assembler : Nat
  qp : Nat
  bufKey : Nat
  bufAddr : Nat
  slotBytes : Nat
  buffers : Nat
  ringLog2 : Nat
  ringKey : Nat
  ringAddr : Nat
  doorbell : Nat
  deriving DecidableEq, Repr

/-- A written piece whose notice is not yet sent: span key, offset, piece, START, TOKENS, CRC (R231). -/
structure PieceNote where
  span : Nat
  off : Nat
  piece : Nat
  start : Nat
  tokens : Nat
  crc : Nat
  deriving DecidableEq, Repr

/-- Delivery state of a consumer on this node (R232 to R239). `finals`: batch ↦ final slots with their STATE;
`held`: batch ↦ written slots whose flush is not yet complete; `ready`: batch ↦ flushed slots whose notice is not yet sent;
`heldPieces`, `readyPieces`: the same of pieces. -/
structure ConsRun where
  oldest : Nat
  writable : Nat
  tail : Nat
  head : Nat
  ring : List Nat
  finals : Table (List (Nat × Nat))
  held : Table (List (Nat × Nat))
  heldPieces : Table (List PieceNote)
  ready : Table (List (Nat × Nat))
  readyPieces : Table (List PieceNote)
  stopped : Bool
  armed : Bool
  deriving DecidableEq, Repr

/-- A shot record (R130): DRAW, PARAM, ARG and, in a template, HI. -/
structure Shot where
  draw : Nat
  param : List F32
  arg : List F32
  hi : List F32
  deriving DecidableEq, Repr

/-- A position schedule (R103): the owned positions of an epoch. While it is not complete, batches below `validBelow` are
still produced from its positions (R106). Its entries lie in `units` of the schedule areas and its window descriptors in `heads` of the
table areas (R104, R245); `moved`: window ↦ the pool buffer that holds it since a stack was lost; `waiting`: windows to be rebuilt. -/
structure Schedule where
  epoch : Nat
  validBelow : Nat
  positions : List Nat
  built : Bool
  complete : Bool
  units : List Nat
  heads : List Nat
  moved : Table Nat
  waiting : List Nat
  deriving DecidableEq, Repr

/-- A span of a ledger pipeline (R222, R223, R228). `resolved`: own offset ↦ cause + 2^8 × document + 2^16 × tokens;
`reported`: the own report is sent; `reports`: sender ↦ (offset, document, cause, tokens), `doneFrom` the senders heard in
full; `packed`: the sequences are packed; `seqs`: each sequence's parts (offset, piece, segment, start, tokens);
`unitBase` and `units` once known, `result` once the span's result is held, with its entries `skips` (offset, cause); `marks`: where
a SPLICE stage gives an offset no unit, or units more, of its own. -/
structure SpanRec where
  started : Bool
  resolved : Table Nat
  reported : Bool
  reports : Table (List (Nat × Nat × Nat × Nat))
  doneFrom : List Nat
  packed : Bool
  seqs : List (List (Nat × Nat × Nat × Nat × Nat))
  unitBase : Option Nat
  units : Option Nat
  result : Bool
  skips : List (Nat × Nat)
  marks : List (Nat × Nat)
  deriving DecidableEq, Repr

/-- A slot that a ledger node writes (R223, R230): a sequence, or with cause 21 a slot beyond the last unit. `parts`: (offset,
piece, segment, start, tokens); `got`: the pieces reported as written (offset, piece, CRC). -/
structure SeqRec where
  epoch : Nat
  span : Nat
  batch : Nat
  slot : Nat
  cause : Nat
  skipped : Nat
  skipCause : Nat
  parts : List (Nat × Nat × Nat × Nat × Nat)
  got : List (Nat × Nat × Nat)
  written : Bool
  flushed : Bool
  deriving DecidableEq, Repr

/-- A placed piece of a document (R228, R231): its unit, and its segment and place there. -/
structure Placed where
  piece : Nat
  unit : Nat
  seg : Nat
  start : Nat
  tokens : Nat
  deriving DecidableEq, Repr

/-- An outstanding PIPELINE_STOP (R140). `limits`: it named an AT_BATCH, so that no batch at or above `at_` starts. -/
structure Stop where
  pair : Nat
  cid : Nat
  at_ : Nat
  limits : Bool
  deriving DecidableEq, Repr

/-- A pipeline (R111 to R144). STATE codes are those of R137. Spans: key epoch × 2^32 + number; `seqs`: unit ↦ the slot this
node writes as ledger node; `placed`: own document ↦ its placed pieces, until their batches are
released; `anchor`: the span of the cursor's first unit as the last stop or restore left it (R242); `back`: magazine sn ↦ the first batch that
fetches from it again since it came back (R311). -/
structure Pipeline where
  decl : Decl
  state : Nat
  cursor : Nat
  prioInUse : Nat
  consumers : Table Consumer
  runs : Table ConsRun
  stop : Option Stop
  checkpoints : List (Nat × Nat × Bool)
  template : Option Shot
  shots : Table Shot
  made : List Nat
  schedules : List Schedule
  started : Nat
  boundary : Nat
  spans : Table SpanRec
  seqs : Table SeqRec
  placed : Table (List Placed)
  anchor : Nat × Nat × Nat
  back : Table Nat
  deriving DecidableEq, Repr

/-- A model layer (R209). -/
structure Layer where
  type : Nat
  flags : Nat
  outFmt : Nat
  wFmt : Nat
  actFmt : Nat
  inp : Nat
  res : Nat
  rows : Nat
  k : Nat
  n : Nat
  p0 : Nat
  p1 : Nat
  p2 : Nat
  actScale : F32
  rangeMax : F32
  wOff : Nat
  wBytes : Nat
  deriving DecidableEq, Repr

/-- A loaded model package (R209). -/
structure Package where
  kind : Nat
  inputKind : Nat
  inH : Nat
  inW : Nat
  inC : Nat
  outElems : Nat
  packageId : Nat
  layers : List Layer
  weights : Bytes
  deriving DecidableEq, Repr

/-- A merge table (R173). -/
structure MergeTable where
  byteMode : Bool
  vocab : Nat
  byteBase : Nat
  digitGroup : Nat
  spacePrefix : Bool
  base : List (Nat × Nat)
  merges : List (Nat × Nat × Nat)
  crc : Nat
  deriving DecidableEq, Repr

/-- An automaton edge (R185). -/
structure Edge where
  lo : Nat
  hi : Nat
  next : Nat
  ret : Nat
  action : Nat
  deriving DecidableEq, Repr

/-- A grammar automaton (R185): per state, ACCEPT and its edges. -/
structure Automaton where
  symbols : Nat
  start : Nat
  finalEmpty : Bool
  states : List (Bool × List Edge)
  crc : Nat
  deriving DecidableEq, Repr

/-- Tables loaded into slots (R172, R212). The `pend` tables hold an image that
takes its slot when the final ST_OK completion is written; key: the command's order number × 8 + slot. -/
structure Slots where
  merges : Table MergeTable
  automata : Table Automaton
  models : Table Package
  pendMerges : Table MergeTable
  pendAutomata : Table Automaton
  pendModels : Table Package
  deriving DecidableEq, Repr

/-- An engine queue entry (R120) or memory command (R260): `raw` holds its 64 bytes, `tb` when it was issued. `attempts`
counts the faults it has met (R388), `fault` the first one's cause, `first` the unit that met it. -/
structure Entry where
  op : Nat
  stage : Nat
  pipeline : Nat
  engine : Nat
  sample : Nat
  instance_ : Nat
  budget : Nat
  seq : Nat
  attempts : Nat
  fault : Nat
  first : Nat
  tb : Nat
  raw : Bytes
  runOn : Option Nat
  deriving DecidableEq, Repr

/-- An engine completion waiting to be taken (R121), with what it leaves: a new buffer content (`writes`), model outputs,
byte offsets of tokens, and the slot cause and error it found. `voted`: a vote has settled it (R390). -/
structure Completion where
  seq : Nat
  code : Nat
  workUsed : Nat
  writes : Bool
  desc : Bytes
  data : Bytes
  models : List F32
  offsets : List Nat
  cause : Nat
  errCode : Nat
  errOff : Nat
  voted : Bool
  lostWord : Option Nat
  deriving DecidableEq, Repr

/-- An engine queue (R119, R122): the oldest `completions.length` entries are executed and wait for ENGINE_COMPLETION. -/
structure EQueue where
  nextSeq : Nat
  entries : List Entry
  completions : List Completion
  deriving DecidableEq, Repr

/-- Where a sample stands between the schedule and its slot. -/
inductive SamplePhase where
  | ready
  | issued
  | completed
  | done
  | discarded
  deriving DecidableEq, Repr

/-- A sample in production. `opIdx` counts the operators it has passed; `desc` and `data` are its current buffer
(descriptor and data), `crc` the carried CRC (R150); `models` the outputs of model instances (instance ↦ words);
`status` 0 sample, 1 concealed, 2 empty; `cause` as R219; `place`: the (queue, SEQ) of its entry; `pieces` of a placed document:
(piece, unit, segment, start, tokens, written). -/
structure Sample where
  pipeline : Nat
  dataset : Nat
  index : Nat
  epoch : Nat
  position : Nat
  batch : Nat
  slot : Option Nat
  slate : Bytes
  opIdx : Nat
  desc : Bytes
  data : Bytes
  crc : Nat
  writer : Nat
  models : Table (List F32)
  offsets : List Nat
  phase : SamplePhase
  status : Nat
  cause : Nat
  errCode : Nat
  errOff : Nat
  transits : Nat
  poisons : Nat
  fetches : Nat
  skipped : Nat
  skipCause : Nat
  inBuf : Option Nat
  outBuf : Option Nat
  place : Option (Nat × Nat)
  pieces : List (Nat × Nat × Nat × Nat × Nat × Bool)
  chain : List (Nat × Nat × Nat × Nat)
  home : Option (Run × Nat)
  shot : Option Shot
  modelBufs : List Nat
  failOp : Nat
  failUnit : Nat
  writerStage : Nat
  record : Option (Nat × Nat)
  deriving DecidableEq, Repr

/-- A vote in progress on the oldest completion of a queue (R390): the results so far, with the core slot that gave each, and
the core slot that computes r2. -/
structure Vote where
  queue : Nat
  seq : Nat
  asked : Nat
  results : List (Nat × Bytes)
  deriving DecidableEq, Repr

/-- Engines, samples and votes. Queues: key engine code × 1 024 + queue. Samples: key pipeline × 2^63 + epoch × 2^47 + position. Sink rings
(R263, R438): key pipeline × 256 + instance ↦ (TAIL, HEAD). `sinkWait`: entries waiting for room. `suspects`: unit ↦ (SEQ of
the record that made it so, dissents); `runs`: suspect unit ↦ operator invocations completed since then (R391). -/
structure Engines where
  queues : Table EQueue
  samples : Table Sample
  votes : List Vote
  suspects : Table (Nat × Nat)
  runs : Table Nat
  sinks : Table (Nat × Nat)
  sinkWait : List (Nat × Bytes)
  sinkFailed : List Nat
  deriving DecidableEq, Repr

/-- The content of a stack code word: data with marker 00, or one of the two patterns (R249). -/
inductive WordContent where
  | data (bs : Bytes)
  | poison
  deriving DecidableEq, Repr

/-- A word of an operand or cluster store (R252, R253): its data and check bytes as the SRAM holds them, or poison. -/
inductive StoreWord where
  | held (bs : Bytes)
  | poison
  deriving DecidableEq, Repr

/-- An entry of a merge buffer (R252): the word, and for each of its 8 bytes the one written. -/
structure MergeEntry where
  word : Nat
  bytes : List (Option Byte)
  deriving DecidableEq, Repr

/-- The stores of the cores and clusters (R252, R253). Words: key unit × 2^32 + word, where a core's unit is its logical number and
unlisted words hold zeros; `merge`: key engine queue ↦ the entries of its merge buffer, oldest first. -/
structure Stores where
  operand : Table StoreWord
  cluster : Table StoreWord
  merge : Table (List MergeEntry)
  deriving DecidableEq, Repr

/-- A host-loaded object as the table areas hold it (R245): its 4 KiB units in each copy, and whether a word of it is lost in
both (R251). -/
structure StoredObject where
  units : List Nat
  damaged : Bool
  deriving DecidableEq, Repr

/-- Stack memory (R243 to R256). Words: key stack × 2^30 + index; unlisted words hold the uninitialised pattern.
`objects`: the host-loaded objects of the table areas. `stores`: the SRAM of cores and clusters.
`remap`: stack ↦ remapped indices, oldest first. `fullSeen`: words recorded as "remap full". `persist`: persistent uncorrectable
words met with the table full. `streak`: key stack × 32 + pseudo-channel ↦ consecutive bad reads. `hashes`: the bytes
that each open SHA-384 context in stack memory has taken in (R261). -/
structure StackMem where
  words : Table WordContent
  objects : Table StoredObject
  stores : Stores
  remap : Table (List Nat)
  fullSeen : List Nat
  persist : List Nat
  streak : Table Nat
  hashes : List Bytes
  deriving DecidableEq, Repr

/-- A pool state entry (R269): `crc` is the carried CRC-32C, `ref` the index of its reference-count entry. -/
structure PoolEntry where
  owner : Nat
  link : Nat
  crc : Nat
  ref : Option Nat
  deriving DecidableEq, Repr

/-- An allocation that waits (R270): `sample` names the sample it is for, 0 for none, `stage` and `op` the work it serves, and `copyOf`
the buffer whose bytes a further reader gets (R277). -/
structure PoolWait where
  owner : Nat
  cls : Nat
  stack : Nat
  bytes : Nat
  sample : Nat
  stage : Nat
  op : Nat
  copyOf : Option Nat
  deriving DecidableEq, Repr

/-- The buffer pool (R266 to R277). Entries: key handle, allocated buffers only; `refs`: the reference-count entries in use, key
stack × 2^17 + index ↦ count. -/
structure Pool where
  entries : Table PoolEntry
  waits : List PoolWait
  refs : Table Nat
  deriving DecidableEq, Repr

/-- A code word that is programmed (R282): the block it holds (key volume × 2^40 + block), its write sequence number, its temperature
class and the CRC-32C of its data; `src` is the stripe that it was copied from. -/
structure FlashWord where
  key : Nat
  wsn : Nat
  cls : Nat
  crc : Nat
  src : Option Nat
  deriving DecidableEq, Repr

/-- A flash stripe in use (R283, R294): mode, class, open or closed, verified, when it closed, the code words programmed into it, in
order, the members lost to program failures, and the parity pages held of it: for each stripe page and plane, the XOR of its 16 pages. -/
structure Stripe where
  slc : Bool
  cls : Nat
  closed : Bool
  verified : Bool
  closedTb : Nat
  held : List FlashWord
  lostDies : List Nat
  parity : List Bytes
  deriving DecidableEq, Repr

/-- A magazine (R279 to R285, R301, R308). `sn` is the model's own name of it, kept when it moves to another bay; `wsn` is the last
write sequence number, and `formats` the erases that its formats gave every block. -/
structure Magazine where
  sn : Nat
  state : Nat
  powered : Bool
  prior : Nat
  ejecting : Bool
  ejectBy : Option (Nat × Nat)
  quiescing : Bool
  formatted : Bool
  geo : DieReport
  diesPerChannel : Nat
  userBlocks : Nat
  spares : Nat
  sparesUsed : Table Nat
  rates : List Nat
  hostWritten : Nat
  flashWritten : Nat
  retired : Nat
  lost : Nat
  hist : List Nat
  wsn : Nat
  formats : Nat
  deriving DecidableEq, Repr

/-- A volume (R286): the magazine it lies on, the bay where that magazine last was, its size and whether it has turned read-only. -/
structure Volume where
  sn : Nat
  bay : Nat
  blocks : Nat
  readOnly : Bool
  deriving DecidableEq, Repr

/-- The flash layer. Magazines: key bay 0 to 7; `away`: magazines that have left; `arriving`: bays whose presence has
risen and is debounced; `incoming`: what an initialising magazine that this node does not know brings. Blocks: key volume × 2^40 + block ↦ content; an unlisted block reads as zeros (R286).
`home`: block ↦ stripe that holds its current copy. `copies`: a relocation in progress, block ↦ target stripe (R297).
Stripes: key magazine sn × 2^32 + stripe number. `wear`: stripe ↦ erase count; `strikes`: stripe × 16 + member ↦ failed
verifications in its life. `foldOn`: magazines whose background folding runs; `gcOn`: sn × 256 + group of the stripe
groups whose garbage collection runs; `weak`: blocks that were read with difficulty and are still to be relocated (R298). -/
structure Flash where
  magazines : Table Magazine
  away : List Magazine
  arriving : List Nat
  incoming : Table MagImage
  nextSn : Nat
  volumes : Table Volume
  blocks : Table Bytes
  lost : List Nat
  home : Table Nat
  copies : Table Nat
  stripes : Table Stripe
  wear : Table Nat
  strikes : Table Nat
  foldOn : List Nat
  gcOn : List Nat
  weak : List Nat
  pwrWarn : Bool
  railLow : Bool
  inhibit : Bool
  deriving DecidableEq, Repr

/-- A message on its way out of a link (R316, R327): `source` 0 the node's own, 1 + port a relayed input; `vc` 4 stands for
link-local CONTROL and REPLAY flits. -/
structure OutMsg where
  source : Nat
  vc : Nat
  dest : Nat
  flits : List Flit
  deriving DecidableEq, Repr

/-- A Yilanric port (R313 to R320). `cur`: VC ↦ the message in progress; `control`: link-local flits to send; `rr` the VC served
last, `turns` VC ↦ the source served last; `inbuf` the received flits of messages that are not yet whole; `reident`: an
identity exchange runs in ACTIVE (R323); `probed`: four probes have been made since training; `replays`: those requested and served
since training began (R319). -/
structure Port where
  state : Nat
  lanes : Nat
  txSeq : Nat
  acked : Nat
  replayBuf : List Flit
  rxSeq : Nat
  discarding : Bool
  credits : List Nat
  owed : List Nat
  control : List Flit
  cur : Table OutMsg
  rr : Nat
  turns : Table Nat
  nonceUse : Nat
  reident : Bool
  probed : Bool
  peer : Nat
  delayPs : Nat
  offsetPs : Int
  inbuf : List Flit
  replays : Nat
  deriving DecidableEq, Repr

/-- A topology port entry (R321). -/
structure PortEntry where
  peerNode : Nat
  peerPort : Nat
  enable : Bool
  minLanes : Nat
  deriving DecidableEq, Repr

/-- Topology, identities, ports and the timebase's alignment (R321 to R335). `routes`: destination ↦ its route entry, unlisted
ones unreachable (0x3FF); `waiting`: whole messages that wait for an output; `probes`: port ↦ the probes of a run. -/
structure Fabric where
  nodeId : Nat
  loaded : Bool
  timeRoot : Nat
  timePort : Nat
  timeDepth : Nat
  version : Nat
  entries : Table PortEntry
  routes : Table Nat
  identities : Table Bytes
  ports : Table Port
  timeState : Nat
  aligned : Bool
  stepNs : Int
  slewPpb : Int
  probes : Table (List Probe)
  waiting : List OutMsg
  ready : Bool
  deriving DecidableEq, Repr

/-- A work request (R348): `psn` its first PSN, `psns` how many; `naks` the miss and RNR NAKs met, `got` the responses received;
`batch` the batch it serves. -/
structure WorkReq where
  id : Nat
  kind : Nat
  addr : Nat
  key : Nat
  data : Bytes
  len : Nat
  psn : Nat
  psns : Nat
  naks : Nat
  got : Nat
  batch : Nat
  deriving DecidableEq, Repr

/-- A queue pair (R339 to R348, R353 to R359). States 0 RESET, 1 READY, 2 ERROR. `postPsn` is the PSN after the last posted
request, `sndPsn` the next to send; `waiting` during a NAK back-off; `held`: packets in miss buffers with their ports;
`flushes`: PSNs of FLUSHes not yet visible; `slots`: the pool buffers of a CONTROL queue pair's receive slots, `inbox` the SENDs in them,
oldest first (R341); `behind`: a packet whose key failed, which waits for the FLUSHes before it, since its NAK would acknowledge
them (R345, R348). -/
structure Qp where
  kind : Nat
  state : Nat
  remoteNode : Nat
  remoteQp : Nat
  postPsn : Nat
  sndPsn : Nat
  unacked : Nat
  expected : Nat
  retries : Nat
  retryLimit : Nat
  resident : Bool
  lru : Nat
  wrs : List WorkReq
  nextWr : Nat
  nakSent : Bool
  ackOwed : Nat
  waiting : Bool
  inbox : List Bytes
  lastSyn : Nat
  held : List (Nat × Packet)
  refusedPsn : Option Nat
  flushes : List Nat
  slots : List Nat
  behind : Option Packet
  deriving DecidableEq, Repr

/-- Receive slots in use (R341). -/
def Qp.slotsUsed (q : Qp) : Nat := q.inbox.length

/-- A registered region (R350, R352): `revoking` after phase 1, with the command that waits. -/
structure Region where
  gen : Nat
  base : Nat
  length : Nat
  firstOffset : Nat
  pageLog2 : Nat
  access : Nat
  peer : Nat
  pages : List Nat
  revoking : Option (Nat × Nat)
  deriving DecidableEq, Repr

/-- The transport. `fetches`: (port, QP) context fetches pending. -/
structure Rdma where
  qps : Table Qp
  regions : Table Region
  gens : Table Nat
  freeIdx : List Nat
  freshIdx : Nat
  fetches : List (Nat × Nat)
  clock : Nat
  deriving DecidableEq, Repr

/-- A call sheet (R366, R369). -/
structure Sheet where
  cycle : Nat
  base : Nat
  activateAt : Nat
  entries : List (Nat × Bool)
  deriving DecidableEq, Repr

/-- A policer instance (R372, R374). Tokens count in 1/8000 byte, so that CIR Mb/s adds CIR of them each ns; `last` is the local
time in ns of the last fill. -/
structure Policer where
  mode : Nat
  flags : Nat
  cir : Nat
  cbs : Nat
  ebs : Nat
  pir : Nat
  tc : Nat
  te : Nat
  tp : Nat
  last : Nat
  nakSent : Bool
  deriving DecidableEq, Repr

/-- A flow of the shaper (R362, R364): its queue, the eligible time of its next packet in units of 2^-8 ns. -/
structure Flow where
  queue : List Packet
  tNext : Nat
  busy : Bool
  deriving DecidableEq, Repr

/-- Shaping, gates and policing. `wheel` and `overflow`: (slot, flow, packet); `wheelNow` the wheel's count of 64 ns slots;
`ready`: (flow, packet) whose time has come, in order; `gateOpen`: port ↦ the gate as it was at its last transition;
`policers`: source node ↦ instance, key 0xFFFF the setting of every source not listed. -/
structure Shaper where
  flows : Table Flow
  wheel : List (Nat × Nat × Packet)
  overflow : List (Nat × Nat × Packet)
  wheelNow : Nat
  ready : List (Nat × Packet)
  active : Table Sheet
  pending : Table Sheet
  gateOpen : Table Bool
  policers : Table Policer
  deriving DecidableEq, Repr

/-- An error record (R378). -/
structure ErrRec where
  tbFirst : Nat
  tbLast : Nat
  seq : Nat
  count : Nat
  die : Nat
  unit : Nat
  cause : Nat
  lastCause : Nat
  cls : Nat
  scopeKind : Nat
  scopeId : Nat
  flags : Nat
  pipeline : Nat
  stage : Nat
  operator : Nat
  detail : Nat
  parent : Nat
  aux : Nat
  deriving DecidableEq, Repr

/-- One die's error ring (R381, R384). -/
structure ErrRing where
  recs : List ErrRec
  nextSeq : Nat
  discards : Nat
  armed : Bool
  deriving DecidableEq, Repr

/-- Tests in progress (R403 to R407): unit designator, trigger, and the test's setup. -/
structure TestRun where
  unit : Nat
  trigger : Nat
  extended : Bool
  nominal : Bool
  seqNo : Nat
  tbStart : Nat
  tempStart : Int
  parent : Nat
  deriving DecidableEq, Repr

/-- A test whose core has still to be released by a takeover (R400, R401). -/
structure TestDue where
  slot : Nat
  temp : Int
  trigger : Nat
  parent : Nat
  deriving DecidableEq, Repr

/-- A test record (R415). -/
structure TestRec where
  tbStart : Nat
  tbEnd : Nat
  unit : Nat
  trigger : Nat
  setup : Nat
  outcome : Nat
  failPattern : Nat
  tempStart : Int
  tempPeak : Int
  vddMv : Nat
  freqMhz : Nat
  signature : Nat
  expected : Nat
  parent : Nat
  deriving DecidableEq, Repr

/-- A requalifying slot (R407): its consecutive passes, and the test that failed. -/
structure Requal where
  count : Nat
  failed : TestRun
  deriving DecidableEq, Repr

/-- Field test, spares and retirement. Slots: key cluster × 5 + slot ↦ 0 logical, 1 spare, 2 testing, 3 requalifying,
4 retired (R416). `logical`: logical core ↦ slot. `completed`: designator ↦ completed tests in its life;
`persistent`: designator ↦ persistent outcomes in its life; `lastTest`: slot ↦ when last tested.
`passes`: requalifying slots. `waiting`: clusters whose due test waits for MAX_PER_DIE, in order of due time. -/
structure FieldTest where
  slots : Table Nat
  logical : Table Nat
  retired : List Nat
  completed : Table Nat
  persistent : Table Nat
  lastTest : Table Nat
  clock : Nat
  passes : Table Requal
  pendingTakeover : Table TestDue
  deferred : List Nat
  waiting : List Nat
  tests : List TestRun
  records : List TestRec
  replaced : Nat
  deriving DecidableEq, Repr

/-- Lockstep on one pipeline (R426 to R432). Slot records: batch ↦ (slot field, payload CRC, metadata CRC, chain CRC); chains: batch ×
2^32 + slot field ↦ entries (instance, operator, code, CRC); digests: 4 × batch its own, + 1 the partner's, + 2 the mark of a match;
`partnerCounts` and `partnerRecs`: the partner's record counts, and the records of the batch under search. `heldMsgs`: (node,
batch, notice). `searching`: the batch and, once known, the slot field whose chain is asked for. -/
structure Lockstep where
  role : Nat
  partner : Nat
  asNode : Nat
  onLoss : Nat
  drive : Bool
  timeout : Nat
  lsState : Nat
  matched : Nat
  lowest : Nat
  slotRecs : Table (List (Nat × Nat × Nat × Nat))
  chains : Table (List (Nat × Nat × Nat × Nat))
  digests : Table Bytes
  partnerCounts : Table Nat
  partnerRecs : List (Nat × Nat × Nat × Nat)
  heldMsgs : List (Nat × Nat × Message)
  searching : Option (Nat × Option Nat)
  divBatch : Nat
  divSlot : Nat
  divStage : Nat
  divOperator : Nat
  divKind : Nat
  deriving DecidableEq, Repr

/-- The clapper (R433 to R435). `trigger` as the TYPE 5 record: 0 command, 1 AT, 2 pin, 3 lockstep; `released`: an ACTION 2 has come
since the freeze began. -/
structure Clapper where
  at_ : Option Nat
  freezeTb : Nat
  trigger : Nat
  driving : Bool
  ballLow : Bool
  held : Option (Nat × Nat)
  released : Bool
  divergence : List Nat
  opPoints : Table Nat
  deriving DecidableEq, Repr

/-- A logbook record (R443, R444). -/
structure LogRec where
  lsn : Nat
  type : Nat
  flags : Nat
  tb : Nat
  unit : Nat
  powerCycle : Nat
  body : Bytes
  deriving DecidableEq, Repr

/-- Counter record of an operator instance or engine code (R436). -/
structure Counter where
  entries : Nat
  work : Nat
  busy : Nat
  queued : Nat
  codes : List Nat
  retries : Nat
  bytesIn : Nat
  bytesOut : Nat
  allocWaits : Nat
  deriving DecidableEq, Repr

/-- Waiquel trace, counters, dailies and logbook. Counters: key pipeline × 2^20 + instance (0xFFF + operator for the
unlisted ones). Over the period of the next dailies report: `droops` cluster ↦ (events, lowest mV), `slack` and `tempPeak` by die;
`periodOff`: what to add to a counter to get its count in the period. -/
structure Observe where
  counters : Table Counter
  traceOn : Bool
  traceLog2 : Nat
  traceKinds : Nat
  traceAddr : Nat
  traceTail : Nat
  traceHead : Nat
  traceSeq : Nat
  logQueue : List LogRec
  logOver : List LogRec
  log : List LogRec
  nextLsn : Nat
  permBytes : Nat
  rollBytes : Nat
  permDropped : Nat
  permDropFirst : Nat
  permDropLast : Nat
  powerCycle : Nat
  droops : Table (Nat × Nat)
  slack : Table Int
  tempPeak : Table Int
  periodOff : Table Int
  deriving DecidableEq, Repr

/-- Clocks, rails, thermal state, boot and firmware. Frequencies in MHz by cluster; `gated` as Machine/Clocks.lean says. `browned`: the rail
of a brown-out, while the part waits for its rails (R458). `rails`: their last readings, in tenths of a percent of nominal; `railLow`
those below 95 %. `throttling`: dies above 105 °C. `banks`, `bankOk` (1: it has reached stage 8 since its activation), `bankBooted`, `wdBoots`
and the certificate lie in the boot flash (R463, R466). `stageEnds`: the timebase values at which stages 1, 2, … ended (R459). -/
structure Power where
  pwrgd : Bool
  clocks : Bool
  browned : Option Nat
  perst : Bool
  linkTraining : Bool
  arithHost : Table Nat
  gripHost : Table Nat
  capFreq : Nat
  thermArith : Table Nat
  thermGrip : Table Nat
  gated : List Nat
  stretched : List Nat
  rails : List Nat
  railLow : List Nat
  brownCount : Table Nat
  watts : Nat
  dieTemp : Table Int
  dieHot : List Nat
  throttling : List Nat
  setPoints : Table Nat
  led : Bool
  bootCause : Nat
  bootRail : Nat
  stageEnds : List Nat
  bankBooted : Nat
  banks : Table Bytes
  bankOk : Table Nat
  wdBoots : Nat
  activating : Bool
  staged : Bytes
  stagedOk : Bool
  stagedCert : Bytes
  modelCert : Bytes
  securityMax : Nat
  i3cAddr : Nat
  deriving DecidableEq, Repr

/-- The node. `gone`: designators (R377) of the units out of service, an absent magazine among them. `pending` is the block's queue of commands; `freeTick` the model's own count of free values used. -/
structure State where
  pending : List Instr
  tb : Nat
  freeTick : Nat
  out : List Output
  fields : Table Nat
  gone : List Nat
  ken : Kenlet
  cat : CatalogState
  pipes : Table Pipeline
  slots : Slots
  eng : Engines
  mem : StackMem
  pool : Pool
  flash : Flash
  fab : Fabric
  rdma : Rdma
  shaper : Shaper
  errs : Table ErrRing
  ftest : FieldTest
  lock : Table Lockstep
  clap : Clapper
  obs : Observe
  pow : Power
  deriving DecidableEq, Repr

/-- Short name of a meaning's answer. -/
abbrev Res := Host.Outcome State Fault Refusal

/-- BAR0 and rings before power-good: the Reset column of R33. MSI-X vector control starts masked (the PCIe default). -/
def Kenlet.atReset : Kenlet where
  bifMode := 0
  fns := []
  en := false
  rdy := false
  booted := false
  bootStage := 0
  haltCause := 0
  fatal := false
  frozen := false
  admSqLog2 := 4
  admCqLog2 := 4
  admSqBase := 0
  admCqBase := 0
  evStatus := 0
  evMask := 0
  refusal := 0
  ringError := 0
  fatalInfo := 0
  tbLatch := []
  msixTable := []
  msixPba := []
  rings := []
  cmds := []
  nextOrd := 0
  longOps := []
  nextHandle := 1
  events := []

/-- No catalog, staging, summary or reel. -/
def CatalogState.atReset : CatalogState where
  committed := []
  staged := []
  summaries := []
  held := []
  reels := []
  headers := []

/-- Empty table slots. -/
def Slots.atReset : Slots where
  merges := []
  automata := []
  models := []
  pendMerges := []
  pendAutomata := []
  pendModels := []

/-- Idle engines. -/
def Engines.atReset : Engines where
  queues := []
  samples := []
  votes := []
  suspects := []
  runs := []
  sinks := []
  sinkWait := []
  sinkFailed := []

/-- Stacks with every word uninitialised (R249). -/
def StackMem.atReset : StackMem where
  words := []
  objects := []
  stores := { operand := [], cluster := [], merge := [] }
  remap := []
  fullSeen := []
  persist := []
  streak := []
  hashes := []

/-- An empty pool. -/
def Pool.atReset : Pool where
  entries := []
  waits := []
  refs := []

/-- No magazine present. -/
def Flash.atReset : Flash where
  magazines := []
  away := []
  arriving := []
  incoming := []
  nextSn := 0
  volumes := []
  blocks := []
  lost := []
  home := []
  copies := []
  stripes := []
  wear := []
  strikes := []
  foldOn := []
  gcOn := []
  weak := []
  pwrWarn := false
  railLow := false
  inhibit := false

/-- No topology; every port in DETECT is not yet known: unlisted ports are RESET (R320). -/
def Fabric.atReset : Fabric where
  nodeId := 0xFFFF
  loaded := false
  timeRoot := 0
  timePort := 0xFF
  timeDepth := 0
  version := 0
  entries := []
  routes := []
  identities := []
  ports := []
  timeState := 0
  aligned := false
  stepNs := 0
  slewPpb := 0
  probes := []
  waiting := []
  ready := false

/-- No queue pair, no region. -/
def Rdma.atReset : Rdma where
  qps := []
  regions := []
  gens := []
  freeIdx := []
  freshIdx := 0
  fetches := []
  clock := 0

/-- Idle shaper. -/
def Shaper.atReset : Shaper where
  flows := []
  wheel := []
  overflow := []
  wheelNow := 0
  ready := []
  active := []
  pending := []
  gateOpen := []
  policers := []

/-- Every core slot in its place: unlisted slots 0 to 3 are logical, slot 4 the spare. -/
def FieldTest.atReset : FieldTest where
  slots := []
  logical := []
  retired := []
  completed := []
  persistent := []
  lastTest := []
  clock := 0
  passes := []
  pendingTakeover := []
  deferred := []
  waiting := []
  tests := []
  records := []
  replaced := 0

/-- No freeze. -/
def Clapper.atReset : Clapper where
  at_ := none
  freezeTb := 0
  trigger := 0
  driving := false
  ballLow := false
  held := none
  released := false
  divergence := []
  opPoints := []

/-- Counters at zero, trace off, an empty logbook whose first LSN is 0. -/
def Observe.atReset : Observe where
  counters := []
  traceOn := false
  traceLog2 := 10
  traceKinds := 0
  traceAddr := 0
  traceTail := 0
  traceHead := 0
  traceSeq := 0
  logQueue := []
  logOver := []
  log := []
  nextLsn := 0
  permBytes := 0
  rollBytes := 0
  permDropped := 0
  permDropFirst := 0
  permDropLast := 0
  powerCycle := 0
  droops := []
  slack := []
  tempPeak := []
  periodOff := []

/-- PWRGD low: every domain stopped (R458, R460 stage 0). -/
def Power.atReset : Power where
  pwrgd := false
  clocks := true
  browned := none
  perst := true
  linkTraining := false
  arithHost := []
  gripHost := []
  capFreq := 800
  thermArith := []
  thermGrip := []
  gated := []
  stretched := []
  rails := []
  railLow := []
  brownCount := []
  watts := 0
  dieTemp := []
  dieHot := []
  throttling := []
  setPoints := []
  led := false
  bootCause := 0
  bootRail := 0
  stageEnds := []
  bankBooted := 0
  banks := []
  bankOk := []
  wdBoots := 0
  activating := false
  staged := []
  stagedOk := false
  stagedCert := []
  modelCert := []
  securityMax := 0
  i3cAddr := 0

/-- The node at boot stage 0, held in reset with PWRGD low (R460): every register at its Reset column, every queue and
table empty, no magazine in service, no command waiting. -/
def State.reset : State where
  pending := []
  tb := 0
  freeTick := 0
  out := []
  fields := []
  gone := (List.range 8).map fun k => 12 * 4096 + k
  ken := Kenlet.atReset
  cat := CatalogState.atReset
  pipes := []
  slots := Slots.atReset
  eng := Engines.atReset
  mem := StackMem.atReset
  pool := Pool.atReset
  flash := Flash.atReset
  fab := Fabric.atReset
  rdma := Rdma.atReset
  shaper := Shaper.atReset
  errs := []
  ftest := FieldTest.atReset
  lock := []
  clap := Clapper.atReset
  obs := Observe.atReset
  pow := Power.atReset

end Sys2Proof.Machine
end

