-- ==== Sys2Proof/Machine/Operands.lean ====
section
/-! DEFINITION. The operand forms of a Kenlet command: the 128-byte submission entry of R45, its parameters, and the
data buffer or list it names (R46). -/

namespace Sys2Proof.Machine

/-- OPCODE of a submission entry (R45). -/
def eOpcode (e : Bytes) : Nat := field e 0 2
/-- CMD_ID. -/
def eCmdId (e : Bytes) : Nat := field e 2 2
/-- FLAGS. -/
def eFlags (e : Bytes) : Nat := field e 4 2
/-- HANDLE. -/
def eHandle (e : Bytes) : Nat := field e 8 8
/-- DATA_ADDR. -/
def eDataAddr (e : Bytes) : Nat := field e 16 8
/-- DATA_LEN. -/
def eDataLen (e : Bytes) : Nat := field e 24 4
/-- DATA_FORM. -/
def eDataForm (e : Bytes) : Nat := byteAt e 28

/-- FLAGS [0] ORDERED (R45). -/
def Cmd.ordered (c : Cmd) : Bool := bitOf (eFlags c.entry) 0
/-- FLAGS [1] CONTINUE. -/
def Cmd.continues (c : Cmd) : Bool := bitOf (eFlags c.entry) 1
/-- A 1-byte parameter at entry offset `o`. -/
def Cmd.p8 (c : Cmd) (o : Nat) : Nat := byteAt c.entry o
/-- A 2-byte parameter. -/
def Cmd.p16 (c : Cmd) (o : Nat) : Nat := field c.entry o 2
/-- A 4-byte parameter. -/
def Cmd.p32 (c : Cmd) (o : Nat) : Nat := field c.entry o 4
/-- An 8-byte parameter. -/
def Cmd.p64 (c : Cmd) (o : Nat) : Nat := field c.entry o 8
/-- Are the entry bytes from `o` to the end of PARAMS all zero? (R7) -/
def Cmd.zeroFrom (c : Cmd) (o : Nat) : Bool := zeroAt c.entry o (128 - o)

/-- The buffers of a DATA_FORM 2 list: (address, length) (R46). -/
def listEntries (list : Bytes) : List (Nat × Nat) :=
  (pieces 16 256 list).map fun e => (field e 0 8, field e 8 4)

/-- The host buffers of a command, in order (R46). -/
def hostBuffers (entry list : Bytes) : List (Nat × Nat) :=
  match eDataForm entry with
  | 1 => [(eDataAddr entry, eDataLen entry)]
  | 2 => listEntries list
  | _ => []

/-- The data length of a command: the sum of its buffers' lengths (R46). -/
def dataLen (entry list : Bytes) : Nat := ((hostBuffers entry list).map Prod.snd).sum

/-- Data length of an outstanding command. -/
def Cmd.dataLen (c : Cmd) : Nat := Machine.dataLen c.entry c.list

/-- DATA_FORM 0 with DATA_ADDR 0 and DATA_LEN 0 (R489). -/
def Cmd.noData (c : Cmd) : Bool := eDataForm c.entry == 0 && eDataAddr c.entry == 0 && eDataLen c.entry == 0

/-- DATA_FORM 1 with exactly `n` bytes (R489). -/
def Cmd.exactBuf (c : Cmd) (n : Nat) : Bool := eDataForm c.entry == 1 && eDataLen c.entry == n

/-- DATA_FORM 1 with at least `n` bytes (R489). -/
def Cmd.minBuf (c : Cmd) (n : Nat) : Bool := eDataForm c.entry == 1 && decide (n ≤ eDataLen c.entry)

/-- DATA_FORM 1 or 2 whose data length is `n` (R489). -/
def Cmd.dataIs (c : Cmd) (n : Nat) : Bool :=
  (eDataForm c.entry == 1 || eDataForm c.entry == 2) && c.dataLen == n

/-- DATA_FORM 1 or 2 (R489). -/
def Cmd.hasData (c : Cmd) : Bool := eDataForm c.entry == 1 || eDataForm c.entry == 2

/-- Lay `bs` out over host buffers: the pieces written, in order. -/
def layOut : List (Nat × Nat) → Bytes → List (Nat × Bytes)
  | [], _ => []
  | (a, n) :: t, bs => if bs.isEmpty then [] else (a, bs.take n) :: layOut t (bs.drop n)

/-- Bytes with the bits of a mask changed; a shorter mask leaves the rest. -/
def xorBytes (bs mask : Bytes) : Bytes := bs.zipIdx.map fun v => v.1 ^^^ mask.getD v.2 0

end Sys2Proof.Machine
end

