-- ==== Sys2Proof/Machine/Ops.lean ====
section
/-! DEFINITION. The shared operations every family of commands uses: the clock gate, outputs, MSI-X, events, command
completion, configurable fields, the logbook, the Waiquel trace, error records and leaving service. -/

namespace Sys2Proof.Machine

/-! ### The clock gate -/

/-- Is the part powered, out of a brown-out, with its clocks running? (R418, R458) -/
def State.alive (s : State) : Bool := s.pow.pwrgd && s.pow.clocks && s.pow.browned.isNone

/-- A step of a part whose clocks run; a stopped part does nothing (R418: every clock stops; R458: PWRGD low). -/
def live (f : State → State) (s : State) : Res := if s.alive then .next (f s) else .next s

/-- Neither stopped by PACKAGE_FATAL (R383) nor frozen (R434): engines, pool and requests move. -/
def State.going (s : State) : Bool := !s.ken.fatal && !s.ken.frozen

/-- Apply `f` where `b` holds. -/
def whenB (b : Bool) (f : State → State) (s : State) : State := if b then f s else s

/-- An empty queue: one nanosecond passes while the part runs (R29: the timebase counts nanoseconds). -/
def idle (s : State) : State := if s.alive then { s with tb := (s.tb + 1) % 2 ^ 64 } else s

/-! ### Outputs and free values -/

/-- Send something out. -/
def emit (o : Output) (s : State) : State := { s with out := s.out ++ [o] }

/-- Send several things out. -/
def emits (os : List Output) (s : State) : State := { s with out := s.out ++ os }

/-- Count one use of a free value. -/
def tickFree (s : State) : State := { s with freeTick := s.freeTick + 1 }

/-! ### Configurable fields (R56): raw store -/

/-- Identifier of a configurable field: block type, instance, number (R56). -/
def fieldId (block inst no : Nat) : Nat := block * 2 ^ 24 + inst * 2 ^ 8 + no

/-- Stored value of a field, `d` where none is stored. -/
def State.raw (s : State) (block inst no d : Nat) : Nat := tgetD s.fields (fieldId block inst no) d

/-- Store a field. -/
def setRaw (block inst no v : Nat) (s : State) : State :=
  { s with fields := tput s.fields (fieldId block inst no) v }

/-- Add to a counter field whose reset value is 0. -/
def bumpBy (block inst no n : Nat) (s : State) : State := setRaw block inst no (s.raw block inst no 0 + n) s

/-- Add 1 to a counter field. -/
def bump (block inst no : Nat) (s : State) : State := bumpBy block inst no 1 s

/-! ### PCIe endpoints (R30 to R32) -/

/-- Sub-links of the endpoint: 1, 2 or 4; PCIE_BIF strapped to 3 is treated as 0 (R30, R479). -/
def State.sublinks (s : State) : Nat := if s.ken.bifMode = 1 then 2 else if s.ken.bifMode = 2 then 4 else 1

/-- The sub-link whose share holds a ring pair (R31). -/
def State.pairSublink (s : State) (pair : Nat) : Nat := pair / (Config.ringPairs / s.sublinks)

/-- The sub-link whose share holds a vector (R31). -/
def State.vectorSublink (s : State) (v : Nat) : Nat := v / (Config.vectors / s.sublinks)

/-- The configuration space of an endpoint before the host writes it: D0, the least Max_Payload_Size, 512-byte reads, x16 at
2.5 GT/s, no AER status (the PCIe defaults). -/
def pcieReset : PcieFn :=
  { power := 0, maxPayload := 128, maxRead := 512, width := 16, rate := 2500, aerCorrectable := 0, aerUncorrectable := 0 }

/-- The configuration space of a sub-link's endpoint. -/
def State.pcieFn (s : State) (sub : Nat) : PcieFn := tgetD s.ken.fns sub pcieReset

/-- Is a sub-link's endpoint in D0? In D3hot it takes no memory request and makes none (R30). -/
def State.inD0 (s : State) (sub : Nat) : Bool := (s.pcieFn sub).power == 0

/-- How a data write for a ring pair leaves: through the endpoint of the sub-link that owns the pair, both ordering attributes set
(R30, R32). -/
def State.dataVia (s : State) (pair : Nat) : Tlp := { endpoint := s.pairSublink pair, relaxed := true, idBased := true }

/-- How a completion entry leaves: through the same endpoint, with no ordering attribute (R30, R32). -/
def State.entryVia (s : State) (pair : Nat) : Tlp := { endpoint := s.pairSublink pair, relaxed := false, idBased := false }

/-- How data that no ring pair asked for is written: trace, sink and context records leave through sub-link 0. -/
def plainVia : Tlp := { endpoint := 0, relaxed := true, idBased := true }

/-- How a TAIL that follows records is written: Relaxed Ordering clear (R263, R440). -/
def tailVia : Tlp := { endpoint := 0, relaxed := false, idBased := true }

/-! ### MSI-X, EVENT_STATUS and asynchronous events -/

/-- Vector Control mask bit of an MSI-X table entry; 1 until software clears it (the PCIe rule R488 refers to). -/
def State.vectorMasked (s : State) (v : Nat) : Bool := (tgetD s.ken.msixTable (4 * v + 3) 1#32).getLsbD 0

/-- Does the PCIe endpoint core have its clock? A thermal trip stops it for good (R449, R456). -/
def State.pcieClock (s : State) : Bool := decide (8 ∉ s.pow.gated)

/-- Fire a vector: send its message, or set its pending bit while the MSI-X table masks it (R43, R488). -/
def fireVector (v : Nat) (s : State) : State :=
  if !s.pcieClock then s
  else if s.vectorMasked v then
    { s with ken := { s.ken with msixPba := if v ∈ s.ken.msixPba then s.ken.msixPba else s.ken.msixPba ++ [v] } }
  else emit (.msix v) s

/-- Raise EVENT_STATUS bits. A bit that rises while its EVENT_MASK bit is 0 fires vector 0; a bit that stays 1 does
not fire again (R488). -/
def signalEv (m : BitVec 5) (s : State) : State :=
  let rising := m &&& ~~~ s.ken.evStatus
  let s1 := { s with ken := { s.ken with evStatus := s.ken.evStatus ||| m } }
  if rising &&& ~~~ s.ken.evMask = 0 then s1 else fireVector 0 s1

/-- Is this the outstanding command (pair, cid), not yet finished? -/
def Cmd.isOpen (c : Cmd) (pair cid : Nat) : Bool := c.pair == pair && c.cid == cid && c.phase != .finished

/-- The outstanding, unfinished command of a pair with a CMD_ID. -/
def State.findCmd (s : State) (pair cid : Nat) : Option Cmd := s.ken.cmds.find? fun c => c.isOpen pair cid

/-- Change every command that satisfies `p`. -/
def modCmds (p : Cmd → Bool) (f : Cmd → Cmd) (s : State) : State :=
  { s with ken := { s.ken with cmds := s.ken.cmds.map fun c => if p c then f c else c } }

/-- A command as finished at timebase `tb`, with the status, RESULT and HANDLE its completion will carry (R47). -/
def Cmd.finish (c : Cmd) (tb status result handle : Nat) : Cmd :=
  { c with phase := .finished, status := status, result := result % 2 ^ 64, handle := handle, tbDone := tb }

/-- Finish a command: its completion waits for COMPLETION_WRITE. -/
def finishWith (pair cid status result handle : Nat) (s : State) : State :=
  modCmds (fun c => c.isOpen pair cid) (fun c => c.finish s.tb status result handle) s

/-- Finish with a status and a RESULT, HANDLE 0. -/
def finish (pair cid status result : Nat) (s : State) : State := finishWith pair cid status result 0 s

/-- RESULT of a completion for which the manual states none: free for each command (its order number). -/
def Cmd.plainResult (c : Cmd) : Nat := Config.openResult c.ord

/-- Finish with a status and a RESULT that the manual does not state. -/
def finishPlain (pair cid status : Nat) (s : State) : State :=
  modCmds (fun c => c.isOpen pair cid) (fun c => c.finish s.tb status c.plainResult 0) s

/-- Finish with a status that refuses the command or ends it early; no RESULT is stated. -/
def refuse (pair cid status : Nat) (s : State) : State := finishPlain pair cid status s

/-- A command stays outstanding, started (R48). -/
def markRunning (pair cid : Nat) (s : State) : State :=
  modCmds (fun c => c.isOpen pair cid) (fun c => { c with phase := .running }) s

/-- The oldest started GET_EVENT (R55). -/
def State.waitingGetEvent (s : State) : Option Cmd :=
  s.ken.cmds.find? fun c => c.opcode == 0x0004 && c.phase == .running

/-- RESULT of GET_EVENT for an event (R55). -/
def Event.result (e : Event) : Nat := e.code % 2 ^ 16 + (e.unit % 2 ^ 16) * 2 ^ 16 + (e.detail % 2 ^ 32) * 2 ^ 32

/-- Raise an asynchronous event: it completes the oldest outstanding GET_EVENT, or queues, up to 256, or is discarded
and sets EVENT_LOST (R55). -/
def raiseEvent (code unit detail : Nat) (s : State) : State :=
  let e : Event := { code := code, unit := unit, detail := detail, tb := s.tb }
  match s.waitingGetEvent with
  | some c => finish c.pair c.cid stOk e.result s
  | none =>
    if s.ken.events.length < Config.maxEvents then
      signalEv evPending { s with ken := { s.ken with events := s.ken.events ++ [e] } }
    else signalEv evLost s

/-! ### Running an outstanding command -/

/-- Is the command one that a frozen part still serves (R64)? -/
def servedFrozen (op : Nat) : Bool :=
  op == 0x0000 || op == 0x0004 || op == 0x0005 || op == 0x0500 || op == 0x0501 || op == 0x0505 || op == 0x0506
    || op == 0x0507

/-- Is a command served during the freeze in effect? Those that R64 excepts, and RESET_RING_PAIR of the pair whose CLAPPER
release is held, which R435 gives its effect during the freeze. -/
def State.serves (s : State) (op : Nat) (entry : Bytes) : Bool :=
  servedFrozen op || (op == 0x0003 && s.clap.held.any fun h => h.1 == byteAt entry 32)

/-- Has an earlier command of the pair completed, as far as ORDERED is concerned? Its completion is written and it is no
longer outstanding; on a stopped pair, whose completions are held, finishing counts (R41, R61). -/
def State.countsDone (s : State) (c : Cmd) : Bool :=
  c.phase == .finished && ((tget s.ken.rings c.pair).map RingPair.stopped).getD false

/-- May the command start? ORDERED waits for every earlier command of the pair, and holds every later one (R61); a
general pair starts its commands in fetch order (R44). -/
def State.mayStart (s : State) (c : Cmd) : Bool :=
  let general := decide (c.pair ≠ 0) && !(((tget s.ken.rings c.pair).map RingPair.storage).getD false)
  c.phase == .waiting &&
  s.ken.cmds.all fun e =>
    !(e.pair == c.pair && decide (e.ord < c.ord)) ||
      ((!(c.ordered || e.ordered) || s.countsDone e) && (!general || e.phase != .waiting))

/-- Run an outstanding command with opcode `op`, when it may start: ST_PACKAGE_FATAL after PACKAGE_FATAL, ST_FROZEN
during a freeze but for the commands R64 excepts, else its own effect. -/
def runCmd (op pair cid : Nat) (f : Cmd → State → State) (s : State) : State :=
  match s.findCmd pair cid with
  | none => s
  | some c =>
    if c.opcode == op && s.mayStart c then
      if s.ken.fatal then refuse pair cid stPackageFatal s
      else if s.ken.frozen && !s.serves op c.entry then refuse pair cid stFrozen s
      else f c s
    else s

/-- Write `bs` to the command's host buffers and finish it: ST_DATA_ADDRESS, with nothing else done, where PCIe fails
(R46). The content of a buffer after a failed write is undefined, so nothing is sent. -/
def replyData (c : Cmd) (pcieOk : Bool) (bs : Bytes) (result : Nat) (after : State → State) (s : State) : State :=
  if pcieOk then
    finish c.pair c.cid stOk result
      (after (emits ((layOut (hostBuffers c.entry c.list) bs).map fun p => .pcieWrite (s.dataVia c.pair) p.1 p.2) s))
  else refuse c.pair c.cid stDataAddress s

/-- Write `bs` to the command's host buffers and finish with a status of the operation's own (R287); ST_DATA_ADDRESS
where PCIe fails. -/
def replyStatus (c : Cmd) (pcieOk : Bool) (bs : Bytes) (status result : Nat) (s : State) : State :=
  if pcieOk then
    finish c.pair c.cid status result
      (emits ((layOut (hostBuffers c.entry c.list) bs).map fun p => .pcieWrite (s.dataVia c.pair) p.1 p.2) s)
  else refuse c.pair c.cid stDataAddress s

/-- Use the command's host data; ST_DATA_ADDRESS, with nothing performed, where it could not be read (R46). -/
def withData (c : Cmd) (f : Bytes → State → State) (s : State) : State :=
  match c.data with
  | none => refuse c.pair c.cid stDataAddress s
  | some d => f d s

/-! ### The logbook (R443, R444) -/

/-- Region of a record type: true for the permanent region (R444). -/
def logPermanent (type : Nat) : Bool :=
  !(type == 0x0002 || type == 0x0020 || type == 0x0050 || type == 0x0052)

/-- Bytes a record takes: header and whole 32-byte bodies. -/
def LogRec.size (r : LogRec) : Nat := 32 + roundUp r.body.length 32

/-- Remove the newest rolling record of a queue. -/
def dropNewestRolling (q : List LogRec) : List LogRec :=
  (q.reverse.eraseP fun r => !logPermanent r.type).reverse

/-- A record arises. It queues in CP memory for LOGBOOK_WRITE; when 256 are queued a rolling record is lost, and a
permanent one displaces the newest rolling record or goes to the 8 MiB overflow queue (R443). The body is padded to
whole 32-byte units (R443). -/
def logRecord (type unit : Nat) (body : Bytes) (s : State) : State :=
  let r : LogRec :=
    { lsn := 0, type := type, flags := 0, tb := s.tb, unit := unit, powerCycle := s.obs.powerCycle,
      body := fitTo (roundUp body.length 32) body }
  if s.obs.logQueue.length < 256 then
    { s with obs := { s.obs with logQueue := s.obs.logQueue ++ [r] } }
  else if !logPermanent type then bump 0x12 0 0x0E s
  else if s.obs.logQueue.any (fun q => !logPermanent q.type) then
    bump 0x12 0 0x0E { s with obs := { s.obs with logQueue := dropNewestRolling s.obs.logQueue ++ [r] } }
  else if ((s.obs.logOver.map LogRec.size).sum + r.size) ≤ 2 ^ 23 then
    { s with obs := { s.obs with logOver := s.obs.logOver ++ [r] } }
  else
    bump 0x12 0 0x0F
      { s with obs := { s.obs with
          permDropFirst := if s.obs.permDropped = 0 then s.tb else s.obs.permDropFirst
          permDropped := s.obs.permDropped + 1
          permDropLast := s.tb } }

/-! ### The Waiquel trace (R439, R440) -/

/-- Clock domain code of a unit (R449). -/
def clockOf (u : Nat) : Nat :=
  let t := u / 4096
  if t = 3 ∨ t = 4 then 1 else if t = 9 ∨ t = 10 then 5 else if t = 13 then 4 else if t = 11 then 6
  else if t = 2 ∨ t = 5 ∨ t = 6 ∨ t = 7 ∨ t = 8 then 0 else 2

/-- The host-memory writes of a record of 32-byte units at a trace position. -/
def traceWrites (addr log2 : Nat) : Nat → Bytes → List Output
  | pos, bs => (pieces 32 8 bs).zipIdx.map fun p => .pcieWrite plainVia (addr + 64 + 32 * ((pos + p.2) % 2 ^ log2)) p.1

/-- Write a Waiquel record, when tracing is on and KINDS enables the type. HEAD is the host's, somewhere between its
last known value and TAIL. A record that does not fit is discarded and counted; nothing waits (R440). -/
def traceRecord (type unit pipeline stage op : Nat) (body : Bytes) (s : State) : State :=
  if s.obs.traceOn && bitOf s.obs.traceKinds type && s.pcieClock then
    let units := ceilDiv body.length 32
    let head := s.obs.traceHead + Config.ringHead s.freeTick % (s.obs.traceTail - s.obs.traceHead + 1)
    let s1 := tickFree { s with obs := { s.obs with traceHead := head } }
    if s.obs.traceTail - head + 1 + units ≤ 2 ^ s.obs.traceLog2 then
      let hdr := putLE 1 type ++ putLE 1 units ++ putLE 2 unit ++ putLE 1 pipeline ++ putLE 1 (clockOf unit)
        ++ putLE 2 stage ++ putLE 2 op ++ zeros 2 ++ putLE 4 s.obs.traceSeq ++ putLE 8 s.tb
        ++ putLE 6 (Config.localCycles s.freeTick) ++ zeros 2
      let tail := s.obs.traceTail + 1 + units
      bump 0x12 0 0x06
        (emits (traceWrites s.obs.traceAddr s.obs.traceLog2 s.obs.traceTail (hdr ++ fitTo (32 * units) body)
            ++ [.pcieWrite tailVia s.obs.traceAddr (putLE 8 tail)])
          { s1 with obs := { s1.obs with traceTail := tail, traceSeq := s.obs.traceSeq + 1 } })
    else bump 0x12 0 0x07 s1
  else s

/-! ### Pipelines in production -/

/-- Running, as the commands' rules use the word: STARTING, RUNNING or STOPPING (R138). -/
def Pipeline.active (p : Pipeline) : Bool := p.state == 2 || p.state == 3 || p.state == 4

/-- Is a running pipeline using a dataset? -/
def State.datasetInUse (s : State) (h : Nat) : Bool :=
  s.pipes.any fun kv => kv.2.active && decide (h ∈ kv.2.decl.datasets)

/-! ### Leaving and entering service (R19) -/

/-- Is the unit in service? -/
def State.inService (s : State) (u : Nat) : Bool := u ∉ s.gone

/-- Does the cluster or the stack that a unit belongs to serve? Where it does not, the unit left with it, and its own leaving or
entering changes no count (R19 to R21). -/
def State.wholeServes (s : State) (u : Nat) : Bool :=
  let i := u % 4096
  match u / 4096 with
  | 3 => s.inService (uCluster (i / 5))
  | 4 => s.inService (uCluster (i / 4))
  | 5 => s.inService (uCluster (i / 4))
  | 6 => s.inService (uCluster i)
  | 7 => s.inService (uCluster i)
  | 8 => s.inService (uCluster (i / 2))
  | 9 => s.inService (uStack (i / 4))
  | _ => true

/-- Event 0x0001 for a unit, where a count changes with it (R19). -/
def serviceEvent (u : Nat) (s : State) : State := if s.wholeServes u then raiseEvent 0x0001 u 0 s else s

/-- A unit leaves service: event 0x0001 once, with its designator (R19). A unit already out changes nothing. The logbook
record of R19 is the error or retirement record that says so. -/
def leaveService (u : Nat) (s : State) : State :=
  if u ∈ s.gone then s else serviceEvent u { s with gone := s.gone ++ [u] }

/-- The logbook record of a count that changes without an error or a retirement (R19). -/
def countRecord (u : Nat) (s : State) : State :=
  if s.wholeServes u then logRecord Config.countType u (fitTo 32 (putLE 2 u)) s else s

/-- A unit leaves service without an error: event 0x0001 and a logbook record (R19). -/
def departService (u : Nat) (s : State) : State := if u ∈ s.gone then s else countRecord u (leaveService u s)

/-- A unit enters service: event 0x0001 once, and a logbook record (R19). -/
def enterService (u : Nat) (s : State) : State :=
  if u ∈ s.gone then countRecord u (serviceEvent u { s with gone := s.gone.filter (· ≠ u) }) else s

/-- The body of a unit-retirement record (R444 TYPE 0x0022): designator, cause and PARENT. -/
def retirementBody (u cause parent : Nat) : Bytes := fitTo 32 (putLE 2 u ++ putLE 2 cause ++ putLE 4 parent)

/-! ### Error records (R377 to R387) -/

/-- An error as a unit detects it. -/
structure ErrArgs where
  unit : Nat
  cause : Nat
  cls : Nat
  scopeKind : Nat
  scopeId : Nat
  flags : Nat
  pipeline : Nat
  stage : Nat
  operator : Nat
  detail : Nat
  aux : Nat
  parent : Nat
  depth : Nat
  deriving DecidableEq, Repr

/-- PARENT of an error that no record's handling raised (R378). -/
abbrev noParent : Nat := 0xFFFFFFFF

/-- An error of firmware work outside every pipeline (R118), with no parent. -/
def plainErr (unit cause cls kind id detail aux : Nat) : ErrArgs :=
  { unit := unit, cause := cause, cls := cls, scopeKind := kind, scopeId := id, flags := 0, pipeline := 0xFF,
    stage := 0, operator := 0, detail := detail, aux := aux, parent := noParent, depth := 0 }

/-- An error raised while a record is handled, whose SEQ and depth are given (R387): its record names that one, one level deeper. -/
def ErrArgs.under (h : Option (Nat × Nat)) (a : ErrArgs) : ErrArgs :=
  match h with
  | none => a
  | some r => { a with parent := r.1, depth := min (r.2 + 1) 2 }

/-- Is the record handled at depth 1, so that an error of another scope, at depth 2, is not recovered from (R387)? -/
def atDepth (h : Option (Nat × Nat)) : Bool := h.any fun r => decide (1 ≤ r.2)

/-- SEQ of a record as a PARENT names it: [27:0] number, [31:28] die code (R378). -/
def ErrRec.fullSeq (r : ErrRec) : Nat := r.seq % 2 ^ 28 + r.die * 2 ^ 28

/-- The 64 bytes of a record (R378). -/
def ErrRec.bytes (r : ErrRec) : Bytes :=
  putLE 8 r.tbFirst ++ putLE 8 r.tbLast ++ putLE 4 r.fullSeq ++ putLE 4 r.count ++ putLE 2 (uDie r.die)
    ++ putLE 2 r.unit ++ putLE 2 r.cause ++ putLE 2 r.lastCause ++ putLE 1 r.cls ++ putLE 1 r.scopeKind
    ++ putLE 1 r.flags ++ putLE 1 r.pipeline ++ putLE 2 r.stage ++ putLE 2 r.operator ++ putLE 8 r.scopeId
    ++ putLE 8 r.detail ++ putLE 4 r.parent ++ putLE 4 r.aux

/-- A die's ring before any error: 64 free places, SEQ 0, event armed (R381, R384). -/
def emptyRing : ErrRing := { recs := [], nextSeq := 0, discards := 0, armed := true }

/-- The ring of a die. -/
def State.ringOf (s : State) (die : Nat) : ErrRing := tgetD s.errs die emptyRing

/-- SEQ and depth of the record that a die's ring holds for a scope. -/
def State.heldRecord (s : State) (die kind id : Nat) : Option (Nat × Nat) :=
  ((s.ringOf die).recs.find? fun r => r.scopeKind == kind && r.scopeId == id).map fun r => (r.fullSeq, r.flags / 16 % 4)

/-- Position of the newest record of a class. -/
def newestOf (cls : Nat) (rs : List ErrRec) : Option Nat :=
  (rs.zipIdx.filter fun p => p.1.cls == cls).getLast?.map Prod.snd

/-- Which record a new record of class `cls` replaces in a full ring (R384); none: the new record is discarded. -/
def victim (cls : Nat) (rs : List ErrRec) : Option Nat :=
  if cls = clsUnitFatal then (newestOf clsCorrected rs).orElse fun _ => newestOf clsContained rs
  else if cls = clsPackageFatal then
    (newestOf clsCorrected rs).orElse fun _ =>
      (newestOf clsContained rs).orElse fun _ => (newestOf clsUnitFatal rs).orElse fun _ => newestOf clsPackageFatal rs
  else none

/-- The new record of an error (R378). -/
def newRecord (tb die seq : Nat) (a : ErrArgs) : ErrRec :=
  { tbFirst := tb, tbLast := tb, seq := seq % 2 ^ 28, count := 1, die := die, unit := a.unit, cause := a.cause,
    lastCause := a.cause, cls := a.cls, scopeKind := a.scopeKind, scopeId := a.scopeId,
    flags := a.flags % 16 + a.depth % 4 * 16, pipeline := a.pipeline, stage := a.stage, operator := a.operator,
    detail := a.detail, parent := a.parent, aux := a.aux }

/-- Merge an error into the record of its scope (R382); a higher class takes over and sets FLAGS [2] (R383). -/
def mergeInto (tb : Nat) (a : ErrArgs) (r : ErrRec) : ErrRec :=
  let up := decide (r.cls < a.cls)
  { r with
    tbLast := tb
    count := min (r.count + 1) 0xFFFFFFFF
    lastCause := a.cause
    flags := r.flags ||| (a.flags % 16) ||| (if up then 4 else 0)
    cls := if up then a.cls else r.cls }

/-- One discard of a die's ring: DISCARDED and the ring's discard count rise, and the first discard since the event was
armed sets ERR_OVERFLOW and raises event 0x0003 (R384). -/
def discardErr (die : Nat) (s : State) : State :=
  let r := s.ringOf die
  let s1 := bump 0x0F die 0x03
    { s with errs := tput s.errs die { r with discards := r.discards + 1, armed := false } }
  if r.armed then
    raiseEvent 0x0003 (uDie die) (uDie die + 2 ^ 16 * min (r.discards + 1) 0xFFFF) (signalEv evErrOverflow s1)
  else s1

/-- Place a new record in a die's ring, with the overflow rules of R384. -/
def placeRecord (die : Nat) (a : ErrArgs) (s : State) : State :=
  let r := s.ringOf die
  let rec1 := newRecord s.tb die r.nextSeq a
  let put (recs : List ErrRec) (t : State) : State :=
    { t with errs := tput t.errs die { t.ringOf die with recs := recs ++ [rec1], nextSeq := (r.nextSeq + 1) % 2 ^ 28 } }
  if r.recs.length < Config.errRingSize then put r.recs s
  else match victim a.cls r.recs with
    | some i => put (r.recs.eraseIdx i) (discardErr die s)
    | none => discardErr die s

/-- Does a UNIT_FATAL cause take a unit of R19 out of service (R383)? -/
def takesUnit (cause : Nat) : Bool := !(cause == 0x0405 || cause == 0x0406 || cause == 0x0407)

/-- A thermal trip stops every clock but those of domains 2, 7 and 9 (R456). -/
def stopClocks (s : State) : State := { s with pow := { s.pow with gated := [0, 1, 3, 4, 5, 6, 8] } }

/-- Every command that is running completes with ST_PACKAGE_FATAL (R64); a WRITE does so when its program in flight has ended
(FLASH_PROGRAM_COMPLETE). -/
def failRunning (s : State) : State :=
  modCmds (fun c => c.phase == .running && c.opcode != 0x0301) (fun c => c.finish s.tb stPackageFatal c.plainResult 0) s

/-- PACKAGE_FATAL (R383): STATUS.FATAL and EVENT_STATUS.FATAL rise, FATAL_INFO holds die and cause, tests stop (R402), and running
commands end (R64). The clocks of a thermal trip stop after all this. -/
def packageFatal (die cause : Nat) (s : State) : State :=
  if s.ken.fatal then s
  else
    let s1 := failRunning { s with
      ken := { s.ken with fatal := true, fatalInfo := BitVec.ofNat 64 (uDie die + cause * 2 ^ 16) }
      ftest := { s.ftest with tests := [] } }
    let s2 := emit (.sideband 0x10 cause) (signalEv evFatal s1)
    if cause = 0x0605 then stopClocks s2 else s2

/-- What a class makes visible beside its record and counter, as for a new record of the class (R383): the logbook
record of a UNIT_FATAL or PACKAGE_FATAL error, the unit's leaving service, the package's stop. -/
def classAction (die : Nat) (a : ErrArgs) (body : Bytes) (s : State) : State :=
  let s1 := if a.cls = clsUnitFatal ∨ a.cls = clsPackageFatal then logRecord 0x0010 a.unit body s else s
  if a.cls = clsUnitFatal then (if takesUnit a.cause then leaveService a.unit s1 else s1)
  else if a.cls = clsPackageFatal then packageFatal die a.cause s1
  else s1

/-- Counter of a class on a die (R386). -/
def bumpClass (die cls : Nat) (s : State) : State :=
  if cls = clsCorrected then bump 0x0F die 0x04 s
  else if cls = clsContained then bump 0x0F die 0x05 s
  else if cls = clsUnitFatal then bump 0x0F die 0x06 s
  else s

/-- The record of an error's scope in a ring. -/
def scopeIdx (a : ErrArgs) (rs : List ErrRec) : Option Nat :=
  rs.findIdx? fun r => r.scopeKind == a.scopeKind && r.scopeId == a.scopeId

/-- Does an error take a unit out of service that serves now? The change of count is then made visible even where the error merges
into a record of its class (R19, R383). -/
def State.unseats (s : State) (a : ErrArgs) : Bool := a.cls == clsUnitFatal && takesUnit a.cause && s.inService a.unit

/-- The error is recorded on a die: it merges into the record of its scope, escalating it where its class is higher, or
opens a new record (R382 to R384). Both also go to the trace (R439 TYPE 7). -/
def recordErrOn (die : Nat) (a : ErrArgs) (s : State) : State :=
  let r := s.ringOf die
  let s0 := bumpClass die a.cls s
  match scopeIdx a r.recs with
  | some i =>
    match r.recs[i]? with
    | some old =>
      let m := mergeInto s.tb a old
      let s1 := { s0 with errs := tput s0.errs die { r with recs := r.recs.set i m } }
      let s2 := traceRecord 7 a.unit a.pipeline a.stage a.operator m.bytes s1
      if old.cls < a.cls || s.unseats a then classAction die a m.bytes s2 else s2
    | none => s0
  | none =>
    let body := (newRecord s.tb die r.nextSeq a).bytes
    classAction die a body (traceRecord 7 a.unit a.pipeline a.stage a.operator body (placeRecord die a s0))

/-- The error is recorded in the ring of the die that holds the detecting unit (R381). -/
def recordErr (a : ErrArgs) (s : State) : State := recordErrOn (dieOf a.unit) a s

/-! ### The slot causes (R219) as sample-scope errors -/

/-- SCOPE_ID of a sample (R379). -/
def sampleScope (dataset index : Nat) : Nat := index % 2 ^ 47 + dataset % 2 ^ 16 * 2 ^ 48

/-- Identifier of a pipeline's DELIVER stage. -/
def Decl.deliverStage (d : Decl) : Nat := (d.stages.getLast?.map StageE.id).getD 0

end Sys2Proof.Machine
end

