-- ==== Sys2Proof/Machine/Clocks.lean ====
section
/-! DEFINITION. Clock domains of the clusters: operating points, power cap and thermal frequencies, and domain switches (R449,
R450, R454 to R456). -/

namespace Sys2Proof.Machine

/-- Index of a cluster's clock domain: 0 arithmetic, 1 grip. -/
def domainKey (cluster d : Nat) : Nat := 2 * cluster + d

/-- Nominal frequency of a cluster's domain, in MHz. -/
def nominalFreq (d : Nat) : Nat := if d = 0 then 800 else 1600

/-- The host's operating point of a cluster's domain. -/
def State.hostFreq (s : State) (cluster d : Nat) : Nat :=
  tgetD (if d = 0 then s.pow.arithHost else s.pow.gripHost) cluster (nominalFreq d)

/-- The thermal frequency of a cluster's domain. -/
def State.thermFreq (s : State) (cluster d : Nat) : Nat :=
  tgetD (if d = 0 then s.pow.thermArith else s.pow.thermGrip) cluster (nominalFreq d)

/-- The frequency in effect: the lowest of host, power cap and thermal frequency (R456). -/
def State.freq (s : State) (cluster d : Nat) : Nat :=
  let f := min (s.hostFreq cluster d) (s.thermFreq cluster d)
  if d = 0 then min f s.pow.capFreq else f

/-- Boot value of a voltage set point, in mV (R481). -/
def bootMv (rail : Nat) : Nat := if rail < 2 then 800 else 750

/-- Set point of a core rail, in mV (R454). -/
def State.setPoint (s : State) (rail : Nat) : Nat := tgetD s.pow.setPoints rail (bootMv rail)

/-- Core rail of a cluster. -/
def railOf (cluster : Nat) : Nat := cluster / 8

/-- A domain is gated for 64 cycles of its new clock (R450). Entries below 16 stand for whole domains whose clock has stopped. -/
def gate (k : Nat) (s : State) : State :=
  { s with pow := { s.pow with gated := if k ∈ s.pow.gated then s.pow.gated else s.pow.gated ++ [k] } }

/-- Entry of a cluster's domain among the gated ones. -/
def gateKey (cluster d : Nat) : Nat := 16 + domainKey cluster d

/-- After a change of frequencies: a domain whose frequency in effect is another switches (R450). -/
def switchIfChanged (cluster d old : Nat) (s : State) : State := if s.freq cluster d = old then s else gate (gateKey cluster d) s

/-- Body of an operating-point record: domain and cluster, old and new voltage and frequency (R444 TYPE 0x0040). -/
def opPointBody (cluster d oldMv newMv oldF newF : Nat) : Bytes :=
  fitTo 32 (putLE 2 d ++ putLE 2 cluster ++ putLE 2 oldMv ++ putLE 2 newMv ++ putLE 2 oldF ++ putLE 2 newF)

/-- Set the host's operating point of one domain (R455). -/
def setHostFreq (cluster d f : Nat) (s : State) : State :=
  let old := s.hostFreq cluster d
  let eff := s.freq cluster d
  if old = f then s
  else
    let mv := s.setPoint (railOf cluster)
    let s1 := { s with pow := if d = 0 then { s.pow with arithHost := tput s.pow.arithHost cluster f }
      else { s.pow with gripHost := tput s.pow.gripHost cluster f } }
    switchIfChanged cluster d eff (logRecord 0x0040 (uCluster cluster) (opPointBody cluster d mv mv old f) s1)

/-- Operating points asked for during a freeze take effect at the release (R455). -/
def applyOpPoints (s : State) : State :=
  s.clap.opPoints.foldl (fun (t : State) (kv : Nat × Nat) => setHostFreq (kv.1 / 2) (kv.1 % 2) kv.2 t)
    { s with clap := { s.clap with opPoints := [] } }

/-- Is a frequency one that a domain's operating points allow (R455)? -/
def freqOk (d f : Nat) : Bool :=
  if d = 0 then decide (400 ≤ f ∧ f ≤ 800) && f % 25 == 0 else decide (800 ≤ f ∧ f ≤ 1600) && f % 50 == 0

/-- OPERATING_POINT_SET: at once, or at the release of a freeze. -/
def operatingPointSet (c : Cmd) (s : State) : State :=
  let d := c.p8 32
  let mask := c.p16 34
  let f := c.p16 36
  if 1 < d ∨ mask = 0 ∨ !freqOk d f then refuse c.pair c.cid stInvalidField s
  else
    let cs := (List.range 16).filter fun i => bitOf mask i
    finishPlain c.pair c.cid stOk
      (if s.ken.frozen then
        { s with clap := { s.clap with
            opPoints := cs.foldl (fun (t : Table Nat) (i : Nat) => tput t (domainKey i d) f) s.clap.opPoints } }
      else cs.foldl (fun (t : State) (i : Nat) => setHostFreq i d f t) s)

/-- OPERATING_POINT_SET. -/
def execOperatingPointSet (pair cid : Nat) (s : State) : Res := live (runCmd 0x0507 pair cid operatingPointSet) s

end Sys2Proof.Machine
end

