-- ==== Sys2Proof/Machine/Chacha.lean ====
section
/-! DEFINITION. The ChaCha8 block function, the keyed permutation, and the draws of a sample (R91 to R95, R97, R107,
R110). -/

namespace Sys2Proof.Machine

/-- A word of the ChaCha8 state. -/
abbrev W32 := BitVec 32

/-- Quarter round (RFC 8439 section 2.1). -/
def quarter (a b c d : W32) : W32 × W32 × W32 × W32 :=
  let a := a + b; let d := (d ^^^ a).rotateLeft 16
  let c := c + d; let b := (b ^^^ c).rotateLeft 12
  let a := a + b; let d := (d ^^^ a).rotateLeft 8
  let c := c + d; let b := (b ^^^ c).rotateLeft 7
  (a, b, c, d)

/-- A column round followed by a diagonal round. -/
def doubleRound : List W32 → List W32
  | [x0, x1, x2, x3, x4, x5, x6, x7, x8, x9, x10, x11, x12, x13, x14, x15] =>
    let (x0, x4, x8, x12) := quarter x0 x4 x8 x12
    let (x1, x5, x9, x13) := quarter x1 x5 x9 x13
    let (x2, x6, x10, x14) := quarter x2 x6 x10 x14
    let (x3, x7, x11, x15) := quarter x3 x7 x11 x15
    let (x0, x5, x10, x15) := quarter x0 x5 x10 x15
    let (x1, x6, x11, x12) := quarter x1 x6 x11 x12
    let (x2, x7, x8, x13) := quarter x2 x7 x8 x13
    let (x3, x4, x9, x14) := quarter x3 x4 x9 x14
    [x0, x1, x2, x3, x4, x5, x6, x7, x8, x9, x10, x11, x12, x13, x14, x15]
  | l => l

/-- ChaCha8: 4 double rounds, then the word-wise sum with the input (R91). -/
def chacha8 (st : List W32) : List W32 :=
  List.zipWith (· + ·) st (doubleRound (doubleRound (doubleRound (doubleRound st))))

/-- Words 0 to 11 of every state: the constants and the seed (R92). -/
def seedWords (seed : Bytes) : List W32 :=
  [0x61707865#32, 0x3320646E#32, 0x79622D32#32, 0x6B206574#32]
    ++ (List.range 8).map fun j => BitVec.ofNat 32 (field seed (4 * j) 4)

/-- State of a permutation round function (R92): right half, round, domain bits, epoch. -/
def permState (seed : Bytes) (r i k epoch : Nat) : List W32 :=
  seedWords seed ++ [BitVec.ofNat 32 r, BitVec.ofNat 32 (i + k * 2 ^ 8), 0x8000#32, BitVec.ofNat 32 (epoch * 2 ^ 16)]

/-- State of a sample draw (R92): block counter, sample index, stream, dataset handle, epoch. -/
def drawState (seed : Bytes) (block index stream dataset epoch : Nat) : List W32 :=
  seedWords seed ++
    [BitVec.ofNat 32 block, BitVec.ofNat 32 (index % 2 ^ 32), BitVec.ofNat 32 (index / 2 ^ 32 + stream * 2 ^ 16),
      BitVec.ofNat 32 (dataset + epoch * 2 ^ 16)]

/-- Half-width h of the permutation's domain: the least h of at least 1 with 2^(2h) ≥ n (R93). -/
def halfWidth (n : Nat) : Nat := (((List.range 24).find? fun i => decide (n ≤ 2 ^ (2 * (i + 1)))).map (· + 1)).getD 24

/-- F(i, r) (R94). -/
def feistelF (seed : Bytes) (h epoch i r : Nat) : Nat :=
  ((chacha8 (permState seed r i (2 * h) epoch)).headD 0).toNat % 2 ^ h

/-- E: 8 Feistel rounds (R94). -/
def feistelE (seed : Bytes) (h epoch x : Nat) : Nat :=
  let p := (List.range 8).foldl (fun (p : Nat × Nat) i => (p.2, p.1 ^^^ feistelF seed h epoch i p.2))
    (x / 2 ^ h, x % 2 ^ h)
  p.1 * 2 ^ h + p.2

/-- D, the inverse network (R95). -/
def feistelD (seed : Bytes) (h epoch y : Nat) : Nat :=
  let p := (List.range 8).foldl (fun (p : Nat × Nat) i => (p.2 ^^^ feistelF seed h epoch (7 - i) p.1, p.1))
    (y / 2 ^ h, y % 2 ^ h)
  p.1 * 2 ^ h + p.2

/-- Walk a permutation of the domain until the result is below n; a walk is at most the domain long (R95). -/
def cycleWalk (f : Nat → Nat) (n : Nat) : Nat → Nat → Nat
  | 0, y => y
  | fuel + 1, y => if y < n then y else cycleWalk f n fuel (f y)

/-- σ_e(p) (R95). -/
def sigma (seed : Bytes) (n epoch p : Nat) : Nat :=
  let h := halfWidth n
  cycleWalk (feistelE seed h epoch) n (2 ^ (2 * h)) (feistelE seed h epoch p)

/-- σ_e⁻¹(v) (R95). -/
def sigmaInv (seed : Bytes) (n epoch v : Nat) : Nat :=
  let h := halfWidth n
  cycleWalk (feistelD seed h epoch) n (2 ^ (2 * h)) (feistelD seed h epoch v)

/-- A draw's identity (R107): seed, dataset handle, sample index and epoch. -/
structure DrawKey where
  seed : Bytes
  dataset : Nat
  index : Nat
  epoch : Nat
  deriving DecidableEq, Repr

/-- Word j of a draw stream (R107). -/
def DrawKey.word (d : DrawKey) (stream j : Nat) : Nat :=
  (((chacha8 (drawState d.seed (j / 16 % 2 ^ 32) d.index stream d.dataset d.epoch))[j % 16]?).getD 0).toNat

/-- A word as an integer in [0, m) (R110). -/
def drawBelow (w m : Nat) : Nat := w * m / 2 ^ 32

end Sys2Proof.Machine
end

