-- ==== Sys2Proof/Machine/Long.lean ====
section
/-! DEFINITION. Long operations: work slices, handles and continuation (R57 to R59). -/

namespace Sys2Proof.Machine

/-- Does an opcode run in work slices (R49)? -/
def sliced (op : Nat) : Bool :=
  op == 0x0007 || op == 0x0100 || op == 0x0204 || op == 0x0206 || op == 0x0306 || op == 0x0307 || op == 0x0308
    || op == 0x0504 || op == 0x0505 || op == 0x0508 || op == 0x0509 || op == 0x0601

/-- The paused operation a continuation names: its handle, with its own opcode on its own ring pair (R58). -/
def State.pausedOp (s : State) (c : Cmd) : Option LongOp :=
  s.ken.longOps.find? fun l =>
    l.handle == eHandle c.entry && l.opcode == c.opcode && l.pair == c.pair && l.paused

/-- Does a long operation hold the unit (R58)? -/
def State.unitHeld (s : State) (target : Nat) : Bool := s.ken.longOps.any fun l => l.target == target

/-- The operation a command starts or resumes, or the status that refuses it. A continuation needs a valid handle. A new
operation passes its own check, finds its unit free, and is at most the 64th of the package (R58). -/
def State.longEnter (s : State) (c : Cmd) (target : Nat) (check : Nat) : Except Nat LongOp :=
  if c.continues then
    match s.pausedOp c with
    | some l => .ok { l with cid := c.cid }
    | none => .error stInvalidHandle
  else if check ≠ stOk then .error check
  else if s.unitHeld target then .error stBusy
  else if Config.maxLong ≤ s.ken.longOps.length then .error stNoResources
  else
    match c.data with
    | none => .error stDataAddress
    | some d =>
      .ok {
        opcode := c.opcode, pair := c.pair, target := target, entry := c.entry, data := d, progress := 0,
        paused := false, handle := 0, cid := c.cid, removed := false }

/-- Forget a paused operation: its handle is used (R58). -/
def dropLong (h : Nat) (s : State) : State :=
  { s with ken := { s.ken with longOps := s.ken.longOps.filter fun l => l.handle ≠ h } }

/-- Pause an operation at its slice boundary with a new non-zero handle, and complete the command of this slice with
ST_PENDING_SLICE and the progress RESULT (R57). -/
def pauseLong (l : LongOp) (result : Nat) (s : State) : State :=
  let h := s.ken.nextHandle
  let s1 := dropLong l.handle s
  finishWith l.pair l.cid stPendingSlice result h
    { s1 with ken := { s1.ken with
        longOps := s1.ken.longOps ++ [{ l with paused := true, handle := h }]
        nextHandle := h + 1 } }

/-- Run a sliced command to its end: refuse it, or give its operation to `f`, which finishes it; its handle is used. -/
def runLong (op pair cid : Nat) (target check : Cmd → State → Nat) (f : LongOp → State → State) (s : State) : State :=
  runCmd op pair cid (fun c t =>
    match t.longEnter c (target c t) (check c t) with
    | .error st => refuse pair cid st t
    | .ok l => f l (dropLong l.handle t)) s

/-- A command rebuilt from a long operation, for the operation's own parameters. -/
def LongOp.cmd (l : LongOp) : Cmd :=
  { pair := l.pair, cid := l.cid, ord := 0, opcode := l.opcode, entry := l.entry, list := [], data := some l.data,
    phase := .running, status := 0, result := 0, handle := 0, tbDone := 0, wait := [] }

end Sys2Proof.Machine
end

