-- ==== Sys2Proof/Machine/Fetch.lean ====
section
/-! DEFINITION. What COMMAND_FETCH checks before a command is outstanding: ring families (R38), opcodes (R48, R49),
reserved bytes (R7, R45), continuations (R57), data fields (R46, R489) and the pipeline number (R111). -/

namespace Sys2Proof.Machine

/-- Last operation code of each family (R49); none: no such family. -/
def lastOp (family : Nat) : Option Nat :=
  match family with
  | 0 => some 0x08
  | 1 => some 0x03
  | 2 => some 0x09
  | 3 => some 0x0B
  | 4 => some 0x09
  | 5 => some 0x09
  | 6 => some 0x03
  | 7 => some 0x01
  | _ => none

/-- Is the opcode defined (R49)? -/
def opDefined (op : Nat) : Bool :=
  match lastOp (op / 256) with
  | some n => decide (op % 256 ≤ n)
  | none => false

/-- Does a ring pair carry a family: pair 0 the admin family; a storage pair the storage family; a general pair the
others (R38)? -/
def carries (pair : Nat) (storage : Bool) (family : Nat) : Bool :=
  if pair = 0 then family == 0
  else if storage then family == 3
  else family == 1 || family == 2 || family == 4 || family == 5 || family == 6 || family == 7

/-- The PARAMS bytes an operation's parameter table assigns: (offset, length); every other byte is reserved (R7). The
entry positions of GET_FIELD and SET_FIELD beyond their count are judged when they run (R56). -/
def assigned (op : Nat) : List (Nat × Nat) :=
  match op with
  | 0x0001 => [(32, 24)]
  | 0x0002 => [(32, 1)]
  | 0x0003 => [(32, 1)]
  | 0x0005 => [(32, 1), (40, 64)]
  | 0x0006 => [(32, 1), (40, 64)]
  | 0x0007 => [(32, 2), (40, 8)]
  | 0x0100 => [(32, 2), (40, 17)]
  | 0x0101 => [(32, 2)]
  | 0x0102 => [(32, 2), (40, 8)]
  | 0x0103 => [(32, 2), (40, 12), (56, 8)]
  | 0x0200 => [(32, 1)]
  | 0x0201 => [(32, 1)]
  | 0x0202 => [(32, 2), (40, 8)]
  | 0x0203 => [(32, 1)]
  | 0x0204 => [(32, 2)]
  | 0x0205 => [(32, 2), (36, 4)]
  | 0x0206 => [(32, 3)]
  | 0x0207 => [(32, 14), (48, 23), (72, 4), (80, 16)]
  | 0x0208 => [(32, 1)]
  | 0x0209 => [(32, 1)]
  | 0x0300 => [(32, 3), (40, 12)]
  | 0x0301 => [(32, 3), (40, 12)]
  | 0x0302 => [(32, 2)]
  | 0x0303 => [(32, 3), (40, 12)]
  | 0x0304 => [(32, 3), (40, 8)]
  | 0x0305 => [(32, 2)]
  | 0x0306 => [(32, 1)]
  | 0x0307 => [(32, 2)]
  | 0x0308 => [(32, 2), (40, 16)]
  | 0x0309 => [(32, 1)]
  | 0x030A => [(32, 3), (36, 8), (48, 28)]
  | 0x030B => [(32, 1)]
  | 0x0400 => [(32, 6), (40, 8)]
  | 0x0401 => [(32, 3)]
  | 0x0402 => [(32, 24)]
  | 0x0403 => [(32, 4)]
  | 0x0404 => [(32, 6)]
  | 0x0405 => [(32, 5), (38, 14)]
  | 0x0406 => [(32, 4)]
  | 0x0407 => [(32, 24)]
  | 0x0408 => [(32, 3), (36, 2), (40, 4)]
  | 0x0409 => [(32, 4), (40, 16)]
  | 0x0500 => [(32, 4)]
  | 0x0501 => [(32, 2)]
  | 0x0502 => [(32, 2), (36, 12)]
  | 0x0503 => [(32, 10)]
  | 0x0505 => [(33, 1), (40, 8)]
  | 0x0506 => [(32, 1), (40, 8)]
  | 0x0507 => [(32, 1), (34, 4)]
  | 0x0508 => [(32, 1), (40, 16)]
  | 0x0509 => [(32, 2), (40, 8)]
  | 0x0600 => [(32, 3), (36, 2)]
  | 0x0601 => [(32, 4)]
  | 0x0602 => [(32, 3)]
  | 0x0603 => [(32, 2)]
  | 0x0700 => [(32, 32)]
  | 0x0701 => [(32, 1)]
  | _ => []

/-- Is a PARAMS byte reserved for the operation? -/
def reservedByte (op i : Nat) : Bool := !(assigned op).any fun r => decide (r.1 ≤ i ∧ i < r.1 + r.2)

/-- Are all reserved bytes of the entry zero: bytes 6, 7 and 29 to 31, FLAGS [15:2], and the PARAMS bytes the operation
does not assign (R7, R45)? -/
def reservedClear (e : Bytes) : Bool :=
  zeroAt e 6 2 && zeroAt e 29 3 && decide (eFlags e < 4) &&
  (List.range 96).all fun k => !reservedByte (eOpcode e) (32 + k) || byteAt e (32 + k) == 0

/-- Commands whose definition gives them no data (R489): DATA_FORM 0, DATA_ADDR 0, DATA_LEN 0. -/
def takesNoData (op : Nat) : Bool :=
  op ∈ [0x0001, 0x0002, 0x0003, 0x0004, 0x0006, 0x0008, 0x0101, 0x0201, 0x0202, 0x0203, 0x0207, 0x0302, 0x0303, 0x0304,
    0x0305, 0x0306, 0x0307, 0x0309, 0x0403, 0x0404, 0x0406, 0x0408, 0x0409, 0x0502, 0x0503, 0x0506, 0x0507, 0x0508,
    0x0509, 0x0600, 0x0601, 0x0603]

/-- Commands whose data comes from the host. -/
def readsHost (op : Nat) : Bool :=
  op ∈ [0x0007, 0x0100, 0x0103, 0x0200, 0x0204, 0x0205, 0x0206, 0x0209, 0x0301, 0x030A, 0x0400, 0x0401, 0x0402, 0x0407]

/-- Commands whose parameter at offset 32 is a pipeline number (R111); COUNTERS_READ, for which 0xFF is defined, judges
its own (R436). -/
def namesPipeline (op : Nat) : Bool :=
  op ∈ [0x0200, 0x0201, 0x0202, 0x0203, 0x0205, 0x0207, 0x0208, 0x0209, 0x0503]

/-- The alignment and list rules of R46: ST_OK, ST_INVALID_FIELD, or ST_DATA_ADDRESS when the list cannot be read. -/
def listStatus (e : Bytes) (list : Option Bytes) : Nat :=
  if eDataForm e = 0 then stOk
  else if eDataAddr e % 4 ≠ 0 ∨ eDataLen e % 4 ≠ 0 then stInvalidField
  else if eDataForm e = 1 then stOk
  else if eDataLen e % 16 ≠ 0 ∨ eDataLen e < 16 ∨ 4096 < eDataLen e then stInvalidField
  else match list with
    | none => stDataAddress
    | some l =>
      if (pieces 16 256 (l.take (eDataLen e))).all fun x =>
          field x 0 8 % 4 == 0 && field x 8 4 % 4 == 0 && zeroAt x 12 4 then stOk
      else stInvalidField

/-- Is the CMD_ID already outstanding on the pair (R48)? -/
def State.cmdIdUsed (s : State) (pair cid : Nat) : Bool := s.ken.cmds.any fun c => c.pair == pair && c.cid == cid

/-- What the fetch of an entry finds: ST_OK, or the status it completes with (R7, R38, R46, R48, R57, R60, R64, R111,
R489). -/
def State.screen (s : State) (pair : Nat) (storage : Bool) (e : Bytes) (list : Option Bytes) : Nat :=
  let op := eOpcode e
  let cont := bitOf (eFlags e) 1
  if s.ken.fatal then stPackageFatal
  else if s.cmdIdUsed pair (eCmdId e) then stCmdIdInUse
  else if storage && decide (31 < eCmdId e) then stInvalidField
  else if !carries pair storage (op / 256) then stWrongRing
  else if !opDefined op then stInvalidOpcode
  else if s.ken.frozen && !s.serves op e then stFrozen
  else if cont && !(zeroAt e 6 2 && zeroAt e 29 3 && decide (eFlags e < 4)) then stInvalidField
  else if !cont && !reservedClear e then stInvalidField
  else if 2 < eDataForm e then stInvalidField
  else if cont && (!sliced op || !zeroAt e 32 96 || !(eDataForm e == 0 && eDataAddr e == 0 && eDataLen e == 0)) then
    stInvalidField
  else if !cont && eHandle e ≠ 0 then stInvalidField
  else if takesNoData op && !(eDataForm e == 0 && eDataAddr e == 0 && eDataLen e == 0) then stInvalidField
  else if !cont && namesPipeline op && decide (15 < byteAt e 32) then stInvalidField
  else listStatus e list

/-- The command an entry makes outstanding: waiting, or finished with the status that refuses it. -/
def makeCmd (pair ord tb : Nat) (e : Bytes) (list data : Option Bytes) (st : Nat) : Cmd :=
  { pair := pair
    cid := eCmdId e
    ord := ord
    opcode := eOpcode e
    entry := e
    list := list.getD []
    data := if readsHost (eOpcode e) && eDataForm e ≠ 0 && !bitOf (eFlags e) 1 then data else some []
    phase := if st = stOk then .waiting else .finished
    status := st
    result := Config.openResult ord % 2 ^ 64
    handle := 0
    tbDone := tb
    wait := [] }

end Sys2Proof.Machine
end

