-- ==== Sys2Proof/Machine/Reed.lean ====
section
/-! DEFINITION. The code of stack DRAM (R247): Reed-Solomon over GF(2^16), 32 data and 4 check symbols, and two virtual symbols of the
code-word index and the marker; and what its syndromes tell (R248). -/

namespace Sys2Proof.Machine

/-! ### GF(2^16), x^16 + x^12 + x^3 + x + 1 -/

/-- Times α, the class of x. -/
def gfDouble (a : Nat) : Nat := if 0x8000 ≤ a then (2 * a) ^^^ 0x1100B else 2 * a

/-- Product: the bits of `b` from the lowest, `a` doubled along. -/
def gfMulGo : Nat → Nat → Nat → Nat → Nat
  | 0, _, _, acc => acc
  | n + 1, a, b, acc => gfMulGo n (gfDouble a) (b / 2) (if b % 2 = 1 then acc ^^^ a else acc)

/-- Product of two field elements. -/
def gfMul (a b : Nat) : Nat := gfMulGo 16 a b 0

/-- α^n. -/
def gfAlpha : Nat → Nat
  | 0 => 1
  | n + 1 => gfDouble (gfAlpha n)

/-- Inverse: the power 2^16 − 2, the product of a^(2^i) for i from 1 to 15. -/
def gfInv (a : Nat) : Nat :=
  ((List.range 15).foldl (fun (r : Nat × Nat) (_ : Nat) =>
    let sq := gfMul r.1 r.1
    (sq, gfMul r.2 sq)) (a, 1)).2

/-! ### Symbols -/

/-- Symbols of a run of bytes, little-endian (R247). -/
def symbolsOf (bs : Bytes) : List Nat := (List.range (bs.length / 2)).map fun i => field bs (2 * i) 2

/-- The virtual symbols of a word: the low half of marker and index, then the high half. -/
def virtualSymbols (idx marker : Nat) : List Nat :=
  let v := marker * 2 ^ 30 + idx % 2 ^ 30
  [v % 2 ^ 16, v / 2 ^ 16]

/-- Syndrome j: the word as a polynomial at α^j, highest power first: data, virtual symbols, check symbols. -/
def syndrome (j : Nat) (syms : List Nat) : Nat := syms.foldl (fun (a : Nat) (x : Nat) => gfMul a (gfAlpha j) ^^^ x) 0

/-- Coefficients of the generator with roots α^0 to α^3, highest power first. -/
def rsGenerator : List Nat :=
  (List.range 4).foldl (fun (g : List Nat) (j : Nat) =>
    List.zipWith (fun a b => a ^^^ b) (g ++ [0]) (0 :: g.map (gfMul (gfAlpha j)))) [1]

/-- One step of the division by the generator: the next symbol enters the four-symbol remainder. -/
def rsStep (r : List Nat) (x : Nat) : List Nat :=
  let f := r.headD 0 ^^^ x
  List.zipWith (fun a b => a ^^^ b) (r.tail ++ [0]) (rsGenerator.tail.map (gfMul f))

/-- The check symbols of a word: the remainder that its data and virtual symbols leave. -/
def checkSymbols (data : Bytes) (idx marker : Nat) : List Nat :=
  (symbolsOf data ++ virtualSymbols idx marker).foldl rsStep [0, 0, 0, 0]

/-- The 72 bytes that DRAM holds of a word. -/
def codeWord (data : Bytes) (idx marker : Nat) : Bytes := data ++ ((checkSymbols data idx marker).map fun c => putLE 2 c).flatten

/-- XOR errors (symbol, bits) into a stored word. -/
def corruptWord (flips : List (Nat × Nat)) (w : Bytes) : Bytes :=
  flips.foldl (fun (b : Bytes) (f : Nat × Nat) => patch b (2 * f.1) (putLE 2 (field b (2 * f.1) 2 ^^^ f.2 % 2 ^ 16))) w

/-- The power of a stored symbol in the polynomial: 32 data symbols above the virtual ones, the check symbols lowest. -/
def symbolPower (i : Nat) : Nat := if i < 32 then 37 - i else 35 - i

/-- What the syndromes of a word tell: a good word, one stored symbol in error (symbol, bits), an error of the virtual symbols alone
(bits of marker and index), or more than that. -/
inductive Decoded where
  | good
  | symbol (i e : Nat)
  | virtual (v : Nat)
  | beyond
  deriving DecidableEq, Repr

/-- Decode 72 stored bytes read as word `idx` (R247, R248). -/
def decodeRs (idx : Nat) (w : Bytes) : Decoded :=
  let syms := symbolsOf w
  let all := syms.take 32 ++ virtualSymbols idx 0 ++ syms.drop 32
  let s0 := syndrome 0 all
  let s1 := syndrome 1 all
  let s2 := syndrome 2 all
  let s3 := syndrome 3 all
  if s0 = 0 ∧ s1 = 0 ∧ s2 = 0 ∧ s3 = 0 then .good
  else match (List.range 36).find? fun i =>
      let x := gfAlpha (symbolPower i)
      s0 != 0 && gfMul s0 x == s1 && gfMul s1 x == s2 && gfMul s2 x == s3 with
    | some i => .symbol i s0
    | none =>
      -- the virtual symbols stand at α^5 and α^4: low + high = s0, low × α^5 + high × α^4 = s1
      let x := gfAlpha 5
      let y := gfAlpha 4
      let low := gfMul (s1 ^^^ gfMul s0 y) (gfInv (x ^^^ y))
      let high := s0 ^^^ low
      let x2 := gfMul x x
      let y2 := gfMul y y
      if gfMul low x2 ^^^ gfMul high y2 = s2 ∧ gfMul low (gfMul x2 x) ^^^ gfMul high (gfMul y2 y) = s3 then
        .virtual (low + high * 2 ^ 16)
      else .beyond

end Sys2Proof.Machine
end

