-- ==== Sys2Proof/Machine/Units.lean ====
section
/-! DEFINITION. Unit counts in service (R15, R18 to R21), the IDENTIFY structure (R50) and the running firmware. -/

namespace Sys2Proof.Machine

/-- Does a physical core slot serve: neither retired nor REQUALIFYING, in a cluster in service (R18)? -/
def State.coreServes (s : State) (i : Nat) : Bool := s.inService (uSlot i) && s.inService (uCluster (i / 5))

/-- Physical cores of a cluster in service (R18). -/
def State.clusterCores (s : State) (c : Nat) : Nat :=
  ((List.range 5).filter fun k => s.coreServes (c * 5 + k)).length

/-- Logical cores of a cluster: the smaller of 4 and its physical cores in service (R18). -/
def State.clusterLogical (s : State) (c : Nat) : Nat := min 4 (s.clusterCores c)

/-- Units of a type in service, of `n`, `per` of them in each cluster; a cluster takes its units with it (R20). -/
def State.clusterUnits (s : State) (type n per : Nat) : Nat :=
  ((List.range n).filter fun i => s.inService (unitDes type i) && s.inService (uCluster (i / per))).length

/-- Stack engines in service: a stack takes its four with it (R21). -/
def State.enginesServing (s : State) : Nat :=
  ((List.range 32).filter fun i => s.inService (uSe i) && s.inService (uStack (i / 4))).length

/-- Units of a type in service that belong to no larger unit. -/
def State.plainUnits (s : State) (type n : Nat) : Nat :=
  ((List.range n).filter fun i => s.inService (unitDes type i)).length

/-- COUNTS of IDENTIFY: 20 two-byte counts (R50). -/
def State.counts (s : State) : Bytes :=
  let l := ((List.range 16).map s.clusterLogical).sum
  let p := ((List.range 16).map s.clusterCores).sum
  let ns := [l, p, s.clusterUnits 5 64 4, s.clusterUnits 6 16 1, s.clusterUnits 7 16 1, s.clusterUnits 8 32 2,
    s.enginesServing, s.plainUnits 10 8, s.plainUnits 11 64, s.plainUnits 13 18, s.plainUnits 14 4, s.plainUnits 12 8]
  (ns.map (putLE 2)).flatten ++ zeros 16

/-- Is a physical core slot retired (R408)? -/
def State.slotRetired (s : State) (i : Nat) : Bool := decide (uSlot i ∈ s.ftest.retired)

/-- CORE_MAP of IDENTIFY: one bit for each physical core slot, 1 if not retired (R50). -/
def State.coreMap (s : State) : Bytes :=
  putLE 16 (((List.range 80).map fun i => if s.slotRetired i then 0 else 2 ^ i).sum)

/-- Content of a firmware bank: 0 is A, 1 is B (R463). -/
def State.bank (s : State) (b : Nat) : Bytes :=
  tgetD s.pow.banks b (if b = 0 then Config.factoryBundle else Config.spareBundle)

/-- The firmware bundle that runs (R463, R465). -/
def State.firmware (s : State) : Bytes := s.bank s.pow.bankBooted

/-- ORDER_CODE: 16 bytes of ASCII, zero-padded (R50, R1). -/
def orderCode : Bytes := fitTo 16 (ascii (if Config.isLX then "EZ900-A1-LX" else "EZ900-A1-LC"))

/-- KENLET_VERSION: [15:8] major, [7:0] minor (R50). -/
def State.kenletVersion (s : State) : Nat :=
  Config.kenletMinor s.firmware % 256 + Config.kenletMajor s.firmware % 256 * 256

/-- PUF_ID_HASH: SHA-384 of the device identity public key (R50, R467). -/
def pufIdHash : Bytes := sha384 Config.identityKey

/-- The IDENTIFY structure, 4 096 bytes (R50). -/
def State.identifyData (s : State) : Bytes :=
  fitTo 4096 (orderCode ++ putLE 2 0x00A1 ++ putLE 2 s.kenletVersion ++ putLE 4 (Config.fwRelease s.firmware)
    ++ putLE 4 (Config.opcatVersion s.firmware) ++ zeros 4 ++ fitTo 48 pufIdHash ++ putLE 2 s.fab.nodeId ++ zeros 14
    ++ s.counts ++ s.coreMap)

end Sys2Proof.Machine
end

