-- ==== Sys2Proof/Machine/Words.lean ====
section
/-! DEFINITION. Stack memory as the S-dies hold it (R243 to R248): code words, what a read of one meets, and the host-loaded objects
and schedules that lie in the table and schedule areas (R104, R244, R245). -/

namespace Sys2Proof.Machine

/-! ### Words (R243, R244) -/

/-- Key of a code word. -/
def wordKey (stack idx : Nat) : Nat := stack * 2 ^ 30 + idx

/-- Pseudo-channel of a code word. -/
def wordChannel (idx : Nat) : Nat := idx / 4 % 32

/-- Area of a code word: 0 table, 1 schedule, 2 pool. -/
def wordArea (idx : Nat) : Nat := if idx < 26 * 2 ^ 24 then 0 else if idx < 34 * 2 ^ 24 then 1 else 2

/-- Content of a word; none holds the uninitialised pattern. -/
def State.word (s : State) (stack idx : Nat) : Option WordContent := tget s.mem.words (wordKey stack idx)

/-- Set a word. -/
def setWord (stack idx : Nat) (w : WordContent) (s : State) : State :=
  { s with mem := { s.mem with words := tput s.mem.words (wordKey stack idx) w } }

/-- Write bytes to whole words from an index on; the tail of the last word is 0. -/
def setWords (stack : Nat) : Nat → List Bytes → State → State
  | _, [], s => s
  | idx, w :: t, s => setWords stack (idx + 1) t (setWord stack idx (.data (fitTo 64 w)) s)

/-! ### What a read meets (R247 to R249) -/

/-- The 72 bytes that DRAM holds of a word: data with marker 00, or a pattern. -/
def storedWord (idx : Nat) : Option WordContent → Bytes
  | some (.data bs) => codeWord (fitTo 64 bs) idx 0
  | none => codeWord (zeros 64) idx 1
  | some .poison => codeWord (zeros 64) idx 2

/-- Outcomes of R248. -/
inductive WordOutcome where
  | data (bs : Bytes)
  | corrected (symbol : Nat) (bs : Bytes)
  | uncorrectable
  | address
  | uninitialised
  | poison
  deriving DecidableEq, Repr

/-- The outcome of a word by its content alone. -/
def contentOutcome : Option WordContent → WordOutcome
  | some (.data bs) => .data bs
  | none => .uninitialised
  | some .poison => .poison

/-- The outcome that the syndromes of 72 bytes give. An error of the virtual symbols alone is a pattern where only its marker is set,
and a misdirected access where the index differs. -/
def rsOutcome (idx : Nat) (w : Bytes) : WordOutcome :=
  match decodeRs idx w with
  | .good => .data (w.take 64)
  | .symbol i e => .corrected i ((corruptWord [(i, e)] w).take 64)
  | .virtual v =>
    if v = 2 ^ 30 then .uninitialised
    else if v = 2 ^ 31 then .poison
    else if v % 2 ^ 30 = 0 then .uncorrectable
    else .address
  | .beyond => .uncorrectable

/-- Nothing wrong. -/
def WordFault.clean : WordFault := { flips := [], reached := none, again := [] }

/-- The fault of a word among those that a command names. -/
def faultAt (fs : List (Nat × WordFault)) (stack idx : Nat) : WordFault :=
  ((fs.find? fun f => f.1 == wordKey stack idx).map Prod.snd).getD WordFault.clean

/-- Are three or more stored symbols in error, of which the S-die makes no promise? -/
def WordFault.wild (f : WordFault) : Bool :=
  decide (3 ≤ ((f.flips.filter fun x => decide (x.1 < 36) && x.2 % 2 ^ 16 != 0).map Prod.fst).eraseDups.length)

/-- An outcome that nothing fixes. -/
def freeOutcome (tick : Nat) : WordOutcome :=
  match Config.freeNat tick % 6 with
  | 0 => .data (Config.freeBytes tick 64)
  | 1 => .corrected (Config.freeNat (tick + 1) % 36) (Config.freeBytes tick 64)
  | 2 => .address
  | 3 => .uninitialised
  | 4 => .poison
  | _ => .uncorrectable

/-- What an access to a word meets (R248). An access without a fault meets the content, whose syndromes are those of the code. -/
def State.outcomeAt (s : State) (stack idx : Nat) (f : WordFault) : WordOutcome :=
  if f.wild then freeOutcome s.freeTick
  else if f.flips.isEmpty && f.reached.isNone then contentOutcome (s.word stack idx)
  else
    let at_ := f.reached.getD idx
    rsOutcome idx (corruptWord f.flips (storedWord at_ (s.word stack at_)))

/-- Free values that the outcome has used. -/
def WordFault.used (f : WordFault) (s : State) : State := if f.wild then tickFree s else s

/-! ### Units of 4 KiB (R245) -/

/-- Stack and first word of a unit of one half's table copy, striped over its four stacks. -/
def tableUnit (half u : Nat) : Nat × Nat := (half * 4 + u % 4, u / 4 * 64)

/-- Stack and first word of a unit of the schedule areas, striped over all eight stacks. -/
def scheduleUnit (u : Nat) : Nat × Nat := (u % 8, 26 * 2 ^ 24 + u / 8 * 64)

/-- The lowest units that are not used and satisfy `ok`, `n` of them, from `u` on. -/
def takeUnits (ok : Nat → Bool) (used : List Nat) : Nat → Nat → Nat → List Nat
  | 0, _, _ => []
  | _, 0, _ => []
  | fuel + 1, n + 1, u =>
    if ok u && !used.contains u then u :: takeUnits ok used fuel n (u + 1) else takeUnits ok used fuel (n + 1) (u + 1)

/-- Write an image to units, whose places `at_` gives; units of a stack out of service are left out. -/
def writeUnits (at_ : Nat → Nat × Nat) (units : List Nat) (image : Bytes) (s : State) : State :=
  (units.zip (pieces 4096 units.length image)).foldl (fun (t : State) (u : Nat × Bytes) =>
    if t.inService (uStack (at_ u.1).1) then setWords (at_ u.1).1 (at_ u.1).2 (pieces 64 64 u.2) t else t) s

/-- Write both copies of an image in the table areas. -/
def writeCopies (units : List Nat) (image : Bytes) (s : State) : State :=
  writeUnits (tableUnit 1) units image (writeUnits (tableUnit 0) units image s)

/-! ### Host-loaded objects (R244, R245) -/

/-- Key of an object: kind (0 model package, 1 merge table, 2 automaton, by slot; 3 catalog runs, 4 routing summary, 5 runs still in
use, by dataset; 6 shot records, 7 declaration, by pipeline; 8 page list, by region; 16 more for an image that waits to take its slot), and number. -/
def objectKey (kind id : Nat) : Nat := kind * 2 ^ 64 + id

/-- Does the holder of an object still hold it? -/
def State.objectLive (s : State) (key : Nat) : Bool :=
  let id := key % 2 ^ 64
  match key / 2 ^ 64 with
  | 0 => thas s.slots.models id
  | 1 => thas s.slots.merges id
  | 2 => thas s.slots.automata id
  | 3 => thas s.cat.committed id
  | 4 => thas s.cat.summaries id
  | 5 => s.cat.held.any fun kv => kv.1 % 2 ^ 16 == id
  | 6 => ((tget s.pipes id).map fun p => !p.shots.isEmpty || p.template.isSome).getD false
  | 7 => thas s.pipes id
  | 8 => thas s.rdma.regions id
  | 16 => thas s.slots.pendModels id
  | 17 => thas s.slots.pendMerges id
  | _ => thas s.slots.pendAutomata id

/-- Objects whose holders hold them, but for one key. -/
def State.otherObjects (s : State) (key : Nat) : Table StoredObject :=
  tfilter s.mem.objects fun k _ => k != key && s.objectLive k

/-- Units of the table copies in use, but for an object. -/
def State.tableUsed (s : State) (key : Nat) : List Nat :=
  ((tvals (s.otherObjects key)).map StoredObject.units).flatten
    ++ ((tvals s.pipes).map fun p => (p.schedules.map Schedule.heads).flatten).flatten

/-- Units of the table copies for an image. -/
def State.freeTable (s : State) (key bytes : Nat) : List Nat :=
  let used := s.tableUsed key
  let n := ceilDiv bytes 4096
  takeUnits (fun _ => true) used (used.length + n) n 0

/-- Write a host-loaded object into both table copies (R245); it replaces what its key named, damage included (R251). -/
def storeObject (kind id : Nat) (image : Bytes) (s : State) : State :=
  let key := objectKey kind id
  let units := s.freeTable key image.length
  writeCopies units image
    { s with mem := { s.mem with objects := tput (s.otherObjects key) key { units := units, damaged := false } } }

/-- Give an object another key. -/
def moveObject (kind id kind2 id2 : Nat) (s : State) : State :=
  match tget s.mem.objects (objectKey kind id) with
  | none => s
  | some o =>
    { s with mem := { s.mem with
        objects := tput (tdel s.mem.objects (objectKey kind id)) (objectKey kind2 id2) o } }

/-- A table word is lost in both copies: the objects that lie there are damaged (R251). -/
def damageObjects (stack idx : Nat) (s : State) : State :=
  let u := idx / 64 * 4 + stack % 4
  { s with mem := { s.mem with
      objects := tmapv s.mem.objects fun _ o => if o.units.contains u then { o with damaged := true } else o } }

/-! ### Schedules in the schedule areas (R104, R245) -/

/-- Window of a position (R103). -/
def windowOf (pos : Nat) : Nat := pos / 1048576

/-- The 4-byte entries of a schedule. -/
def Schedule.image (e : Schedule) : Bytes := (e.positions.map fun p => putLE 4 (p % 1048576)).flatten

/-- The 8-byte descriptors of `n` windows: where each begins among the entries. -/
def Schedule.headImage (e : Schedule) (n : Nat) : Bytes :=
  ((List.range n).map fun w => putLE 8 (e.positions.countP fun p => decide (windowOf p < w))).flatten

/-- Bytes of a schedule of an epoch of `n` positions (R104). -/
def Schedule.bytes (e : Schedule) (n : Nat) : Nat := 4 * e.positions.length + 8 * ceilDiv n 1048576

/-- Give a schedule its place in stack DRAM and write it there. -/
def placeSchedule (n : Nat) (e : Schedule) (s : State) : Schedule × State :=
  let windows := ceilDiv n 1048576
  let used := ((tvals s.pipes).map fun p => (p.schedules.map Schedule.units).flatten).flatten
  let k := ceilDiv (4 * e.positions.length) 4096
  let units := takeUnits (fun u => s.inService (uStack (u % 8))) used (8 * (used.length + k + 1)) k 0
  let heads := s.freeTable 0 (8 * windows)
  ({ e with units := units, heads := heads, moved := [], waiting := [] },
    writeCopies heads (e.headImage windows) (writeUnits scheduleUnit units e.image s))

/-- Windows with entries in a schedule word: those of the 16 entries that it holds. -/
def Schedule.windowsAt (e : Schedule) (stack idx : Nat) : List Nat :=
  match e.units.findIdx? fun u => scheduleUnit u == (stack, idx / 64 * 64) with
  | none => []
  | some j => (((e.positions.drop (j * 1024 + idx % 64 * 16)).take 16).map windowOf).eraseDups

/-- A lost schedule word: the windows that it holds wait to be rebuilt (R251). -/
def loseScheduleWord (stack idx : Nat) (s : State) : State :=
  { s with pipes := tmapv s.pipes fun _ p => { p with
      schedules := p.schedules.map fun e => { e with waiting := (e.waiting ++ e.windowsAt stack idx).eraseDups } } }

/-- Windows with entries in a stack: in its units of the schedule area, or in a pool buffer of it. -/
def Schedule.windowsIn (e : Schedule) (stack : Nat) : List Nat :=
  let own := e.positions.zipIdx.filter fun p => e.units.getD (p.2 / 1024) 0 % 8 == stack && !thas e.moved (windowOf p.1)
  ((own.map fun p => windowOf p.1) ++ (e.moved.filter fun kv => bits kv.2 30 28 == stack).map Prod.fst).eraseDups

/-- A stack has left service: the windows with entries in it wait to be rebuilt (R245). -/
def loseScheduleStack (stack : Nat) (s : State) : State :=
  { s with pipes := tmapv s.pipes fun _ p => { p with
      schedules := p.schedules.map fun e => { e with
        waiting := (e.waiting ++ e.windowsIn stack).eraseDups
        moved := tfilter e.moved fun _ h => bits h 30 28 != stack } } }

end Sys2Proof.Machine
end

