-- ==== Sys2Proof/Machine/Rings.lean ====
section
/-! DEFINITION. Ring pairs: doorbells, fetch, completions and coalescing (R39 to R44, R47), and the commands that create
and delete a pair (R51, R52). -/

namespace Sys2Proof.Machine

/-- BAR0 answers: the part runs, boot stage 7 has ended, PERST# is deasserted (R460, R461), and the endpoint has its clock. -/
def State.barUp (s : State) : Bool := s.alive && s.ken.bootStage == 8 && !s.pow.perst && s.pcieClock

/-- Change a ring pair. -/
def modRing (pair : Nat) (f : RingPair → RingPair) (s : State) : State :=
  { s with ken := { s.ken with rings := tmod s.ken.rings pair f } }

/-- RING_ERROR and RING_ERR: the pair that failed and the cause (R41). -/
def ringError (pair cause : Nat) (s : State) : State :=
  signalEv evRingErr { s with ken := { s.ken with ringError := BitVec.ofNat 32 (pair % 256 + cause * 256 + 2 ^ 31) } }

/-- A pair stops: no further fetch until its reset (R41). -/
def stopRing (pair cause : Nat) (s : State) : State :=
  ringError pair cause (modRing pair (fun r => { r with stopped := true }) s)

/-- A new ring pair: heads, tails and expected phase as for a new ring (R36, R42, R53). -/
def newRing (storage fence : Bool) (sqBase cqBase sqLog2 cqLog2 vector c t : Nat) : RingPair :=
  { storage := storage, fence := fence, sqBase := sqBase, cqBase := cqBase, sqLog2 := sqLog2, cqLog2 := cqLog2,
    vector := vector, coalC := c, coalT := t, sqHead := 0, sqTail := 0, cqHead := 0, cqTail := 0, phase := true,
    stopped := false, unsignalled := 0, resetLost := none }

/-- Does a doorbell of the pair, written through a sub-link, reach it (R31, R32, R36)? -/
def State.doorbellHits (s : State) (sub pair : Nat) : Bool := s.barUp && s.ken.rdy && s.pairSublink pair == sub && s.inD0 sub

/-- SQ tail doorbell (R40, R41). -/
def sqTailWrite (sub pair : Nat) (v : BitVec 32) (s : State) : State :=
  match tget s.ken.rings pair with
  | none => s
  | some r =>
    if s.doorbellHits sub pair && !r.stopped then
      if v.toNat < 2 ^ r.sqLog2 then modRing pair (fun r => { r with sqTail := v.toNat }) s
      else stopRing pair 1 s
    else s

/-- CQ head doorbell (R40, R41). -/
def cqHeadWrite (sub pair : Nat) (v : BitVec 32) (s : State) : State :=
  match tget s.ken.rings pair with
  | none => s
  | some r =>
    if s.doorbellHits sub pair then
      if v.toNat < 2 ^ r.cqLog2 then modRing pair (fun r => { r with cqHead := v.toNat }) s
      else stopRing pair 2 s
    else s

/-- SQ_TAIL_DOORBELL. -/
def execSqTailDoorbell (sub pair : Nat) (v : BitVec 32) (s : State) : Res := live (sqTailWrite sub pair v) s

/-- CQ_HEAD_DOORBELL. -/
def execCqHeadDoorbell (sub pair : Nat) (v : BitVec 32) (s : State) : Res := live (cqHeadWrite sub pair v) s

/-- Commands of a pair whose completion is not yet written. -/
def State.outstanding (s : State) (pair : Nat) : List Cmd := s.ken.cmds.filter fun c => c.pair == pair

/-- Is there an entry to fetch, and a tag for it (R40, R41, R60)? -/
def State.canFetch (s : State) (pair : Nat) (r : RingPair) : Bool :=
  s.ken.rdy && s.pcieClock && s.inD0 (s.pairSublink pair) && !r.stopped && r.sqHead != r.sqTail
    && (!r.storage || decide ((s.outstanding pair).length < Config.storageTags))

/-- Fetch the entry at the head: a PCIe error stops the pair (R41); else the head moves on and the command is
outstanding, waiting or refused. -/
def commandFetch (pair : Nat) (entry list data : Option Bytes) (s : State) : State :=
  match tget s.ken.rings pair with
  | none => s
  | some r =>
    if s.canFetch pair r then
      match entry with
      | none => stopRing pair 3 s
      | some e0 =>
        let e := fitTo 128 e0
        let st := s.screen pair r.storage e list
        let c := makeCmd pair s.ken.nextOrd s.tb e list data st
        modRing pair (fun r => { r with sqHead := (r.sqHead + 1) % 2 ^ r.sqLog2 })
          { s with ken := { s.ken with cmds := s.ken.cmds ++ [c], nextOrd := s.ken.nextOrd + 1 } }
    else s

/-- COMMAND_FETCH. -/
def execCommandFetch (pair : Nat) (entry list data : Option Bytes) (s : State) : Res :=
  live (commandFetch pair entry list data) s

/-- The finished command whose completion is to be written; on a FENCE pair only the oldest outstanding one (R44). -/
def State.completable (s : State) (pair cid : Nat) (fence : Bool) : Option Cmd :=
  if fence then
    match s.outstanding pair with
    | [] => none
    | c :: _ => if c.cid == cid && c.phase == .finished then some c else none
  else (s.outstanding pair).find? fun c => c.cid == cid && c.phase == .finished

/-- Free slots of a completion ring: depth − 1 less those written and not consumed (R40). -/
def RingPair.cqFree (r : RingPair) : Nat :=
  2 ^ r.cqLog2 - 1 - (r.cqTail + 2 ^ r.cqLog2 - r.cqHead) % 2 ^ r.cqLog2

/-- The 32 bytes of a completion entry (R47). -/
def completionEntry (c : Cmd) (r : RingPair) : Bytes :=
  putLE 8 c.result ++ putLE 8 c.handle ++ putLE 8 c.tbDone ++ putLE 2 r.sqHead ++ putLE 2 c.pair ++ putLE 2 c.cid
    ++ putLE 2 (c.status + if r.phase then 2 ^ 15 else 0)

/-- Move the completion tail on; the phase inverts on every wrap (R42). -/
def RingPair.advance (r : RingPair) : RingPair :=
  let t := (r.cqTail + 1) % 2 ^ r.cqLog2
  { r with cqTail := t, phase := if t = 0 then !r.phase else r.phase, unsignalled := r.unsignalled + 1 }

/-- Signal a pair whose count C + 1 is reached, or whose T is 0 (R43). -/
def signalPair (pair : Nat) (s : State) : State :=
  match tget s.ken.rings pair with
  | none => s
  | some r =>
    if r.coalC < r.unsignalled ∨ (0 < r.unsignalled ∧ r.coalT = 0) then
      fireVector r.vector (modRing pair (fun r => { r with unsignalled := 0 }) s)
    else s

/-- Move the images that command number `ord` loaded into their slots. -/
def takePending {α : Type} (ord : Nat) (pend slots : Table α) : Table α :=
  pend.foldl (fun t kv => if kv.1 / 8 = ord then tput t (kv.1 % 8) kv.2 else t) slots

/-- Forget the images that command number `ord` loaded. -/
def dropPending (ord : Nat) (s : State) : State :=
  { s with slots := { s.slots with
      pendMerges := tfilter s.slots.pendMerges fun k _ => decide (k / 8 ≠ ord)
      pendAutomata := tfilter s.slots.pendAutomata fun k _ => decide (k / 8 ≠ ord)
      pendModels := tfilter s.slots.pendModels fun k _ => decide (k / 8 ≠ ord) } }

/-- The objects that command number `ord` has loaded, in the table areas, become those of their slots. -/
def takeObjects (ord : Nat) (s : State) : State :=
  s.mem.objects.foldl (fun (t : State) (kv : Nat × StoredObject) =>
    let kind := kv.1 / 2 ^ 64
    let id := kv.1 % 2 ^ 64
    if 16 ≤ kind ∧ id / 8 = ord then moveObject kind id (kind - 16) (id % 8) t else t) s

/-- What takes effect at the instant a completion is written: the table or package that an ST_OK load brought takes its
slot (R172, R212). -/
def onWritten (c : Cmd) (s : State) : State :=
  if c.status = stOk then
    dropPending c.ord (takeObjects c.ord { s with slots := { s.slots with
      merges := takePending c.ord s.slots.pendMerges s.slots.merges
      automata := takePending c.ord s.slots.pendAutomata s.slots.automata
      models := takePending c.ord s.slots.pendModels s.slots.models } })
  else s

/-- Remove a command: its completion is written, and its CMD_ID is free again (R48). -/
def retireCmd (c : Cmd) (s : State) : State :=
  { s with ken := { s.ken with cmds := s.ken.cmds.eraseP fun x => x.ord == c.ord && x.pair == c.pair } }

/-- Write the completion of a finished command (R40 to R44, R47): refused while the pair is stopped or its completion
ring is full; a PCIe error stops the pair and the completion is held (R41). -/
def completionWrite (pair cid : Nat) (pcieOk : Bool) (s : State) : State :=
  match tget s.ken.rings pair with
  | none => s
  | some r =>
    match s.completable pair cid r.fence with
    | none => s
    | some c =>
      if r.stopped || r.cqFree == 0 || !s.pcieClock then s
      else if pcieOk then
        signalPair pair
          (modRing pair RingPair.advance
            (emit (.pcieWrite (s.entryVia pair) (r.cqBase + 32 * r.cqTail) (completionEntry c r)) (onWritten c (retireCmd c s))))
      else stopRing pair 3 s

/-- COMPLETION_WRITE. -/
def execCompletionWrite (pair cid : Nat) (pcieOk : Bool) (s : State) : Res := live (completionWrite pair cid pcieOk) s

/-- COALESCE_TIMER: T has passed since the oldest unsignalled completion (R43). -/
def coalesceTimer (pair : Nat) (s : State) : State :=
  match tget s.ken.rings pair with
  | none => s
  | some r =>
    if 0 < r.unsignalled then fireVector r.vector (modRing pair (fun r => { r with unsignalled := 0 }) s) else s

/-- COALESCE_TIMER. -/
def execCoalesceTimer (pair : Nat) (s : State) : Res := live (coalesceTimer pair) s

/-- CREATE_RING_PAIR (R51): limits of depth, pair, vector and bases; the pair must not exist. -/
def createRingPair (c : Cmd) (s : State) : State :=
  let pair := c.p8 48
  let sq := c.p8 49
  let cq := c.p8 50
  let kind := c.p8 51
  let vector := c.p16 52
  if pair = 0 ∨ sq < 4 ∨ 16 < sq ∨ cq < 4 ∨ 16 < cq ∨ 3 < kind ∨ 511 < vector ∨ c.p64 32 % 4096 ≠ 0
      ∨ c.p64 40 % 4096 ≠ 0 ∨ s.vectorSublink vector ≠ s.pairSublink pair then
    refuse c.pair c.cid stInvalidField s
  else if thas s.ken.rings pair then refuse c.pair c.cid stPrecondition s
  else
    finishPlain c.pair c.cid stOk
      { s with ken := { s.ken with
          rings := tput s.ken.rings pair
            (newRing (bitOf kind 0) (bitOf kind 1) (c.p64 32) (c.p64 40) sq cq vector (c.p8 54) (c.p8 55)) } }

/-- CREATE_RING_PAIR. -/
def execCreateRingPair (pair cid : Nat) (s : State) : Res := live (runCmd 0x0001 pair cid createRingPair) s

/-- DELETE_RING_PAIR (R52). -/
def deleteRingPair (c : Cmd) (s : State) : State :=
  let pair := c.p8 32
  if pair = 0 then refuse c.pair c.cid stInvalidField s
  else if !thas s.ken.rings pair then refuse c.pair c.cid stPrecondition s
  else if !(s.outstanding pair).isEmpty || s.ken.longOps.any (fun l => l.pair == pair) then
    refuse c.pair c.cid stBusy s
  else finishPlain c.pair c.cid stOk { s with ken := { s.ken with rings := tdel s.ken.rings pair } }

/-- DELETE_RING_PAIR. -/
def execDeleteRingPair (pair cid : Nat) (s : State) : Res := live (runCmd 0x0002 pair cid deleteRingPair) s

/-- IDENTIFY (R50). -/
def identify (pcieOk : Bool) (c : Cmd) (s : State) : State :=
  if c.exactBuf 4096 then replyData c pcieOk s.identifyData c.plainResult id s else refuse c.pair c.cid stInvalidField s

/-- IDENTIFY. -/
def execIdentify (pair cid : Nat) (pcieOk : Bool) (s : State) : Res := live (runCmd 0x0000 pair cid (identify pcieOk)) s

/-- GET_EVENT (R55): the oldest queued event at once, else it stays outstanding; a seventeenth is refused. -/
def getEvent (c : Cmd) (s : State) : State :=
  match s.ken.events with
  | e :: rest =>
    modCmds (fun x => x.isOpen c.pair c.cid) (fun x => x.finish e.tb stOk e.result 0)
      { s with ken := { s.ken with events := rest } }
  | [] =>
    if Config.maxGetEvent ≤ (s.ken.cmds.filter fun x => x.opcode == 0x0004 && x.phase == .running).length then
      refuse c.pair c.cid stNoResources s
    else markRunning c.pair c.cid s

/-- GET_EVENT. -/
def execGetEvent (pair cid : Nat) (s : State) : Res := live (runCmd 0x0004 pair cid getEvent) s

end Sys2Proof.Machine
end

