-- ==== Sys2Proof/Machine/Storage.lean ====
section
/-! DEFINITION. Volumes and the flash translation layer (R282 to R300, R303): blocks, stripes, placement, folding,
relocation and erasure, and the storage commands over them. A block's content and the stripe that holds its current copy
are separate tables; garbage and closed stripes are computed from them. -/

namespace Sys2Proof.Machine

/-! ### Names of things -/

/-- Key of a volume block. -/
def blockKey (volume block : Nat) : Nat := volume * 2 ^ 40 + block

/-- Key of a stripe: magazine sn and stripe number. -/
def stripeKey (sn no : Nat) : Nat := sn * 2 ^ 32 + no

/-- 4 096 zero bytes: what a block never written or trimmed reads as (R286). -/
def zeroBlock : Bytes := zeros 4096

/-- The content of a volume block (R286). -/
def State.block (s : State) (key : Nat) : Bytes := tgetD s.flash.blocks key zeroBlock

/-- The bay a magazine is in. -/
def State.bayOf (s : State) (sn : Nat) : Option Nat :=
  (s.flash.magazines.find? fun kv => kv.2.sn == sn).map Prod.fst

/-- The magazine of a volume, with its bay. -/
def State.volMag (s : State) (v : Volume) : Option (Nat × Magazine) := s.flash.magazines.find? fun kv => kv.2.sn == v.sn

/-- A magazine whose volumes take commands: state 3, 4, or 5 before it quiesces (R287, R308). -/
def Magazine.takesCommands (m : Magazine) : Bool := m.state == 3 || m.state == 4 || (m.state == 5 && !m.quiescing)

/-- Statuses of READ, WRITE, TRIM and REEL_APPEND before they act, in the table's order (R287). -/
def State.volStatus (s : State) (volume block count : Nat) (writes : Bool) : Nat :=
  match tget s.flash.volumes volume with
  | none => stPrecondition
  | some v =>
    if v.blocks < block + count then stOutOfRange
    else if writes && v.readOnly then stMediaReadOnly
    else match s.volMag v with
      | none => stMediaRemoved
      | some (_, m) =>
        if !m.takesCommands then stMediaRemoved
        else if writes && m.state == 4 then stMediaReadOnly
        else if writes && s.flash.inhibit then stSupplyLow
        else stOk

/-- Magazine power enable and LEDs: the pin's level is bay + 8 × setting. LED settings: 0 off, 1 on, 2 blinks at 1 Hz, 3 at 4 Hz. -/
def magPin (name : String) (bay setting : Nat) (s : State) : State := emit (.pin name (bay + 8 * setting)) s

/-- Setting of a bay's amber LED: on for a failed magazine, blinking for a read-only one or with LOCATE set, else off (R308, R312). -/
def State.amber (s : State) (bay : Nat) : Nat :=
  match tget s.flash.magazines bay with
  | none => 0
  | some m =>
    if m.state = 7 then 1
    else if m.state = 6 then 0
    else if m.state = 4 ∨ s.raw 0x07 bay 0x0C 0 = 1 then 2
    else 0

/-- Set a bay's amber LED where what it shows differs from what it showed in `was`. -/
def showAmber (bay : Nat) (was s : State) : State :=
  if s.amber bay = was.amber bay then s else magPin "LED_A" bay (s.amber bay) s

/-- Change the magazine with a given sn, wherever it is. -/
def modMag (sn : Nat) (f : Magazine → Magazine) (s : State) : State :=
  { s with flash := { s.flash with
      magazines := s.flash.magazines.map fun kv => if kv.2.sn == sn then (kv.1, f kv.2) else kv
      away := s.flash.away.map fun m => if m.sn == sn then f m else m } }

/-! ### Capacity (R284, R285) -/

/-- Stripes of a group: one for each erase block, on all planes (R283). -/
def Magazine.perGroup (m : Magazine) : Nat := m.geo.dieBlocks / max 1 m.geo.planes

/-- Stripe groups: two dies of each channel (R283). -/
def Magazine.groups (m : Magazine) : Nat := m.diesPerChannel / 2

/-- Planes of a magazine's dies. -/
def Magazine.planes (m : Magazine) : Nat := max 1 m.geo.planes

/-- Pages of an erase block on one plane; in SLC mode a cell holds one bit of its four (PRESUMED). -/
def Magazine.pages (m : Magazine) (slc : Bool) : Nat :=
  max 1 (m.geo.dieBytes / (max 1 m.geo.dieBlocks * max 1 m.geo.pageData) / if slc then 4 else 1)

/-- Code words of a stripe page: four on each of 16 pages, on each plane (R282, R283). -/
def Magazine.pageWords (m : Magazine) : Nat := 64 * m.planes

/-- Code words of a stripe. -/
def Magazine.stripeWords (m : Magazine) (slc : Bool) : Nat := m.pageWords * m.pages slc

/-- Member of a stripe on which its code word `i` lies. -/
def memberOf (planes i : Nat) : Nat := i / (4 * max 1 planes) % 16

/-- Die of a magazine that a stripe's member lies on (R283): member 2m + j is die 2g + j of channel m. -/
def Magazine.dieOfMember (m : Magazine) (no member : Nat) : Nat :=
  member / 2 * m.diesPerChannel + 2 * (no / max 1 m.perGroup) + member % 2

/-- Erase block of a stripe on each of its dies. -/
def Magazine.blockNo (m : Magazine) (no : Nat) : Nat := no % max 1 m.perGroup

/-- Where a flash operation acts: the die, and the erase block on it. -/
def Magazine.flashPlace (m : Magazine) (no member : Nat) : Nat := m.dieOfMember no member * 2 ^ 32 + m.blockNo no

/-- Raw capacity in bytes: the sum of its dies' data bytes (R284). -/
def Magazine.rawBytes (m : Magazine) : Nat := 8 * m.diesPerChannel * m.geo.dieBytes

/-- USER_BLOCKS of a first format: floor(R × 93 / (100 × 4 096)) (R284). -/
def Magazine.firstUserBlocks (m : Magazine) : Nat := m.rawBytes * 93 / (100 * 4096)

/-- Spare blocks of each die: 2.5 % of its blocks, rounded down (R284). -/
def Magazine.firstSpares (m : Magazine) : Nat := m.geo.dieBlocks * 25 / 1000

/-- The magazine of a stripe. -/
def stripeSn (k : Nat) : Nat := k / 2 ^ 32

/-- Mapped blocks of a magazine: user blocks holding data. -/
def State.mapped (s : State) (sn : Nat) : Nat := (s.flash.home.filter fun kv => stripeSn kv.2 == sn).length

/-- Free QLC blocks outside the reserves: USER_BLOCKS less the blocks holding data (the example of R285). -/
def State.freeBlocks (s : State) (m : Magazine) : Nat := m.userBlocks - s.mapped m.sn

/-- SLC capacity: the smaller of SLC_PCT percent of USER_BLOCKS and a quarter of the free QLC blocks (R285). -/
def State.slcCapacity (s : State) (bay : Nat) (m : Magazine) : Nat :=
  min (m.userBlocks * s.raw 0x07 bay 0x02 4 / 100) (s.freeBlocks m / 4)

/-- Is a stripe in SLC mode? -/
def State.stripeSlc (s : State) (k : Nat) : Bool := ((tget s.flash.stripes k).map Stripe.slc).getD false

/-- Blocks of a magazine whose current copy is in SLC, in block order. -/
def State.slcBlocks (s : State) (sn : Nat) : List Nat :=
  (s.flash.home.filter fun kv => stripeSn kv.2 == sn && s.stripeSlc kv.2).map Prod.fst

/-- SLC blocks occupied (R293, R303). -/
def State.slcUsed (s : State) (sn : Nat) : Nat := (s.slcBlocks sn).length

/-! ### Code words (R282) -/

/-- The code word that holds a block's current copy: the last one of its stripe that was programmed for it. -/
def State.wordOf (s : State) (key : Nat) : Option FlashWord :=
  ((tget s.flash.home key).bind fun k => tget s.flash.stripes k).bind fun st => (st.held.filter fun w => w.key == key).getLast?

/-- Index of a block's current copy in its stripe. -/
def State.wordIndex (s : State) (key : Nat) : Nat :=
  (((tget s.flash.home key).bind fun k => tget s.flash.stripes k).map fun st =>
    ((st.held.zipIdx.filter fun p => p.1.key == key).map Prod.snd).getLastD 0).getD 0

/-- The 32 metadata bytes of a code word. The order of their fields is the model's own. -/
def FlashWord.metadata (w : FlashWord) : Bytes :=
  fitTo 32 (putLE 1 (w.key / 2 ^ 40) ++ putLE 1 w.cls ++ putLE 6 w.wsn ++ putLE 8 (w.key % 2 ^ 40) ++ putLE 4 w.crc)

/-- The 4 608 bytes of a code word: 4 096 data bytes, 32 metadata bytes and 480 bytes of LDPC parity. -/
def FlashWord.image (w : FlashWord) (bs : Bytes) : Bytes :=
  let body := fitTo 4096 bs ++ w.metadata
  body ++ fitTo 480 (Config.ldpc body)

/-- The parity pages with code word `i` of a stripe XORed in (R294). -/
def addParity (planes i : Nat) (image : Bytes) (pages : List Bytes) : List Bytes :=
  let p := i / (64 * planes) * planes + i / 4 % planes
  let all := pages ++ List.replicate (p + 1 - pages.length) (zeros 18432)
  let old := all.getD p []
  let at_ := i % 4 * 4608
  all.set p (patch old at_ (List.zipWith (· ^^^ ·) image (sub old at_ 4608)))

/-! ### Operations sent to the dies (R281) -/

/-- An operation on the pages of one stripe member, and the READ STATUS ENHANCED that follows it. -/
def dieOp (op : FlashOp) (bay : Nat) (m : Magazine) (no member : Nat) (s : State) : State :=
  emits [.flashOp op bay (m.flashPlace no member), .flashOp .readStatus bay (m.flashPlace no member)] s

/-- The page reads of the current copies of some blocks; a block that is unmapped or lost is not read. -/
def flashReads (keys : List Nat) (s : State) : State :=
  keys.foldl (fun (t : State) (key : Nat) =>
    match tget s.flash.home key with
    | none => t
    | some k =>
      match s.flash.magazines.find? fun kv => kv.2.sn == stripeSn k with
      | some (bay, m) =>
        if key ∈ s.flash.lost then t else dieOp .read bay m (k % 2 ^ 32) (memberOf m.planes (s.wordIndex key)) t
      | none => t) s

/-- The page reads of a run of blocks. -/
def readRun (volume block count : Nat) (s : State) : State :=
  flashReads ((List.range count).map fun i => blockKey volume (block + i)) s

/-! ### Stripes -/

/-- Free stripes of each stripe group that only relocation may open (R284). -/
def gcReserve : Nat := 8

/-- Erase blocks of a group whose stripes are in use. -/
def State.usedIn (s : State) (m : Magazine) (group : Nat) : List Nat :=
  (s.flash.stripes.filter fun kv => stripeSn kv.1 == m.sn && kv.1 % 2 ^ 32 / max 1 m.perGroup == group).map fun kv =>
    m.blockNo (kv.1 % 2 ^ 32)

/-- Free stripes of a group. -/
def State.freeInGroup (s : State) (m : Magazine) (group : Nat) : Nat := m.perGroup - (s.usedIn m group).length

/-- The lowest free stripe number of the first group that has more than `reserve` free stripes; which stripe is taken changes timing
only (R17). -/
def State.freeStripe (s : State) (m : Magazine) (reserve : Nat) : Option Nat :=
  ((List.range m.groups).find? fun g => decide (reserve < s.freeInGroup m g)).map fun g =>
    let used := s.usedIn m g
    g * m.perGroup + ((List.range (used.length + 1)).find? fun n => n ∉ used).getD used.length

/-- The magazine in a bay, by its sn. -/
def State.magOf (s : State) (sn : Nat) : Option (Nat × Magazine) := s.flash.magazines.find? fun kv => kv.2.sn == sn

/-- Take a stripe into use. -/
def takeStripe (sn reserve : Nat) (st : Stripe) (s : State) : Option (Nat × State) :=
  (s.magOf sn).bind fun bm => (s.freeStripe bm.2 reserve).map fun no =>
    let k := stripeKey sn no
    (k, { s with flash := { s.flash with stripes := tput s.flash.stripes k st } })

/-- A stripe just opened. -/
def newStripe (slc : Bool) (cls : Nat) : Stripe :=
  { slc := slc, cls := cls, closed := false, verified := false, closedTb := 0, held := [], lostDies := [], parity := [] }

/-- The open stripe of a mode and class, other than stripe `avoid`; opened where there is none, from the free stripes beyond `reserve`
(R291). -/
def openStripe (sn : Nat) (slc : Bool) (cls reserve : Nat) (avoid : Option Nat) (s : State) : Option (Nat × State) :=
  match s.flash.stripes.find? fun kv =>
      stripeSn kv.1 == sn && kv.2.slc == slc && kv.2.cls == cls && !kv.2.closed && avoid != some kv.1 with
  | some kv => some (kv.1, s)
  | none => takeStripe sn reserve (newStripe slc cls) s

/-- Count blocks programmed (R303). -/
def countFlash (sn n : Nat) (s : State) : State := modMag sn (fun m => { m with flashWritten := m.flashWritten + n }) s

/-- Close a stripe: its last page is programmed, and its parity with it; the rest of it is padding (R294). -/
def closeStripe (k : Nat) (s : State) : State :=
  match tget s.flash.stripes k, s.magOf (stripeSn k) with
  | some st, some (_, m) =>
    if st.closed then s
    else
      let rest := m.pages st.slc - ceilDiv st.held.length m.pageWords
      countFlash (stripeSn k) (m.stripeWords st.slc - st.held.length + rest * (4 * m.planes))
        { s with flash := { s.flash with stripes := tput s.flash.stripes k { st with closed := true, closedTb := s.tb } } }
  | _, _ => s

/-- Program a code word at the next place of a stripe: its page, and the parity page of its stripe page, are programmed. The stripe
closes with its last page (R294). -/
def holdWord (k : Nat) (w : FlashWord) (bs : Bytes) (s : State) : State :=
  match tget s.flash.stripes k, s.magOf (stripeSn k) with
  | some st, some (bay, m) =>
    let i := st.held.length
    let st1 := { st with held := st.held ++ [w], parity := addParity m.planes i (w.image bs) st.parity }
    let s1 := countFlash (stripeSn k) (if i % m.pageWords = 0 then 1 + 4 * m.planes else 1)
      { s with flash := { s.flash with stripes := tput s.flash.stripes k st1 } }
    let s2 := if i % 4 = 0 then dieOp .program bay m (k % 2 ^ 32) (memberOf m.planes i) s1 else s1
    if m.stripeWords st.slc ≤ i + 1 then closeStripe k s2 else s2
  | _, _ => s

/-- The content of a block that the host writes: its lost state is cleared (R288), and a relocation of it discarded (R297). -/
def putContent (key : Nat) (home : Table Nat) (bs : Bytes) (s : State) : State :=
  { s with flash := { s.flash with
      blocks := tputD s.flash.blocks key bs zeroBlock
      lost := s.flash.lost.filter (· ≠ key)
      home := home
      copies := tdel s.flash.copies key } }

/-- Store a block that the host writes in a stripe: its content and its place. Its code word takes the next write sequence number. -/
def putBlock (k key cls : Nat) (bs : Bytes) (s : State) : State :=
  let n := (((s.magOf (stripeSn k)).map fun bm => bm.2.wsn).getD 0 + 1) % 2 ^ 48
  let s1 := modMag (stripeSn k) (fun m => { m with wsn := n }) (putContent key (tput s.flash.home key k) bs s)
  holdWord k { key := key, wsn := n, cls := cls, crc := crc32c bs, src := none } bs s1

/-- A copy of a block's code word, made from stripe `src`: it keeps the block's write sequence number. -/
def State.copyWord (s : State) (key cls src : Nat) : FlashWord :=
  { key := key, wsn := ((s.wordOf key).map FlashWord.wsn).getD 0, cls := cls, crc := crc32c (s.block key), src := some src }

/-- Where host data goes: an open SLC stripe while the SLC buffer has capacity, else the open QLC stripe of its class
(R291). -/
def State.hostInSlc (s : State) (bay : Nat) (m : Magazine) : Bool := decide (s.slcUsed m.sn < s.slcCapacity bay m)

/-- Can `n` blocks of host data be placed: are there free stripes beyond the reserve for them, whichever mode they take? Without
them the write waits for garbage collection. -/
def State.hostRoom (s : State) (volume n : Nat) : Bool :=
  match (tget s.flash.volumes volume).bind s.volMag with
  | none => true
  | some (_, m) =>
    decide (ceilDiv n (m.stripeWords true) + 1 ≤ (((List.range m.groups).map fun g => s.freeInGroup m g - gcReserve).sum))

/-- Write one host block to a volume (R288, R291). Where no stripe is free, which `State.hostRoom` rules out for the writes that run, the
block has its content and no place. -/
def writeBlock (volume block cls : Nat) (bs : Bytes) (s : State) : State :=
  match tget s.flash.volumes volume with
  | none => s
  | some v =>
    match s.volMag v with
    | none => s
    | some (bay, m) =>
      match openStripe v.sn (s.hostInSlc bay m) cls gcReserve none s with
      | none => putContent (blockKey volume block) (tdel s.flash.home (blockKey volume block)) (fitTo 4096 bs) s
      | some o =>
        modMag v.sn (fun m => { m with hostWritten := m.hostWritten + 1 })
          (putBlock o.1 (blockKey volume block) cls (fitTo 4096 bs) o.2)

/-- Write consecutive blocks. -/
def writeBlocks (volume cls : Nat) : Nat → List Bytes → State → State
  | _, [], s => s
  | b, x :: t, s => writeBlocks volume cls (b + 1) t (writeBlock volume b cls x s)

/-- Split a buffer into 4 KiB blocks. -/
def blocksOf (bs : Bytes) : List Bytes := pieces 4096 (ceilDiv bs.length 4096) bs

/-- Write bytes from a block address on, the last block padded with zeros. -/
def writeBytes (volume block cls : Nat) (bs : Bytes) (s : State) : State :=
  writeBlocks volume cls block (blocksOf bs) s

/-- Forget the mapping of a run of blocks: trimmed blocks read as zeros and are not lost (R286, R288, R297). -/
def trimRange (volume block count : Nat) (s : State) : State :=
  let lo := blockKey volume block
  let hi := lo + count
  let out (k : Nat) : Bool := !(decide (lo ≤ k) && decide (k < hi))
  { s with flash := { s.flash with
      blocks := tfilter s.flash.blocks fun k _ => out k
      lost := s.flash.lost.filter out
      home := tfilter s.flash.home fun k _ => out k
      copies := tfilter s.flash.copies fun k _ => out k } }

/-- Read a run of blocks; lost blocks read as zeros (R287). -/
def State.readBlocks (s : State) (volume block count : Nat) : Bytes :=
  ((List.range count).map fun i =>
    let k := blockKey volume (block + i)
    if k ∈ s.flash.lost then zeroBlock else s.block k).flatten

/-- Read bytes of a volume from a byte offset. -/
def State.readBytes (s : State) (volume off n : Nat) : Bytes :=
  sub (s.readBlocks volume (off / 4096) (ceilDiv (off % 4096 + n) 4096)) (off % 4096) n

/-- Indexes, within a run of blocks, of those that are lost. -/
def State.lostIn (s : State) (volume block count : Nat) : List Nat :=
  (List.range count).filter fun i => blockKey volume (block + i) ∈ s.flash.lost

/-- Blocks of a stripe that are still its current copy. -/
def State.validIn (s : State) (k : Nat) : Nat := (s.flash.home.filter fun kv => kv.2 == k).length

/-- Is a stripe the target of a relocation in progress? -/
def State.targeted (s : State) (k : Nat) : Bool := s.flash.copies.any fun kv => kv.2 == k

/-- Is a code word of a stripe the current copy of its block, or the copy of a relocation in progress? -/
def State.isCurrent (s : State) (k : Nat) (w : FlashWord) : Bool :=
  tget s.flash.home w.key == some k || tget s.flash.copies w.key == some k

/-- Is a stripe the source of a copy whose own stripe is not verified yet (R292, R295, R304)? -/
def State.sourceOf (s : State) (k : Nat) : Bool :=
  s.flash.stripes.any fun kv => !kv.2.verified && kv.2.held.any fun w => w.src == some k && s.isCurrent kv.1 w

/-- Erase operations on every member of a stripe. -/
def eraseOps (k : Nat) (s : State) : State :=
  match s.magOf (stripeSn k) with
  | none => s
  | some (bay, m) => (List.range 16).foldl (fun (t : State) (i : Nat) => dieOp .erase bay m (k % 2 ^ 32) i t) s

/-- Erase the closed stripes of a magazine that hold no current copy, no relocation target and no source that is still needed. No
erase starts while the program-inhibit condition holds (R305). -/
def eraseEmpty (sn : Nat) (s : State) : State :=
  if s.flash.inhibit then s
  else
    let dead (k : Nat) (st : Stripe) : Bool :=
      stripeSn k == sn && st.closed && s.validIn k == 0 && !s.targeted k && !s.sourceOf k
    let ks := (s.flash.stripes.filter fun kv => dead kv.1 kv.2).map Prod.fst
    ks.foldl (fun (t : State) (k : Nat) => eraseOps k t)
      { s with flash := { s.flash with
          stripes := tfilter s.flash.stripes fun k st => !dead k st
          wear := ks.foldl (fun w k => tput w k (tgetD w k 0 + 1)) s.flash.wear } }

/-- Release the parity of the verified stripes that no unverified copy needs as its source (R294, R295). -/
def releaseParity (s : State) : State :=
  { s with flash := { s.flash with
      stripes := tmapv s.flash.stripes fun k st => if st.verified && !s.sourceOf k then { st with parity := [] } else st } }

/-- Class of the stripe that holds a block. -/
def State.blockClass (s : State) (key : Nat) : Nat :=
  match tget s.flash.home key with
  | none => 0
  | some k => ((tget s.flash.stripes k).map Stripe.cls).getD 0

/-- Fold one SLC block: a copy in the open QLC stripe of its class becomes the current one; its SLC copy is kept until the copy's
stripe is verified (R292). -/
def foldBlock (sn key : Nat) (s : State) : State :=
  match tget s.flash.home key with
  | none => s
  | some src =>
    match openStripe sn false (s.blockClass key) gcReserve none s with
    | none => s
    | some o =>
      holdWord o.1 (s.copyWord key (s.blockClass key) src) (s.block key)
        { o.2 with flash := { o.2.flash with home := tput o.2.flash.home key o.1 } }

/-- Fold up to `n` SLC blocks of a magazine into QLC stripes of their class (R292). -/
def foldBlocks (sn n : Nat) (s : State) : State :=
  ((s.slcBlocks sn).take n).foldl (fun (t : State) (key : Nat) => foldBlock sn key (flashReads [key] t)) s

/-- Begin relocating blocks: each gets a copy in an open QLC stripe of a class, other than `avoid`; the mapping keeps the source until
the copy's stripe is verified (R297). -/
def startCopies (sn cls : Nat) (avoid : Option Nat) : List Nat → State → State
  | [], s => s
  | key :: t, s =>
    match tget s.flash.home key, openStripe sn false cls 0 avoid s with
    | some src, some o =>
      startCopies sn cls avoid t
        (holdWord o.1 (s.copyWord key cls src) (s.block key)
          { o.2 with flash := { o.2.flash with copies := tput o.2.flash.copies key o.1 } })
    | _, _ => startCopies sn cls avoid t s

/-! ### READ, WRITE, TRIM, FLUSH -/

/-- VOLUME of a storage command. -/
def Cmd.volume (c : Cmd) : Nat := c.p16 32
/-- BLOCK of READ, WRITE and TRIM. -/
def Cmd.block (c : Cmd) : Nat := c.p64 40
/-- COUNT of READ, WRITE and TRIM. -/
def Cmd.count (c : Cmd) : Nat := c.p32 48

/-- Has storage, owner 16 of the pool, a landing buffer allocated for a flash read (R24, R270)? -/
def State.landing (s : State) : Bool := s.pool.entries.any fun kv => kv.2.owner == 16

/-- READ (R287). Its flash reads wait for a landing buffer (R24). -/
def readCmd (pcieOk : Bool) (c : Cmd) (s : State) : State :=
  if c.count = 0 ∨ 2048 < c.count ∨ 127 < c.volume ∨ c.p8 34 ≠ 0 ∨ !c.dataIs (c.count * 4096) then
    refuse c.pair c.cid stInvalidField s
  else
    let st := s.volStatus c.volume c.block c.count false
    if st ≠ stOk then refuse c.pair c.cid st s
    else if !s.landing then s
    else
      let lost := s.lostIn c.volume c.block c.count
      replyStatus c pcieOk (s.readBlocks c.volume c.block c.count)
        (if lost.isEmpty then stOk else stMediaError) (lost.length + lost.headD 0 * 2 ^ 32) (readRun c.volume c.block c.count s)

/-- READ. -/
def execRead (pair cid : Nat) (pcieOk : Bool) (s : State) : Res := live (runCmd 0x0300 pair cid (readCmd pcieOk)) s

/-- WRITE (R287): accepted, its data waits to be programmed; FLASH_PROGRAM_COMPLETE completes it (R288). -/
def writeCmd (c : Cmd) (s : State) : State :=
  if c.count = 0 ∨ 2048 < c.count ∨ 127 < c.volume ∨ 3 < c.p8 34 ∨ !c.dataIs (c.count * 4096) then
    refuse c.pair c.cid stInvalidField s
  else
    let st := s.volStatus c.volume c.block c.count true
    if st ≠ stOk then refuse c.pair c.cid st s
    else withData c (fun _ => markRunning c.pair c.cid) s

/-- WRITE. -/
def execWrite (pair cid : Nat) (s : State) : Res := live (runCmd 0x0301 pair cid writeCmd) s

/-- Has a block of host data a stripe to go to? -/
def State.placeable (s : State) (volume cls : Nat) : Bool :=
  match (tget s.flash.volumes volume).bind s.volMag with
  | none => false
  | some (bay, m) => (openStripe m.sn (s.hostInSlc bay m) cls gcReserve none s).isSome

/-- A WRITE that ends without ST_OK: each of its blocks is wholly new or wholly old, in any combination (R54, R288). -/
def tearBlocks (volume cls : Nat) : Nat → List Bytes → State → State
  | _, [], s => s
  | b, x :: t, s =>
    tearBlocks volume cls (b + 1) t
      (tickFree (if Config.freeBool s.freeTick && s.placeable volume cls then writeBlock volume b cls x s else s))

/-- Leave a running WRITE's blocks as a reset, a removal or a supply sag may (R54, R288). -/
def tearWrite (c : Cmd) (s : State) : State :=
  tearBlocks c.volume (c.p8 34) c.block ((blocksOf (c.data.getD [])).take c.count) s

/-- A WRITE in flight. -/
def Cmd.writing (c : Cmd) : Bool := c.opcode == 0x0301 && c.phase == .running

/-- End every WRITE in flight that satisfies `p` with a status, its blocks torn. -/
def failWrites (p : Cmd → Bool) (status : Nat) (s : State) : State :=
  (s.ken.cmds.filter fun c => c.writing && p c).foldl (fun t c => refuse c.pair c.cid status (tearWrite c t)) s

/-- Does a block lie in a closed and verified stripe? A block trimmed since lies nowhere. -/
def State.settled (s : State) (key : Nat) : Bool :=
  match tget s.flash.home key with
  | none => true
  | some k => ((tget s.flash.stripes k).map fun st => st.closed && st.verified).getD true

/-- What a FLUSH waits for: a block, with the write sequence number of the data that it waits for. -/
def waitKey (key wsn : Nat) : Nat := key * 2 ^ 48 + wsn

/-- Is what a FLUSH waits for done: its data in a closed and verified stripe, or replaced since? -/
def State.waitOver (s : State) (w : Nat) : Bool :=
  s.settled (w / 2 ^ 48) || (s.wordOf (w / 2 ^ 48)).map FlashWord.wsn != some (w % 2 ^ 48)

/-- Blocks of a volume that a FLUSH waits for: those not yet settled when it starts. -/
def State.unsettled (s : State) (volume : Nat) : List Nat :=
  (s.flash.home.filter fun kv => kv.1 / 2 ^ 40 == volume && !s.settled kv.1).map fun kv =>
    waitKey kv.1 (((s.wordOf kv.1).map FlashWord.wsn).getD 0)

/-- A FLUSH under way. -/
def Cmd.flushing (c : Cmd) : Bool := c.opcode == 0x0302 && c.phase == .running

/-- Pad and close the open stripes that hold data for which a FLUSH waits (R289); no program starts under the inhibit condition. -/
def padOpen (s : State) : State :=
  if s.flash.inhibit then s
  else
    let open_ := ((s.ken.cmds.filter Cmd.flushing).map fun c => (c.wait.filter fun w => !s.waitOver w).filterMap fun w =>
      tget s.flash.home (w / 2 ^ 48)).flatten.eraseDups
    open_.foldl (fun (t : State) (k : Nat) => closeStripe k t) s

/-- FLUSH commands go on (R289): open stripes are padded as needed, and those whose data all lies in closed and verified stripes
complete. -/
def completeFlushes (s : State) : State :=
  let s1 := padOpen s
  (s1.ken.cmds.filter Cmd.flushing).foldl
    (fun (t : State) (c : Cmd) => if c.wait.all t.waitOver then finishPlain c.pair c.cid stOk t else t) s1

/-- FLUSH (R289): a read-only volume flushes nonetheless; stripes still to verify leave it outstanding. -/
def flushCmd (c : Cmd) (s : State) : State :=
  let st := s.volStatus c.volume 0 0 false
  if st ≠ stOk then refuse c.pair c.cid st s
  else
    completeFlushes
      (modCmds (fun x => x.isOpen c.pair c.cid) (fun x => { x with phase := .running, wait := s.unsettled c.volume }) s)

/-- FLUSH. -/
def execFlush (pair cid : Nat) (s : State) : Res := live (runCmd 0x0302 pair cid flushCmd) s

/-- TRIM (R287, R288). -/
def trimCmd (c : Cmd) (s : State) : State :=
  if c.count = 0 ∨ 127 < c.volume ∨ c.p8 34 ≠ 0 then refuse c.pair c.cid stInvalidField s
  else
    let st := s.volStatus c.volume c.block c.count true
    if st ≠ stOk then refuse c.pair c.cid st s
    else finishPlain c.pair c.cid stOk (trimRange c.volume c.block c.count s)

/-- TRIM. -/
def execTrim (pair cid : Nat) (s : State) : Res := live (runCmd 0x0303 pair cid trimCmd) s

/-! ### Volumes -/

/-- Volumes of a magazine. -/
def State.volumesOn (s : State) (sn : Nat) : Table Volume := tfilter s.flash.volumes fun _ v => v.sn == sn

/-- VOLUME_CREATE (R286, R290). -/
def volumeCreate (c : Cmd) (s : State) : State :=
  let n := c.p64 40
  if 127 < c.volume ∨ 7 < c.p8 34 ∨ n = 0 then refuse c.pair c.cid stInvalidField s
  else if thas s.flash.volumes c.volume then refuse c.pair c.cid stPrecondition s
  else
    match tget s.flash.magazines (c.p8 34) with
    | none => refuse c.pair c.cid stPrecondition s
    | some m =>
      if m.state ≠ 3 then refuse c.pair c.cid stPrecondition s
      else if 16 ≤ (s.volumesOn m.sn).length
          ∨ m.userBlocks < ((tvals (s.volumesOn m.sn)).map Volume.blocks).sum + n then
        refuse c.pair c.cid stNoResources s
      else
        finishPlain c.pair c.cid stOk
          { s with flash := { s.flash with
              volumes := tput s.flash.volumes c.volume { sn := m.sn, bay := c.p8 34, blocks := n, readOnly := false } } }

/-- VOLUME_CREATE. -/
def execVolumeCreate (pair cid : Nat) (s : State) : Res := live (runCmd 0x0304 pair cid volumeCreate) s

/-- Runs in effect for a running pipeline: the old ones it still holds, else the committed ones (R84). -/
def State.runsFor (s : State) (pipe dataset : Nat) : List Run :=
  let now := ((tget s.cat.committed dataset).map Catalog.runs).getD []
  if ((tget s.pipes pipe).map Pipeline.active).getD false then tgetD s.cat.held (pipe * 2 ^ 16 + dataset) now else now

/-- Does a running pipeline hold catalog runs on a volume (R290)? -/
def State.runsOnVolume (s : State) (volume : Nat) : Bool :=
  s.pipes.any fun kv => kv.2.active &&
    kv.2.decl.datasets.any fun h => (s.runsFor kv.1 h).any fun r => r.volume == volume

/-- Key of a reel. -/
def reelKey (volume reel : Nat) : Nat := volume * 2 ^ 32 + reel

/-- The volume that an outstanding command works on: a continuation of REBUILD carries none and works on its operation's. -/
def State.volumeFor (s : State) (x : Cmd) : Option Nat :=
  if x.opcode ∈ [0x0300, 0x0301, 0x0302, 0x0303] then some (x.p16 32)
  else if x.opcode = 0x030A then some (x.p16 36)
  else if x.opcode ≠ 0x0308 then none
  else if x.continues then (s.pausedOp x).map fun l => field l.entry 32 2
  else some (x.p16 32)

/-- Is a command of the storage family on this volume outstanding, beside `c`? -/
def State.volumeBusy (s : State) (c : Cmd) (volume : Nat) : Bool :=
  s.ken.cmds.any fun x => x.ord != c.ord && s.volumeFor x == some volume

/-- Open reels of a volume. -/
def State.openReels (s : State) (volume : Nat) : Bool :=
  s.cat.reels.any fun kv => kv.1 / 2 ^ 32 == volume && !kv.2.sealed

/-- VOLUME_DELETE (R290): trims every block and removes the reel table. -/
def volumeDelete (c : Cmd) (s : State) : State :=
  match tget s.flash.volumes c.volume with
  | none => refuse c.pair c.cid stPrecondition s
  | some v =>
    if s.volumeBusy c c.volume || s.openReels c.volume || s.runsOnVolume c.volume then
      refuse c.pair c.cid stBusy s
    else
      let s1 := trimRange c.volume 0 v.blocks s
      finishPlain c.pair c.cid stOk
        { s1 with
          flash := { s1.flash with volumes := tdel s1.flash.volumes c.volume }
          cat := { s1.cat with reels := tfilter s1.cat.reels fun k _ => k / 2 ^ 32 != c.volume } }

/-- VOLUME_DELETE. -/
def execVolumeDelete (pair cid : Nat) (s : State) : Res := live (runCmd 0x0305 pair cid volumeDelete) s

/-! ### Wear and spares (R301, R302) -/

/-- SPARE_PCT: the smallest, over the dies, of the spares left in percent, rounded down (R301). -/
def Magazine.sparePct (m : Magazine) : Nat :=
  let used := (tvals m.sparesUsed).foldl max 0
  if m.spares = 0 then 0 else (m.spares - used) * 100 / m.spares

/-- Erases of a magazine's stripes beyond those of its formats, by stripe. -/
def State.wearOf (s : State) (m : Magazine) : List Nat :=
  (s.flash.wear.filter fun kv => stripeSn kv.1 == m.sn).map Prod.snd

/-- Stripes a magazine has. -/
def Magazine.stripeCount (m : Magazine) : Nat := m.groups * m.perGroup

/-- Erase count of a stripe's blocks. -/
def State.erases (s : State) (m : Magazine) (k : Nat) : Nat := m.formats + tgetD s.flash.wear k 0

/-- Mean erase count, rounded down (R301). -/
def State.eraseMean (s : State) (m : Magazine) : Nat := m.formats + (s.wearOf m).sum / max 1 m.stripeCount

/-- Smallest erase count. -/
def State.eraseMin (s : State) (m : Magazine) : Nat :=
  m.formats + if (s.wearOf m).length < m.stripeCount then 0 else (s.wearOf m).foldl min (10 ^ 12)

/-- Largest erase count. -/
def State.eraseMax (s : State) (m : Magazine) : Nat := m.formats + (s.wearOf m).foldl max 0

/-- WEAR_PCT: mean erase count in percent of the rated endurance (R301). -/
def State.wearPct (s : State) (m : Magazine) : Nat :=
  (m.formats * m.stripeCount + (s.wearOf m).sum) * 100 / (max 1 m.stripeCount * max 1 m.geo.endurance)

/-- Body of a magazine first-format or threshold record (R444 TYPE 0x0032): bay, 0 format, 1 spares or 2 wear, value. -/
def magBody (bay kind value : Nat) : Bytes := fitTo 64 (putLE 1 bay ++ putLE 1 kind ++ putLE 2 value)

/-- Body of a first-format record (R284): USER_BLOCKS, the spare count and the geometry. -/
def formatBody (bay : Nat) (m : Magazine) : Bytes :=
  fitTo 64 (putLE 1 bay ++ zeros 3 ++ putLE 4 m.spares ++ putLE 8 m.userBlocks ++ putLE 2 (8 * m.diesPerChannel)
    ++ putLE 2 m.geo.planes ++ putLE 4 m.geo.dieBlocks ++ putLE 8 m.geo.dieBytes ++ putLE 4 m.geo.pageData ++ putLE 4 m.geo.pageSpare)

/-- Report one threshold crossed: event 0x0005 and a logbook record (R301). -/
def thresholdCrossed (bay wear thr : Nat) (s : State) : State :=
  logRecord 0x0032 (uMagazine bay) (magBody bay (1 + wear) thr)
    (raiseEvent 0x0005 (uMagazine bay) (bay + wear * 2 ^ 8 + thr * 2 ^ 16) s)

/-- The read-only turn (R302): state 4 (for a magazine whose eject may still be cancelled, once cancelled), volumes read-only, WRITEs whose data is not yet programmed refused. -/
def turnReadOnly (bay sn : Nat) (s : State) : State :=
  let s1 := showAmber bay s (modMag sn (fun m => { m with
    state := if m.state == 3 then 4 else m.state
    prior := if m.state == 5 && m.prior == 3 then 4 else m.prior }) s)
  let s2 := { s1 with flash := { s1.flash with
    volumes := tmapv s1.flash.volumes fun _ v => if v.sn == sn then { v with readOnly := true } else v } }
  let s3 := failWrites (fun c => ((tget s2.flash.volumes c.volume).map fun v => v.sn == sn).getD false)
    stMediaReadOnly s2
  raiseEvent 0x0005 (uMagazine bay) (bay + 2 * 2 ^ 16) s3

/-- Report what an operation did to the thresholds of a magazine: `s0` before it, `s` after (R301, R302). -/
def wearCheck (sn : Nat) (s0 s : State) : State :=
  match s0.flash.magazines.find? (fun kv => kv.2.sn == sn), s.flash.magazines.find? (fun kv => kv.2.sn == sn) with
  | some (_, m0), some (bay, m) =>
    let a := m0.sparePct
    let b := m.sparePct
    let x := s0.wearPct m0
    let y := s.wearPct m
    if m0.formatted then
      let s1 := ([50, 25, 10].filter fun t => decide (t < a ∧ b ≤ t)).foldl (fun t thr => thresholdCrossed bay 0 thr t) s
      let s2 := ([80, 90, 100].filter fun t => decide (x < t ∧ t ≤ y)).foldl (fun t thr => thresholdCrossed bay 1 thr t) s1
      if 2 < a ∧ b ≤ 2 then turnReadOnly bay sn s2 else s2
    else s
  | _, _ => s

/-! ### MAGAZINE_FORMAT, FOLD, REBUILD: long operations on a magazine -/

/-- The unit a magazine operation holds. -/
def magTarget (c : Cmd) (_ : State) : Nat := uMagazine (c.p8 32)

/-- The magazine a long operation works on. -/
def State.magAt (s : State) (bay : Nat) : Option Magazine := tget s.flash.magazines bay

/-- Check of MAGAZINE_FORMAT: state 2, 3 or 4, no volumes (R300). -/
def formatCheck (c : Cmd) (s : State) : Nat :=
  if 7 < c.p8 32 then stInvalidField
  else match s.magAt (c.p8 32) with
    | none => stPrecondition
    | some m =>
      if (m.state == 2 || m.state == 3 || m.state == 4) && (s.volumesOn m.sn).isEmpty then stOk else stPrecondition

/-- A magazine formatted for the first time has its capacity and spares fixed (R284). -/
def Magazine.afterFormat (m : Magazine) : Magazine :=
  if m.formatted then m
  else { m with formatted := true, userBlocks := m.firstUserBlocks, spares := m.firstSpares, state := 3 }

/-- Erase every block of a magazine that is not retired: each counts one erase (R300). -/
def eraseAll (sn : Nat) (s : State) : State :=
  let s1 := (((s.magOf sn).map fun bm => (List.range (8 * bm.2.diesPerChannel)).map fun d =>
    Output.flashOp .erase bm.1 (d * 2 ^ 32 + 0xFFFFFFFF)).getD [])
  modMag sn (fun m => { m with formats := m.formats + 1 })
    (emits s1 { s with flash := { s.flash with
      stripes := tfilter s.flash.stripes fun k _ => stripeSn k != sn
      home := tfilter s.flash.home fun _ st => stripeSn st != sn
      copies := tfilter s.flash.copies fun _ st => stripeSn st != sn } })

/-- Finish a format: mapping rebuilt, RESULT USER_BLOCKS; the first one is written to the logbook (R284, R300). -/
def formatDone (l : LongOp) (s : State) : State :=
  let bay := byteAt l.entry 32
  match s.magAt bay with
  | none => refuse l.pair l.cid stMediaRemoved s
  | some m =>
    if l.removed then refuse l.pair l.cid stMediaRemoved s
    else if s.flash.inhibit then pauseLong l l.progress s
    else
      let s1 := wearCheck m.sn s (modMag m.sn Magazine.afterFormat (eraseAll m.sn s))
      finish l.pair l.cid stOk m.afterFormat.userBlocks
        (if m.formatted then s1 else logRecord 0x0032 (uMagazine bay) (formatBody bay m.afterFormat) s1)

/-- MAGAZINE_FORMAT. -/
def execMagazineFormat (pair cid : Nat) (s : State) : Res :=
  live (runLong 0x0306 pair cid magTarget formatCheck formatDone) s

/-- Check of FOLD: TARGET_PCT at most 100, the magazine in state 3 or 4 (R293). -/
def foldCheck (c : Cmd) (s : State) : Nat :=
  if 7 < c.p8 32 ∨ 100 < c.p8 33 then stInvalidField
  else match s.magAt (c.p8 32) with
    | none => stPrecondition
    | some m => if m.state == 3 || m.state == 4 then stOk else stPrecondition

/-- SLC blocks a FOLD has yet to fold for its target (R293). -/
def State.foldLeft (s : State) (bay pct : Nat) (m : Magazine) : Nat :=
  s.slcUsed m.sn - s.slcCapacity bay m * pct / 100

/-- A slice of FOLD: fold `n` blocks of those left; gives the SLC blocks still occupied (R293). -/
def foldSome (l : LongOp) (n : Nat) (s : State) : State :=
  let bay := byteAt l.entry 32
  match s.magAt bay with
  | none => s
  | some m => foldBlocks m.sn (min n (s.foldLeft bay (byteAt l.entry 33) m)) s

/-- SLC occupancy of the magazine of a FOLD. -/
def State.foldResult (s : State) (l : LongOp) : Nat :=
  match s.magAt (byteAt l.entry 32) with
  | none => 0
  | some m => s.slcUsed m.sn

/-- Finish a FOLD: its target is reached; where there is no free stripe for more, it pauses short of it. While the program-inhibit
condition holds it only pauses (R305). -/
def foldDone (l : LongOp) (s : State) : State :=
  match s.magAt (byteAt l.entry 32) with
  | none => refuse l.pair l.cid stMediaRemoved s
  | some m =>
    if l.removed then refuse l.pair l.cid stMediaRemoved s
    else if s.flash.inhibit then pauseLong l (s.foldResult l) s
    else
      let s1 := wearCheck m.sn s (foldSome l (s.slcUsed m.sn) s)
      if s1.foldLeft (byteAt l.entry 32) (byteAt l.entry 33) m = 0 then finish l.pair l.cid stOk (s1.foldResult l) s1
      else pauseLong l (s1.foldResult l) s1

/-- Run a sliced command that reads flash to its end: where it would run and no landing buffer is allocated, it waits (R24). -/
def runLanding (op pair cid : Nat) (target check : Cmd → State → Nat) (f : LongOp → State → State) (s : State) : State :=
  runCmd op pair cid (fun c t =>
    match t.longEnter c (target c t) (check c t) with
    | .error st => refuse pair cid st t
    | .ok l => if t.landing then f l (dropLong l.handle t) else t) s

/-- FOLD. -/
def execFold (pair cid : Nat) (s : State) : Res := live (runLanding 0x0307 pair cid magTarget foldCheck foldDone) s

/-- The unit a REBUILD holds: the magazine of its volume. -/
def rebuildTarget (c : Cmd) (s : State) : Nat :=
  match tget s.flash.volumes c.volume with
  | none => uMagazine 8
  | some v => uMagazine ((s.bayOf v.sn).getD 8)

/-- Blocks of a REBUILD's range; COUNT 0 means to the end of the volume (R299). -/
def State.rebuildCount (s : State) (e : Bytes) : Nat :=
  let n := ((tget s.flash.volumes (field e 32 2)).map Volume.blocks).getD 0
  if field e 48 8 = 0 then n - field e 40 8 else field e 48 8

/-- Check of REBUILD (R299, R287). -/
def rebuildCheck (c : Cmd) (s : State) : Nat :=
  if 127 < c.volume ∨ eDataForm c.entry ≠ 1 then stInvalidField
  else s.volStatus c.volume (c.p64 40) (s.rebuildCount c.entry) false

/-- Runs of consecutive block addresses. -/
def extentsOf : List Nat → List (Nat × Nat)
  | [] => []
  | b :: t =>
    match extentsOf t with
    | [] => [(b, 1)]
    | (x, n) :: r => if x = b + 1 then (b, n + 1) :: r else (b, 1) :: (x, n) :: r

/-- Scan `n` blocks of a REBUILD from where it stands: relocate the weak ones, report each run of lost blocks as an
extent, as far as the buffer holds (R299). Progress is [39:0] blocks scanned, [63:40] extents written. -/
def rebuildScan (l : LongOp) (pcieOk : Bool) (weak : List Nat) (n : Nat) (s : State) : State × LongOp × Bool :=
  let volume := field l.entry 32 2
  let scanned := l.progress % 2 ^ 40
  let written := l.progress / 2 ^ 40
  let total := s.rebuildCount l.entry
  let n1 := min n (total - scanned)
  let first := field l.entry 40 8 + scanned
  let lost := (s.lostIn volume first n1).map (first + ·)
  let room := eDataLen l.entry / 16 - written
  let ext := extentsOf lost
  let fits := ext.take room
  let reached := if ext.length ≤ room then n1 else ((ext.drop room).headD (first, 0)).1 - first
  let bytes := (fits.map fun e => putLE 8 e.1 ++ putLE 4 e.2 ++ zeros 4).flatten
  let sn := ((tget s.flash.volumes volume).map Volume.sn).getD 0
  let copy (t : State) (k : Nat) : State := startCopies sn (s.blockClass k) none [k] t
  let moved := ((weak.filter fun b => first ≤ b ∧ b < first + reached).map (blockKey volume)).filter fun k =>
    thas s.flash.home k && !thas s.flash.copies k
  let s1 := moved.foldl copy (readRun volume first reached s)
  let s2 := if pcieOk && !fits.isEmpty then emit (.pcieWrite (s.dataVia l.pair) (eDataAddr l.entry + 16 * written) bytes) s1 else s1
  (s2, { l with progress := (scanned + reached) + (written + fits.length) * 2 ^ 40 }, decide (ext.length ≤ room))

/-- Finish a REBUILD (R299): ST_NO_RESOURCES where the buffer is full. -/
def rebuildDone (pcieOk : Bool) (weak : List Nat) (l : LongOp) (s : State) : State :=
  match tget s.flash.volumes (field l.entry 32 2) with
  | none => refuse l.pair l.cid stPrecondition s
  | some v =>
    match s.volMag v with
    | none => refuse l.pair l.cid stMediaRemoved s
    | some _ =>
      if l.removed then refuse l.pair l.cid stMediaRemoved s
      else if s.flash.inhibit && !weak.isEmpty then pauseLong l l.progress s
      else if !pcieOk then refuse l.pair l.cid stDataAddress s
      else
        let r := rebuildScan l pcieOk weak (s.rebuildCount l.entry) s
        finish l.pair l.cid (if r.2.2 then stOk else stNoResources) r.2.1.progress r.1

/-- REBUILD. -/
def execRebuild (pair cid : Nat) (pcieOk : Bool) (weak : List Nat) (s : State) : Res :=
  live (runLanding 0x0308 pair cid rebuildTarget rebuildCheck (rebuildDone pcieOk weak)) s

/-! ### WEAR_REPORT -/

/-- CHANNEL_RATE code of the slowest channel of a bay's magazine; 0 where one is out of service (R303). -/
def State.rateCode (s : State) (bay : Nat) (m : Magazine) : Nat :=
  if (List.range 8).all fun i => s.inService (uChannel (8 * bay + i)) then m.rates.foldl min 3 else 0

/-- Wear record of a bay (R303). -/
def State.wearRecord (s : State) (bay : Nat) : Bytes :=
  match s.magAt bay with
  | none => fitTo 128 (putLE 1 bay)
  | some m =>
    fitTo 128 (putLE 1 bay ++ putLE 1 m.state ++ putLE 1 m.sparePct ++ putLE 1 (s.rateCode bay m)
      ++ putLE 2 (8 * m.diesPerChannel) ++ putLE 2 (s.wearPct m) ++ putLE 8 m.userBlocks ++ putLE 8 (s.freeBlocks m)
      ++ putLE 8 (s.slcCapacity bay m) ++ putLE 8 (s.slcUsed m.sn) ++ putLE 8 m.hostWritten ++ putLE 8 m.flashWritten
      ++ putLE 4 (s.eraseMin m) ++ putLE 4 (s.eraseMean m) ++ putLE 4 (s.eraseMax m) ++ putLE 4 m.geo.endurance
      ++ putLE 4 m.retired ++ putLE 4 m.lost
      ++ ((List.range 8).map fun i => putLE 4 (min (m.hist.getD i 0) 0xFFFFFFFF)).flatten)

/-- WEAR_REPORT (R303): one record for a bay, or eight for 0xFF. -/
def wearReport (pcieOk : Bool) (c : Cmd) (s : State) : State :=
  if c.p8 32 = 0xFF then
    if c.exactBuf 1024 then replyData c pcieOk ((List.range 8).map s.wearRecord).flatten c.plainResult id s
    else refuse c.pair c.cid stInvalidField s
  else if 7 < c.p8 32 ∨ !c.exactBuf 128 then refuse c.pair c.cid stInvalidField s
  else replyData c pcieOk (s.wearRecord (c.p8 32)) c.plainResult id s

/-- WEAR_REPORT. -/
def execWearReport (pair cid : Nat) (pcieOk : Bool) (s : State) : Res :=
  live (runCmd 0x030B pair cid (wearReport pcieOk)) s

end Sys2Proof.Machine
end

