-- ==== Sys2Proof/Machine/Catalog.lean ====
section
/-! DEFINITION. Catalogs and routing summaries (R77 to R89): staging, committing, replacing, unloading and lookup. -/

namespace Sys2Proof.Machine

/-! ### Parsing (R77 to R80) -/

/-- A catalog run of 24 bytes (R77); none where a reserved bit is set or COUNT is out of range. -/
def parseRun (b : Bytes) : Option Run :=
  let first := field b 0 8
  let count := field b 8 4
  if first < 2 ^ 47 ∧ 1 ≤ count ∧ count ≤ 16777216 ∧ field b 22 2 = 0 then
    some { first := first, count := count, reel := field b 12 4, slateBase := field b 16 4, volume := field b 20 2 }
  else none

/-- Runs of a slice, ascending, disjoint and within [from, hi) (R79). -/
def parseRuns (hi : Nat) : Nat → List Bytes → Option (List Run)
  | _, [] => some []
  | low, b :: t =>
    match parseRun b with
    | none => none
    | some r =>
      if low ≤ r.first ∧ r.first + r.count ≤ hi then (parseRuns hi (r.first + r.count) t).map (r :: ·) else none

/-- Does a buffer hold whole slices, as far as their headers can be trusted (R82, R489)? A header with a wrong HEADER_CRC ends the
walk: that slice is judged by R83. -/
def wholeSlices : Nat → Bytes → Bool
  | 0, d => d.isEmpty
  | k + 1, d =>
    let n := field d 48 4
    if d.isEmpty then true
    else if d.length < 64 then false
    else if crc32c (d.take 60) ≠ field d 60 4 then true
    else decide (64 + 24 * n ≤ d.length) && wholeSlices k (d.drop (64 + 24 * n))

/-- What the first catalog slice of a buffer is: a slice and the rest, or the status that refuses it (R78, R83). -/
def parseSlice (h version size : Nat) (others : List Slice) (d : Bytes) : Except Nat (Slice × Bytes) :=
  let hdr := d.take 64
  let n := field hdr 48 4
  let body := sub d 64 (24 * n)
  if d.length < 64 then .error stInvalidField
  else if crc32c (hdr.take 60) ≠ field hdr 60 4 then .error stSignature
  else if d.length < 64 + 24 * n then .error stInvalidField
  else
    let lo := field hdr 32 8
    let hi := field hdr 40 8
    let no := field hdr 24 4
    let total := field hdr 28 4
    if field hdr 0 4 ≠ 0x53435A45 ∨ field hdr 4 2 ≠ h ∨ field hdr 6 2 ≠ 0 ∨ field hdr 8 8 ≠ version
        ∨ field hdr 16 8 ≠ size ∨ field hdr 56 4 ≠ 0 ∨ 2 ^ 47 ≤ lo ∨ 2 ^ 48 ≤ hi ∨ hi < lo ∨ size < hi ∨ total ≤ no
        ∨ others.any (fun s => s.total != total || s.no == no || decide (max lo s.lo < min hi s.hi)) then
      .error stInvalidField
    else if crc32c body ≠ field hdr 52 4 then .error stSignature
    else match parseRuns hi lo (pieces 24 n body) with
      | none => .error stInvalidField
      | some rs => .ok ({ no := no, total := total, lo := lo, hi := hi, runs := rs }, d.drop (64 + 24 * n))

/-- Routing summary entries, contiguous from `next` (R80). -/
def parseRoutes : Nat → List Bytes → Option (List Route × Nat)
  | next, [] => some ([], next)
  | next, b :: t =>
    let first := field b 0 8
    let count := field b 8 6
    if first = next ∧ first < 2 ^ 47 ∧ 1 ≤ count ∧ count ≤ 2 ^ 47 then
      (parseRoutes (next + count) t).map fun r => ({ first := first, count := count, node := field b 14 2 } :: r.1, r.2)
    else none

/-! ### Limits and effects -/

/-- Place a slice among others in the order of their ranges. -/
def insertSlice (a : Slice) : List Slice → List Slice
  | [] => [a]
  | b :: t => if a.lo ≤ b.lo then a :: b :: t else b :: insertSlice a t

/-- Runs staged in a load, in ascending order of their indices whatever order their slices came in. -/
def Staged.runs (g : Staged) : List Run := ((g.slices.foldr insertSlice []).map Slice.runs).flatten

/-- Runs held for all datasets, with a load of dataset `h` in place of its committed runs (R81). -/
def State.runsWith (s : State) (h : Nat) (g : Staged) : Nat :=
  ((s.cat.committed.filter fun kv => kv.1 != h).map fun kv => kv.2.runs.length).sum + g.runs.length

/-- Discard a dataset's staged data. -/
def unstage (h : Nat) (s : State) : State := { s with cat := { s.cat with staged := tdel s.cat.staged h } }

/-- Forget the reel headers read that no run, committed or still in use, refers to (R90). -/
def pruneHeaders (s : State) : State :=
  let used := ((tvals s.cat.committed).map Catalog.runs).flatten ++ (tvals s.cat.held).flatten
  { s with cat := { s.cat with
      headers := tfilter s.cat.headers fun k _ => used.any fun r => reelKey r.volume r.reel == k } }

/-- The bytes of a run as the part keeps it. -/
def Run.image (r : Run) : Bytes := putLE 8 r.first ++ putLE 8 r.slateBase ++ putLE 4 r.count ++ putLE 4 r.reel ++ putLE 8 r.volume

/-- Commit a load (R84): at once, while each running pipeline that uses the dataset keeps the runs it had until its next
step boundary. -/
def commitLoad (h : Nat) (g : Staged) (s : State) : State :=
  let old := ((tget s.cat.committed h).map Catalog.runs).getD []
  let users := s.pipes.filter fun kv => kv.2.active && decide (h ∈ kv.2.decl.datasets)
  let held := users.foldl (fun t kv =>
    if thas t (kv.1 * 2 ^ 16 + h) then t else tput t (kv.1 * 2 ^ 16 + h) old) s.cat.held
  let s1 := if users.isEmpty then s else moveObject 3 h 5 h s
  storeObject 3 h (g.runs.map Run.image).flatten (unstage h (pruneHeaders
    { s1 with cat := { s1.cat with
        committed := tput s1.cat.committed h { version := g.version, size := g.size, runs := g.runs }
        held := held } }))

/-- A pipeline has no more use for the old runs it holds: it has passed a step boundary, or runs no longer (R84). -/
def dropHeld (pipe : Nat) (s : State) : State :=
  pruneHeaders { s with cat := { s.cat with held := tfilter s.cat.held fun k _ => k / 2 ^ 16 != pipe } }

/-- Does a running pipeline use the dataset under another version or size (R84)? -/
def State.otherVersion (s : State) (h version size : Nat) : Bool :=
  s.datasetInUse h && !((tget s.cat.committed h).map fun c => c.version == version && c.size == size).getD false

/-- Stage up to `n` slices of the buffer; gives the status, the slices done and the rest (R82, R83). -/
def stageSlices (h version size pair : Nat) : Nat → Bytes → State → Nat × Nat × Bytes × State
  | 0, d, s => (stOk, 0, d, s)
  | n + 1, d, s =>
    if d.isEmpty then (stOk, 0, d, s)
    else
      let g := tgetD s.cat.staged h { pair := pair, version := version, size := size, slices := [] }
      match parseSlice h version size g.slices d with
      | .error st => (st, 0, d, unstage h s)
      | .ok (sl, rest) =>
        let g1 := { g with slices := g.slices ++ [sl] }
        if 16777216 < s.runsWith h g1 then (stNoResources, 0, d, unstage h s)
        else
          let r := stageSlices h version size pair n rest { s with cat := { s.cat with staged := tput s.cat.staged h g1 } }
          (r.1, r.2.1 + 1, r.2.2.1, r.2.2.2)

/-- The unit a CATALOG_LOAD holds: its dataset. -/
def catalogTarget (c : Cmd) (_ : State) : Nat := 2 ^ 20 + c.p16 32

/-- What a CATALOG_LOAD checks before it stages anything (R81 to R84); it may discard the dataset's staged data. -/
def loadEnter (e : Bytes) (pair : Nat) (s : State) : Nat × State :=
  let h := field e 32 2
  let version := field e 40 8
  let size := field e 48 8
  let first := bitOf (byteAt e 56) 0
  if 3 < byteAt e 56 then (stInvalidField, s)
  else if s.otherVersion h version size then (stVersion, unstage h s)
  else
    match tget s.cat.staged h, first with
    | some g, false =>
      if g.pair ≠ pair then (stBusy, s)
      else if 2 ^ 47 < size then (stNoResources, unstage h s)
      else if g.version ≠ version ∨ g.size ≠ size then (stInvalidField, unstage h s)
      else (stOk, s)
    | _, _ =>
      if size = 0 then (stInvalidField, s)
      else if 2 ^ 47 < size then (stNoResources, unstage h s)
      else (stOk, unstage h s)

/-- Finish a CATALOG_LOAD whose data is all staged: commit with LAST (R82, R83). -/
def loadEnd (l : LongOp) (s : State) : State :=
  let h := field l.entry 32 2
  match tget s.cat.staged h with
  | none => if bitOf (byteAt l.entry 56) 1 then refuse l.pair l.cid stPrecondition s else finish l.pair l.cid stOk 0 s
  | some g =>
    if bitOf (byteAt l.entry 56) 1 then
      if g.slices.length ≠ (g.slices.head?.map Slice.total).getD 0 ∨ g.slices.isEmpty then
        refuse l.pair l.cid stPrecondition (unstage h s)
      else if (!thas s.cat.committed h && decide (4096 ≤ s.cat.committed.length)) || decide (16777216 < s.runsWith h g) then
        refuse l.pair l.cid stNoResources (unstage h s)
      else finish l.pair l.cid stOk g.runs.length (commitLoad h g s)
    else finish l.pair l.cid stOk g.runs.length s

/-- Run `n` slices of a CATALOG_LOAD. A continuation is checked against R84 again. -/
def loadSome (l : LongOp) (n : Nat) (s : State) : Nat × LongOp × State :=
  let h := field l.entry 32 2
  let version := field l.entry 40 8
  let size := field l.entry 48 8
  let e := if l.paused then
      (if s.otherVersion h version size then (stVersion, unstage h s) else (stOk, s))
    else loadEnter l.entry l.pair s
  if e.1 ≠ stOk then (e.1, l, e.2)
  else
    let r := stageSlices h version size l.pair n l.data e.2
    (r.1, { l with data := r.2.2.1, progress := l.progress + r.2.1 }, r.2.2.2)

/-- The dataset of a CATALOG_LOAD stands on its command, whose PARAMS may be those of a continuation. -/
def noteDataset (l : LongOp) (s : State) : State :=
  modCmds (fun c => c.isOpen l.pair l.cid) (fun c => { c with wait := [field l.entry 32 2] }) s

/-- Finish a CATALOG_LOAD (R82 to R84). -/
def loadDone (l : LongOp) (s0 : State) : State :=
  let s := noteDataset l s0
  let r := loadSome l l.data.length s
  if r.1 ≠ stOk then refuse l.pair l.cid r.1 r.2.2 else loadEnd r.2.1 r.2.2

/-- Check of CATALOG_LOAD: its data is whole slices (R82); a breach has no effect (R489). -/
def catalogCheck (c : Cmd) (_ : State) : Nat :=
  match c.data with
  | none => stOk
  | some d => if wholeSlices d.length d then stOk else stInvalidField

/-- CATALOG_LOAD. -/
def execCatalogLoad (pair cid : Nat) (s : State) : Res :=
  live (runLong 0x0100 pair cid catalogTarget catalogCheck loadDone) s

/-- A CATALOG_LOAD of the dataset is outstanding, its completion not written, or paused (R88). -/
def State.loadingCatalog (s : State) (h : Nat) : Bool :=
  s.unitHeld (2 ^ 20 + h)
    || s.ken.cmds.any fun c => c.opcode == 0x0100 && ((!c.continues && c.p16 32 == h) || decide (h ∈ c.wait))

/-- CATALOG_UNLOAD (R88). -/
def catalogUnload (c : Cmd) (s : State) : State :=
  let h := c.p16 32
  if !thas s.cat.committed h && !thas s.cat.staged h && !thas s.cat.summaries h then
    refuse c.pair c.cid stPrecondition s
  else if s.datasetInUse h || s.loadingCatalog h then refuse c.pair c.cid stBusy s
  else
    finishPlain c.pair c.cid stOk (pruneHeaders
      { s with cat := { s.cat with
          committed := tdel s.cat.committed h
          staged := tdel s.cat.staged h
          summaries := tdel s.cat.summaries h
          held := tfilter s.cat.held fun k _ => k % 2 ^ 16 != h } })

/-- CATALOG_UNLOAD. -/
def execCatalogUnload (pair cid : Nat) (s : State) : Res := live (runCmd 0x0101 pair cid catalogUnload) s

/-! ### What is in effect -/

/-- The summary in effect for a batch: the last whose first batch is at most it (R86). -/
def State.summaryFor (s : State) (h batch : Nat) : Option Summary :=
  ((tgetD s.cat.summaries h []).filter fun m => decide (m.fromBatch ≤ batch)).getLast?

/-- Owner of an index in a summary (R80). -/
def Summary.owner (m : Summary) (i : Nat) : Option Nat :=
  (m.entries.find? fun e => decide (e.first ≤ i ∧ i < e.first + e.count)).map Route.node

/-- The run that covers an index. -/
def runOf (rs : List Run) (i : Nat) : Option Run := rs.find? fun r => decide (r.first ≤ i ∧ i < r.first + r.count)

/-- Newest batch in production of a pipeline; its cursor's batch where production of none has started. -/
def Pipeline.newest (p : Pipeline) : Nat := max p.cursor (p.started - 1)

/-- Newest batch in production among the running pipelines that use a dataset, with its pipeline (R89). -/
def State.newestUser (s : State) (h : Nat) : Option (Nat × Nat) :=
  (s.pipes.filter fun kv => kv.2.active && decide (h ∈ kv.2.decl.datasets)).foldl
    (fun o kv => match o with
      | none => some (kv.1, kv.2.newest)
      | some x => if x.2 < kv.2.newest then some (kv.1, kv.2.newest) else some x) none

/-- CATALOG_LOOKUP (R89). Where no summary is held the owner is not stated: a free value. -/
def catalogLookup (pcieOk : Bool) (c : Cmd) (s : State) : State :=
  let h := c.p16 32
  let i := c.p64 40
  if !c.exactBuf 32 then refuse c.pair c.cid stInvalidField s
  else match tget s.cat.committed h with
    | none => refuse c.pair c.cid stPrecondition s
    | some cat =>
      if cat.size ≤ i then refuse c.pair c.cid stInvalidField s
      else
        let user := s.newestUser h
        let runs := match user with
          | some u => s.runsFor u.1 h
          | none => cat.runs
        let owner := ((s.summaryFor h ((user.map Prod.snd).getD (2 ^ 64))).bind fun m => m.owner i).getD
          (Config.freeNat s.freeTick)
        let bytes := match runOf runs i with
          | none => putLE 2 owner ++ putLE 2 0xFFFF ++ putLE 4 0xFFFFFFFF ++ putLE 4 0xFFFFFFFF ++ zeros 4 ++ zeros 8
              ++ putLE 8 cat.version
          | some r =>
            putLE 2 owner ++ putLE 2 r.volume ++ putLE 4 r.reel ++ putLE 4 (r.slateBase + (i - r.first)) ++ zeros 4
              ++ putLE 8 (((tget s.cat.reels (reelKey r.volume r.reel)).map Reel.start).getD 0) ++ putLE 8 cat.version
        replyData c pcieOk bytes (if (runOf runs i).isSome then 1 else 0) id (tickFree s)

/-- CATALOG_LOOKUP. -/
def execCatalogLookup (pair cid : Nat) (pcieOk : Bool) (s : State) : Res :=
  live (runCmd 0x0102 pair cid (catalogLookup pcieOk)) s

/-! ### ROUTING_SUMMARY_LOAD -/

/-- Sizes a summary of a version is checked against: those of every load, committed or staged, of that version (R86). -/
def State.sizesOf (s : State) (h version : Nat) : List Nat :=
  (((tget s.cat.committed h).toList.map fun c => (c.version, c.size))
    ++ ((tget s.cat.staged h).toList.map fun g => (g.version, g.size))).filterMap fun p =>
    if p.1 = version then some p.2 else none

/-- Highest batch index whose production has started in a running pipeline of the dataset, plus 1; 0 for none (R86). -/
def State.startedOf (s : State) (h : Nat) : Nat :=
  ((s.pipes.filter fun kv => kv.2.active && decide (h ∈ kv.2.decl.datasets)).map fun kv => kv.2.started).foldl max 0

/-- Summary entries held for all datasets but `h`, plus those of `new` (R81). -/
def State.routesWith (s : State) (h : Nat) (new : List Summary) : Nat :=
  ((s.cat.summaries.filter fun kv => kv.1 != h).map fun kv => (kv.2.map fun m => m.entries.length).sum).sum
    + (new.map fun m => m.entries.length).sum

/-- The node makes the samples of its own identifier, or, as a lockstep shadow, of AS_NODE (R81, R427). -/
def State.makesFor (s : State) (pipe : Nat) : Nat :=
  match tget s.lock pipe with
  | some k => if k.role = 2 then k.asNode else s.fab.nodeId
  | none => s.fab.nodeId

/-- Drop the summaries of a dataset that govern only batches below `batch` (R86, R87). -/
def pruneSummaries (h batch : Nat) (s : State) : State :=
  let l := tgetD s.cat.summaries h []
  let current := (l.filter fun m => decide (m.fromBatch ≤ batch)).getLast?
  let kept := current.toList ++ l.filter fun m => decide (batch < m.fromBatch)
  { s with cat := { s.cat with summaries := if kept.isEmpty then s.cat.summaries else tput s.cat.summaries h kept } }

end Sys2Proof.Machine
end

