-- ==== Sys2Proof/Machine/Fp.lean ====
section
/-! DEFINITION. Number formats and arithmetic (R191 to R194, R197, R198): exact rationals, rounding to a binary format,
and FP32 operations, each rounded on its own to nearest even. -/

namespace Sys2Proof.Machine

/-! ### Exact rationals, not normalised -/

/-- A rational number `num / den`, den at least 1. -/
structure Q where
  num : Int
  den : Nat
  deriving DecidableEq, Repr

/-- An integer. -/
def Q.ofInt (n : Int) : Q := ⟨n, 1⟩
/-- A fraction of naturals. -/
def Q.frac (a b : Nat) : Q := ⟨a, b⟩
/-- Sum. -/
def Q.add (a b : Q) : Q := ⟨a.num * b.den + b.num * a.den, a.den * b.den⟩
/-- Negation. -/
def Q.neg (a : Q) : Q := ⟨-a.num, a.den⟩
/-- Difference. -/
def Q.sub (a b : Q) : Q := a.add b.neg
/-- Product. -/
def Q.mul (a b : Q) : Q := ⟨a.num * b.num, a.den * b.den⟩
/-- Quotient; 0 where the divisor is 0. -/
def Q.div (a b : Q) : Q :=
  if b.num = 0 then ⟨0, 1⟩
  else if b.num < 0 then ⟨-(a.num * b.den), a.den * b.num.natAbs⟩ else ⟨a.num * b.den, a.den * b.num.natAbs⟩
/-- Order. -/
def Q.lt (a b : Q) : Bool := decide (a.num * b.den < b.num * a.den)
/-- Order or equality. -/
def Q.le (a b : Q) : Bool := decide (a.num * b.den ≤ b.num * a.den)
/-- Magnitude. -/
def Q.abs (a : Q) : Q := ⟨a.num.natAbs, a.den⟩
/-- 2^e for an integer e. -/
def Q.pow2 (e : Int) : Q := if e < 0 then ⟨1, 2 ^ e.natAbs⟩ else ⟨(2 ^ e.natAbs : Nat), 1⟩
/-- Floor. -/
def Q.floor (a : Q) : Int := a.num.fdiv a.den
/-- Nearest integer, ties to even. -/
def Q.roundEven (a : Q) : Int :=
  let f := a.floor
  let r2 := 2 * (a.num - f * a.den)
  if r2 < a.den then f else if (a.den : Int) < r2 then f + 1 else if f % 2 = 0 then f else f + 1
/-- Truncation toward zero. -/
def Q.trunc (a : Q) : Int := if a.num < 0 then -(a.neg.floor) else a.floor
/-- Floor of log2 of a positive rational. -/
def Q.log2 (a : Q) : Int :=
  let l : Int := (Nat.log2 a.num.natAbs : Int) - (Nat.log2 a.den : Int)
  if (Q.pow2 l).le a then l else l - 1

/-- Integer square root by bits. -/
def isqrtBits (n : Nat) : Nat → Nat → Nat
  | 0, r => r
  | b + 1, r => isqrtBits n b (if (r + 2 ^ b) * (r + 2 ^ b) ≤ n then r + 2 ^ b else r)

/-- Floor of the square root. -/
def isqrt (n : Nat) : Nat := isqrtBits n (Nat.log2 n / 2 + 1) 0

/-! ### Binary formats -/

/-- A binary floating-point format (R191): exponent and mantissa bits, bias, and the code of its largest finite value;
`infCode` where it has an infinity; the code of a NaN, where it has one. -/
structure Fmt where
  eb : Nat
  mb : Nat
  bias : Nat
  maxCode : Nat
  inf : Option Nat
  nan : Option Nat
  deriving DecidableEq, Repr

abbrev fp32 : Fmt := ⟨8, 23, 127, 0x7F7FFFFF, some 0x7F800000, some 0x7FC00000⟩
abbrev bf16 : Fmt := ⟨8, 7, 127, 0x7F7F, some 0x7F80, some 0x7FC0⟩
abbrev fp16 : Fmt := ⟨5, 10, 15, 0x7BFF, some 0x7C00, some 0x7E00⟩
abbrev e4m3 : Fmt := ⟨4, 3, 7, 0x7E, none, some 0x7F⟩
abbrev e5m2 : Fmt := ⟨5, 2, 15, 0x7B, some 0x7C, some 0x7E⟩
abbrev e2m3 : Fmt := ⟨2, 3, 1, 0x1F, none, none⟩
abbrev e3m2 : Fmt := ⟨3, 2, 3, 0x1F, none, none⟩
abbrev e2m1 : Fmt := ⟨2, 1, 1, 0x7, none, none⟩

/-- The format of a code of R191 that is floating point. -/
def fmtOf (code : Nat) : Option Fmt :=
  match code with
  | 0 => some fp32
  | 1 => some bf16
  | 2 => some fp16
  | 3 => some e4m3
  | 4 => some e5m2
  | 7 => some e4m3
  | 8 => some e5m2
  | 9 => some e2m3
  | 10 => some e3m2
  | 11 => some e2m1
  | _ => none

/-- Smallest normal exponent. -/
def Fmt.emin (f : Fmt) : Int := 1 - (f.bias : Int)

/-- Sign bit of a code. -/
def Fmt.signOf (f : Fmt) (c : Nat) : Bool := bitOf c (f.eb + f.mb)

/-- Code without its sign. -/
def Fmt.magOf (f : Fmt) (c : Nat) : Nat := c % 2 ^ (f.eb + f.mb)

/-- Is the code a NaN of the format? -/
def Fmt.isNan (f : Fmt) (c : Nat) : Bool :=
  match f.inf, f.nan with
  | some i, _ => decide (i < f.magOf c)
  | none, some n => f.magOf c == n
  | none, none => false

/-- Is the code an infinity of the format? -/
def Fmt.isInf (f : Fmt) (c : Nat) : Bool := f.inf == some (f.magOf c)

/-- Magnitude of a finite code. -/
def Fmt.magVal (f : Fmt) (c : Nat) : Q :=
  let m := f.magOf c
  let e := m / 2 ^ f.mb
  let frac := m % 2 ^ f.mb
  if e = 0 then (Q.ofInt frac).mul (Q.pow2 (f.emin - f.mb))
  else (Q.ofInt (frac + 2 ^ f.mb : Nat)).mul (Q.pow2 ((e : Int) - f.bias - f.mb))

/-- Exact value of a finite code. -/
def Fmt.val (f : Fmt) (c : Nat) : Q := if f.signOf c then (f.magVal c).neg else f.magVal c

/-- Code of a sign and a magnitude code. -/
def Fmt.mk' (f : Fmt) (neg : Bool) (mag : Nat) : Nat := mag + if neg then 2 ^ (f.eb + f.mb) else 0

/-- Exponent of the last place of a positive magnitude in the format's precision, subnormal range included. -/
def Fmt.ulpExp (f : Fmt) (a : Q) : Int := max a.log2 f.emin - f.mb

/-- Magnitude code of `n` units in the last place at exponent `u`. -/
def Fmt.magCode (f : Fmt) (n : Int) (u : Int) : Nat := ((u + f.mb - f.emin) * (2 ^ f.mb : Nat) + n).toNat

/-- Magnitude code of a non-negative rational rounded to nearest even, not yet limited to the format's range. -/
def Fmt.roundMag (f : Fmt) (a : Q) : Nat :=
  if a.num = 0 then 0
  else
    let u := f.ulpExp a
    f.magCode (a.mul (Q.pow2 (-u))).roundEven u

/-- Magnitude code truncated toward zero. -/
def Fmt.truncMag (f : Fmt) (a : Q) : Nat :=
  if a.num = 0 then 0
  else
    let u := f.ulpExp a
    f.magCode (a.mul (Q.pow2 (-u))).floor u

/-! ### FP32 (R192) -/

/-- The NaN result. -/
def fNan : F32 := 0x7FC00000#32
/-- +0.0. -/
def fZero : F32 := 0#32
/-- 1.0. -/
def fOne : F32 := 0x3F800000#32
/-- −Inf. -/
def fNegInf : F32 := 0xFF800000#32
/-- +Inf. -/
def fInf : F32 := 0x7F800000#32

/-- Is it a NaN? -/
def fIsNan (x : F32) : Bool := fp32.isNan x.toNat
/-- Is it ±Inf? -/
def fIsInf (x : F32) : Bool := fp32.isInf x.toNat
/-- Sign bit. -/
def fNegative (x : F32) : Bool := fp32.signOf x.toNat
/-- Is it ±0.0? -/
def fIsZero (x : F32) : Bool := fp32.magOf x.toNat == 0
/-- Is it finite? -/
def fFinite (x : F32) : Bool := !fIsNan x && !fIsInf x
/-- Exact value of a finite FP32. -/
def fVal (x : F32) : Q := fp32.val x.toNat

/-- ±Inf. -/
def fInfOf (neg : Bool) : F32 := if neg then fNegInf else fInf
/-- ±0.0. -/
def fZeroOf (neg : Bool) : F32 := if neg then 0x80000000#32 else fZero

/-- An exact rational rounded to FP32; an exact zero takes the given sign. -/
def fRound (zneg : Bool) (a : Q) : F32 :=
  if a.num = 0 then fZeroOf zneg
  else
    let neg := decide (a.num < 0)
    let m := fp32.roundMag a.abs
    if fp32.maxCode < m then fInfOf neg else BitVec.ofNat 32 (fp32.mk' neg m)

/-- The FP32 value nearest to an exact real value given as a rational (R198). -/
def fConst (a : Q) : F32 := fRound false a

/-- Negation: the sign inverts; a NaN is the NaN result. -/
def fNeg (x : F32) : F32 := if fIsNan x then fNan else x ^^^ 0x80000000#32
/-- Magnitude. -/
def fAbs (x : F32) : F32 := if fIsNan x then fNan else x &&& 0x7FFFFFFF#32
/-- Magnitude of a with the sign of b. -/
def fCopysign (a b : F32) : F32 :=
  if fIsNan a then fNan else (a &&& 0x7FFFFFFF#32) ||| (b &&& 0x80000000#32)

/-- Sum. -/
def fAdd (a b : F32) : F32 :=
  if fIsNan a || fIsNan b then fNan
  else if fIsInf a then (if fIsInf b && fNegative a != fNegative b then fNan else a)
  else if fIsInf b then b
  else fRound (fNegative a && fNegative b) ((fVal a).add (fVal b))
/-- Difference. -/
def fSub (a b : F32) : F32 := if fIsNan b then fNan else fAdd a (b ^^^ 0x80000000#32)
/-- Product. -/
def fMul (a b : F32) : F32 :=
  let neg := fNegative a != fNegative b
  if fIsNan a || fIsNan b then fNan
  else if fIsInf a || fIsInf b then (if fIsZero a || fIsZero b then fNan else fInfOf neg)
  else fRound neg ((fVal a).mul (fVal b))
/-- Quotient. -/
def fDiv (a b : F32) : F32 :=
  let neg := fNegative a != fNegative b
  if fIsNan a || fIsNan b then fNan
  else if fIsInf a then (if fIsInf b then fNan else fInfOf neg)
  else if fIsInf b then fZeroOf neg
  else if fIsZero b then (if fIsZero a then fNan else fInfOf neg)
  else fRound neg ((fVal a).div (fVal b))
/-- a × b + c with one rounding. -/
def fFma (a b c : F32) : F32 :=
  let neg := fNegative a != fNegative b
  if fIsNan a || fIsNan b || fIsNan c then fNan
  else if fIsInf a || fIsInf b then
    (if fIsZero a || fIsZero b then fNan
     else if fIsInf c && fNegative c != neg then fNan else fInfOf neg)
  else if fIsInf c then c
  else fRound (neg && fNegative c) (((fVal a).mul (fVal b)).add (fVal c))

/-- Nearest FP32 to the square root of a positive rational: the root to 64 bits below the last place, with a sticky
unit when it is inexact, then one rounding. -/
def fSqrtQ (a : Q) : F32 :=
  let e := 2 * (100 + (Nat.log2 a.den))
  let n := a.num.natAbs * 2 ^ e / a.den
  let r := isqrt n
  let sticky := if r * r = n ∧ a.num.natAbs * 2 ^ e % a.den = 0 then 0 else 1
  fRound false ⟨((2 * r + sticky : Nat) : Int), 2 ^ (e / 2 + 1)⟩

/-- Square root. -/
def fSqrt (a : F32) : F32 :=
  if fIsNan a then fNan
  else if fIsZero a then a
  else if fNegative a then fNan
  else if fIsInf a then a
  else fSqrtQ (fVal a)

/-- Order key of a non-NaN: −0.0 below +0.0. -/
def fKey (x : F32) : Int := if fNegative x then -1 - (fp32.magOf x.toNat : Int) else fp32.magOf x.toNat
/-- MIN (R192). -/
def fMin (a b : F32) : F32 := if fIsNan a || fIsNan b then fNan else if fKey b < fKey a then b else a
/-- MAX (R192). -/
def fMax (a b : F32) : F32 := if fIsNan a || fIsNan b then fNan else if fKey a < fKey b then b else a
/-- Numeric order key of a non-NaN: both zeros alike. -/
def fOrd (x : F32) : Int := if fNegative x then -(fp32.magOf x.toNat : Int) else fp32.magOf x.toNat
/-- a < b; false with a NaN. -/
def fLt (a b : F32) : Bool := !fIsNan a && !fIsNan b && decide (fOrd a < fOrd b)
/-- a ≤ b; false with a NaN. -/
def fLe (a b : F32) : Bool := !fIsNan a && !fIsNan b && decide (fOrd a ≤ fOrd b)
/-- a = b; false with a NaN. -/
def fEq (a b : F32) : Bool := !fIsNan a && !fIsNan b && decide (fOrd a = fOrd b)

/-- An integer as FP32. -/
def fOfInt (n : Int) : F32 := fConst (Q.ofInt n)
/-- A natural as FP32. -/
def fOfNat (n : Nat) : F32 := fOfInt n

/-- Round to an integer by `g`, keeping NaN, Inf and the sign of zero. -/
def fInteger (g : Q → Int) (a : F32) : F32 :=
  if fIsNan a then fNan else if fIsInf a || fIsZero a then a else fRound (fNegative a) (Q.ofInt (g (fVal a)))
/-- Floor. -/
def fFloor (a : F32) : F32 := fInteger Q.floor a
/-- Ceiling. -/
def fCeil (a : F32) : F32 := fInteger (fun q => -(q.neg.floor)) a
/-- Nearest, ties to even. -/
def fRoundEven (a : F32) : F32 := fInteger Q.roundEven a
/-- Toward zero. -/
def fTrunc (a : F32) : F32 := fInteger Q.trunc a

/-- Exact IEEE remainder with truncated quotient (R207 FMOD); NaN for a NaN, an infinite a or a zero b. -/
def fMod (a b : F32) : F32 :=
  if fIsNan a || fIsNan b || fIsInf a || fIsZero b then fNan
  else if fIsInf b then a
  else
    let q := ((fVal a).div (fVal b)).trunc
    fRound (fNegative a) ((fVal a).sub ((Q.ofInt q).mul (fVal b)))

/-- The integer of an FP32 clamped to [lo, hi]; a NaN gives lo. -/
def fClampInt (g : Q → Int) (lo hi : Int) (a : F32) : Int :=
  if fIsNan a then lo
  else if fIsInf a then (if fNegative a then lo else hi)
  else max lo (min hi (g (fVal a)))

/-! ### Defined functions (R198) -/

/-- Coefficients c0 to c7: the FP32 values nearest to 1/j!. -/
def expCoef : List F32 := [1, 1, 2, 6, 24, 120, 720, 5040].map fun n => fConst (Q.frac 1 n)

/-- x × 2^n rounded once. -/
def fScale (x : F32) (n : Int) : F32 :=
  if !fFinite x || fIsZero x then x else fRound (fNegative x) ((fVal x).mul (Q.pow2 n))

/-- exp (R198). -/
def fExp (x : F32) : F32 :=
  if fIsNan x then fNan
  else if fIsInf x then (if fNegative x then fZero else fInf)
  else
    let n := fClampInt Q.roundEven (-300) 300 (fMul x 0x3FB8AA3B#32)
    let fn := fOfInt n
    let r := fSub (fSub x (fMul fn 0x3F317200#32)) (fMul fn 0x35BFBE8E#32)
    let p := (expCoef.reverse.drop 1).foldl (fun p c => fAdd (fMul p r) c) (expCoef.getLastD fOne)
    fScale p n

/-- The sign of y as ±1.0. -/
def fSignOne (y : F32) : F32 := if fNegative y then 0xBF800000#32 else fOne
/-- tanh (R198). -/
def fTanh (y : F32) : F32 :=
  if fIsNan y then fNan
  else fMul (fSignOne y) (fSub fOne (fDiv (fOfNat 2) (fAdd (fExp (fMul (fOfNat 2) (fAbs y))) fOne)))
/-- sigmoid. -/
def fSigmoid (y : F32) : F32 := fDiv fOne (fAdd fOne (fExp (fNeg y)))
/-- GELU, evaluated left to right. -/
def fGelu (x : F32) : F32 :=
  let inner := fMul 0x3F4C422A#32 (fAdd x (fMul (fMul (fMul 0x3D372713#32 x) x) x))
  fMul (fMul 0x3F000000#32 x) (fAdd fOne (fTanh inner))
/-- SiLU. -/
def fSilu (x : F32) : F32 := fDiv x (fAdd fOne (fExp (fNeg x)))
/-- 1/√x in two roundings. -/
def fRsqrt (x : F32) : F32 := fDiv fOne (fSqrt x)

/-- The uniform FP32 of a draw word (R110). -/
def fUniform (w : Nat) : F32 := fConst (Q.frac (w / 2 ^ 8) (2 ^ 24))
/-- The Bernoulli conversion of a draw word with probability q (R110). -/
def fBernoulli (w : Nat) (q : F32) : Bool := fLt (fUniform w) q

/-! ### The fixed reduction order (R194) -/

/-- One level of the balanced tree: adjacent pairs. -/
def addPairs : List F32 → List F32
  | a :: b :: t => fAdd a b :: addPairs t
  | l => l

/-- A chunk of at most 32 terms, padded with +0.0, summed by 5 levels. -/
def chunkSum (l : List F32) : F32 :=
  (addPairs (addPairs (addPairs (addPairs (addPairs (l ++ List.replicate (32 - l.length) fZero)))))).headD fZero

/-- Chunks of 32 terms. -/
def chunks32 (l : List F32) : List (List F32) :=
  (List.range (ceilDiv l.length 32)).map fun i => (l.drop (32 * i)).take 32

/-- The fixed-order sum; of no terms, +0.0. -/
def fixedSum (l : List F32) : F32 :=
  match (chunks32 l).map chunkSum with
  | [] => fZero
  | c :: t => t.foldl fAdd c

/-! ### Narrow formats (R193, R197) -/

/-- Stochastic step: magnitude code of |x| truncated, moved one step away from zero when the top 24 dropped bits exceed
the draw word's top 24 bits (R197). -/
def Fmt.stochMag (f : Fmt) (a : Q) (w : Nat) : Nat :=
  if a.num = 0 then 0
  else
    let t := f.truncMag a
    let ux := fp32.ulpExp a
    let drop := (f.ulpExp a - ux).toNat
    let bitsDropped := (a.mul (Q.pow2 (-ux))).floor.toNat % 2 ^ drop
    let g := if drop < 24 then bitsDropped * 2 ^ (24 - drop) else bitsDropped / 2 ^ (drop - 24)
    if w / 2 ^ 8 < g then t + 1 else t

/-- FP32 to a format: `sr` carries the draw word of a rounding site; SAT and FLUSH as R193. The element formats without
infinity always saturate. -/
def Fmt.ofF32 (f : Fmt) (sat flush : Bool) (sr : Option Nat) (x : F32) : Nat :=
  let neg := fNegative x
  let tiny := decide (0 < fp32.magOf x.toNat ∧ fp32.magOf x.toNat < 2 ^ 23)
  if fIsNan x then f.nan.getD f.maxCode
  else if fIsInf x then (match f.inf with
    | some i => f.mk' neg (if sat then f.maxCode else i)
    | none => f.mk' neg f.maxCode)
  else if flush && tiny then f.mk' neg 0
  else
    let a := (fVal x).abs
    let m := match sr with
      | some w => f.stochMag a w
      | none => f.roundMag a
    let m1 := if flush && decide (m < 2 ^ f.mb) then 0 else m
    if f.maxCode < m1 then (match f.inf with
      | some i => f.mk' neg (if sat then f.maxCode else i)
      | none => f.mk' neg f.maxCode)
    else f.mk' neg m1

/-- A format's code as FP32, exact (R193). -/
def Fmt.toF32 (f : Fmt) (c : Nat) : F32 :=
  if f.isNan c then fNan else if f.isInf c then fInfOf (f.signOf c) else fRound (f.signOf c) (f.val c)

/-- FP32 to UINT8 (R193). -/
def toUint8 (x : F32) : Nat := if fIsNan x then 0 else (fClampInt Q.roundEven 0 255 x).toNat

/-- FP32 to a two's-complement integer of w bits, nearest even, saturating (R210: an integer activation saturates). -/
def toIntN (w : Nat) (x : F32) : Int :=
  if fIsNan x then 0 else fClampInt Q.roundEven (-(2 ^ (w - 1) : Nat)) ((2 ^ (w - 1) : Nat) - 1) x

/-! ### Constants from exact real values (R198): cosines, sines, powers

The exact real is taken to 2^-300, far below any FP32 tie that could arise, and rounded once. -/

/-- 2^300, the unit of the fixed-point evaluation. -/
def fxOne : Int := (2 ^ 300 : Nat)

/-- Sum of a power series with term ratio given by `next k term`. -/
def fxSeries (next : Nat → Int → Int) : Nat → Nat → Int → Int → Int
  | 0, _, _, acc => acc
  | fuel + 1, k, term, acc => let t := next k term; fxSeries next fuel (k + 1) t (acc + t)

/-- atan(1/n) in units of 2^-300. -/
def fxAtanInv (n : Nat) : Int :=
  ((List.range 150).foldl (fun (p : Int × Int) (k : Nat) =>
    (p.1 + (if k % 2 = 0 then p.2 / (2 * k + 1) else -(p.2 / (2 * k + 1))), p.2 / (n * n : Nat)))
    (0, fxOne / (n : Int))).1

/-- π in units of 2^-300 (Machin). -/
def fxPi : Int := 4 * (4 * fxAtanInv 5 - fxAtanInv 239)

/-- cos of x, |x| at most about 7, in units of 2^-300. -/
def fxCos (x : Int) : Int :=
  fxSeries (fun k t => -(t * x / fxOne * x / fxOne) / ((2 * k + 1) * (2 * k + 2) : Nat)) 80 0 fxOne fxOne
/-- sin of x. -/
def fxSin (x : Int) : Int :=
  fxSeries (fun k t => -(t * x / fxOne * x / fxOne) / ((2 * k + 2) * (2 * k + 3) : Nat)) 80 0 x x
/-- exp of x, |x| at most 1. -/
def fxExp (x : Int) : Int := fxSeries (fun k t => t * x / fxOne / ((k + 1 : Nat) : Int)) 90 0 fxOne fxOne

/-- A fixed-point value as a rational, values under 2^-250 being exact zeros. -/
def fxQ (x : Int) : Q := if x.natAbs < 2 ^ 50 then Q.ofInt 0 else ⟨x, 2 ^ 300⟩

/-- An angle in degrees, reduced to [0, 360), in radians in units of 2^-300. -/
def fxRadians (deg : Q) : Int :=
  let d := deg.sub ((Q.ofInt 360).mul (Q.ofInt (deg.div (Q.ofInt 360)).floor))
  d.num * fxPi / ((180 * d.den : Nat) : Int)

/-- The FP32 nearest to cos of an angle in degrees. -/
def fCosDeg (deg : F32) : F32 := if fFinite deg then fConst (fxQ (fxCos (fxRadians (fVal deg)))) else fNan
/-- The FP32 nearest to sin of an angle in degrees. -/
def fSinDeg (deg : F32) : F32 := if fFinite deg then fConst (fxQ (fxSin (fxRadians (fVal deg)))) else fNan

/-- ln 2 in units of 2^-300: 2 atanh(1/3). -/
def fxLn2 : Int :=
  2 * ((List.range 150).foldl (fun (p : Int × Int) (k : Nat) => (p.1 + p.2 / (2 * k + 1), p.2 / 9)) (0, fxOne / 3)).1
/-- ln 10 = 3 ln 2 + ln(5/4), the last as 2 atanh(1/9). -/
def fxLn10 : Int :=
  3 * fxLn2 +
    2 * ((List.range 120).foldl (fun (p : Int × Int) (k : Nat) => (p.1 + p.2 / (2 * k + 1), p.2 / 81)) (0, fxOne / 9)).1

/-- The FP32 nearest to 10^(g/20) (R205). -/
def fDecibel (g : F32) : F32 :=
  if fIsNan g then fNan
  else if fIsInf g then (if fNegative g then fZero else fInf)
  else
    let v := fVal g
    if (Q.ofInt 1000).lt v then fInf
    else if v.lt (Q.ofInt (-1000)) then fZero
    else
      let y := v.num * fxLn10 / ((20 * v.den : Nat) : Int)
      let k := y.fdiv fxLn2
      fConst ((Q.mk (fxExp (y - k * fxLn2)) (2 ^ 300)).mul (Q.pow2 k))

/-! ### Runs of FP32 values as bytes -/

/-- FP32 values of a run of bytes, little-endian. -/
def f32sOf (bs : Bytes) : List F32 :=
  (List.range (bs.length / 4)).map fun i => BitVec.ofNat 32 (field bs (4 * i) 4)

/-- FP32 value at a byte offset. -/
def f32At (bs : Bytes) (off : Nat) : F32 := BitVec.ofNat 32 (field bs off 4)

/-- Bytes of FP32 values. -/
def f32Bytes (xs : List F32) : Bytes := (xs.map fun x => putLE 4 x.toNat).flatten

end Sys2Proof.Machine
end

