-- ==== Sys2Proof/Machine/Declare.lean ====
section
/-! DEFINITION. The operator catalogue, the parameter blocks of the operators, and PIPELINE_DECLARE (R109, R111 to R117,
R124, R127, R156, R158, R161, R162, R170, R181, R183, R189, R201 to R208, R213, R227, R262, R437). -/

namespace Sys2Proof.Machine

/-! ### The catalogue (R117) -/

/-- Engine code of an operator (R117, R119). -/
def opEngine (op : Nat) : Nat :=
  if op = 0x0101 ∨ op = 0x0102 ∨ op = 0x0103 ∨ op = 0x0104 ∨ op = 0x0703 then 1
  else if op = 0x0201 then 2
  else if op = 0x0202 then 3
  else if op = 0x0203 then 4
  else if op = 0x0501 ∨ op = 0x0502 ∨ op = 0x0503 then 5
  else if op / 256 = 3 then 6
  else if op = 0x0401 ∨ op = 0x0402 then 7
  else if op = 0x0702 then 9
  else 8

/-- Stage kind of an operator that a declaration may list (R117); none where it may not. -/
def opKind (op : Nat) : Option Nat :=
  if op = 0x0101 ∨ op = 0x0102 ∨ op = 0x0103 ∨ op = 0x0104 then some 1
  else if op = 0x0201 ∨ op = 0x0202 ∨ op = 0x0203 then some 2
  else if 0x0301 ≤ op ∧ op ≤ 0x0308 then some 3
  else if op = 0x0401 ∨ op = 0x0402 then some 4
  else if op = 0x0501 ∨ op = 0x0502 ∨ op = 0x0503 then some 5
  else if op = 0x0601 then some 6
  else if op = 0x0701 then some 7
  else if op = 0x0702 ∨ op = 0x0703 then some 8
  else none

/-- Default budget of an operator (R146, R162, R184, R198, R211, R262); 0 where its chapter states none. -/
def opBudget (op : Nat) : Nat :=
  if opEngine op = 1 then 262144
  else if op = 0x0201 then 1048576
  else if op = 0x0202 then 4194304
  else if op = 0x0203 then 65536
  else if op = 0x0501 ∨ op = 0x0503 then 65536
  else if op = 0x0502 then 262144
  else if opEngine op = 6 ∨ opEngine op = 7 then 16777216
  else 0

/-! ### Parameter blocks -/

/-- A predicate term (R124, R125). -/
def termOk (t : Bytes) : Bool :=
  decide (byteAt t 0 ≤ 11) && decide (byteAt t 1 ≤ 8) && decide (byteAt t 2 ≤ 7) && decide (byteAt t 3 ≤ 1)
    && zeroAt t 4 4 && !(byteAt t 0 == 11 && decide (7 ≤ byteAt t 1))

/-- SLATE_PREDICATE: 1 to 32 terms of 24 bytes (R124). -/
def predicateOk (p : Bytes) : Bool :=
  p.length % 24 == 0 && decide (1 ≤ p.length / 24 ∧ p.length / 24 ≤ 32) && (pieces 24 32 p).all termOk

/-- MINHASH (R262). -/
def minhashOk (p : Bytes) : Bool :=
  let h := field p 2 2
  p.length == 32 + 16 * h && decide (1 ≤ byteAt p 0 ∧ byteAt p 0 ≤ 64) && decide (1 ≤ h ∧ h ≤ 256)
    && zeroAt p 4 4 && field p 8 8 % 4096 == 0
    && decide (4 ≤ byteAt p 16 ∧ byteAt p 16 ≤ 20) && zeroAt p 17 15
    && (pieces 16 h (p.drop 32)).all fun q =>
        decide (1 ≤ field q 0 8 ∧ field q 0 8 ≤ 2 ^ 61 - 2 ∧ field q 8 8 ≤ 2 ^ 61 - 2)

/-- IMAGE_DECODE (R156). -/
def imageOk (p : Bytes) : Bool :=
  p.isEmpty || (p.length == 16 && decide (byteAt p 0 ≤ 2) && byteAt p 1 == 0 && decide (field p 2 2 ≤ 1000)
    && decide (field p 4 2 ≤ 16384) && decide (field p 6 2 ≤ 16384) && zeroAt p 8 8)

/-- VIDEO_DECODE (R158). -/
def videoOk (p : Bytes) : Bool :=
  p.length == 16 && decide (1 ≤ byteAt p 0 ∧ byteAt p 0 ≤ 64) && decide (1 ≤ byteAt p 1 ∧ byteAt p 1 ≤ 16)
    && decide (byteAt p 2 ≤ 2) && byteAt p 3 == 0 && decide (field p 4 2 ≤ 1000) && zeroAt p 6 10

/-- AUDIO_DECODE (R161). -/
def audioOk (p : Bytes) : Bool :=
  p.length == 16 && decide (1 ≤ field p 4 4 ∧ field p 4 4 ≤ 16777216) && decide (1 ≤ byteAt p 8 ∧ byteAt p 8 ≤ 2)
    && decide (byteAt p 9 ≤ 2) && decide (field p 10 2 ≤ 1000) && zeroAt p 12 4

/-- CONVERT (R206): stochastic rounding only into BF16, FP16, E4M3 and E5M2 (R197). -/
def convertOk (p : Bytes) : Bool :=
  let fmt := byteAt p 0
  let sr := bitOf (byteAt p 1) 0
  p.length == 8 && (decide (fmt ≤ 4) || fmt == 12) && decide (byteAt p 1 ≤ 15) && zeroAt p 2 2
    && (if sr then decide (1 ≤ fmt ∧ fmt ≤ 4 ∧ 1 ≤ field p 4 4 ∧ field p 4 4 ≤ 16777216) else field p 4 4 == 0)

/-- Opcode of an expression instruction (R207). -/
def exOp (w : Nat) : Nat := bits w 63 58
/-- IMM of an expression instruction. -/
def exImm (w : Nat) : Nat := bits w 31 0

/-- Instructions of an EXPRESSION block. -/
def exCode (p : Bytes) : List Nat := (pieces 8 512 (p.drop 16)).map fun b => field b 0 8

/-- RAND instructions of a program that draw from a stream: 0 stream 1, 1 the named stream. -/
def exRands (p : Bytes) : List Nat := ((exCode p).filter fun w => exOp w == 0x2C).map exImm

/-- EXPRESSION (R207): refused without a final END, with an undefined opcode, a SKIPZ past END, more than 64 RAND
instructions, or a write of a channel not below OUT_C. `stream` is the entry's STREAM; a RAND that names it needs one. -/
def expressionOk (p : Bytes) (stream : Nat) : Bool :=
  let n := field p 0 2
  let c := byteAt p 6
  let code := exCode p
  decide (1 ≤ n ∧ n ≤ 512) && p.length == 16 + 8 * n && decide (c ≤ 8) && zeroAt p 7 9
    && (code.getLast?.map exOp) == some 0x2F
    && code.zipIdx.all (fun w => decide (exOp w.1 ≤ 0x2F) && bits w.1 37 32 == 0
        && (exOp w.1 != 0x24 || decide (w.2 + 1 + exImm w.1 < n))
        && (exOp w.1 != 0x27 || c == 0 || decide (exImm w.1 % 8 < c)))
    && decide ((exRands p).length ≤ 64)
    && (exRands p).all fun i => i == 0 || (i == 1 && stream != 0)

/-- TOKENIZE (R181). -/
def tokenizeOk (p : Bytes) : Bool :=
  p.length == 32 && decide (byteAt p 0 ≤ 7) && decide (byteAt p 1 ≤ 2) && decide (byteAt p 2 ≤ 1) && byteAt p 3 == 0
    && fLe fZero (f32At p 12) && fLt (f32At p 12) fOne && decide (field p 16 2 ≤ 1000) && zeroAt p 18 14

/-- GRAMMAR (R189). -/
def grammarOk (p : Bytes) : Bool :=
  p.length == 16 && decide (byteAt p 0 ≤ 7) && decide (byteAt p 1 ≤ 2) && decide (byteAt p 2 ≤ 1)
    && decide (byteAt p 3 ≤ 1) && decide (field p 4 2 ≤ 1024) && zeroAt p 6 10

/-- SCORE_FILTER (R127), its source apart. -/
def filterOk (p : Bytes) : Bool :=
  p.length == 32 && (field p 2 2 == 0x0401 || field p 2 2 == 0x0402) && decide (byteAt p 8 ≤ 1) && zeroAt p 9 3
    && zeroAt p 20 12 && (byteAt p 8 == 0 || fLt (f32At p 12) (f32At p 16))

/-- Offset of the mask rows in a sequence payload (R229). -/
def rowOff (seqLen maxSeg : Nat) : Nat := roundUp (6 * seqLen) 64 + 32 * maxSeg

/-- SPLICE (R227). -/
def spliceOk (p : Bytes) (outputBytes : Nat) : Bool :=
  p.length == 16 && decide (1 ≤ field p 0 4 ∧ field p 0 4 ≤ 262144) && decide (1 ≤ field p 8 2 ∧ field p 8 2 ≤ 4096)
    && decide (byteAt p 10 ≤ 1) && zeroAt p 11 5 && decide (rowOff (field p 0 4) (field p 8 2) ≤ outputBytes)

/-- SAMPLE_DIGEST (R437). -/
def digestOk (p : Bytes) : Bool :=
  p.length == 32 && decide (1 ≤ byteAt p 0 ∧ byteAt p 0 ≤ 3) && byteAt p 1 == 0 && zeroAt p 4 4
    && field p 8 8 % 4096 == 0 && decide (4 ≤ byteAt p 16 ∧ byteAt p 16 ≤ 20) && zeroAt p 17 15

/-- Is an operator's parameter block one its chapter accepts? -/
def paramsOk (op stream outputBytes : Nat) (p : Bytes) : Bool :=
  if op = 0x0101 ∨ op = 0x0102 ∨ op = 0x0302 ∨ op = 0x0304 ∨ op = 0x0702 then p.isEmpty
  else if op = 0x0103 then predicateOk p
  else if op = 0x0104 then minhashOk p
  else if op = 0x0201 then imageOk p
  else if op = 0x0202 then videoOk p
  else if op = 0x0203 then audioOk p
  else if op = 0x0301 then
    p.length == 8 && decide (1 ≤ field p 0 2 ∧ field p 0 2 ≤ 16384 ∧ 1 ≤ field p 2 2 ∧ field p 2 2 ≤ 16384)
      && decide (byteAt p 4 ≤ 3) && zeroAt p 5 3
  else if op = 0x0303 then p.length == 8 && decide (byteAt p 0 ≤ 1) && zeroAt p 1 3
  else if op = 0x0305 then p.length == 64
  else if op = 0x0306 then convertOk p
  else if op = 0x0307 then expressionOk p stream
  else if op = 0x0308 then p.length == 8 && decide (byteAt p 0 ≤ 1) && zeroAt p 1 7
  else if op = 0x0401 ∨ op = 0x0402 then p.length == 8 && decide (byteAt p 0 ≤ 48) && zeroAt p 1 3
  else if op = 0x0501 then tokenizeOk p
  else if op = 0x0502 then grammarOk p
  else if op = 0x0503 then p.length == 8 && zeroAt p 4 4
  else if op = 0x0601 then filterOk p
  else if op = 0x0701 then spliceOk p outputBytes
  else digestOk p

/-! ### Parsing a declaration (R112 to R114) -/

/-- Parameter block of an operator entry. -/
def Decl.block (d : Decl) (o : OpE) : Bytes := sub d.params o.pOff o.pLen

/-- A stage table entry, with its reserved bytes clear. -/
def parseStage (b : Bytes) : Option StageE :=
  if zeroAt b 7 9 then
    some { id := field b 0 2, kind := byteAt b 2, classes := byteAt b 3, firstOp := field b 4 2, opCount := byteAt b 6 }
  else none

/-- An operator table entry, with its reserved bytes clear. -/
def parseOp (b : Bytes) : Option OpE :=
  if zeroAt b 18 14 then
    some {
      op := field b 0 2, stage := field b 2 2, pOff := field b 4 4, pLen := field b 8 4, budget := field b 12 4,
      stream := byteAt b 16, slot := byteAt b 17 }
  else none

/-- The declaration of a pipeline, where its header and regions are well formed (R112). -/
def parseDecl (pipeline : Nat) (d : Bytes) : Option Decl :=
  let m := field d 52 2
  let ns := byteAt d 54
  let no := field d 56 2
  let np := field d 60 4
  let o1 := 128 + roundUp (2 * m) 8
  let o2 := o1 + 16 * ns
  let o3 := o2 + 32 * no
  let out := field d 64 4
  let ok := field d 0 4 == 0x44505A45 && field d 4 2 == 1 && byteAt d 6 == pipeline && byteAt d 7 == 0
    && decide (1 ≤ field d 40 4 ∧ field d 40 4 ≤ 1048576) && decide (1 ≤ field d 44 4 ∧ field d 44 4 ≤ 65536)
    && decide (byteAt d 48 ≤ 1) && decide (byteAt d 49 ≤ 1) && decide (byteAt d 50 ≤ 2) && byteAt d 51 == 0
    && decide (1 ≤ m ∧ m ≤ 4096) && decide (2 ≤ ns ∧ ns ≤ 32) && byteAt d 55 == 0 && decide (1 ≤ no ∧ no ≤ 256)
    && zeroAt d 58 2 && np % 8 == 0 && decide (np ≤ 2 ^ 24) && out % 64 == 0
    && decide (64 ≤ out ∧ out ≤ 268435456) && zeroAt d 72 56 && d.length == o3 + np
    && zeroAt d (128 + 2 * m) (o1 - 128 - 2 * m)
  if ok then
    match (pieces 16 ns (sub d o1 (16 * ns))).mapM parseStage, (pieces 32 no (sub d o2 (32 * no))).mapM parseOp with
    | some stages, some ops =>
      some {
        batch := field d 40 4, epochs := field d 44 4, tail := byteAt d 48, corrupt := byteAt d 49,
        shotMode := byteAt d 50, datasets := (List.range m).map fun i => field d (128 + 2 * i) 2, stages := stages,
        ops := ops, params := d.drop o3, outputBytes := out, opcat := field d 68 4, seed := sub d 8 32, raw := d }
    | _, _ => none
  else none

/-! ### Stage rules (R113, R115, R170) -/

/-- Operators of a stage, in table order. -/
def Decl.opsOf (d : Decl) (st : StageE) : List OpE := (d.ops.drop st.firstOp).take st.opCount

/-- The stages' operator ranges follow one another and cover the table (R113). -/
def rangesOk : Nat → Nat → List StageE → Bool
  | next, total, [] => next == total
  | next, total, s :: t => s.firstOp == next && rangesOk (next + s.opCount) total t

/-- Does a stage take samples of a class? -/
def StageE.has (s : StageE) (c : Nat) : Bool := bitOf s.classes c

/-- Indexes, in the stage table, of the stages of a kind. -/
def Decl.kindIdx (d : Decl) (k : Nat) : List Nat := (d.stages.zipIdx.filter fun p => p.1.kind == k).map Prod.snd

/-- The stage at an index, and the classes it takes that another takes too. -/
def Decl.stageAt (d : Decl) (i : Nat) : Option StageE := d.stages[i]?

/-- Every stage of kind `k1` that shares a class with a stage of kind `k2` comes before it (R115). -/
def Decl.before (d : Decl) (k1 k2 : Nat) : Bool :=
  d.stages.zipIdx.all fun a => d.stages.zipIdx.all fun b =>
    !(a.1.kind == k1 && b.1.kind == k2 && (List.range 6).any fun c => a.1.has c && b.1.has c) || decide (a.2 < b.2)

/-- At most one DECODE stage for each class (R115). -/
def Decl.oneDecode (d : Decl) : Bool :=
  (List.range 6).all fun c => decide ((d.stages.filter fun s => s.kind == 2 && s.has c).length ≤ 1)

/-- Placement of the stages (R115). -/
def Decl.placed (d : Decl) : Bool :=
  let n := d.stages.length
  let fetch := (d.stages.headD ⟨0, 0, 0, 0, 0⟩)
  let deliver := (d.stages.getLastD ⟨0, 0, 0, 0, 0⟩)
  d.kindIdx 1 == [0] && d.kindIdx 8 == [n - 1] && deliver.classes == fetch.classes
    && d.stages.all (fun s => decide (1 ≤ s.kind ∧ s.kind ≤ 8) && s.classes != 0
        && (List.range 8).all fun c => !s.has c || (decide (1 ≤ c ∧ c ≤ 5) && fetch.has c))
    && d.oneDecode && d.stages.all (fun s => s.kind != 2 || (!s.has 2 && !s.has 5))
    && d.before 2 3 && d.before 2 4 && d.before 5 4
    && decide ((d.kindIdx 5).length ≤ 1) && d.stages.all (fun s => s.kind != 5 || s.classes == 4)
    && (d.kindIdx 7 == [] || (d.kindIdx 7 == [n - 2] && d.kindIdx 5 != []))
    && d.stages.all (fun s => s.kind != 7 || s.classes == 4)

/-- A TOKEN stage begins with TOKENIZE (R170). -/
def Decl.tokenOk (d : Decl) : Bool :=
  d.stages.all fun s => s.kind != 5 || ((d.opsOf s).head?.map OpE.op) == some 0x0501

/-- The stage table (R113). -/
def Decl.stagesOk (d : Decl) : Bool :=
  d.stages.all (fun s => decide (1 ≤ s.id ∧ s.id ≤ 0xFFFE) && decide (1 ≤ s.opCount ∧ s.opCount ≤ 16))
    && decide ((d.stages.map StageE.id).Nodup) && rangesOk 0 d.ops.length d.stages

/-- Does an operator name a draw stream (R108)? -/
def namesStream (op : Nat) : Bool := op == 0x0307

/-- One operator of a stage (R114, R116, R117, R162). -/
def Decl.opOk (d : Decl) (st : StageE) (o : OpE) : Bool :=
  o.stage == st.id && opKind o.op == some st.kind && o.pOff % 8 == 0 && decide (o.pOff + o.pLen ≤ d.params.length)
    && decide (o.budget ≤ 16777216)
    && (if namesStream o.op then o.stream == 0 || decide (16 ≤ o.stream) else o.stream == 0)
    && (if o.op = 0x0401 ∨ o.op = 0x0402 then decide (o.slot ≤ 7) else o.slot == 0)
    && paramsOk o.op o.stream d.outputBytes (d.block o)

/-- The operator table: each operator right, at most once in its stage, no two naming one stream (R114, R116). -/
def Decl.opsOk (d : Decl) : Bool :=
  d.stages.all (fun st => (d.opsOf st).all (d.opOk st) && decide (((d.opsOf st).map OpE.op).Nodup))
    && decide (((d.ops.map OpE.stream).filter (· ≠ 0)).Nodup)

/-- Stage-table index of a stage identifier. -/
def Decl.stageNo (d : Decl) (id : Nat) : Option Nat := d.stages.findIdx? fun s => s.id == id

/-- Operator-table index of an instance, from its stage and operator. -/
def Decl.instanceOf (d : Decl) (stage op : Nat) : Option Nat := d.ops.findIdx? fun o => o.stage == stage && o.op == op

/-- SCORE_FILTER sources: an earlier model instance whose output holds the element (R115, R127). -/
def Decl.filtersOk (d : Decl) : Bool :=
  d.ops.all fun o => o.op != 0x0601 ||
    let p := d.block o
    match d.instanceOf (field p 0 2) (field p 2 2), d.stageNo (field p 0 2), d.stageNo o.stage with
    | some i, some a, some b =>
      decide (a < b) && decide (field p 4 4 < field ((d.ops[i]?.map d.block).getD []) 4 4)
    | _, _, _ => false

/-- Rounding sites an operator takes (R109, R197, R213). -/
def Decl.sitesOf (d : Decl) (o : OpE) : Nat :=
  if o.op = 0x0306 then (if bitOf (byteAt (d.block o) 1) 0 then 1 else 0)
  else if o.op = 0x0401 ∨ o.op = 0x0402 then byteAt (d.block o) 0
  else 0

/-- First rounding site of an instance: sites are numbered in program order (R109). -/
def Decl.firstSite (d : Decl) (i : Nat) : Nat := ((d.ops.take i).map d.sitesOf).sum

/-- EXPRESSION instances that draw from stream 1 (R208). -/
def Decl.usesStream1 (d : Decl) (o : OpE) : Bool := o.op == 0x0307 && decide (0 ∈ exRands (d.block o))

/-- Ordinal of an EXPRESSION instance among those that use stream 1 (R208). -/
def Decl.exOrdinal (d : Decl) (i : Nat) : Nat := ((d.ops.take i).filter d.usesStream1).length

/-- Ordinal of a SCORE_FILTER instance (R128). -/
def Decl.filterOrdinal (d : Decl) (i : Nat) : Nat := ((d.ops.take i).filter fun o => o.op == 0x0601).length

/-- Everything ST_INVALID_FIELD covers beyond the layout: lists, stages, operators, sites (R96, R109, R111, R113 to R116,
R208). -/
def Decl.valid (d : Decl) : Bool :=
  decide (d.datasets.Nodup) && d.stagesOk && d.placed && d.tokenOk && d.opsOk && d.filtersOk
    && decide ((d.ops.map d.sitesOf).sum ≤ 4096) && decide ((d.ops.filter d.usesStream1).length ≤ 16)
    && decide ((d.ops.filter fun o => o.op == 0x0601).length ≤ 16)

/-- A pipeline as declared (R116): DECLARED, its cursor at 0. -/
def newPipeline (d : Decl) : Pipeline where
  decl := d
  state := 1
  cursor := 0
  prioInUse := 8
  consumers := []
  runs := []
  stop := none
  checkpoints := []
  template := none
  shots := []
  made := []
  schedules := []
  started := 0
  boundary := 0
  spans := []
  seqs := []
  placed := []
  anchor := (0, 0, 0)
  back := []

/-- PIPELINE_DECLARE (R116): the first condition that holds decides. -/
def pipelineDeclare (c : Cmd) (s : State) : State :=
  let p := c.p8 32
  if thas s.pipes p then refuse c.pair c.cid stPrecondition s
  else if !c.hasData then refuse c.pair c.cid stInvalidField s
  else withData c (fun d s =>
    if d.length ≠ c.dataLen then refuse c.pair c.cid stInvalidField s
    else match parseDecl p d with
      | none => refuse c.pair c.cid stInvalidField s
      | some decl =>
        if !decl.valid then refuse c.pair c.cid stInvalidField s
        else if decl.opcat ≠ Config.opcatVersion s.firmware % 2 ^ 32 then refuse c.pair c.cid stVersion s
        else finishPlain c.pair c.cid stOk (storeObject 7 p d { s with pipes := tput s.pipes p (newPipeline decl) })) s

/-- PIPELINE_DECLARE. -/
def execPipelineDeclare (pair cid : Nat) (s : State) : Res := live (runCmd 0x0200 pair cid pipelineDeclare) s

end Sys2Proof.Machine
end

