-- ==== Sys2Proof/Machine/Pool.lean ====
section
/-! DEFINITION. The buffer pool (R266 to R278): handles, owners and reserves, allocation and its waits, freeing, and
reference counts. PoolOps.lean holds the pool's own rows. -/

namespace Sys2Proof.Machine

/-! ### Handles (R266, R267) -/

/-- A handle: class, stack, index. -/
def bufHandle (cls stack i : Nat) : Nat := cls * 2 ^ 31 + stack * 2 ^ 28 + i
/-- Class of a handle. -/
def bufCls (h : Nat) : Nat := bits h 31 31
/-- Stack of a handle. -/
def bufStack (h : Nat) : Nat := bits h 30 28
/-- Index of a handle. -/
def bufIndex (h : Nat) : Nat := bits h 17 0
/-- The value that names no buffer. -/
def noBuf : Nat := 0xFFFFFFFF
/-- Buffers of a class in each stack (R266). -/
def perStack (cls : Nat) : Nat := if cls = 0 then 229376 else 8192
/-- Bytes of a buffer of a class. -/
def bufBytes (cls : Nat) : Nat := if cls = 0 then 65536 else 2097152

/-- Is a handle valid, in a stack in service (R267, R273)? -/
def State.handleOk (s : State) (h : Nat) : Bool :=
  decide (h < 2 ^ 32) && bits h 27 18 == 0 && decide (bufIndex h < perStack (bufCls h)) && s.inService (uStack (bufStack h))

/-! ### Owners (R270) -/

/-- Is an owner active? -/
def State.ownerActive (s : State) (o : Nat) : Bool :=
  o == 16 || o == 17 || ((tget s.pipes o).map Pipeline.active).getD false

/-- Reset value of a reserve field (R278). -/
def reserveReset (o cls : Nat) : Nat :=
  if cls = 0 then (if o = 16 then 8192 else if o = 17 then 4096 else 16384)
  else (if o = 16 then 256 else if o = 17 then 128 else 512)

/-- An owner's reserve of a class. -/
def State.reserve (s : State) (o cls : Nat) : Nat := s.raw 0x06 o (1 + cls) (reserveReset o cls)

/-- The reserve an owner holds now. -/
def State.reserveHeld (s : State) (o cls : Nat) : Nat := if s.ownerActive o then s.reserve o cls else 0

/-- Buffers of a class an owner holds. -/
def State.bufsHeld (s : State) (o cls : Nat) : Nat :=
  (s.pool.entries.filter fun kv => kv.2.owner == o && bufCls kv.1 == cls).length

/-- Buffers of a class in service. -/
def State.bufsServing (s : State) (cls : Nat) : Nat := s.plainUnits 10 8 * perStack cls

/-- Shared count of a class: in service, less the reserves of the active owners (R270, R273). -/
def State.sharedCount (s : State) (cls : Nat) : Nat :=
  s.bufsServing cls - ((List.range 18).map fun o => s.reserveHeld o cls).sum

/-- Buffers held beyond reserves, over all owners. -/
def State.beyond (s : State) (cls : Nat) : Nat :=
  ((List.range 18).map fun o => s.bufsHeld o cls - s.reserveHeld o cls).sum

/-- Buffers an allocation takes (R268). -/
def chainLength (cls bytes : Nat) : Nat := if cls = 0 then 1 else ceilDiv bytes 2097152

/-- Is the owner below its reserve of a class? -/
def State.belowReserve (s : State) (o cls : Nat) : Bool := decide (s.bufsHeld o cls < s.reserveHeld o cls)

/-- May the owner take `n` more buffers of a class: within its reserve, and the rest within the shared count (R270)? -/
def State.mayTake (s : State) (o cls n : Nat) : Bool :=
  let inside := min n (s.reserveHeld o cls - s.bufsHeld o cls)
  inside == n || decide (s.beyond cls + (n - inside) ≤ s.sharedCount cls)

/-- The lowest free indices of a class in a stack, `n` of them, that INIT_FILL is not writing (R274). -/
def State.freeBufs (s : State) (cls stack n : Nat) (filling : List Nat) : List Nat :=
  let used : List Nat := ((s.pool.entries.filter fun kv => bufCls kv.1 == cls && bufStack kv.1 == stack).map Prod.fst) ++ filling
  (((List.range (min (perStack cls) (used.length + n))).map (bufHandle cls stack)).filter fun h => h ∉ used).take n

/-- Raise the peaks of an owner (R278). -/
def notePeak (o cls : Nat) (s : State) : State :=
  if s.raw 0x06 o (5 + cls) 0 < s.bufsHeld o cls then setRaw 0x06 o (5 + cls) (s.bufsHeld o cls) s else s

/-- State entries of a chain, each linked to the next (R268). -/
def chainEntries (o : Nat) : List Nat → Table PoolEntry → Table PoolEntry
  | [], t => t
  | h :: r, t => chainEntries o r (tput t h { owner := o, link := r.headD noBuf, crc := 0, ref := none })

/-- Allocate a chain from given free buffers and hand out its handle. -/
def grantBufs (o cls : Nat) (hs : List Nat) (s : State) : State :=
  emit (.poolGrant o (hs.headD noBuf))
    (notePeak o cls { s with pool := { s.pool with entries := chainEntries o hs s.pool.entries } })

/-- The free buffers that can serve a request now, if any can. -/
def State.canServe (s : State) (w : PoolWait) (filling : List Nat) : Option (List Nat) :=
  let n := chainLength w.cls w.bytes
  let hs := s.freeBufs w.cls w.stack n filling
  if hs.length = n ∧ s.mayTake w.owner w.cls n ∧ s.inService (uStack w.stack) then some hs else none

/-- A request the pool may receive: an owner, a stack, and the class that its size takes (R268). -/
def PoolWait.ok (w : PoolWait) : Bool :=
  decide (w.owner ≤ 17) && decide (w.stack ≤ 7) && decide (1 ≤ w.bytes) && decide (w.bytes ≤ 268435520)
    && w.cls == (if w.bytes ≤ 65536 then 0 else 1)

/-- The consumer whose slots hold a slot of the batch (R135). -/
def Pipeline.consumerOf (p : Pipeline) (slot : Nat) : Option (Nat × Consumer) :=
  p.consumers.find? fun kv => decide (kv.2.slotFirst ≤ slot ∧ slot < kv.2.slotFirst + kv.2.slotCount)

/-- Oldest unreleased batch of a consumer as this node knows it. -/
def Pipeline.oldestOf (p : Pipeline) (consumer : Nat) : Nat := ((tget p.runs consumer).map ConsRun.oldest).getD p.cursor

/-- Is a request of a pipeline for a slot of its consumer's oldest unreleased batch (R271)? -/
def State.urgentWait (s : State) (w : PoolWait) : Bool :=
  match tget s.eng.samples w.sample, tget s.pipes w.owner with
  | some x, some p => x.pipeline == w.owner &&
      (x.slot.bind p.consumerOf).any fun c => decide (x.batch ≤ p.oldestOf c.1)
  | _, _ => false

/-- May a request pass those that wait for its class: none waits, or it is below its reserve and no such waiter is, or it is for the
oldest batch and they are its own owner's for later ones (R271)? -/
def State.noneAhead (s : State) (w : PoolWait) : Bool :=
  s.pool.waits.all fun x => x.cls != w.cls || (s.belowReserve w.owner w.cls && !s.belowReserve x.owner x.cls)
    || (x.owner == w.owner && s.urgentWait w && !s.urgentWait x)

/-- The order in which waiters of a class are served: below reserve first, then those for the oldest unreleased batch ahead of the
later batches of their own owner, then arrival (R271). -/
def State.nextWaiter (s : State) (cls : Nat) : Option PoolWait :=
  let ws := s.pool.waits.filter fun w => w.cls == cls
  let low := ws.filter fun w => s.belowReserve w.owner w.cls
  match (if low.isEmpty then ws else low).head? with
  | none => none
  | some w =>
    match (if low.isEmpty then ws else low).find? fun x => x.owner == w.owner && s.urgentWait x with
    | some u => some u
    | none => some w

/-! ### Freeing -/

/-- The handles of a chain, from its first. -/
def chainOf (t : Table PoolEntry) : Nat → Nat → List Nat
  | 0, _ => []
  | n + 1, h => match tget t h with
    | none => []
    | some e => h :: chainOf t n e.link

/-- Raise the peaks of the owners of buffers that are about to leave (R278). -/
def notePeaks (hs : List Nat) (s : State) : State :=
  hs.foldl (fun (t : State) (h : Nat) => match tget s.pool.entries h with
    | some e => notePeak e.owner (bufCls h) t
    | none => t) s

/-- Take buffers back: their state entries, and the reference-count entries of shared ones (R275, R276). -/
def takeBack (out : Nat → Bool) (s : State) : State :=
  let gone := (s.pool.entries.filter fun kv => out kv.1).filterMap fun kv => kv.2.ref.map fun i => bufStack kv.1 * 2 ^ 17 + i
  { s with pool := { s.pool with
      entries := tfilter s.pool.entries fun k _ => !out k
      refs := tfilter s.pool.refs fun k _ => !gone.contains k } }

/-- Free a chain: its buffers return to the pool (R275). -/
def freeChain (h : Nat) (s : State) : State :=
  let hs := chainOf s.pool.entries 129 h
  takeBack (fun k => hs.contains k) (notePeaks (hs.take 1) s)

/-- Free an optional buffer. -/
def freeBuf (o : Option Nat) (s : State) : State :=
  match o with
  | none => s
  | some h => freeChain h s

/-- Reference-count entries in use on a stack's S-die (R276). -/
def State.refsUsed (s : State) (stack : Nat) : Nat := (s.pool.refs.filter fun kv => kv.1 / 2 ^ 17 == stack).length

/-- Change a buffer's state entry. -/
def modBuf (h : Nat) (f : PoolEntry → PoolEntry) (s : State) : State :=
  { s with pool := { s.pool with entries := tmod s.pool.entries h f } }

/-- The state entry of a written buffer carries the CRC of its bytes (R150, R269). -/
def carryCrc (o : Option Nat) (crc : Nat) (s : State) : State :=
  match o with
  | some h => modBuf h (fun e => { e with crc := crc }) s
  | none => s

/-- A stack leaves service: its buffers leave the pool (R273). -/
def dropStackBufs (stack : Nat) (s : State) : State :=
  takeBack (fun k => bufStack k == stack) (notePeaks ((s.pool.entries.filter fun kv => bufStack kv.1 == stack).map Prod.fst) s)

/-- Free buffers of a class in service (R278). -/
def State.bufsFree (s : State) (cls : Nat) : Nat :=
  s.bufsServing cls - (s.pool.entries.filter fun kv => bufCls kv.1 == cls).length

end Sys2Proof.Machine
end

