-- ==== Sys2Proof/Machine/Program.lean ====
section
/-! DEFINITION. What a pipeline's declared values fix: its domain, positions and batches (R96 to R98), the owner of a
position (R81, R222), its spans (R222, R223), and the node's position schedules (R103 to R106). -/

namespace Sys2Proof.Machine

/-! ### The domain (R96) -/

/-- Committed DATASET_SIZE of a dataset, 0 where none is committed. -/
def State.datasetSize (s : State) (h : Nat) : Nat := ((tget s.cat.committed h).map Catalog.size).getD 0

/-- Domain size n of a pipeline. -/
def State.domain (s : State) (d : Decl) : Nat := (d.datasets.map s.datasetSize).sum

/-- The dataset and sample index of pipeline index v: d_j with P_j ≤ v < P_j + N_j (R96). -/
def locate (size : Nat → Nat) : List Nat → Nat → Nat × Nat
  | [], v => (0, v)
  | h :: t, v => if v < size h ∨ t = [] then (h, v) else locate size t (v - size h)

/-- Pipeline index of a position of an epoch: σ_e(p) (R97). -/
def State.indexAt (s : State) (d : Decl) (epoch pos : Nat) : Nat := sigma d.seed (s.domain d) epoch pos

/-- Dataset and sample index of a position. -/
def State.sampleAt (s : State) (d : Decl) (epoch pos : Nat) : Nat × Nat :=
  locate s.datasetSize d.datasets (s.indexAt d epoch pos)

/-! ### Positions, batches and epochs (R97) -/

/-- q = floor(n / B), the batches of an epoch in drop mode. -/
def Decl.q (d : Decl) (n : Nat) : Nat := n / max 1 d.batch

/-- Epoch and position of slot (b, sl) (R97). -/
def Decl.slotPos (d : Decl) (n b sl : Nat) : Nat × Nat :=
  if d.tail = 0 then ((b * d.batch + sl) / max 1 n, (b * d.batch + sl) % max 1 n)
  else (b / max 1 (d.q n), b % max 1 (d.q n) * d.batch + sl)

/-- The batch that R97 gives a position: that whose slot it is; a tail position of drop mode lies in the epoch's last
batch for this purpose. -/
def Decl.nominalBatch (d : Decl) (n epoch pos : Nat) : Nat :=
  if d.tail = 0 then (epoch * n + pos) / max 1 d.batch
  else epoch * d.q n + min (pos / max 1 d.batch) (d.q n - 1)

/-- The slot that R97 gives a position. -/
def Decl.nominalSlot (d : Decl) (n epoch pos : Nat) : Nat :=
  if d.tail = 0 then (epoch * n + pos) % max 1 d.batch else pos % max 1 d.batch

/-- Number of batches of a pipeline by R97: its last batch plus 1. -/
def Decl.batches (d : Decl) (n : Nat) : Nat :=
  if d.tail = 0 then d.epochs * n / max 1 d.batch else d.epochs * d.q n

/-- Is a position delivered by R97, in a direct pipeline? -/
def Decl.delivered (d : Decl) (n epoch pos : Nat) : Bool :=
  if d.tail = 0 then decide ((epoch * n + pos) / max 1 d.batch < d.batches n)
  else decide (epoch < d.epochs ∧ pos < d.q n * d.batch)

/-- The condition of R98 for the pipeline's mode. -/
def Decl.fits (d : Decl) (n : Nat) : Bool :=
  if d.tail = 0 then decide (d.batch ≤ d.epochs * n) else decide (d.batch ≤ n)

/-! ### Direct and ledger pipelines (R220 to R223) -/

/-- Is it a ledger pipeline: CORRUPT_MODE 1, or a SPLICE stage (R221)? -/
def Decl.ledger (d : Decl) : Bool := d.corrupt == 1 || d.stages.any fun s => s.kind == 7

/-- Span of a position within its epoch (R222). -/
def spanOf (pos : Nat) : Nat := pos / 65536

/-- Spans of an epoch. -/
def spansIn (n : Nat) : Nat := ceilDiv n 65536

/-- Key of a span: epoch × 2^32 + number. -/
def spanKey (epoch span : Nat) : Nat := epoch * 2 ^ 32 + span

/-- Key of a position within a pipeline. -/
def posKey (epoch pos : Nat) : Nat := epoch * 2 ^ 47 + pos

/-- Key of a sample in production. -/
def sampleKey (pipe epoch pos : Nat) : Nat := pipe * 2 ^ 63 + posKey epoch pos

/-- The batch whose routing summary names the owner of a position: its own batch, or its span's nominal batch in a ledger
pipeline (R86, R222). -/
def Decl.basisBatch (d : Decl) (n epoch pos : Nat) : Nat :=
  if d.ledger then d.nominalBatch n epoch (spanOf pos * 65536) else d.nominalBatch n epoch pos

/-- Owner of a position (R81, R86). -/
def State.ownerOf (s : State) (d : Decl) (epoch pos : Nat) : Option Nat :=
  let hi := s.sampleAt d epoch pos
  (s.summaryFor hi.1 (d.basisBatch (s.domain d) epoch pos)).bind fun m => m.owner hi.2

/-- Is the position this node's to make, for the pipeline (R81, R427)? -/
def State.ownsPos (s : State) (pipe : Nat) (d : Decl) (epoch pos : Nat) : Bool :=
  s.ownerOf d epoch pos == some (s.makesFor pipe)

/-- Ledger node of a span: the ASSEMBLER of the consumer at index (j mod C) (R222). -/
def Pipeline.ledgerNode (p : Pipeline) (span : Nat) : Nat :=
  ((p.consumers[span % max 1 p.consumers.length]?).map fun kv => kv.2.assembler).getD 0xFFFF

/-- Owned positions of a span, ascending. -/
def State.ownedIn (s : State) (pipe : Nat) (d : Decl) (epoch span : Nat) : List Nat :=
  let n := s.domain d
  ((List.range (min 65536 (n - span * 65536))).map (span * 65536 + ·)).filter fun p => s.ownsPos pipe d epoch p

/-- Owners of a span's positions: the nodes that report on it (R222). -/
def State.spanOwners (s : State) (d : Decl) (epoch span : Nat) : List Nat :=
  let n := s.domain d
  (((List.range (min 65536 (n - span * 65536))).filterMap fun i => s.ownerOf d epoch (span * 65536 + i))).eraseDups

/-- A span of which nothing is known yet. -/
def emptySpan : SpanRec :=
  { started := false, resolved := [], reported := false, reports := [], doneFrom := [], packed := false, seqs := [],
    unitBase := none, units := none, result := false, skips := [], marks := [] }

/-- A span's record. -/
def Pipeline.span (p : Pipeline) (epoch span : Nat) : SpanRec := tgetD p.spans (spanKey epoch span) emptySpan

/-- The span after another, in key order; the first of the next epoch follows an epoch's last. -/
def nextSpan (n epoch span : Nat) : Nat × Nat := if span + 1 < spansIn n then (epoch, span + 1) else (epoch + 1, 0)

/-- UNIT_BASE of the span after one that ends at unit u (R223). -/
def Decl.nextBase (d : Decl) (n span u : Nat) : Nat :=
  if span + 1 < spansIn n ∨ d.tail = 0 then u else u / max 1 d.batch * d.batch

/-- Batches of a ledger pipeline, once the last span of its last epoch is resolved (R223): the batch of its last unit, or
the last whole batch; with no unit at all, batch 0. -/
def Decl.ledgerBatches (d : Decl) (u : Nat) : Nat :=
  if d.tail = 0 then max 1 (ceilDiv u d.batch) else u / max 1 d.batch

/-- Number of the pipeline's batches, where it is known (R97, R223). -/
def State.batchesOf (s : State) (p : Pipeline) : Option Nat :=
  let n := s.domain p.decl
  if p.decl.ledger then
    let r := p.span (p.decl.epochs - 1) (spansIn n - 1)
    match r.unitBase, r.units with
    | some b, some u => some (p.decl.ledgerBatches (b + u))
    | _, _ => none
  else some (p.decl.batches n)

/-! ### Units of a span (R221, R226) -/

/-- Marks of an offset that fills no unit of its own (a document in a sequence that another opens, a document not packed), and of one
that fills one unit more (a long document that opens several sequences). A SPAN_RESULT carries none of them: its entries are
the skipped and empty positions (R231). The ledger node knows its own; to another node they are not stated. -/
abbrev noUnitMark : Nat := 0
abbrev moreUnitMark : Nat := 127

/-- A span's skipped and empty positions with the marks. -/
def SpanRec.list (r : SpanRec) : List (Nat × Nat) := r.skips ++ r.marks

/-- Does a result entry take its offset's unit away: the mark, or a skip under CORRUPT_MODE 1? -/
def takesAway (corrupt cause : Nat) : Bool := cause == noUnitMark || (corrupt == 1 && cause != moreUnitMark)

/-- Units of a span before an offset. -/
def unitsBefore (corrupt : Nat) (skips : List (Nat × Nat)) (off : Nat) : Nat :=
  let before := skips.filter fun e => decide (e.1 < off)
  off - (before.filter fun e => takesAway corrupt e.2).length + (before.filter fun e => e.2 == moreUnitMark).length

/-- Does an offset fill a unit? -/
def fillsUnit (corrupt : Nat) (skips : List (Nat × Nat)) (off : Nat) : Bool :=
  !skips.any fun e => e.1 == off && takesAway corrupt e.2

/-- Positions skipped between the previous unit of the span and the unit at an offset, with the first one's cause (R218). -/
def skippedBefore (corrupt : Nat) (skips : List (Nat × Nat)) (off : Nat) : Nat × Nat :=
  let gone := skips.filter fun e => decide (e.1 < off) && e.2 != noUnitMark && e.2 != moreUnitMark
    && !fillsUnit corrupt skips e.1
  -- the last offset before `off` that fills a unit bounds the run of skipped positions
  let run := gone.filter fun e => (List.range (off - e.1 - 1)).all fun k => !fillsUnit corrupt skips (e.1 + 1 + k)
  (run.length, (run.head?.map Prod.snd).getD 0)

/-! ### Pipeline access -/

/-- Change a pipeline. -/
def modPipe (pipe : Nat) (f : Pipeline → Pipeline) (s : State) : State := { s with pipes := tmod s.pipes pipe f }

/-- Epoch of the first slot of a batch: that of its nominal first position. -/
def State.epochOfBatch (s : State) (d : Decl) (b : Nat) : Nat := (d.slotPos (s.domain d) b 0).1

/-- The last known span whose UNIT_BASE is at most unit u: (epoch, number, UNIT_BASE, units). -/
def Pipeline.spanBelow (p : Pipeline) (u : Nat) : Option (Nat × Nat × Nat × Option Nat) :=
  (p.spans.filterMap fun kv => match kv.2.unitBase with
    | some b => if b ≤ u then some (kv.1 / 2 ^ 32, kv.1 % 2 ^ 32, b, kv.2.units) else none
    | none => none).getLast?

/-- The span that holds the first unit of the cursor's batch: epoch, number and UNIT_BASE (R242). -/
def State.anchorSpan (s : State) (p : Pipeline) : Option (Nat × Nat × Nat) :=
  let u := p.cursor * p.decl.batch
  (p.spanBelow u).map fun r =>
    match r.2.2.2 with
    | some m =>
      if r.2.2.1 + m ≤ u then
        let n := s.domain p.decl
        let x := nextSpan n r.1 r.2.1
        (x.1, x.2, p.decl.nextBase n r.2.1 (r.2.2.1 + m))
      else (r.1, r.2.1, r.2.2.1)
    | none => (r.1, r.2.1, r.2.2.1)

/-- The epoch in which the cursor's batch is produced. -/
def State.cursorEpoch (s : State) (p : Pipeline) : Nat :=
  if p.decl.ledger then ((s.anchorSpan p).map Prod.fst).getD 0 else s.epochOfBatch p.decl p.cursor

/-- May a batch still be produced and delivered, as far as an outstanding stop says (R140)? -/
def Pipeline.inStop (p : Pipeline) (b : Nat) : Bool := p.stop.all fun k => !k.limits || decide (b < k.at_)

/-! ### Schedules (R103 to R106) -/

/-- Positions of an epoch that this node makes, ascending: the positions σ_e⁻¹(v) of the indices v assigned to it. -/
def State.ownedPositions (s : State) (pipe : Nat) (d : Decl) (epoch : Nat) : List Nat :=
  let n := s.domain d
  let ps := ((List.range n).map fun v => sigmaInv d.seed n epoch v).filter fun p => s.ownsPos pipe d epoch p
  (List.range n).filter fun p => decide (p ∈ ps)

/-- The schedule of an epoch. -/
def Pipeline.schedule (p : Pipeline) (epoch : Nat) : Option Schedule := p.schedules.find? fun e => e.epoch == epoch

/-- Is the schedule of an epoch complete? One that a later epoch's has replaced was (R103). -/
def Pipeline.scheduleDone (p : Pipeline) (epoch : Nat) : Bool :=
  match p.schedule epoch with
  | some e => e.complete
  | none => p.schedules.any fun e => decide (epoch < e.epoch)

/-- Needs a scheduled position no more production: it is made, lies below where the run began, or is never delivered? -/
def State.positionSpent (s : State) (p : Pipeline) (epoch pos : Nat) : Bool :=
  let n := s.domain p.decl
  decide (posKey epoch pos ∈ p.made)
    || (if p.decl.ledger then decide (spanKey epoch (spanOf pos) < (p.spans.head?.map Prod.fst).getD 0)
      else decide (p.decl.nominalBatch n epoch pos < p.cursor) || !p.decl.delivered n epoch pos)

/-- Has a schedule nothing left to produce? -/
def State.scheduleSpent (s : State) (p : Pipeline) (e : Schedule) : Bool :=
  e.complete && e.positions.all (s.positionSpent p e.epoch)

/-- May the schedule of an epoch be built now (R103, R104)? With none held, the cursor's epoch; then the epoch after one whose
schedule is complete, once no schedule but that one is still in use, so that at most two are held; an epoch before the held
ones whose positions must be made again after a withdrawn stop (R140); and a held one that a new summary has made stale
(R106). -/
def State.mayBuild (s : State) (p : Pipeline) (epoch : Nat) : Bool :=
  p.active && decide (epoch < p.decl.epochs) &&
    match p.schedule epoch with
    | some e => !e.built
    | none =>
      if p.schedules.isEmpty then epoch == s.cursorEpoch p
      else
        ((p.schedules.any fun e => e.epoch + 1 == epoch && e.complete)
            && p.schedules.all fun e => e.epoch + 1 == epoch || s.scheduleSpent p e)
          || ((p.schedules.all fun e => decide (epoch < e.epoch)) && (p.schedules.any fun e => epoch + 1 == e.epoch)
            && decide (s.cursorEpoch p ≤ epoch))

/-- The schedules that stay beside a newly built one: the neighbour's (R104). -/
def Pipeline.schedulesBeside (p : Pipeline) (epoch : Nat) : List Schedule :=
  p.schedules.filter fun e => e.epoch + 1 == epoch || e.epoch == epoch + 1

/-- The pool buffers of schedules that are discarded return to the pool. -/
def dropMoved (es : List Schedule) (s : State) : State :=
  es.foldl (fun (t : State) (e : Schedule) =>
    e.moved.foldl (fun (u : State) (kv : Nat × Nat) => freeBuf (some kv.2) u) t) s

/-- SCHEDULE: grip cores build the schedule of an epoch (R103). -/
def buildSchedule (pipe epoch : Nat) (s : State) : State :=
  match tget s.pipes pipe with
  | none => s
  | some p =>
    if s.mayBuild p epoch then
      let old := (p.schedule epoch).map Schedule.validBelow
      let beside := match p.schedule epoch with
        | some _ => p.schedules.filter fun x => x.epoch != epoch
        | none => p.schedulesBeside epoch
      let e : Schedule :=
        { epoch := epoch, validBelow := old.getD 0, positions := s.ownedPositions pipe p.decl epoch, built := true,
          complete := false, units := [], heads := [], moved := [], waiting := [] }
      let gone := p.schedules.filter fun x => beside.all fun y => y.epoch != x.epoch
      let r := placeSchedule (s.domain p.decl) e (modPipe pipe (fun p => { p with schedules := beside }) (dropMoved gone s))
      modPipe pipe (fun p => { p with schedules := beside ++ [r.1] }) r.2
    else s

/-- SCHEDULE. -/
def execSchedule (pipeline epoch : Nat) (s : State) : Res := live (whenB s.going (buildSchedule pipeline epoch)) s

/-- Records of an epoch whose position its schedule does not hold are freed (R134). -/
def Pipeline.freeShots (p : Pipeline) (e : Schedule) : Pipeline :=
  { p with shots := tfilter p.shots fun k _ => k / 2 ^ 47 != e.epoch || decide (k % 2 ^ 47 ∈ e.positions) }

/-- SCHEDULE_COMPLETE: the schedule of an epoch stands; a STARTING pipeline whose cursor lies in it is RUNNING (R103,
R138). -/
def scheduleComplete (pipe epoch : Nat) (s : State) : State :=
  match tget s.pipes pipe with
  | none => s
  | some p =>
    match p.schedule epoch with
    | none => s
    | some e =>
      if p.active && e.built && !e.complete then
        let q := p.freeShots e
        modPipe pipe (fun _ => { q with
          schedules := q.schedules.map fun x => if x.epoch = epoch then { x with complete := true } else x
          state := if q.state = 2 ∧ epoch = s.cursorEpoch p then 3 else q.state }) s
      else s

/-- SCHEDULE_COMPLETE. -/
def execScheduleComplete (pipeline epoch : Nat) (s : State) : Res :=
  live (whenB s.going (scheduleComplete pipeline epoch)) s

/-- The record of a failed forward check: cause "schedule", naming the position that failed (R105, R379). R105 names no core
that evaluates the check: the detecting unit is logical core 0 (DESIGN CHOICE). -/
def scheduleRecord (pipe : Nat) (p : Pipeline) (epoch pos : Nat) (s : State) : State :=
  let hi := s.sampleAt p.decl epoch pos
  recordErr { plainErr uPackage 0x010B clsContained 3 (sampleScope hi.1 hi.2) (pos % 2 ^ 47) (epoch % 2 ^ 16) with
    unit := uLogical 0
    pipeline := pipe
    stage := 0xFFFF
    operator := 0x0801 } s

/-- A schedule with the entries of a window computed again. -/
def Schedule.renewed (e : Schedule) (window : Nat) (fresh : List Nat) : Schedule :=
  { e with positions := (e.positions.filter fun y => decide (windowOf y < window)) ++ fresh
      ++ e.positions.filter fun y => decide (window < windowOf y) }

/-- Write a window's entries: where they have lost no stack, to their own units; else into a pool buffer of the system owner in a
stack in service (R245, R270). None where that buffer must still be waited for. -/
def writeWindow (e : Schedule) (window : Nat) (s : State) : Option (Schedule × State) :=
  let whole := { e with waiting := e.waiting.filter fun w => w != window }
  if thas e.moved window || e.units.any fun u => !s.inService (uStack (u % 8)) then
    let fresh := dropMoved [{ e with moved := tfilter e.moved fun w _ => w == window }] s
    let bytes := max 1 (4 * e.positions.countP fun p => windowOf p == window)
    let cls := if bytes ≤ 65536 then 0 else 1
    let serving := (List.range 8).filter fun i => s.inService (uStack i)
    match serving.findSome? fun i =>
        (fresh.canServe { owner := 17, cls := cls, stack := i, bytes := bytes, sample := 0, stage := 0, op := 0, copyOf := none } []).map fun hs => (i, hs) with
    | none => none
    | some (_, hs) =>
      some ({ whole with moved := tput (tdel e.moved window) window (hs.headD noBuf) }, grantBufs 17 cls hs fresh)
  else some (whole, writeUnits scheduleUnit e.units e.image s)

/-- SCHEDULE_WINDOW_REBUILD: the window of 2^20 positions is computed again from σ and written again (R105, R245, R251). Where the
forward check of a position has failed, that is recorded first. -/
def windowRebuild (pipe epoch window : Nat) (failed : Option Nat) (s : State) : State :=
  match tget s.pipes pipe with
  | none => s
  | some p =>
    match p.schedule epoch with
    | none => s
    | some e =>
      if p.active && e.built then
        let fresh := (s.ownedPositions pipe p.decl epoch).filter fun x => windowOf x == window
        let s1 := match failed with
          | some pos => scheduleRecord pipe p epoch pos s
          | none => s
        match writeWindow (e.renewed window fresh) window s1 with
        | none => s1
        | some (e1, s2) => modPipe pipe (fun p => { p with schedules := p.schedules.map fun x => if x.epoch = epoch then e1 else x }) s2
      else s

/-- SCHEDULE_WINDOW_REBUILD. -/
def execScheduleWindowRebuild (pipeline epoch window : Nat) (failed : Option Nat) (s : State) : Res :=
  live (whenB s.going (windowRebuild pipeline epoch window failed)) s

/-- May batch `b` be produced from the schedule of an epoch (R103, R106)? -/
def Pipeline.mayProduce (p : Pipeline) (epoch b : Nat) : Bool :=
  match p.schedule epoch with
  | none => false
  | some e => e.complete || decide (b < e.validBelow)

/-! ### ROUTING_SUMMARY_LOAD (R85, R86, R106) -/

/-- Schedules that hold positions of batches at or after `batch` which a new summary gives to another node, or newly to this
one, are built again; batches below it follow the old positions (R106). -/
def staleSchedules (h batch : Nat) (s : State) : State :=
  { s with pipes := s.pipes.map fun kv =>
      let n := s.domain kv.2.decl
      let late (e : Schedule) (p : Nat) : Bool := decide (batch ≤ kv.2.decl.basisBatch n e.epoch p)
      if decide (h ∈ kv.2.decl.datasets) then
        (kv.1, { kv.2 with schedules := kv.2.schedules.map fun e =>
          if e.positions.filter (late e) = (s.ownedPositions kv.1 kv.2.decl e.epoch).filter (late e) then e
          else { e with
            built := false
            complete := false
            validBelow := if e.complete then batch else min e.validBelow batch } })
      else kv }

/-- The bytes of a summary as the part keeps it. -/
def Summary.image (m : Summary) : Bytes :=
  putLE 8 m.fromBatch ++ (m.entries.map fun e => putLE 8 e.first ++ putLE 8 (e.count + e.node * 2 ^ 48)).flatten

/-- ROUTING_SUMMARY_LOAD (R85, R86). -/
def routingSummaryLoad (c : Cmd) (s : State) : State :=
  withData c (fun d s =>
    let h := c.p16 32
    let version := c.p64 40
    let n := c.p32 48
    let eff := c.p64 56
    if n = 0 ∨ !c.dataIs (16 * n) ∨ d.length ≠ 16 * n then refuse c.pair c.cid stInvalidField s
    else match parseRoutes 0 (pieces 16 n d) with
      | none => refuse c.pair c.cid stInvalidField s
      | some (es, total) =>
        if !thas s.cat.committed h && !thas s.cat.staged h then refuse c.pair c.cid stPrecondition s
        else
          let sizes := s.sizesOf h version
          if sizes.isEmpty then refuse c.pair c.cid stVersion s
          else if sizes.any (· ≠ total) then refuse c.pair c.cid stInvalidField s
          else
            let running := s.datasetInUse h
            let start := if running then eff else 0
            let sum : Summary := { fromBatch := start, version := version, size := total, entries := es }
            let kept := if running then (tgetD s.cat.summaries h []).filter fun m => decide (m.fromBatch < eff) else []
            if running && decide (eff < s.startedOf h) then refuse c.pair c.cid stPrecondition s
            else if 1048576 < s.routesWith h (kept ++ [sum]) then refuse c.pair c.cid stNoResources s
            else
              finishPlain c.pair c.cid stOk
                ((if running then staleSchedules h eff else id)
                  (storeObject 4 h ((kept ++ [sum]).map Summary.image).flatten
                    { s with cat := { s.cat with summaries := tput s.cat.summaries h (kept ++ [sum]) } }))) s

/-- ROUTING_SUMMARY_LOAD. -/
def execRoutingSummaryLoad (pair cid : Nat) (s : State) : Res := live (runCmd 0x0103 pair cid routingSummaryLoad) s

end Sys2Proof.Machine
end

