-- ==== Sys2Proof/Machine/Pipeline.lean ====
section
/-! DEFINITION. Pipelines as units of work: start, stop, delete, shot records, consumers, step boundaries, checkpoint and
restore (R87, R104, R130 to R144, R182, R213, R216, R227, R241, R242, R272). -/

namespace Sys2Proof.Machine

/-! ### PIPELINE_START (R139) -/

/-- Adjacent intervals merged: (first, count), ascending. -/
def mergeIv : List (Nat × Nat) → List (Nat × Nat)
  | [] => []
  | (a, n) :: t =>
    match mergeIv t with
    | (b, m) :: r => if a + n = b then (a, n + m) :: r else (a, n) :: (b, m) :: r
    | [] => [(a, n)]

/-- Does a dataset lack its catalog or a summary of the committed version and size, or do its runs cover other indices
than the summary gives this node (R87)? -/
def State.datasetReady (s : State) (pipe cursor h : Nat) : Bool :=
  match tget s.cat.committed h, s.summaryFor h cursor with
  | some c, some m =>
    let mine := (m.entries.filter fun e => e.node == s.makesFor pipe).map fun e => (e.first, e.count)
    m.version == c.version && m.size == c.size && mergeIv mine == mergeIv (c.runs.map fun r => (r.first, r.count))
  | _, _ => false

/-- The consumers' ranges cover slots 0 to B − 1 exactly, each once (R139): disjoint ranges below B whose counts sum to B. -/
def Pipeline.covered (p : Pipeline) : Bool :=
  let rs := (tvals p.consumers).map fun c => (c.slotFirst, c.slotCount)
  (rs.map Prod.snd).sum == p.decl.batch && rs.all (fun a => decide (a.1 + a.2 ≤ p.decl.batch))
    && rs.zipIdx.all fun a => rs.zipIdx.all fun b =>
        a.2 == b.2 || decide (a.1.1 + a.1.2 ≤ b.1.1) || decide (b.1.1 + b.1.2 ≤ a.1.1)

/-- SR layers of a package. -/
def Package.srLayers (k : Package) : Nat := (k.layers.filter fun l => bitOf l.flags 0).length

/-- Does an instance's model slot hold a package that fits it (R139, R213)? -/
def State.modelReady (s : State) (d : Decl) (o : OpE) : Bool :=
  if o.op = 0x0401 ∨ o.op = 0x0402 then
    match tget s.slots.models o.slot with
    | none => false
    | some k =>
      k.srLayers == byteAt (d.block o) 0 && k.outElems == field (d.block o) 4 4
        && k.kind == (if o.op = 0x0401 then 0 else 1)
  else true

/-- Identifiers a merge table assigns (R174). -/
def MergeTable.assigned (t : MergeTable) (i : Nat) : Bool :=
  decide (t.byteBase ≤ i ∧ i < t.byteBase + 256) || t.base.any (fun b => b.2 == i) || t.merges.any fun m => m.2.2 == i

/-- The value that names no special identifier. -/
def noId : Nat := 0xFFFFFFFF

/-- Parameter block of the first instance of an operator. -/
def Decl.blockOf (d : Decl) (op : Nat) : Option Bytes := (d.ops.find? fun o => o.op == op).map d.block

/-- Special identifiers of the TOKEN stage (R170). -/
def Decl.specials (d : Decl) : List Nat :=
  let t := ((d.blockOf 0x0501).map fun b => [field b 4 4, field b 8 4]).getD []
  let m := ((d.blockOf 0x0503).map fun b => [field b 0 4]).getD []
  (t ++ m).filter (· ≠ noId)

/-- The merge table of the TOKEN stage. -/
def State.mergeTable (s : State) (d : Decl) : Option MergeTable :=
  (d.blockOf 0x0501).bind fun b => tget s.slots.merges (byteAt b 0)

/-- The automaton of the GRAMMAR instance. -/
def State.automaton (s : State) (d : Decl) : Option Automaton :=
  (d.blockOf 0x0502).bind fun b => tget s.slots.automata (byteAt b 0)

/-- Does the GRAMMAR instance write mask rows? -/
def Decl.masks (d : Decl) : Bool := ((d.blockOf 0x0502).map fun b => byteAt b 2 == 1).getD false

/-- Has the TOKEN stage its tables (R139, R182)? -/
def State.tokensReady (s : State) (d : Decl) : Bool :=
  (d.blockOf 0x0501).isNone ||
    match s.mergeTable d with
    | none => false
    | some t =>
      d.specials.all (fun i => decide (i < t.vocab) && !t.assigned i) &&
        ((d.blockOf 0x0502).isNone ||
          match s.automaton d with
          | none => false
          | some a =>
            (a.symbols != 0 || a.states.all fun st => st.2.all fun e => decide (e.hi < t.vocab))
              && (!d.masks || (decide (t.vocab ≤ 262144) && a.symbols == 0)))

/-- Bytes of a mask row (R190). -/
def MergeTable.rowBytes (t : MergeTable) : Nat := ceilDiv t.vocab 64 * 8

/-- Do a SPLICE stage's sequence payloads with their mask rows fit in OUTPUT_BYTES (R227)? -/
def State.spliceFits (s : State) (d : Decl) : Bool :=
  match d.blockOf 0x0701 with
  | none => true
  | some b =>
    !d.masks || decide (rowOff (field b 0 4) (field b 8 2)
      + field b 0 4 * ((s.mergeTable d).map MergeTable.rowBytes).getD 0 ≤ d.outputBytes)

/-- Schedule entries of a pipeline, both schedules counted (R104). -/
def State.scheduleEntries (s : State) (pipe : Nat) (p : Pipeline) : Nat :=
  2 * (p.decl.datasets.map fun h => match s.summaryFor h p.cursor with
    | none => 0
    | some m => ((m.entries.filter fun e => e.node == s.makesFor pipe).map Route.count).sum).sum

/-- Schedule entries the node can hold: 2^34, or 7/8 of it after a stack is lost (R104, R245). -/
def State.scheduleRoom (s : State) : Nat := if s.plainUnits 10 8 < 8 then 7 * 2 ^ 31 else 2 ^ 34

/-- Would the reserves of the active owners, with this pipeline's, pass the buffers in service (R272)? -/
def State.reservesFit (s : State) (pipe cls : Nat) : Bool :=
  decide ((((List.range 18).filter fun o => s.ownerActive o && o != pipe).map fun o => s.reserve o cls).sum
    + s.reserve pipe cls ≤ s.bufsServing cls)

/-- Units of an engine kind in service (R119, R410): stack engines, decoders, token engines; TE, ME and grip queues belong to
logical cores; delivery queues to ports. -/
def State.kindServing (s : State) (code : Nat) : Nat :=
  if code = 1 then s.enginesServing
  else if code = 2 then s.clusterUnits 5 64 4
  else if code = 3 then s.clusterUnits 6 16 1
  else if code = 4 then s.clusterUnits 7 16 1
  else if code = 5 then s.clusterUnits 8 32 2
  else if code = 9 then s.plainUnits 13 18
  else ((List.range 16).map s.clusterLogical).sum

/-- Has every engine kind that a pipeline's operators need a unit in service (R410)? -/
def State.kindsServe (s : State) (d : Decl) : Bool :=
  decide (0 < s.kindServing 1) && decide (0 < s.kindServing 9) && d.ops.all fun o => decide (0 < s.kindServing (opEngine o.op))

/-- What PIPELINE_START finds (R87, R98, R104, R139, R272). -/
def State.startStatus (s : State) (pipe : Nat) (p : Pipeline) : Nat :=
  let d := p.decl
  let n := s.domain d
  if !(p.state == 1 || p.state == 5) then stPrecondition
  else if !d.datasets.all (s.datasetReady pipe p.cursor) || !p.covered || !d.ops.all (s.modelReady d)
      || !s.tokensReady d || !d.fits n || decide (2 ^ 47 < n) || !s.spliceFits d then stPrecondition
  else if !s.kindsServe d then stNoResources
  else if s.scheduleRoom < s.scheduleEntries pipe p
      + ((s.pipes.filter fun kv => kv.2.active && kv.1 != pipe).map fun kv => s.scheduleEntries kv.1 kv.2).sum then
    stNoResources
  else if s.reserve pipe 0 < 1024 ∨ s.reserve pipe 1 < 260 ∨ !s.reservesFit pipe 0 ∨ !s.reservesFit pipe 1 then
    stNoResources
  else stOk

/-- Delivery to a consumer before its first batch: nothing released from the cursor on, so that WRITABLE_BELOW is the cursor
plus BUFFERS (R236). -/
def freshRun (cursor buffers : Nat) : ConsRun :=
  { oldest := cursor, writable := cursor + buffers, tail := 0, head := 0, ring := [], finals := [], held := [], heldPieces := [],
    ready := [], readyPieces := [], stopped := false, armed := true }

/-- A consumer's continuity buffer and its unsent notices, discarded (R241). -/
def ConsRun.cleared (r : ConsRun) : ConsRun :=
  { r with finals := [], held := [], heldPieces := [], ready := [], readyPieces := [] }

/-- Delivery to a consumer as a start finds it (R139, R235): release goes on at the cursor, with the ring as it stands. The
assembler knows what is not yet consumed; another node keeps the latest WRITABLE_BELOW it was told (R236). -/
def startRun (mine : Bool) (cursor buffers : Nat) (old : Option ConsRun) : ConsRun :=
  match old with
  | none => freshRun cursor buffers
  | some o =>
    { o.cleared with
      oldest := cursor
      writable := if mine then o.ring.headD cursor + buffers else o.writable
      stopped := false }

/-- A ledger field; its reset value is all ones (R242). -/
def State.anchorField (s : State) (pipe no : Nat) : Nat := s.raw 0x04 pipe no (if no = 1 then 0xFFFF else 0xFFFFFFFF)

/-- Where a ledger pipeline starts to resolve: epoch, span and UNIT_BASE of the anchor, or span 0 of epoch 0 while the
anchor fields hold their reset value (R242). -/
def State.anchorStart (s : State) (pipe : Nat) : Nat × Nat × Nat :=
  if s.anchorField pipe 1 = 0xFFFF ∧ s.anchorField pipe 2 = 0xFFFFFFFF ∧ s.anchorField pipe 3 = 0xFFFFFFFF
      ∧ s.anchorField pipe 4 = 0xFFFFFFFF then (0, 0, 0)
  else (s.anchorField pipe 1, s.anchorField pipe 2, s.anchorField pipe 3 + s.anchorField pipe 4 * 2 ^ 32)

/-- A pipeline as it enters STARTING (R138, R139). What it made before the cursor stays made; a ledger pipeline makes the positions of
its anchor span again, those below the cursor's first unit too (R242). -/
def State.startedPipe (s : State) (pipe : Nat) (p : Pipeline) : Pipeline :=
  let n := s.domain p.decl
  let a := s.anchorStart pipe
  { p with
    state := 2
    runs := p.consumers.map fun kv =>
      (kv.1, startRun (kv.2.assembler == s.fab.nodeId) p.cursor kv.2.buffers (tget p.runs kv.1))
    made := p.made.filter fun k =>
      if p.decl.ledger then decide (spanKey (k / 2 ^ 47) (spanOf (k % 2 ^ 47)) < spanKey a.1 a.2.1)
      else decide (p.decl.nominalBatch n (k / 2 ^ 47) (k % 2 ^ 47) < p.cursor)
    schedules := []
    started := p.cursor
    boundary := p.cursor
    spans := if p.decl.ledger then [(spanKey a.1 a.2.1, { emptySpan with unitBase := some a.2.2 })] else []
    seqs := []
    placed := []
    back := [] }

/-- Lockstep of a pipeline as a start or a stop leaves it: no record, digest or held notice, and every batch from a cursor on is
unmatched (R427, R429). -/
def resetLock (pipe cursor : Nat) (s : State) : State :=
  { s with lock := tmod s.lock pipe fun k =>
      { k with
        lowest := cursor
        slotRecs := []
        chains := []
        digests := []
        partnerCounts := []
        partnerRecs := []
        heldMsgs := []
        searching := none } }

/-- PIPELINE_START. -/
def pipelineStart (c : Cmd) (s : State) : State :=
  let pipe := c.p8 32
  match tget s.pipes pipe with
  | none => refuse c.pair c.cid stPrecondition s
  | some p =>
    let st := s.startStatus pipe p
    if st ≠ stOk then refuse c.pair c.cid st s
    else
      let s1 := p.decl.datasets.foldl (fun t h => pruneSummaries h p.cursor t) s
      finishPlain c.pair c.cid stOk (resetLock pipe p.cursor (modPipe pipe (fun _ => s.startedPipe pipe p) s1))

/-- PIPELINE_START. -/
def execPipelineStart (pair cid : Nat) (s : State) : Res := live (runCmd 0x0201 pair cid pipelineStart) s

/-! ### Checkpoint record (R143) -/

/-- The declaration as last declared, with what SET_FIELD has changed since (R143). -/
def Decl.current (d : Decl) : Bytes :=
  let b1 := patch d.raw 8 d.seed
  let b2 := patch b1 40 (putLE 4 d.batch ++ putLE 4 d.epochs)
  patch b2 48 (putLE 1 d.tail ++ putLE 1 d.corrupt ++ putLE 1 d.shotMode)

/-- The 18 bytes of a dataset in CATALOG_DIGEST. -/
def State.catalogBytes (s : State) (h : Nat) : Bytes :=
  let vs := ((tget s.cat.committed h).map fun c => (c.version, c.size)).getD Config.noCatalog
  putLE 2 h ++ putLE 8 vs.1 ++ putLE 8 vs.2

/-- CATALOG_DIGEST. -/
def State.catalogDigest (s : State) (d : Decl) : Bytes := fitTo 48 (sha384 (d.datasets.map s.catalogBytes).flatten)

/-- DECL_DIGEST. -/
def Decl.digest (d : Decl) : Bytes := fitTo 48 (sha384 d.current)

/-- The checkpoint record of a pipeline: 160 bytes. -/
def State.checkpointRecord (s : State) (pipe : Nat) (p : Pipeline) : Bytes :=
  withCrc (fitTo 156 (putLE 4 0x4B435A45 ++ putLE 2 1 ++ putLE 1 pipe ++ zeros 1
    ++ putLE 4 (Config.fwRelease s.firmware) ++ putLE 4 (Config.opcatVersion s.firmware) ++ p.decl.digest
    ++ s.catalogDigest p.decl ++ putLE 8 p.cursor ++ putLE 8 s.tb))

/-- Set the anchor fields of a ledger pipeline to the span that holds the first unit of the cursor's batch (R242): by the spans it
resolves, and where it resolves none (DECLARED, STOPPED), as the last stop or restore left that span. -/
def setAnchor (pipe : Nat) (s : State) : State :=
  match tget s.pipes pipe with
  | none => s
  | some p =>
    if p.decl.ledger then
      let a := (s.anchorSpan p).getD p.anchor
      setRaw 0x04 pipe 4 (a.2.2 / 2 ^ 32 % 2 ^ 32) (setRaw 0x04 pipe 3 (a.2.2 % 2 ^ 32)
        (setRaw 0x04 pipe 2 (a.2.1 % 2 ^ 32) (setRaw 0x04 pipe 1 (a.1 % 2 ^ 16)
          (modPipe pipe (fun p => { p with anchor := a }) s))))
    else s

/-- Complete a checkpoint: its record is written, and a ledger pipeline's anchor set (R143, R242). -/
def checkpointDone (pipe : Nat) (c : Cmd) (pcieOk : Bool) (s : State) : State :=
  match tget s.pipes pipe with
  | none => refuse c.pair c.cid stPrecondition s
  | some p => replyData c pcieOk (s.checkpointRecord pipe p) c.plainResult (setAnchor pipe) s

/-- Complete the checkpoints that wait for a boundary or a stop. -/
def finishCheckpoints (pipe : Nat) (s : State) : State :=
  let ks := ((tget s.pipes pipe).map Pipeline.checkpoints).getD []
  ks.foldl (fun t k => match t.findCmd k.1 k.2.1 with
    | some c => checkpointDone pipe c k.2.2 t
    | none => t) (modPipe pipe (fun p => { p with checkpoints := [] }) s)

/-! ### Stops (R140, R169, R241) -/

/-- The sample's buffers return to the pool. -/
def freeBufs (x : Sample) (s : State) : State :=
  x.modelBufs.foldl (fun (t : State) (h : Nat) => freeBuf (some h) t) (freeBuf x.outBuf (freeBuf x.inBuf s))

/-- Samples of a pipeline that satisfy `out` are discarded and their buffers freed. An entry that runs goes on to its end or its
budget: its sample stays, marked discarded, until the completion is taken, and its output is freed unread (R169). -/
def discardSamples (pipe : Nat) (out : Sample → Bool) (s : State) : State :=
  let hit (x : Sample) : Bool := x.pipeline == pipe && out x && x.phase != .discarded
  let dead := s.eng.samples.filter fun kv => hit kv.2 && kv.2.phase != .issued
  dead.foldl (fun t kv => freeBufs kv.2 t)
    { s with eng := { s.eng with
        samples := tmapv (tfilter s.eng.samples fun _ x => !(hit x && x.phase != .issued)) fun _ x =>
          if hit x then { x with phase := .discarded } else x } }

/-- What every stop does: production ends, continuity buffers and ledger work are discarded, the anchor is set, waiting
checkpoints complete with the stop's cursor, and the outstanding stop completes (R140, R143, R241, R242). -/
def stopPipe (pipe state : Nat) (s : State) : State :=
  let s1 := if state = 5 then setAnchor pipe s else s
  let s2 := discardSamples pipe (fun _ => true)
    { s1 with eng := { s1.eng with sinkFailed := s1.eng.sinkFailed.filter fun k => k / 256 != pipe } }
  let s3 := modPipe pipe (fun p => { p with
    state := state
    runs := tmapv p.runs fun _ r => r.cleared }) s2
  let s4 := finishCheckpoints pipe s3
  let s5 := match (tget s4.pipes pipe).bind Pipeline.stop with
    | some k => finish k.pair k.cid stOk (((tget s4.pipes pipe).map Pipeline.cursor).getD 0) s4
    | none => s4
  dropHeld pipe (resetLock pipe (((tget s5.pipes pipe).map Pipeline.cursor).getD 0)
    (modPipe pipe (fun p => { p with stop := none, spans := [], seqs := [], placed := [], schedules := [] })
      (dropMoved (((tget s5.pipes pipe).map Pipeline.schedules).getD []) s5)))

/-- A consumer's delivery without the batches from `c` on (R140). -/
def ConsRun.below (r : ConsRun) (c : Nat) : ConsRun :=
  { r with
    finals := tfilter r.finals fun b _ => decide (b < c)
    held := tfilter r.held fun b _ => decide (b < c)
    heldPieces := tfilter r.heldPieces fun b _ => decide (b < c)
    ready := tfilter r.ready fun b _ => decide (b < c)
    readyPieces := tfilter r.readyPieces fun b _ => decide (b < c) }

/-- Does a position lie in a batch from `c` on? In a ledger pipeline, as far as its pieces, its unit or its span's UNIT_BASE say. -/
def State.posFrom (s : State) (p : Pipeline) (c epoch pos : Nat) : Bool :=
  if p.decl.ledger then
    let r := p.span epoch (spanOf pos)
    match tget p.placed (posKey epoch pos), r.unitBase with
    | some l, _ => l.any fun y => decide (c ≤ y.unit / max 1 p.decl.batch)
    | none, none => false
    | none, some base =>
      if r.result then
        let off := pos % 65536
        fillsUnit p.decl.corrupt r.list off && decide (c ≤ (base + unitsBefore p.decl.corrupt r.list off) / max 1 p.decl.batch)
      else decide (c ≤ base / max 1 p.decl.batch)
  else decide (c ≤ p.decl.nominalBatch (s.domain p.decl) epoch pos)

/-- Does a sample fill only batches from `c` on, as far as its slot or pieces say? -/
def Sample.onlyFrom (x : Sample) (d : Decl) (c : Nat) : Bool :=
  if x.pieces.isEmpty then x.slot.isSome && decide (c ≤ x.batch)
  else x.pieces.all fun y => decide (c ≤ y.2.1 / max 1 d.batch)

/-- The batches from `c` on that have started are discarded, and none starts again (R140): their samples with their buffers, what
is final or noticed of them, and what the ledger node has written. -/
def discardFrom (pipe c : Nat) (s : State) : State :=
  match tget s.pipes pipe with
  | none => s
  | some p =>
    let gone (x : Sample) : Bool := x.onlyFrom p.decl c || (!p.decl.ledger && decide (c ≤ x.batch))
    let late : List Nat := ((s.eng.samples.filter fun kv => kv.2.pipeline == pipe && gone kv.2).map fun kv =>
      posKey kv.2.epoch kv.2.position)
    modPipe pipe (fun p => { p with
      started := min p.started c
      made := p.made.filter fun k => !s.posFrom p c (k / 2 ^ 47) (k % 2 ^ 47) && !decide (k ∈ late)
      runs := tmapv p.runs fun _ r => r.below c
      seqs := tmapv p.seqs fun _ q => if c ≤ q.batch then { q with written := false, flushed := false, got := [] } else q })
      (discardSamples pipe gone s)

/-- PIPELINE_STOP (R140). -/
def pipelineStop (c : Cmd) (s : State) : State :=
  let pipe := c.p8 32
  let imm := bitOf (c.p8 33) 0
  let at_ := c.p64 40
  match tget s.pipes pipe with
  | none => refuse c.pair c.cid stPrecondition s
  | some p =>
    if 1 < c.p8 33 then refuse c.pair c.cid stInvalidField s
    else if p.stop.isSome then refuse c.pair c.cid stBusy s
    else if !(p.state == 2 || p.state == 3) then refuse c.pair c.cid stPrecondition s
    else if imm || (p.state == 2 && at_ == 0) then
      finish c.pair c.cid stOk p.cursor (stopPipe pipe 5 s)
    else if at_ ≠ 0 ∧ at_ ≤ p.cursor then refuse c.pair c.cid stPrecondition s
    else
      let stopAt := if at_ = 0 then p.cursor + 1 else at_
      let s1 := if at_ = 0 then s else discardFrom pipe at_ s
      markRunning c.pair c.cid
        (modPipe pipe (fun p => { p with
          state := 4
          stop := some { pair := c.pair, cid := c.cid, at_ := stopAt, limits := decide (at_ ≠ 0) } }) s1)

/-- PIPELINE_STOP. -/
def execPipelineStop (pair cid : Nat) (s : State) : Res := live (runCmd 0x0202 pair cid pipelineStop) s

/-- A reset withdraws the outstanding stop of a pipeline (R140). -/
def withdrawStop (pipe : Nat) (s : State) : State :=
  match tget s.pipes pipe with
  | none => s
  | some p =>
    if p.stop.isSome && p.state == 4 then
      modPipe pipe (fun q => { q with stop := none, state := if p.scheduleDone (s.cursorEpoch p) then 3 else 2 }) s
    else s

/-! ### Step boundaries (R142) -/

/-- A pipeline whose last batch is released ends (R99, R138), once the number of its batches is known (R223). -/
def endCheck (pipe : Nat) (s : State) : State :=
  match tget s.pipes pipe with
  | none => s
  | some p =>
    if p.active && (s.batchesOf p).any fun n => decide (n ≤ p.cursor) then stopPipe pipe 6 s else s

/-- What takes effect at one step boundary: the cursor moves on, PRIORITY comes into use (R9), old catalog runs are
dropped (R84), summaries of released batches are dropped (R86), checkpoints complete, and the pipeline ends or stops. -/
def boundary (pipe : Nat) (s : State) : State :=
  match tget s.pipes pipe with
  | none => s
  | some p =>
    let cur := p.cursor + 1
    let s1 := modPipe pipe (fun p => { p with
      cursor := cur
      boundary := cur
      placed := tfilter p.placed fun _ l => l.any fun y => decide (cur ≤ y.unit / max 1 p.decl.batch)
      prioInUse := s.raw 0x02 pipe 0x09 8 }) s
    let s2 := dropHeld pipe s1
    let s3 := p.decl.datasets.foldl (fun t h =>
      let others := (t.pipes.filter fun kv => kv.2.active && decide (h ∈ kv.2.decl.datasets)).map fun kv => kv.2.cursor
      pruneSummaries h (others.foldl min cur) t) s2
    let ended := match s3.batchesOf { p with cursor := cur } with
      | some n => decide (n ≤ cur)
      | none => false
    let stopped := (p.stop.map fun k => decide (k.at_ ≤ cur)).getD false
    if ended then stopPipe pipe 6 s3
    else if stopped then stopPipe pipe 5 s3
    else finishCheckpoints pipe s3

/-- Reach every boundary for which the node now holds the proof of each consumer, in ascending order (R142), while its own first
schedule is still being built too. -/
def reachBoundaries (pipe : Nat) : Nat → State → State
  | 0, s => s
  | n + 1, s =>
    match tget s.pipes pipe with
    | none => s
    | some p =>
      if p.active && !p.runs.isEmpty && p.runs.all fun kv => decide (p.cursor < kv.2.oldest) then
        reachBoundaries pipe n (boundary pipe s)
      else s

/-! ### PIPELINE_DELETE, PIPELINE_CHECKPOINT, PIPELINE_RESTORE -/

/-- PIPELINE_DELETE (R141): in DECLARED, STOPPED or ENDED (R138). -/
def pipelineDelete (c : Cmd) (s : State) : State :=
  let pipe := c.p8 32
  match tget s.pipes pipe with
  | none => refuse c.pair c.cid stPrecondition s
  | some p =>
    if p.active then refuse c.pair c.cid stPrecondition s
    else
      let gone (k : Nat) : Bool :=
        let inst := k / 2 ^ 8 % 2 ^ 16
        let blk := k / 2 ^ 24
        ((blk == 2 || blk == 4) && inst == pipe) || (blk == 3 && inst / 4096 == pipe)
      finishPlain c.pair c.cid stOk
        { s with pipes := tdel s.pipes pipe, fields := tfilter s.fields fun k _ => !gone k }

/-- PIPELINE_DELETE. -/
def execPipelineDelete (pair cid : Nat) (s : State) : Res := live (runCmd 0x0203 pair cid pipelineDelete) s

/-- PIPELINE_CHECKPOINT (R143): a RUNNING pipeline waits for its next step boundary. -/
def pipelineCheckpoint (pcieOk : Bool) (c : Cmd) (s : State) : State :=
  let pipe := c.p8 32
  match tget s.pipes pipe with
  | none => refuse c.pair c.cid stPrecondition s
  | some p =>
    if !c.exactBuf 160 then refuse c.pair c.cid stInvalidField s
    else if p.state = 3 then
      markRunning c.pair c.cid
        (modPipe pipe (fun p => { p with checkpoints := p.checkpoints ++ [(c.pair, c.cid, pcieOk)] }) s)
    else checkpointDone pipe c pcieOk s

/-- PIPELINE_CHECKPOINT. -/
def execPipelineCheckpoint (pair cid : Nat) (pcieOk : Bool) (s : State) : Res :=
  live (runCmd 0x0208 pair cid (pipelineCheckpoint pcieOk)) s

/-- What PIPELINE_RESTORE finds in a record (R144). The last batch of a ledger pipeline follows from its span results (R223), which a
pipeline that is not running holds none of: its cursor is judged against no last batch (DESIGN CHOICE). -/
def State.restoreStatus (s : State) (pipe : Nat) (p : Pipeline) (d : Bytes) : Nat :=
  if crc32c (d.take 156) ≠ field d 156 4 then stSignature
  else if field d 0 4 ≠ 0x4B435A45 ∨ field d 4 2 ≠ 1 ∨ byteAt d 6 ≠ pipe ∨ byteAt d 7 ≠ 0 ∨ !zeroAt d 128 28
      ∨ (p.decl.datasets.all (fun h => thas s.cat.committed h) ∧ (s.batchesOf p).any fun m => decide (m ≤ field d 112 8)) then
    stInvalidField
  else if field d 8 4 ≠ Config.fwRelease s.firmware % 2 ^ 32 ∨ field d 12 4 ≠ Config.opcatVersion s.firmware % 2 ^ 32
      ∨ sub d 16 48 ≠ p.decl.digest ∨ sub d 64 48 ≠ s.catalogDigest p.decl then stVersion
  else stOk

/-- PIPELINE_RESTORE (R144): the cursor is set, schedules are discarded, and so are explicit shot records of positions
of batches below the cursor. -/
def pipelineRestore (c : Cmd) (s : State) : State :=
  let pipe := c.p8 32
  match tget s.pipes pipe with
  | none => refuse c.pair c.cid stPrecondition s
  | some p =>
    if !(p.state == 1 || p.state == 5) then refuse c.pair c.cid stPrecondition s
    else if !c.dataIs 160 then refuse c.pair c.cid stInvalidField s
    else withData c (fun d s =>
      let st := s.restoreStatus pipe p d
      if st ≠ stOk then refuse c.pair c.cid st s
      else
        let cur := field d 112 8
        let n := s.domain p.decl
        let below (k : Nat) : Bool := decide (p.decl.nominalBatch n (k / 2 ^ 47) (k % 2 ^ 47) < cur)
        finishPlain c.pair c.cid stOk
          (modPipe pipe (fun p => { p with
            cursor := cur
            boundary := cur
            started := cur
            schedules := []
            anchor := s.anchorStart pipe
            runs := p.runs.map fun kv => (kv.1, { kv.2 with
              writable := kv.2.ring.headD cur + ((tget p.consumers kv.1).map Consumer.buffers).getD 0 })
            shots := tfilter p.shots fun k _ => !below k
            made := p.made.filter below }) s)) s

/-- PIPELINE_RESTORE. -/
def execPipelineRestore (pair cid : Nat) (s : State) : Res := live (runCmd 0x0209 pair cid pipelineRestore) s

/-! ### SHOT_RECORDS_LOAD (R130, R134) -/

/-- A shot record or template; none where a reserved bit is set or a reserved parameter is used (R130, R131). -/
def parseShot (b : Bytes) (hi : Bytes) : Option Shot :=
  let par := (List.range 16).map fun j => f32At b (16 + 4 * j)
  if field b 8 4 < 2 ^ 14 ∧ zeroAt b 12 4 ∧ zeroAt b 112 16 ∧ fEq (f32At b 72) fZero ∧ fEq (f32At b 76) fZero then
    some {
      draw := field b 8 4, param := par, arg := (List.range 8).map fun j => f32At b (80 + 4 * j),
      hi := (List.range (hi.length / 4)).map fun j => f32At hi (4 * j) }
  else none

/-- Is a template's every drawn range in order (R132)? -/
def Shot.rangesOk (t : Shot) : Bool :=
  (List.range 16).all fun j => !bitOf t.draw j || j == 6 || j == 7
    || !fLt (t.hi.getD j fZero) (t.param.getD j fZero)

/-- Key of an explicit record: its position word, epoch × 2^47 + position. -/
def shotKey (b : Bytes) : Nat := field b 0 8 % 2 ^ 63

/-- Explicit records of a load; none where one is ill formed. -/
def parseShots : List Bytes → Option (Table Shot)
  | [] => some []
  | b :: t =>
    match parseShot b [], parseShots t with
    | some r, some rs => if field b 0 8 < 2 ^ 63 ∧ r.draw = 0 then some (if thas rs (shotKey b) then rs else tput rs (shotKey b) r) else none
    | _, _ => none

/-- The bytes of a shot record as the part keeps it. -/
def Shot.image (k : Nat) (t : Shot) : Bytes :=
  fitTo 256 (putLE 8 k ++ putLE 8 t.draw ++ f32Bytes t.param ++ f32Bytes t.arg ++ f32Bytes t.hi)

/-- The shot records of a pipeline lie in the table areas (R244). -/
def storeShots (pipe : Nat) (s : State) : State :=
  match tget s.pipes pipe with
  | none => s
  | some p =>
    storeObject 6 pipe ((p.template.map (Shot.image 0)).getD [] ++ (p.shots.map fun kv => kv.2.image kv.1).flatten) s

/-- SHOT_RECORDS_LOAD: all or nothing. -/
def shotRecordsLoad (c : Cmd) (s : State) : State :=
  let pipe := c.p8 32
  let kind := c.p8 33
  let n := c.p32 36
  match tget s.pipes pipe with
  | none => refuse c.pair c.cid stPrecondition s
  | some p =>
    if 1 < kind ∨ !c.dataIs (if kind = 0 then 192 else 128 * n) ∨ (kind = 1 ∧ n = 0) then
      refuse c.pair c.cid stInvalidField s
    else withData c (fun d s =>
      if kind = 0 ∧ p.active then refuse c.pair c.cid stCfgBusy s
      else if p.decl.shotMode ≠ kind + 1 then refuse c.pair c.cid stPrecondition s
      else if kind = 0 then
        match parseShot (d.take 128) (sub d 128 64) with
        | none => refuse c.pair c.cid stInvalidField s
        | some t =>
          if t.rangesOk then finishPlain c.pair c.cid stOk (storeShots pipe (modPipe pipe (fun p => { p with template := some t }) s))
          else refuse c.pair c.cid stInvalidField s
      else
        let recs := pieces 128 n d
        if recs.any fun b => decide (shotKey b ∈ p.made) then refuse c.pair c.cid stPrecondition s
        else match parseShots recs with
          | none => refuse c.pair c.cid stInvalidField s
          | some rs =>
            let dom := s.domain p.decl
            if rs.any fun kv => decide (dom ≤ kv.1 % 2 ^ 47) || decide (p.decl.epochs ≤ kv.1 / 2 ^ 47) then
              refuse c.pair c.cid stInvalidField s
            else
              let kept := tfilter rs fun k _ => match p.schedule (k / 2 ^ 47) with
                | some e => !e.complete || decide (k % 2 ^ 47 ∈ e.positions)
                | none => true
              let all := kept.foldl (fun t kv => tput t kv.1 kv.2) p.shots
              if 16777216 < all.length then refuse c.pair c.cid stNoResources s
              else finishPlain c.pair c.cid stOk (storeShots pipe (modPipe pipe (fun p => { p with shots := all }) s))) s

/-- SHOT_RECORDS_LOAD. -/
def execShotRecordsLoad (pair cid : Nat) (s : State) : Res := live (runCmd 0x0205 pair cid shotRecordsLoad) s

/-! ### CONSUMER_ATTACH (R135, R136, R216) -/

/-- The consumer a command describes. -/
def Cmd.consumer (c : Cmd) : Consumer where
  slotFirst := c.p32 36
  slotCount := c.p32 40
  assembler := c.p16 44
  qp := c.p32 48
  bufKey := c.p32 52
  bufAddr := c.p64 56
  slotBytes := c.p32 64
  buffers := c.p16 68
  ringLog2 := c.p8 70
  ringKey := c.p32 72
  ringAddr := c.p64 80
  doorbell := c.p64 88

/-- Are a consumer's fields in range for a pipeline (R135, R136, R216)? -/
def Consumer.ok (k : Consumer) (d : Decl) : Bool :=
  decide (1 ≤ k.slotCount) && decide (k.slotFirst + k.slotCount ≤ d.batch) && decide (d.outputBytes ≤ k.slotBytes)
    && k.slotBytes % 64 == 0 && decide (8 ≤ k.buffers ∧ k.buffers ≤ 256) && decide (1 ≤ k.ringLog2 ∧ k.ringLog2 ≤ 8)
    && decide (k.qp < 2 ^ 20)

/-- CONSUMER_ATTACH. -/
def consumerAttach (c : Cmd) (s : State) : State :=
  let pipe := c.p8 32
  let no := c.p16 34
  let detach := bitOf (c.p8 33) 0
  match tget s.pipes pipe with
  | none => refuse c.pair c.cid stPrecondition s
  | some p =>
    if 1 < c.p8 33 ∨ 4095 < no then refuse c.pair c.cid stInvalidField s
    else if p.active then refuse c.pair c.cid stCfgBusy s
    else if p.state = 6 then refuse c.pair c.cid stPrecondition s
    else if detach then
      if thas p.consumers no then
        finishPlain c.pair c.cid stOk
          (modPipe pipe (fun p => { p with consumers := tdel p.consumers no, runs := tdel p.runs no }) s)
      else refuse c.pair c.cid stPrecondition s
    else if !c.consumer.ok p.decl then refuse c.pair c.cid stInvalidField s
    else
      finishPlain c.pair c.cid stOk
        (modPipe pipe (fun p => { p with consumers := tput p.consumers no c.consumer, runs := tdel p.runs no }) s)

/-- CONSUMER_ATTACH. -/
def execConsumerAttach (pair cid : Nat) (s : State) : Res := live (runCmd 0x0207 pair cid consumerAttach) s

end Sys2Proof.Machine
end

