-- ==== Sys2Proof/Machine/Wheel.lean ====
section
/-! DEFINITION. The flows of VC3 and the timing wheel (R362 to R365). -/

namespace Sys2Proof.Machine

/-- The wheel's time in ns: the L-die's local clock. -/
def State.localNs (s : State) : Nat := s.shaper.wheelNow * 64

/-- A flow. -/
def State.flow (s : State) (d : Nat) : Flow := tgetD s.shaper.flows d { queue := [], tNext := 0, busy := false }

/-- Store a flow. -/
def setFlow (d : Nat) (f : Flow) (s : State) : State :=
  { s with shaper := { s.shaper with flows := tput s.shaper.flows d f } }

/-- OVERHEAD of a flow, in two's complement (R364). -/
def State.overhead (s : State) (d : Nat) : Int := signedOf 9 (s.raw 0x0C d 0x03 0)

/-- Shaped length of a packet: l = max(1, 64 + length + overhead) (R364). -/
def shapedLen (length : Nat) (overhead : Int) : Nat := (max 1 (64 + (length : Int) + overhead)).toNat

/-- Eligible time and next eligible time, in 2^-8 ns (R364). -/
def eligible (now tNext l rate : Nat) : Nat × Nat := (max now tNext, max now tNext + l * 8000 * 256 / rate)

/-- First slot at or after an eligible time (R364). -/
def slotOf (e : Nat) : Nat := ceilDiv e (64 * 256)

/-- Put a packet where its slot says: ready when the slot has come, the wheel within its horizon of 8 192 slots, else the
overflow level (R363, R364). -/
def placeSlot (slot d : Nat) (p : Packet) (s : State) : State :=
  if slot ≤ s.shaper.wheelNow then { s with shaper := { s.shaper with ready := s.shaper.ready ++ [(d, p)] } }
  else if slot < s.shaper.wheelNow + 8192 then
    { s with shaper := { s.shaper with wheel := s.shaper.wheel ++ [(slot, d, p)] } }
  else { s with shaper := { s.shaper with overflow := s.shaper.overflow ++ [(slot, d, p)] } }

/-- The packet at the head of an idle flow is computed (R364); with SHAPED 0 it is ready at once (R362). -/
def startFlow (d : Nat) (s : State) : State :=
  let f := s.flow d
  match f.queue with
  | [] => s
  | p :: rest =>
    if f.busy then s
    else if s.raw 0x0C d 0x01 0 = 0 then
      let s1 := setFlow d { f with queue := rest, busy := true } s
      { s1 with shaper := { s1.shaper with ready := s1.shaper.ready ++ [(d, p)] } }
    else
      let et := eligible (s.localNs * 256) f.tNext (shapedLen p.length (s.overhead d)) (s.raw 0x0C d 0x02 4000000)
      placeSlot (slotOf et.1) d p (setFlow d { queue := rest, tNext := et.2, busy := true } s)

/-- A VC3 packet of this node enters its flow (R362, R364). -/
def postVc3 (d : Nat) (p : Packet) (s : State) : State :=
  let f := s.flow d
  startFlow d (setFlow d { f with queue := f.queue ++ [p] } s)

/-- A packet of a flow has left its port, or is lost with its link: the flow's next packet is computed (R364). -/
def flowLeft (d : Nat) (s : State) : State := startFlow d (setFlow d { s.flow d with busy := false } s)

end Sys2Proof.Machine
end

