-- ==== Sys2Proof/Machine/Links.lean ====
section
/-! DEFINITION. Yilanric links: flits, replay and credits, training, topology, identity, relay and the alignment of the
timebase (R313 to R338). -/

namespace Sys2Proof.Machine

/-! ### Ports, routes and flits -/

/-- Flit credits that a receiver advertises (R318). -/
def allCredits : List Nat := [64, 192, 192, 576]

/-- A port in DISABLED, the state before TOPOLOGY_LOAD (R320). -/
def freshPort : Port :=
  { state := 0, lanes := 0, txSeq := 0, acked := 0, replayBuf := [], rxSeq := 0, discarding := false,
    credits := allCredits, owed := [0, 0, 0, 0], control := [], cur := [], rr := 3, turns := [], nonceUse := 0,
    reident := false, probed := false, peer := 0xFFFF, delayPs := 0, offsetPs := 0, inbuf := [], replays := 0 }

/-- A port. -/
def State.port (s : State) (n : Nat) : Port := tgetD s.fab.ports n freshPort

/-- Store a port. -/
def setPort (n : Nat) (p : Port) (s : State) : State :=
  { s with fab := { s.fab with ports := tput s.fab.ports n p } }

/-- Change a port. -/
def modPort (n : Nat) (f : Port → Port) (s : State) : State := setPort n (f (s.port n)) s

/-- Route entry of a destination (R321): unlisted destinations are unreachable. -/
def State.route (s : State) (dest : Nat) : Nat := tgetD s.fab.routes dest 0x3FF

/-- HOPS that an originating node gives a flit (R321). -/
def routeHops (r : Nat) : Nat := bits r 13 10

/-- The output port of a destination (R326): PRIMARY, or ALTERNATE while PRIMARY is not ACTIVE; none where both are 31. -/
def State.outPort (s : State) (dest : Nat) : Option Nat :=
  let r := s.route dest
  let a := bits r 4 0
  let b := bits r 9 5
  if a = 31 then (if b = 31 then none else some b)
  else if (s.port a).state ≠ 7 ∧ b ≠ 31 then some b
  else some a

/-- Is `i` one of the ports the part has (R377: 0 to 17)? -/
def isPort (i : Nat) : Bool := decide (i < 18)

/-- Bytes 0 to 247 of a flit (R315). -/
def Flit.head (f : Flit) : Bytes :=
  putLE 8 (f.type + f.vc * 2 ^ 4 + f.valid * 2 ^ 8 + f.dest * 2 ^ 16 + f.hops * 2 ^ 32 + f.seq * 2 ^ 36 + f.ack * 2 ^ 46
    + f.creditVc * 2 ^ 56 + f.creditCount * 2 ^ 58) ++ fitTo 240 f.payload

/-- Is the CRC of a flit right (R315)? -/
def Flit.crcOk (f : Flit) : Bool := f.crc == crc64 f.head

/-- Is the CRC exactly the inverted one of a relay (R329)? -/
def Flit.stomped (f : Flit) : Bool := f.crc == 2 ^ 64 - 1 - crc64 f.head

/-- Add to one entry of a per-channel list. -/
def addAt (l : List Nat) (i n : Nat) : List Nat := l.modify i (· + n)

/-- The channel whose credits the next flit returns (R318). -/
def Port.creditTurn (p : Port) : Nat := (p.owed.findIdx? fun n => decide (0 < n)).getD 0

/-- The header fields that ride on every flit: ACK and the returned credits (R315, R318). -/
def Port.dress (p : Port) (f : Flit) : Flit :=
  let f1 := { f with ack := p.rxSeq, creditVc := p.creditTurn, creditCount := min 63 (p.owed.getD p.creditTurn 0) }
  { f1 with crc := crc64 f1.head }

/-- A port after it has returned the credits of one flit. -/
def Port.returned (p : Port) : Port :=
  { p with owed := p.owed.modify p.creditTurn fun n => n - min 63 n }

/-- Flits of a message (R315, R316): `n` whole or partial payloads of 240 bytes. -/
def messageFlits (vc dest hops : Nat) (bs : Bytes) : List Flit :=
  let ps := pieces 240 64 bs
  ps.zipIdx.map fun x =>
    { type := if ps.length = 1 then 4 else if x.2 = 0 then 1 else if x.2 + 1 = ps.length then 3 else 2, vc := vc,
      valid := x.1.length, dest := dest, hops := hops, seq := 0, ack := 0, creditVc := 0, creditCount := 0,
      payload := fitTo 240 x.1, crc := 0 }

/-! ### Sending -/

/-- Messages that may start on a port and channel: those routed to it. Channel 3 starts by VC3_MESSAGE_START (R367,
R370). -/
def State.candidates (s : State) (port vc : Nat) : List OutMsg :=
  s.fab.waiting.filter fun m => m.vc == vc && s.outPort m.dest == some port

/-- Sources take turns message by message (R327): the first candidate of the next source after the last one served. -/
def nextTurn (last : Nat) (ms : List OutMsg) : Option OutMsg :=
  let after := ms.filter fun m => decide (last < m.source)
  let pool := if after.isEmpty then ms else after
  let src := (pool.map OutMsg.source).foldl (fun (a b : Nat) => min a b) ((pool.head?.map OutMsg.source).getD 0)
  pool.find? fun m => m.source == src

/-- Start the next message of a channel on a port, when none is in progress there (R316). -/
def startNext (port vc : Nat) (s : State) : State :=
  let p := s.port port
  if thas p.cur vc then s
  else match nextTurn (tgetD p.turns vc 0) (s.candidates port vc) with
    | none => s
    | some m =>
      setPort port { p with cur := tput p.cur vc m, turns := tput p.turns vc m.source }
        { s with fab := { s.fab with waiting := s.fab.waiting.erase m } }

/-- Channel order of one flit (R327): VC0 first, then VC1 to VC3 in round robin after the last one served. -/
def vcOrder (rr : Nat) : List Nat := if rr = 1 then [0, 2, 3, 1] else if rr = 2 then [0, 3, 1, 2] else [0, 1, 2, 3]

/-- Hand one flit to the transmitter: SEQ, ACK, credits and CRC are filled, and the flit stays in the replay buffer
(R315, R317). -/
def transmit (port : Nat) (f : Flit) (s : State) : State :=
  let p := s.port port
  let g := p.dress { f with seq := p.txSeq }
  emit (.flit port g)
    (setPort port { p.returned with txSeq := (p.txSeq + 1) % 1024, replayBuf := p.replayBuf ++ [g] } s)

/-- A sent flit of a relayed message frees its place in the input buffer it came from (R318). -/
def freeInput (source vc : Nat) (s : State) : State :=
  if source = 0 then s else modPort (source - 1) (fun p => { p with owed := addAt p.owed vc 1 }) s

/-- An own message on VC3 whose last flit has left the port: its flow's next packet is computed (R364). -/
def leftPort (m : OutMsg) (s : State) : State := if m.source = 0 ∧ m.vc = 3 then flowLeft m.dest s else s

/-- The channel to send from next: it holds a credit and has a message in progress. -/
def Port.readyVc (p : Port) : Option Nat :=
  (vcOrder p.rr).find? fun v => decide (0 < p.credits.getD v 0) && thas p.cur v

/-- Send one flit on a port, if it may: link-local flits first; nothing new while 512 flits are unacknowledged; one credit
for each flit (R317, R318, R327). -/
def sendOne (port : Nat) (s : State) : State :=
  let p := s.port port
  if 512 ≤ p.replayBuf.length then s
  else match p.control with
    | f :: rest => transmit port f (setPort port { p with control := rest } s)
    | [] =>
      if p.state ≠ 7 then s
      else
        let s1 := startNext port 2 (startNext port 1 (startNext port 0 s))
        let q := s1.port port
        match q.readyVc with
        | none => s1
        | some v =>
          match tget q.cur v with
          | none => s1
          | some m =>
            match m.flits with
            | [] => setPort port { q with cur := tdel q.cur v } s1
            | f :: rest =>
              let q1 := { q with
                rr := if v = 0 then q.rr else v
                credits := q.credits.modify v (· - 1)
                cur := if rest.isEmpty then tdel q.cur v else tput q.cur v { m with flits := rest } }
              let s2 := freeInput m.source v (transmit port f (setPort port q1 s1))
              if rest.isEmpty then leftPort m s2 else s2

/-- Has a port something to send? -/
def State.hasWork (s : State) (port : Nat) : Bool :=
  let p := s.port port
  !p.control.isEmpty || (p.state == 7 && (!p.cur.isEmpty || !s.fab.waiting.isEmpty))

/-- Send while the port may. -/
def pumpPort (port : Nat) : Nat → State → State
  | 0, s => s
  | n + 1, s => if s.hasWork port then pumpPort port n (sendOne port s) else s

/-- Send on every port what may go: at most 512 flits each. -/
def pumpAll (s : State) : State := (List.range 18).foldl (fun (t : State) (i : Nat) => pumpPort i 512 t) s

/-- An IDLE flit that carries ACK and credits (R315). -/
def sendIdle (port : Nat) (s : State) : State :=
  let p := s.port port
  emit (.flit port (p.dress
      { type := 0, vc := 0, valid := 0, dest := 0, hops := 0, seq := p.txSeq, ack := 0, creditVc := 0, creditCount := 0,
        payload := zeros 240, crc := 0 }))
    (setPort port p.returned s)

/-- Send a link-local flit, with its meaning as an output of its own: the manual gives CONTROL flits no byte layout, so their
payload is free. -/
def sendControl (port kind arg : Nat) (s : State) : State :=
  let f : Flit :=
    { type := 5, vc := 0, valid := 1 + Config.freeNat s.freeTick % 240, dest := 0, hops := 0, seq := 0, ack := 0,
      creditVc := 0, creditCount := 0, payload := Config.freeBytes s.freeTick 240, crc := 0 }
  pumpPort port 512
    (modPort port (fun p => { p with control := p.control ++ [f] }) (emit (.control port kind arg) (tickFree s)))

/-- Control kinds of the model's outputs. -/
abbrev ctlParam : Nat := 1
abbrev ctlIdentity : Nat := 2
abbrev ctlProbe : Nat := 3
abbrev ctlReply : Nat := 4
abbrev ctlDisable : Nat := 5
abbrev ctlTimeReady : Nat := 6

/-- A whole own message enters the fabric (R316): it waits for its route's port. -/
def sendOwn (vc dest : Nat) (bs : Bytes) (s : State) : State :=
  { s with fab := { s.fab with
      waiting := s.fab.waiting ++
        [{ source := 0, vc := vc, dest := dest, flits := messageFlits vc dest (routeHops (s.route dest)) bs }] } }

/-! ### Port states and events -/

/-- Detail of event 0x0009 (R320). -/
def portDetail (port st reason peer : Nat) : Nat := port + st * 2 ^ 8 + reason * 2 ^ 12 + peer * 2 ^ 16

/-- A node-level event 0x0009 (R320, R332, R334, R335). -/
def nodeEvent (st reason : Nat) (s : State) : State := raiseEvent 0x0009 uPackage (portDetail 0xFF st reason 0xFFFF) s

/-- Topology entry of a port. -/
def State.portEntry (s : State) (port : Nat) : PortEntry :=
  tgetD s.fab.entries port { peerNode := 0xFFFF, peerPort := 0, enable := false, minLanes := 4 }

/-- The node is fabric-ready (R335): once, with its event. -/
def checkFabric (s : State) : State :=
  if s.fab.loaded && !s.fab.ready && (s.fab.timeState == 1 || s.fab.timeState == 2)
      && (List.range 18).all fun i =>
        !(s.portEntry i).enable || (s.port i).state == 7 || (s.port i).state == 8 then
    nodeEvent 1 0 { s with fab := { s.fab with ready := true } }
  else s

/-- Enter holdover (R334): the slew stays; the event has state 3. -/
def enterHoldover (reason : Nat) (s : State) : State :=
  if s.fab.timeState = 3 then s else nodeEvent 3 reason { s with fab := { s.fab with timeState := 3 } }

/-- A port's link is forgotten: SEQ, replay buffer, input buffer and credits start anew (R318, R319). -/
def Port.cleared (p : Port) : Port :=
  { freshPort with state := p.state, lanes := p.lanes, peer := p.peer, delayPs := p.delayPs, offsetPs := p.offsetPs }

/-- What a port that leaves ACTIVE takes with it (R319): the messages of its input buffer, also where one is being relayed; the rest of
a message on its own way out, whose places in the input buffer it came from are free (R318). -/
def dropLink (port : Nat) (s : State) : State :=
  let gone := (s.port port).cur.map Prod.snd
  let freed (i : Nat) (p : Port) : Port := { p with
    owed := gone.foldl (fun (l : List Nat) (m : OutMsg) => if m.source = i + 1 then addAt l m.vc m.flits.length else l) p.owed
    cur := tfilter p.cur fun _ m => m.source != port + 1 }
  gone.foldl (fun (t : State) (m : OutMsg) => leftPort m t)
    { s with fab := { s.fab with
        ports := tmapv s.fab.ports freed
        waiting := s.fab.waiting.filter fun m => m.source ≠ port + 1 } }

/-- A port leaves ACTIVE (R319, R320, R334): RETRAINS, the "link down" record with the reason, and holdover
where the port leads to the time parent. -/
def leaveActive (port reason : Nat) (s : State) : State :=
  let s1 := recordErr (plainErr (uPort port) 0x0401 clsContained 2 (uPort port) 0 reason)
    (bump 0x09 port 0x07 s)
  if port = s.fab.timePort ∧ s.fab.timeState = 2 then enterHoldover 0 s1 else s1

/-- Peer identifier of an event: the topology's, unless the peer reported another. -/
def State.peerOf (s : State) (port : Nat) : Nat := (s.portEntry port).peerNode

/-- A port changes state (R320): the event, and what leaving ACTIVE does. Failing, retraining and disabling forget the
link. -/
def portTo (port st reason peer : Nat) (s : State) : State :=
  let p := s.port port
  let down := st = 0 ∨ st = 1 ∨ st = 8
  let p1 := if down then { p.cleared with lanes := 0 } else p
  let s0 := if p.state = 7 ∧ down then dropLink port s else s
  let s1 := raiseEvent 0x0009 (uPort port) (portDetail port st reason peer) (setPort port { p1 with state := st } s0)
  checkFabric (if p.state = 7 ∧ down then leaveActive port reason s1 else s1)

/-- Retrain a port from DETECT. -/
def retrain (port reason : Nat) (s : State) : State := portTo port 1 reason (s.peerOf port) s

/-- A port fails. -/
def failPort (port reason : Nat) (s : State) : State := portTo port 8 reason (s.peerOf port) s

/-- A port is disabled (R324): from LOCK to ACTIVE it first reports so with a DISABLE CONTROL flit. -/
def disablePort (port reason : Nat) (linkUp : Bool) (s : State) : State :=
  let p := s.port port
  if p.state = 0 then s
  else
    let s1 := if linkUp ∧ 3 ≤ p.state ∧ p.state ≤ 7 then sendControl port ctlDisable 0 s else s
    portTo port 0 reason (s.peerOf port) s1

/-- PACKAGE_FATAL (R383): the error's record, and every port sends DISABLE and enters DISABLED, silently where the L-die can
no longer transmit. -/
def fatalStop (die cause : Nat) (linkUp : Bool) (s : State) : State :=
  if s.ken.fatal then s
  else
    (List.range 18).foldl (fun (t : State) (i : Nat) => disablePort i 0 linkUp t)
      (recordErrOn die (plainErr (uDie die) cause clsPackageFatal 0 0 0 0) s)

/-! ### Training (R320, R324, R325) -/

/-- Enter IDENTITY: a fresh nonce goes out with the key and the signature (R325). -/
def sendIdentity (port : Nat) (s : State) : State :=
  sendControl port ctlIdentity s.freeTick
    (modPort port (fun p => { p with nonceUse := s.freeTick }) (tickFree s))

/-- Four time probes start on a port (R331). -/
def startProbes (port : Nat) (s : State) : State :=
  (List.range 4).foldl (fun (t : State) (k : Nat) => sendControl port ctlProbe k t)
    { s with fab := { s.fab with probes := tput s.fab.probes port [] } }

/-- Is the node one that tells its children that time is ready: the root, or aligned (R331)? -/
def State.timeGood (s : State) : Bool := s.fab.timeState == 1 || s.fab.timeState == 2

/-- A port becomes ACTIVE: TIME_READY goes out again on it, and waiting messages may go (R331). -/
def enterActive (port : Nat) (s : State) : State :=
  let s1 := portTo port 7 0 (s.peerOf port) s
  pumpAll (if s1.timeGood then sendControl port ctlTimeReady 0 s1 else s1)

/-- May a port run on this many lanes (R314)? -/
def PortEntry.lanesOk (e : PortEntry) (lanes : Nat) : Bool := lanes == 4 || (lanes == 2 && e.minLanes == 2)

/-- PARAM ends (R318, R324): a peer other than the topology's fails the port with reason 7; else the credits are the
advertised ones and IDENTITY starts. -/
def endParam (port peerNode peerPort : Nat) (s : State) : State :=
  let e := s.portEntry port
  if peerNode ≠ e.peerNode ∨ peerPort ≠ e.peerPort then portTo port 8 7 (peerNode % 65536) s
  else
    sendIdentity port
      (portTo port 5 0 peerNode (modPort port (fun p => { p with credits := allCredits, peer := peerNode }) s))

/-- A training state's work is done (R320). IDENTITY ends by its exchange; TIME ends when its four probes are made. -/
def portAdvance (port peerNode peerPort lanes : Nat) (s : State) : State :=
  let p := s.port port
  let e := s.portEntry port
  match p.state with
  | 1 => portTo port 2 0 (s.peerOf port) s
  | 2 => portTo port 3 0 (s.peerOf port) s
  | 3 =>
    if e.lanesOk lanes then
      sendControl port ctlParam s.fab.nodeId
        (portTo port 4 0 (s.peerOf port) (modPort port (fun p => { p with lanes := lanes }) s))
    else s
  | 4 => endParam port peerNode peerPort s
  | 6 => if p.probed then enterActive port s else s
  | _ => s

/-- PORT_STATE_ADVANCE. -/
def execPortStateAdvance (port peerNode peerPort lanes : Nat) (s : State) : Res :=
  live (whenB (isPort port) (portAdvance port peerNode peerPort lanes)) s

/-- A training state passes its bound: FAILED with reason 1 (R320). -/
def boundExpiry (port : Nat) (s : State) : State :=
  let st := (s.port port).state
  if 1 ≤ st ∧ st ≤ 6 then failPort port 1 s else s

/-- PORT_BOUND_EXPIRY. -/
def execPortBoundExpiry (port : Nat) (s : State) : Res := live (whenB (isPort port) (boundExpiry port)) s

/-- 10 s in FAILED: the port retrains (R320). -/
def portRetry (port : Nat) (s : State) : State := if (s.port port).state = 8 then retrain port 0 s else s

/-- PORT_RETRY_TIMER. -/
def execPortRetryTimer (port : Nat) (s : State) : Res := live (whenB (isPort port) (portRetry port)) s

/-- Have more replays than REPLAY_LIMIT been requested and served (R319, R337)? The 1 ms in which they must fall runs on the port's
own clock (R330), whose row REPLAY_LIMIT is. -/
def State.replaysPassed (s : State) (port : Nat) : Bool := decide (s.raw 0x09 port 0x0C 64 < (s.port port).replays)

/-- Too many replays (reason 3), or codeword lock lost (reason 4): the port leaves ACTIVE and retrains (R319). -/
def replayLimit (port : Nat) (lockLost : Bool) (s : State) : State :=
  if (s.port port).state = 7 ∧ (lockLost ∨ s.replaysPassed port) then retrain port (if lockLost then 4 else 3) s else s

/-- REPLAY_LIMIT. -/
def execReplayLimit (port : Nat) (lockLost : Bool) (s : State) : Res :=
  live (whenB (isPort port) (replayLimit port lockLost)) s

/-- A DISABLE CONTROL flit from the peer: FAILED with reason 5 (R324). -/
def peerDisabled (port : Nat) (s : State) : State :=
  let st := (s.port port).state
  if 3 ≤ st ∧ st ≤ 7 then failPort port 5 s else s

/-- DISABLE. -/
def execDisable (port : Nat) (s : State) : Res := live (whenB (isPort port) (peerDisabled port)) s

/-- Is the peer's proof good (R325): an ID_HASH loaded for PEER_NODE, a key that has it, and a signature that verifies? -/
def State.identityOk (s : State) (port : Nat) (nonce key signature : Bytes) : Bool :=
  let e := s.portEntry port
  match tget s.fab.identities e.peerNode with
  | none => false
  | some h =>
    sha384 key == h &&
      Config.ecdsaVerifies key
        (Config.identityMessage nonce (Config.freeBytes (s.port port).nonceUse 32) e.peerNode s.fab.nodeId e.peerPort port)
        signature

/-- The peer's nonce, key and signature arrive (R325, R323): in IDENTITY the port goes to TIME and probes; in ACTIVE a re-run
exchange ends; a bad proof fails the port with reason 2 and records "identity". In ACTIVE, one that the peer starts is joined: each end
sends its own (R325). -/
def identityExchange (port : Nat) (nonce key signature : Bytes) (s : State) : State :=
  let p := s.port port
  if p.state = 5 ∨ (p.state = 7 ∧ p.reident) then
    if s.identityOk port nonce key signature then
      if p.state = 5 then startProbes port (portTo port 6 0 (s.peerOf port) s)
      else setPort port { p with reident := false } s
    else
      failPort port 2 (recordErr (plainErr (uPort port) 0x0402 clsContained 2 (uPort port) 0 0) s)
  else if p.state = 7 then sendIdentity port (setPort port { p with reident := true } s)
  else s

/-- IDENTITY_EXCHANGE. -/
def execIdentityExchange (port : Nat) (nonce key signature : Bytes) (s : State) : Res :=
  live (whenB (isPort port) (identityExchange port nonce key signature)) s

/-! ### Receiving flits (R315 to R319, R326 to R329) -/

/-- An ACK frees the flits it covers, and credits return (R317, R318); a flit out of turn comes again, with its credits. -/
def takeAck (port : Nat) (f : Flit) (s : State) : State :=
  let p := s.port port
  let n := (f.ack + 1024 - p.acked % 1024) % 1024
  let p1 := if n ≤ p.replayBuf.length then
      { p with acked := (p.acked + n) % 1024, replayBuf := p.replayBuf.drop n } else p
  let taken := f.type = 0 ∨ f.seq = p.rxSeq
  setPort port { p1 with credits := if taken then addAt p1.credits f.creditVc f.creditCount else p1.credits } s

/-- A damaged flit, or one out of turn: it and all later ones are discarded until the expected one comes, and one REPLAY asks
for it (R317). -/
def askReplay (port : Nat) (s : State) : State :=
  let p := s.port port
  if p.discarding then s
  else
    let f : Flit :=
      { type := 6, vc := 0, valid := 2, dest := 0, hops := 0, seq := 0, ack := 0, creditVc := 0, creditCount := 0,
        payload := fitTo 240 (putLE 2 p.rxSeq), crc := 0 }
    pumpPort port 512
      (bump 0x09 port 0x06
        (setPort port { p with discarding := true, control := f :: p.control, replays := p.replays + 1 } s))

/-- Resend every unacknowledged flit from a SEQ, in order (R317): the ACK is the present one, the credits those of the first
sending, and a stomped flit stays stomped (R329). -/
def resend (port seq : Nat) (s : State) : State :=
  let p := s.port port
  let k := (seq + 1024 - p.acked % 1024) % 1024
  let fs := (p.replayBuf.drop k).map fun f =>
    let g := { f with ack := p.rxSeq }
    { g with crc := if f.stomped then 2 ^ 64 - 1 - crc64 g.head else crc64 g.head }
  emits (fs.map fun f => .flit port f) (bump 0x09 port 0x06 (setPort port { p with replays := p.replays + 1 } s))

/-- Is this flit the last of its message? -/
def Flit.ends (f : Flit) : Bool := f.type == 3 || f.type == 4

/-- The flits of one message of a channel as they wait in the input buffer, and the rest. -/
def takeMessage (vc : Nat) (fs : List Flit) : List Flit × List Flit := (fs.filter fun f => f.vc == vc, fs.filter fun f => f.vc != vc)

/-- A whole message is in the input buffer (R316, R326): one for this node frees its places at once, for the transport takes
it (its own row carries the packet); one for another node is relayed with HOPS one lower, or dropped when HOPS is 0 or no
port leads there. -/
def messageArrived (port : Nat) (m : List Flit) (s : State) : State :=
  let dest := (m.head?.map Flit.dest).getD 0
  let hops := (m.head?.map Flit.hops).getD 0
  let vc := (m.head?.map Flit.vc).getD 0
  let free (t : State) : State := modPort port (fun p => { p with owed := addAt p.owed vc m.length }) t
  if dest = s.fab.nodeId then free s
  else if hops = 0 ∨ s.outPort dest = none then free (bump 0x09 port 0x0D s)
  else
    { s with fab := { s.fab with waiting := s.fab.waiting ++
        [{ source := port + 1, vc := vc, dest := dest, flits := m.map fun f => { f with hops := f.hops - 1 } }] } }

/-- A good flit in turn (R315, R317): it is acknowledged; payload waits until its message is whole; a reserved type is
discarded and counted; a FIRST or an ONLY ends what was left of a message cut short on its channel. -/
def acceptFlit (port : Nat) (f : Flit) (s : State) : State :=
  let s1 := modPort port (fun p => { p with rxSeq := (p.rxSeq + 1) % 1024, discarding := false }) s
  if 7 ≤ f.type then bump 0x09 port 0x05 s1
  else if f.type = 5 ∨ f.type = 6 then s1
  else
    let p := s1.port port
    let left := if f.type = 1 ∨ f.type = 4 then takeMessage f.vc p.inbuf else ([], p.inbuf)
    let q := { p with owed := addAt p.owed f.vc left.1.length }
    let fs := left.2 ++ [f]
    if f.ends then
      let sp := takeMessage f.vc fs
      messageArrived port sp.1 (setPort port { q with inbuf := sp.2 } s1)
    else setPort port { q with inbuf := fs } s1

/-- Did the relay already send a damaged flit on in cut-through (R328, R329)? It may have, when the output was free: free, for
the model relays whole messages. The output then carries a stomped copy, which its receiver discards. -/
def stompOn (port : Nat) (f : Flit) (s : State) : State :=
  if f.dest ≠ s.fab.nodeId ∧ 1 ≤ f.type ∧ f.type ≤ 4 ∧ f.hops ≠ 0 ∧ Config.freeBool s.freeTick then
    match s.outPort f.dest with
    | none => tickFree s
    | some o =>
      let q := s.port o
      if q.state = 7 ∧ q.replayBuf.length < 512 ∧ o ≠ port ∧ !thas q.cur f.vc ∧ 0 < q.credits.getD f.vc 0 then
        let g := q.dress { f with hops := f.hops - 1, seq := q.txSeq }
        let b := { g with crc := 2 ^ 64 - 1 - g.crc }
        emit (.flit o b)
          (setPort o { q.returned with
              txSeq := (q.txSeq + 1) % 1024, replayBuf := q.replayBuf ++ [b], credits := q.credits.modify f.vc (· - 1) }
            (tickFree s))
      else tickFree s
  else tickFree s

/-- The receiver's work on one flit (R317, R329). A stomped flit is acknowledged and its place is free at once. -/
def receiveFlit (port : Nat) (f : Flit) (s : State) : State :=
  let p := s.port port
  if f.crcOk then
    let s1 := takeAck port f s
    if f.type = 0 then s1
    else if f.seq = p.rxSeq then acceptFlit port f s1
    else askReplay port s1
  else if f.stomped ∧ f.seq = p.rxSeq then
    modPort port (fun p => { p with rxSeq := (p.rxSeq + 1) % 1024, discarding := false, owed := addAt p.owed f.vc 1 }) (takeAck port f s)
  else askReplay port (stompOn port f (bump 0x09 port 0x05 s))

/-- After a flit: what may go goes, and an IDLE carries ACK and credits where nothing else went. -/
def afterFlit (port : Nat) (s : State) : State :=
  let t := pumpAll s
  if (t.port port).txSeq = (s.port port).txSeq then sendIdle port t else t

/-- Do flits pass on a port (from PARAM on, R320)? -/
def State.linked (s : State) (port : Nat) : Bool := decide (4 ≤ (s.port port).state ∧ (s.port port).state ≤ 7)

/-- A received flit. A REPLAY flit with a good CRC acts whatever its own SEQ. -/
def flitIn (port : Nat) (f : Flit) (s : State) : State :=
  if s.linked port then
    let s1 := receiveFlit port f s
    afterFlit port (if f.type = 6 ∧ f.crcOk then resend port (field f.payload 0 2) s1 else s1)
  else s

/-- FLIT. -/
def execFlit (port : Nat) (f : Flit) (s : State) : Res := live (whenB (isPort port) (flitIn port f)) s

/-- REPLAY: a received flit of type 6. -/
def execReplay (port : Nat) (f : Flit) (s : State) : Res :=
  live (whenB (isPort port && f.type == 6) (flitIn port f)) s

/-! ### The timebase (R330 to R335) -/

/-- A quotient rounded to the nearest whole number; a tie goes either way (R332 does not say). -/
def nearest (n : Int) (d : Nat) (up : Bool) : Int :=
  let q := n / (d : Int)
  let r2 := 2 * (n % (d : Int))
  if r2 < (d : Int) then q else if (d : Int) < r2 then q + 1 else if up then q + 1 else q

/-- (t2 − t1) + (t4 − t3): twice the delay. -/
def Probe.delay2 (p : Probe) : Int := ((p.t2 : Int) - p.t1) + ((p.t4 : Int) - p.t3)

/-- (t2 − t1) − (t4 − t3): twice the offset (R331). -/
def Probe.offset2 (p : Probe) : Int := ((p.t2 : Int) - p.t1) - ((p.t4 : Int) - p.t3)

/-- The probe kept: the smallest delay, the earliest of equal ones (R331). -/
def keptProbe : List Probe → Option Probe
  | [] => none
  | p :: ps => some (ps.foldl (fun (a b : Probe) => if b.delay2 < a.delay2 then b else a) p)

/-- TIME_READY on every ACTIVE port (R331). -/
def tellReady (s : State) : State :=
  (List.range 18).foldl (fun (t : State) (i : Nat) =>
    if (t.port i).state = 7 then sendControl i ctlTimeReady 0 t else t) s

/-- The node becomes aligned (R331, R332): its event, and TIME_READY to its children. -/
def becomeAligned (s : State) : State :=
  if s.fab.timeState = 2 then s
  else checkFabric (tellReady (nodeEvent 2 0 { s with fab := { s.fab with timeState := 2 } }))

/-- The first alignment after power-good: a step, with a logbook record of the values before and after (R332). -/
def stepTime (ns : Int) (s : State) : State :=
  let tb := (((s.tb : Int) + ns) % 2 ^ 64).toNat
  becomeAligned
    (logRecord 0x0041 uPackage (fitTo 32 (putLE 8 s.tb ++ putLE 8 tb))
      { s with tb := tb, fab := { s.fab with aligned := true, stepNs := ns } })

/-- The largest slew, ±100 ppm (R332). -/
def clampSlew (ppb : Int) : Int := if 100000 < ppb then 100000 else if ppb < -100000 then -100000 else ppb

/-- A slew that removes the offset (in 1/32 ns) by the next measurement, PERIOD_MS away (R332). -/
def slewFor (off2 : Int) (periodMs : Nat) : Int := clampSlew (off2 * 1000 / (32 * (periodMs : Int)))

/-- TIME_PORT steers (R331, R332, R334): holdover when the parent reports it, or holds another depth; nothing while the
parent is not aligned; else the first step, or a slew. -/
def steer (p : Probe) (s : State) : State :=
  if p.peerDepth + 1 ≠ s.fab.timeDepth then enterHoldover 6 s
  else if p.peerHoldover then (if s.fab.timeState = 2 then enterHoldover 0 s else s)
  else if !p.peerAligned then s
  else if !s.fab.aligned then stepTime (nearest p.offset2 32 (Config.freeBool s.freeTick)) (tickFree s)
  else
    becomeAligned
      { s with fab := { s.fab with slewPpb := slewFor p.offset2 (s.raw 0x0A 0 0x02 100) } }

/-- Four probes are made: the kept one gives DELAY_PS and OFFSET, and steers on TIME_PORT, never on the root (R331). -/
def probesDone (port : Nat) (ps : List Probe) (s : State) : State :=
  match keptProbe ps with
  | none => s
  | some p =>
    let d := nearest (p.delay2 * 125) 4 (Config.freeBool s.freeTick)
    let o := nearest (p.offset2 * 125) 4 (Config.freeBool (s.freeTick + 1))
    let s1 := modPort port (fun q => { q with probed := true, delayPs := d.toNat, offsetPs := o })
      { tickFree (tickFree s) with fab := { s.fab with probes := tdel s.fab.probes port } }
    if port = s.fab.timePort ∧ s.fab.timeState ≠ 1 then steer p s1 else s1

/-- A received time probe: a request is answered with the node's own timestamps; a reply is recorded, the fourth ends the
run (R331). -/
def timeProbe (port : Nat) (p : Probe) (s : State) : State :=
  let st := (s.port port).state
  if st = 6 ∨ st = 7 then
    if p.t4 = 0 then sendControl port ctlReply p.t1 s
    else match tget s.fab.probes port with
      | none => s
      | some ps =>
        let qs := ps ++ [p]
        if 4 ≤ qs.length then probesDone port qs s
        else { s with fab := { s.fab with probes := tput s.fab.probes port qs } }
  else s

/-- TIME_PROBE. -/
def execTimeProbe (port : Nat) (p : Probe) (s : State) : Res := live (whenB (isPort port) (timeProbe port p)) s

/-- TIME_READY on TIME_PORT: four probes at once (R331). -/
def timeReady (port : Nat) (s : State) : State :=
  if (s.port port).state = 7 ∧ port = s.fab.timePort then startProbes port s else s

/-- TIME_READY. -/
def execTimeReady (port : Nat) (s : State) : Res := live (whenB (isPort port) (timeReady port)) s

/-- Every PERIOD_MS: probes on every ACTIVE port (R331). -/
def probeTimer (s : State) : State :=
  (List.range 18).foldl (fun (t : State) (i : Nat) => if (t.port i).state = 7 then startProbes i t else t) s

/-- TIME_PROBE_TIMER. -/
def execTimeProbeTimer (s : State) : Res := live probeTimer s

/-! ### Topology and identities (R321 to R323) -/

/-- A port entry of TOPOLOGY_LOAD. -/
def parsePortEntry (b : Bytes) : PortEntry :=
  { peerNode := field b 0 2, peerPort := byteAt b 2, enable := byteAt b 3 == 1, minLanes := byteAt b 4 }

/-- Is a port entry in range (R321)? -/
def portEntryOk (b : Bytes) : Bool :=
  decide (field b 0 2 ≤ 8191) && decide (byteAt b 2 ≤ 17) && decide (byteAt b 3 ≤ 1)
    && (byteAt b 4 == 2 || byteAt b 4 == 4) && zeroAt b 5 11

/-- Is a route entry in range (R321, R322)? -/
def routeOk (entries : List PortEntry) (r : Nat) : Bool :=
  let a := bits r 4 0
  let b := bits r 9 5
  decide (r < 2 ^ 14) && (a == 31 || (entries[a]?.map PortEntry.enable).getD false) && (b == 31 || decide (b ≤ 17))

/-- The 18 port entries of the data. -/
def topoPorts (d : Bytes) : List Bytes := pieces 16 18 (d.take 288)

/-- The 8 192 route entries of the data. -/
def topoRoutes (d : Bytes) : List Nat := (pieces 4 8192 (d.drop 288)).map leVal

/-- The parameters are in range (R321, R322). -/
def topoParamsOk (c : Cmd) : Bool :=
  decide (c.p16 32 ≤ 8191) && decide (c.p16 34 ≤ 8191) && decide (c.p8 37 ≤ 8)
    && ((c.p8 36 == 0xFF && c.p8 37 == 0) || (decide (c.p8 36 ≤ 17) && decide (1 ≤ c.p8 37)))

/-- May NODE_ID and TIME_ROOT change: no pipeline is running and no queue pair exists (R322)? -/
def State.fabricIdle (s : State) : Bool := !(s.pipes.any fun kv => kv.2.active) && s.rdma.qps.isEmpty

/-- A port whose entry changed retrains from DETECT, or is disabled (R322, R324). -/
def applyEntry (old : Option PortEntry) (port : Nat) (s : State) : State :=
  let e := s.portEntry port
  if old = some e then s
  else if e.enable then retrain port 0 s
  else disablePort port 0 true s

/-- The time tree's place of the node (R321, R331): the root is aligned by definition. -/
def applyTimeTree (s : State) : State :=
  if s.fab.timePort = 0xFF then
    checkFabric (tellReady { s with fab := { s.fab with timeState := 1, slewPpb := 0 } })
  else if s.fab.timeState = 1 then
    (if s.fab.aligned then enterHoldover 0 s else { s with fab := { s.fab with timeState := 0 } })
  else if s.fab.timeState = 2 ∧ (s.port s.fab.timePort).state ≠ 7 then enterHoldover 0 s
  else s

/-- Relayed messages that wait and that no route leads on any more are discarded, counted on their input port (R326, R337), and their
places in the input buffer are free (R318). -/
def dropUnrouted (s : State) : State :=
  let gone := s.fab.waiting.filter fun m => m.source != 0 && (s.outPort m.dest).isNone
  gone.foldl (fun (t : State) (m : OutMsg) =>
      modPort (m.source - 1) (fun p => { p with owed := addAt p.owed m.vc m.flits.length }) (bump 0x09 (m.source - 1) 0x0D t))
    { s with fab := { s.fab with waiting := s.fab.waiting.filter fun m => m.source == 0 || (s.outPort m.dest).isSome } }

/-- TOPOLOGY_LOAD takes effect (R321, R322). -/
def applyTopology (c : Cmd) (d : Bytes) (s : State) : State :=
  let es := (topoPorts d).map parsePortEntry
  let old := s.fab.entries
  let s1 := { s with fab := { s.fab with
    nodeId := c.p16 32, timeRoot := c.p16 34, timePort := c.p8 36, timeDepth := c.p8 37, version := c.p64 40,
    loaded := true
    entries := es.zipIdx.map fun x => (x.2, x.1)
    routes := (((topoRoutes d).zipIdx.filter fun x => x.1 ≠ 0x3FF).map fun x => (x.2, x.1)) } }
  pumpAll (checkFabric (applyTimeTree (dropUnrouted
    ((List.range 18).foldl (fun (t : State) (i : Nat) => applyEntry (tget old i) i t) s1))))

/-- TOPOLOGY_LOAD. -/
def topologyLoad (c : Cmd) (s : State) : State :=
  if !c.dataIs 33056 || !topoParamsOk c then refuse c.pair c.cid stInvalidField s
  else withData c (fun d t =>
    if !((topoPorts d).all portEntryOk
        && (topoRoutes d).all (routeOk ((topoPorts d).map parsePortEntry))) then
      refuse c.pair c.cid stInvalidField t
    else if (c.p16 32 ≠ t.fab.nodeId ∨ (t.fab.loaded ∧ c.p16 34 ≠ t.fab.timeRoot)) ∧ !t.fabricIdle then
      refuse c.pair c.cid stCfgBusy t
    else finishPlain c.pair c.cid stOk (applyTopology c d t)) s

/-- TOPOLOGY_LOAD. -/
def execTopologyLoad (pair cid : Nat) (s : State) : Res := live (runCmd 0x0400 pair cid topologyLoad) s

/-- One identity entry is in range (R323). -/
def identityEntryOk (b : Bytes) : Bool := decide (field b 0 2 ≤ 8191) && zeroAt b 2 14

/-- A port whose peer's hash changed: ACTIVE re-runs IDENTITY, FAILED retrains (R320, R323). -/
def applyIdentity (old : Table Bytes) (port : Nat) (s : State) : State :=
  let e := s.portEntry port
  if e.enable ∧ tget old e.peerNode ≠ tget s.fab.identities e.peerNode then
    let st := (s.port port).state
    if st = 7 then sendIdentity port (modPort port (fun p => { p with reident := true }) s)
    else if st = 8 then retrain port 0 s
    else s
  else s

/-- PEER_IDENTITY_LOAD (R323). -/
def peerIdentityLoad (c : Cmd) (s : State) : State :=
  let n := c.p16 32
  if n = 0 ∨ 8192 < n ∨ 1 < c.p16 34 ∨ !c.dataIs (64 * n) then refuse c.pair c.cid stInvalidField s
  else withData c (fun d t =>
    let es := pieces 64 8192 d
    if !es.all identityEntryOk then refuse c.pair c.cid stInvalidField t
    else
      let base := if bitOf (c.p16 34) 0 then [] else t.fab.identities
      let tab := es.foldl (fun (m : Table Bytes) (b : Bytes) => tput m (field b 0 2) (sub b 16 48)) base
      let t1 := { t with fab := { t.fab with identities := tab } }
      finishPlain c.pair c.cid stOk
        ((List.range 18).foldl (fun (u : State) (i : Nat) => applyIdentity t.fab.identities i u) t1)) s

/-- PEER_IDENTITY_LOAD. -/
def execPeerIdentityLoad (pair cid : Nat) (s : State) : Res := live (runCmd 0x0401 pair cid peerIdentityLoad) s

end Sys2Proof.Machine
end

