-- ==== Sys2Proof/Machine/Shaper.lean ====
section
/-! DEFINITION. Egress shaping, call sheets, guard bands and ingress policing (R361 to R376). -/

namespace Sys2Proof.Machine

/-! ### Packets as bytes (R343) -/

/-- Bytes 0 to 59 of a transport header (R343). -/
def Packet.head (p : Packet) : Bytes :=
  putLE 1 p.opcode ++ putLE 1 p.flags ++ putLE 2 p.srcNode ++ putLE 4 p.destQp ++ putLE 4 p.srcQp ++ putLE 4 p.psn
    ++ putLE 4 p.key ++ putLE 4 p.length ++ putLE 8 p.addr ++ putLE 4 p.msgLen
    ++ putLE 4 (p.aethPsn % 2 ^ 24 + p.syndrome * 2 ^ 24) ++ putLE 2 p.hint ++ zeros 18

/-- ICRC: CRC-32C of bytes 0 to 59 and the data (R343). -/
def Packet.icrcOf (p : Packet) : Nat := crc32c (p.head ++ p.data)

/-- A packet's bytes: the 64-byte header and the data. -/
def Packet.bytes (p : Packet) : Bytes := p.head ++ putLE 4 p.icrc ++ p.data

/-- A packet with its ICRC. -/
def Packet.sealed (p : Packet) : Packet := { p with icrc := p.icrcOf }

/-- Flits of a packet (R370). -/
def Packet.flitCount (p : Packet) : Nat := ceilDiv (64 + p.length) 240

/-! ### Slots of the wheel (R363, R364) -/

/-- Insert a wheel entry in slot order, ascending flow index within a slot (R364). -/
def slotInsert (x : Nat × Nat × Packet) : List (Nat × Nat × Packet) → List (Nat × Nat × Packet)
  | [] => [x]
  | y :: ys =>
    if x.1 < y.1 ∨ (x.1 = y.1 ∧ x.2.1 < y.2.1) then x :: y :: ys else y :: slotInsert x ys

/-- The packets whose slot has come, in slot order. -/
def dueOf (now : Nat) (w : List (Nat × Nat × Packet)) : List (Nat × Nat × Packet) :=
  (w.filter fun x => decide (x.1 ≤ now)).foldl (fun (acc : List (Nat × Nat × Packet)) (x : Nat × Nat × Packet) =>
    slotInsert x acc) []

/-- One slot of 64 ns: its packets pass to the ready queue (R364). -/
def wheelTick (s : State) : State :=
  let now := s.shaper.wheelNow + 1
  let due := dueOf now s.shaper.wheel
  { s with shaper := { s.shaper with
      wheelNow := now
      wheel := s.shaper.wheel.filter fun x => decide (now < x.1)
      ready := s.shaper.ready ++ due.map Prod.snd } }

/-- WHEEL_SLOT. -/
def execWheelSlot (s : State) : Res := live wheelTick s

/-- An overflow slot's start: its packets move into the wheel slots of their eligible times (R363). -/
def overflowTick (s : State) : State :=
  let here (x : Nat × Nat × Packet) : Bool := decide (x.1 / 8192 ≤ s.shaper.wheelNow / 8192)
  (s.shaper.overflow.filter here).foldl (fun (t : State) (x : Nat × Nat × Packet) => placeSlot x.1 x.2.1 x.2.2 t)
    { s with shaper := { s.shaper with overflow := s.shaper.overflow.filter fun x => !here x } }

/-- OVERFLOW_SLOT. -/
def execOverflowSlot (s : State) : Res := live overflowTick s

/-! ### Call sheets and gates (R366 to R369) -/

/-- Phase of a timebase value in the sheet's cycle. -/
def Sheet.phase (h : Sheet) (t : Nat) : Nat := (((t : Int) - h.base) % (h.cycle : Int)).toNat

/-- The entry of a phase, and how long it still lasts. -/
def sheetEntry : List (Nat × Bool) → Nat → Nat × Bool × Nat
  | [], _ => (0, false, 0)
  | (d, o) :: t, ph => if ph < d then (0, o, d - ph) else let r := sheetEntry t (ph - d); (r.1 + 1, r.2)

/-- Is the gate of a sheet open at t (R366)? -/
def Sheet.openAt (h : Sheet) (t : Nat) : Bool := (sheetEntry h.entries (h.phase t)).2.1

/-- Nanoseconds until the current open window of a sheet ends; none: it never ends (R366: consecutive open entries form one
window, over the end of the cycle too). -/
def Sheet.windowLeft (h : Sheet) (t : Nat) : Option Nat :=
  if h.entries.all Prod.snd then none
  else
    let e := sheetEntry h.entries (h.phase t)
    let after := h.entries.drop (e.1 + 1) ++ h.entries
    some (e.2.2 + ((after.takeWhile Prod.snd).map Prod.fst).sum)

/-- Is the gate of a port open now (R366, R368): always without a sheet; closed with one while TIME_STATE is 0? -/
def State.gateNow (s : State) (port : Nat) : Bool :=
  match tget s.shaper.active port with
  | none => true
  | some h => s.fab.timeState != 0 && h.openAt s.tb

/-- Picoseconds of one flit on a port (R313, R314). -/
def flitPs (lanes : Nat) : Nat := if lanes = 2 then 2550 else 1275

/-- The guard band of R370: 3 × F × t_flit + 12 ns + GUARD_EXTRA_NS, rounded up to a whole nanosecond. -/
def guardBand (flits lanes extra : Nat) : Nat := ceilDiv (3 * flits * flitPs lanes) 1000 + 12 + extra

/-- GUARD_EXTRA_NS of a port. -/
def State.guardExtra (s : State) (port : Nat) : Nat := s.raw 0x0D port 0x01 0

/-- May a VC3 message of F flits start on a port now (R367, R370)? -/
def State.fits (s : State) (port flits : Nat) : Bool :=
  match tget s.shaper.active port with
  | none => true
  | some h =>
    s.gateNow port &&
      match h.windowLeft s.tb with
      | none => true
      | some left => decide (guardBand flits (s.port port).lanes (s.guardExtra port) ≤ left)

/-- A pending sheet whose ACTIVATE_AT has come becomes active at a VC3 message boundary (R369). -/
def activateSheet (port : Nat) (s : State) : State :=
  match tget s.shaper.pending port with
  | none => s
  | some h =>
    if h.activateAt ≤ s.tb ∧ !thas (s.port port).cur 3 then
      { s with shaper := { s.shaper with
          active := tput s.shaper.active port h, pending := tdel s.shaper.pending port } }
    else s

/-- CALL_SHEET_ACTIVATE. -/
def execCallSheetActivate (port : Nat) (s : State) : Res := live (whenB (isPort port) (activateSheet port)) s

/-- VC3 messages that wait for a port: the node's own ready packets, and relayed ones. -/
def State.vc3Own (s : State) (port : Nat) : List (Nat × Packet) :=
  s.shaper.ready.filter fun x => s.outPort x.1 == some port

/-- The first message of each relayed input on VC3. -/
def State.vc3Relayed (s : State) (port : Nat) : List OutMsg := s.candidates port 3

/-- A gate crosses an entry boundary (R366): a close counts in CLOSES, and the messages it leaves waiting in GUARD_HOLDS
(R376). -/
def gateCross (port : Nat) (s : State) : State :=
  let now := s.gateNow port
  let was := tgetD s.shaper.gateOpen port true
  let s1 := { s with shaper := { s.shaper with gateOpen := tputD s.shaper.gateOpen port now true } }
  if was && !now then
    bumpBy 0x0D port 0x04 ((s.vc3Own port).length + (s.vc3Relayed port).length) (bump 0x0D port 0x05 s1)
  else s1

/-- GATE_TRANSITION. -/
def execGateTransition (port : Nat) (s : State) : Res := live (whenB (isPort port) (gateCross port)) s

/-- An own packet is sent: its flow's counters rise (R376). The flow's next packet is computed when it has left the port (R364). -/
def flowSent (d : Nat) (p : Packet) (s : State) : State :=
  bumpBy 0x0C d 0x05 (shapedLen p.length (s.overhead d)) (bump 0x0C d 0x04 s)

/-- An own message starts: the first ready packet that fits. No request goes during a freeze (R434). -/
def startOwn (port : Nat) (s : State) : State :=
  match (s.vc3Own port).find? fun x => s.fits port x.2.flitCount with
  | none => s
  | some (d, p) =>
    let m : OutMsg := { source := 0, vc := 3, dest := d, flits := messageFlits 3 d (routeHops (s.route d)) p.bytes }
    let s1 := { s with shaper := { s.shaper with ready := s.shaper.ready.erase (d, p) } }
    pumpPort port 512 (modPort port (fun q => { q with cur := tput q.cur 3 m, turns := tput q.turns 3 0 }) (flowSent d p s1))

/-- A relayed message starts: it counts 64 flits (R370); inputs take turns (R327). -/
def startRelayed (port : Nat) (s : State) : State :=
  if s.fits port 64 then pumpAll (startNext port 3 s) else s

/-- Is it the turn of the relayed inputs on VC3 (R327): own egress, source 0, was served last, or has nothing to send? -/
def State.relayedTurn (s : State) (port : Nat) : Bool :=
  let ownReady := !s.ken.frozen && (s.vc3Own port).any fun x => s.fits port x.2.flitCount
  let last := tgetD (s.port port).turns 3 0
  !ownReady || (s.vc3Relayed port).any fun m => decide (last < m.source)

/-- A VC3 message starts on a port (R367, R370): the port is ACTIVE and no VC3 message is in progress there; the source is
the one whose turn it is. -/
def vc3Start (port : Nat) (relayed : Bool) (s0 : State) : State :=
  let s := activateSheet port s0
  let p := s.port port
  if p.state = 7 ∧ !thas p.cur 3 then
    if relayed then
      (if !(s.vc3Relayed port).isEmpty ∧ s.relayedTurn port then startRelayed port s else s)
    else if s.going ∧ ((s.vc3Relayed port).isEmpty ∨ !s.fits port 64 ∨ !s.relayedTurn port) then startOwn port s
    else s
  else s

/-- VC3_MESSAGE_START. -/
def execVc3MessageStart (port : Nat) (relayed : Bool) (s : State) : Res :=
  live (whenB (isPort port) (vc3Start port relayed)) s

/-! ### CALL_SHEET_LOAD (R369) -/

/-- The entries of a call sheet: (DURATION, OPEN). -/
def sheetEntries (d : Bytes) : List (Nat × Bool) := (pieces 8 256 d).map fun b => (field b 0 4, byteAt b 4 == 1)

/-- Longest open window of a cycle, the windows that cross its end included. -/
def longestWindow (es : List (Nat × Bool)) : Nat :=
  ((List.range es.length).map fun i => (((es.drop i ++ es.take i).takeWhile Prod.snd).map Prod.fst).sum).foldl
    (fun (a b : Nat) => max a b) 0

/-- Are the entries of a sheet good (R366, R369)? -/
def State.sheetOk (s : State) (port cycle : Nat) (d : Bytes) : Bool :=
  let es := sheetEntries d
  (pieces 8 256 d).all (fun b => decide (byteAt b 4 ≤ 1) && zeroAt b 5 3)
    && (es.map Prod.fst).sum == cycle && decide (guardBand 64 4 (s.guardExtra port) ≤ longestWindow es)

/-- CALL_SHEET_LOAD (R369). -/
def callSheetLoad (c : Cmd) (s : State) : State :=
  let port := c.p8 32
  let clear := bitOf (c.p8 33) 0
  let n := c.p16 34
  if 17 < port ∨ 1 < c.p8 33 then refuse c.pair c.cid stInvalidField s
  else if clear then
    (if n ≠ 0 ∨ !(c.noData || c.dataIs 0) then refuse c.pair c.cid stInvalidField s
    else
      finishPlain c.pair c.cid stOk
        { s with shaper := { s.shaper with
            active := tdel s.shaper.active port, pending := tdel s.shaper.pending port
            gateOpen := tdel s.shaper.gateOpen port } })
  else if n = 0 ∨ 256 < n ∨ c.p32 36 < 1000 ∨ 1000000000 < c.p32 36 ∨ !c.dataIs (8 * n) then
    refuse c.pair c.cid stInvalidField s
  else withData c (fun d t =>
    if !t.sheetOk port (c.p32 36) d then refuse c.pair c.cid stInvalidField t
    else
      let h : Sheet := { cycle := c.p32 36, base := c.p64 40, activateAt := c.p64 48, entries := sheetEntries d }
      finishPlain c.pair c.cid stOk { t with shaper := { t.shaper with pending := tput t.shaper.pending port h } }) s

/-- CALL_SHEET_LOAD. -/
def execCallSheetLoad (pair cid : Nat) (s : State) : Res := live (runCmd 0x0407 pair cid callSheetLoad) s

/-- SHAPER_FLOW_SET (R375). -/
def shaperFlowSet (c : Cmd) (s : State) : State :=
  let d := c.p16 32
  let ov := signedOf 16 (c.p16 36)
  if 8191 < d ∨ 1 < c.p8 34 ∨ ov < -64 ∨ 255 < ov ∨ c.p32 40 < 8 ∨ 4000000 < c.p32 40 then
    refuse c.pair c.cid stInvalidField s
  else
    finishPlain c.pair c.cid stOk
      (setRaw 0x0C d 0x01 (c.p8 34) (setRaw 0x0C d 0x02 (c.p32 40) (setRaw 0x0C d 0x03 (c.p16 36 % 512) s)))

/-- SHAPER_FLOW_SET. -/
def execShaperFlowSet (pair cid : Nat) (s : State) : Res := live (runCmd 0x0408 pair cid shaperFlowSet) s

/-! ### Policing (R371 to R374) -/

/-- A policer that is off. -/
def policerOff : Policer :=
  { mode := 0, flags := 0, cir := 0, cbs := 0, ebs := 0, pir := 0, tc := 0, te := 0, tp := 0, last := 0,
    nakSent := false }

/-- The policer of a source node. -/
def State.policer (s : State) (src : Nat) : Policer :=
  match tget s.shaper.policers src with
  | some p => p
  | none => tgetD s.shaper.policers 0xFFFF policerOff

/-- Buckets fill at CIR, the peak bucket at PIR, each up to its size, in local time (R372). -/
def Policer.fill (p : Policer) (now : Nat) : Policer :=
  let dt := now - p.last
  { p with
    tc := min (p.tc + p.cir * dt) (p.cbs * 8000)
    te := min (p.te + p.cir * dt) (p.ebs * 8000)
    tp := min (p.tp + p.pir * dt) (p.ebs * 8000)
    last := now }

/-- A packet's colour. -/
inductive Colour where
  | green
  | yellow
  | red
  deriving DecidableEq, Repr

/-- Colour a packet of B bytes (R372); a red packet takes no tokens. `yellowIn`: the input colour is yellow. -/
def Policer.colour (p : Policer) (bytes : Nat) (yellowIn : Bool) : Colour × Policer :=
  let b := bytes * 8000
  if p.mode = 1 then
    if !yellowIn && decide (b ≤ p.tc) then (.green, { p with tc := p.tc - b })
    else if b ≤ p.te then (.yellow, { p with te := p.te - b })
    else (.red, p)
  else
    if p.tp < b then (.red, p)
    else if yellowIn || decide (p.tc < b) then (.yellow, { p with tp := p.tp - b })
    else (.green, { p with tp := p.tp - b, tc := p.tc - b })

/-- Time in µs, rounded up, until the bucket that turned a packet red could hold it (R373): the peak bucket, or the excess
bucket, or the committed one where the excess bucket is smaller than the packet. -/
def Policer.hint (p : Policer) (bytes : Nat) : Nat :=
  let b := bytes * 8000
  let need := if p.mode = 2 then (b - p.tp, p.pir) else if bytes ≤ p.ebs then (b - p.te, p.cir) else (b - p.tc, p.cir)
  min 65535 (ceilDiv need.1 (need.2 * 1000))

/-- What the policer decides of a request packet: pass it, or discard it, with the HINT of an RNR NAK where one is due
(R371 to R373). -/
def police (vc : Nat) (p : Packet) (s : State) : State × Bool × Option Nat :=
  let src := p.srcNode
  let q := s.policer src
  if q.mode = 0 then (s, true, none)
  else
    let q1 := q.fill s.localNs
    let aware := bitOf q.flags 0
    let yellowIn := aware && ((vc == 1 && bitOf q.flags 1) || (vc == 3 && bitOf q.flags 2))
    let size := 64 + p.length
    let r := q1.colour size yellowIn
    let put (x : Policer) (t : State) : State := { t with shaper := { t.shaper with policers := tput t.shaper.policers src x } }
    match r.1 with
    | .green => (bump 0x0E src 0x01 (put { r.2 with nakSent := false } s), true, none)
    | .yellow => (bump 0x0E src 0x02 (put { r.2 with nakSent := false } s), true, none)
    | .red =>
      let due := bitOf q.flags 3 && !q1.nakSent
      (bump 0x0E src 0x03 (put { r.2 with nakSent := q1.nakSent || due } s), false,
        if due then some (q1.hint size) else none)

/-- Are the parameters of POLICER_SET in range (R374)? -/
def policerOk (c : Cmd) : Bool :=
  let mode := c.p8 34
  let ebs := c.p32 48
  let pir := c.p32 52
  let big (n : Nat) : Bool := decide (15360 ≤ n) && decide (n ≤ 16777216)
  (decide (c.p16 32 ≤ 8191) || c.p16 32 == 0xFFFF) && decide (mode ≤ 2) && decide (c.p8 35 ≤ 15)
    && decide (8 ≤ c.p32 40) && decide (c.p32 40 ≤ 4000000) && big (c.p32 44)
    && (mode == 0 || (mode == 1 && (ebs == 0 || big ebs) && pir == 0)
      || (mode == 2 && big ebs && decide (c.p32 40 ≤ pir) && decide (pir ≤ 4000000)))

/-- POLICER_SET (R374): buckets start full; SRC 0xFFFF sets every instance. -/
def policerSet (c : Cmd) (s : State) : State :=
  if !policerOk c then refuse c.pair c.cid stInvalidField s
  else
    let q : Policer :=
      { mode := c.p8 34, flags := c.p8 35, cir := c.p32 40, cbs := c.p32 44, ebs := c.p32 48, pir := c.p32 52,
        tc := c.p32 44 * 8000, te := c.p32 48 * 8000, tp := c.p32 48 * 8000, last := s.localNs, nakSent := false }
    let tab := if c.p16 32 = 0xFFFF then [(0xFFFF, q)] else tput s.shaper.policers (c.p16 32) q
    finishPlain c.pair c.cid stOk { s with shaper := { s.shaper with policers := tab } }

/-- POLICER_SET. -/
def execPolicerSet (pair cid : Nat) (s : State) : Res := live (runCmd 0x0409 pair cid policerSet) s

end Sys2Proof.Machine
end

