-- ==== Sys2Proof/Machine/Rdma.lean ====
section
/-! DEFINITION. The transport: queue pairs, packets, sequence and retry, regions and their revocation, the context cache and
the miss buffer (R339 to R360), and the sending of delivery messages (R231, R340, R341). -/

namespace Sys2Proof.Machine

/-! ### Queue pairs and PSNs -/

/-- Data bytes of a packet (R342). -/
abbrev packetData : Nat := 15296

/-- Distance from PSN a to PSN b, modulo 2^24 (R344). -/
def psnDiff (a b : Nat) : Nat := (b + 2 ^ 24 - a % 2 ^ 24) % 2 ^ 24

/-- PSN after n more. -/
def psnAdd (a n : Nat) : Nat := (a + n) % 2 ^ 24

/-- Change a queue pair. -/
def modQp (n : Nat) (f : Qp → Qp) (s : State) : State :=
  { s with rdma := { s.rdma with qps := tmod s.rdma.qps n f } }

/-- A use of a context: it becomes the most recently used (R353). -/
def touchQp (n : Nat) (s : State) : State :=
  { modQp n (fun q => { q with lru := s.rdma.clock }) s with
      rdma := { (modQp n (fun q => { q with lru := s.rdma.clock }) s).rdma with clock := s.rdma.clock + 1 } }

/-- Contexts resident. -/
def State.residentCount (s : State) : Nat := (s.rdma.qps.filter fun kv => kv.2.resident).length

/-- Is a fetch of the QP's context pending? -/
def State.fetching (s : State) (n : Nat) : Bool := s.rdma.fetches.any fun x => x.2 == n

/-- Is a resident context evictable (R353)? -/
def Qp.evictable (q : Qp) : Bool :=
  q.resident && q.wrs.isEmpty && q.unacked == q.sndPsn && q.ackOwed == 0 && q.held.isEmpty && q.flushes.isEmpty
    && q.behind.isNone

/-- The least recently used evictable context (R353). -/
def State.evictee (s : State) : Option Nat :=
  ((s.rdma.qps.filter fun kv => kv.2.evictable).foldl (fun (b : Option (Nat × Nat)) (kv : Nat × Qp) =>
    match b with
    | none => some (kv.1, kv.2.lru)
    | some x => if kv.2.lru < x.2 then some (kv.1, kv.2.lru) else b) none).map Prod.fst

/-- Host address of a QP's context (R353). -/
def State.contextAddr (s : State) (n : Nat) : Nat := s.raw 0x0B 0 0x01 0 + s.raw 0x0B 0 0x02 0 * 2 ^ 32 + 256 * n

/-- Make room in the cache: evict one context by a 256-byte PCIe write, whose layout is the EZ-900's own (R353). True when
there is room. -/
def makeRoom (s : State) : State × Bool :=
  if s.residentCount < 16384 then (s, true)
  else match s.evictee with
    | none => (s, false)
    | some n =>
      (bump 0x0B 0 0x09
        (emit (.pcieWrite plainVia (s.contextAddr n) (Config.freeBytes s.freeTick 256))
          (tickFree (modQp n (fun q => { q with resident := false }) s))), true)

/-- The place of the firmware's own fetches beside the ports' (R353). -/
abbrev firmwareFetch : Nat := 18

/-- Start a fetch of a context for a port (R354): one 256-byte PCIe read, after an eviction when the cache is full. -/
def startFetch (port n : Nat) (s : State) : State :=
  let s1 := (makeRoom s).1
  bump 0x0B 0 0x08
    (emit (.pcieRead 0 (s.contextAddr n) 256)
      { s1 with rdma := { s1.rdma with fetches := s1.rdma.fetches ++ [(port, n)] } })

/-! ### Sending packets -/

/-- A transport packet goes to a node: through its flow on VC3, else straight to the fabric (R339, R361). -/
def sendPacket (vc dest : Nat) (p0 : Packet) (s : State) : State :=
  let p := p0.sealed
  let s1 := emit (.packet vc p) s
  if vc = 3 then postVc3 dest p s1 else pumpAll (sendOwn vc dest p.bytes s1)

/-- An empty packet from a QP to the sender of another packet. The manual gives ACK, NAK and READ_RESP headers no other
content than their own fields; the PSN of an ACK or NAK header is not stated and is free. -/
def replyTo (s : State) (p : Packet) (op : Nat) : Packet :=
  { opcode := op, flags := 0, srcNode := s.fab.nodeId, destQp := p.srcQp, srcQp := p.destQp,
    psn := Config.freeNat s.freeTick % 2 ^ 24, key := 0, length := 0, addr := 0, msgLen := 0, aethPsn := 0, syndrome := 0,
    hint := 0, data := [], icrc := 0 }

/-- Answer a packet with a NAK (R343). -/
def sendNak (p : Packet) (syn psn hint : Nat) (s : State) : State :=
  sendPacket 2 p.srcNode { replyTo s p 0x11 with aethPsn := psn, syndrome := syn, hint := hint } (tickFree s)

/-- Answer with a NAK of a PSN that acknowledges every performed packet before it (R345): no ACK is owed then. -/
def nakAt (n : Nat) (p : Packet) (syn psn hint : Nat) (s : State) : State :=
  sendNak p syn psn hint (modQp n (fun q => { q with ackOwed := 0 }) s)

/-- The highest PSN a responder has performed: a FLUSH counts once its WRITEs are visible (R345, R348). -/
def Qp.performed (q : Qp) : Nat := psnAdd (q.flushes.head?.getD q.expected) (2 ^ 24 - 1)

/-- Send the cumulative ACK of a QP (R345). -/
def sendAck (n : Nat) (s : State) : State :=
  match tget s.rdma.qps n with
  | none => s
  | some q =>
    let p : Packet :=
      { opcode := 0x10, flags := 0, srcNode := s.fab.nodeId, destQp := q.remoteQp, srcQp := n,
        psn := Config.freeNat s.freeTick % 2 ^ 24, key := 0, length := 0, addr := 0, msgLen := 0, aethPsn := q.performed,
        syndrome := 0, hint := 0, data := [], icrc := 0 }
    sendPacket 2 q.remoteNode p (tickFree (modQp n (fun q => { q with ackOwed := 0 }) s))

/-- A packet has been performed: an ACK goes when it asks for one, or when 16 are owed (R345). -/
def performedOne (n : Nat) (ackReq : Bool) (s : State) : State :=
  let s1 := modQp n (fun q => { q with ackOwed := q.ackOwed + 1, nakSent := false }) s
  let owed := ((tget s1.rdma.qps n).map Qp.ackOwed).getD 0
  if ackReq ∨ 16 ≤ owed then sendAck n s1 else s1

/-! ### Work requests (R342, R345 to R348) -/

/-- VC of a QP's requests (R339). -/
def Qp.vc (q : Qp) : Nat := if q.kind = 0 then 3 else 1

/-- PSNs that a request takes (R343). -/
def psnsOf (kind len : Nat) : Nat := if kind = 1 ∨ kind = 2 then max 1 (ceilDiv len packetData) else 1

/-- May a QP of this kind send the request (R339)? -/
def kindSends (qpKind kind : Nat) : Bool :=
  (qpKind == 0 && (kind == 1 || kind == 2 || kind == 5)) || (qpKind == 1 && (kind == 4 || kind == 5))

/-- The request that holds a PSN. -/
def Qp.wrAt (q : Qp) (psn : Nat) : Option WorkReq := q.wrs.find? fun w => decide (psnDiff w.psn psn < w.psns)

/-- Packet number k of a request (R343). -/
def WorkReq.packet (w : WorkReq) (s : State) (n : Nat) (q : Qp) (k : Nat) : Packet :=
  let last := w.kind ≠ 1 ∨ k + 1 = w.psns
  let first := w.kind ≠ 1 ∨ k = 0
  let chunk := if w.kind = 1 then sub w.data (k * packetData) packetData else if w.kind = 4 then w.data else []
  { opcode := w.kind
    flags := (if last then 5 else 0) + (if first then 2 else 0)
    srcNode := s.fab.nodeId, destQp := q.remoteQp, srcQp := n, psn := psnAdd w.psn k, key := w.key
    length := chunk.length
    addr := if w.kind = 1 then w.addr + k * packetData else w.addr
    msgLen := w.len, aethPsn := 0, syndrome := 0, hint := 0, data := chunk, icrc := 0 }

/-- Send one packet of a QP, when it may (R342: 256 requests, 8 192 PSNs; R353: its context is resident; R356: no NAK wait; R434: no
request in a freeze). -/
def sendNext (n : Nat) (s : State) : State × Bool :=
  match tget s.rdma.qps n with
  | none => (s, false)
  | some q =>
    if q.state ≠ 1 ∨ !q.resident ∨ q.waiting ∨ q.sndPsn = q.postPsn ∨ !s.going ∨ 8192 ≤ psnDiff q.unacked q.sndPsn then (s, false)
    else match (q.wrs.take 256).find? fun w => decide (psnDiff w.psn q.sndPsn < w.psns) with
      | none => (s, false)
      | some w =>
        let k := psnDiff w.psn q.sndPsn
        let used := if w.kind = 2 then w.psns - k else 1
        (sendPacket q.vc q.remoteNode (w.packet s n q k) (modQp n (fun q => { q with sndPsn := psnAdd q.sndPsn used }) s),
          true)

/-- Send while the QP may. -/
def pumpQp (n : Nat) : Nat → State → State
  | 0, s => s
  | f + 1, s => let r := sendNext n s; if r.2 then pumpQp n f r.1 else r.1

/-- Send on a QP what may go: at most 8 192 packets. -/
def kickQp (n : Nat) (s : State) : State := pumpQp n 8192 s

/-- Send on every QP: a freeze has ended (R434). -/
def kickAll (s : State) : State := s.rdma.qps.foldl (fun (t : State) (kv : Nat × Qp) => kickQp kv.1 t) s

/-- Delivery to the consumers of a QP stops (R239): each is recorded once, with the batch of the failed write, as the DELIVER stage's
work (R118). What is written and not yet flushed gets no notice. -/
def stopDelivery (n batch : Nat) (s : State) : State :=
  s.pipes.foldl (fun (t : State) (pk : Nat × Pipeline) =>
    if pk.2.active then
      pk.2.consumers.foldl (fun (u : State) (ck : Nat × Consumer) =>
        let run := (tget u.pipes pk.1).bind fun p => tget p.runs ck.1
        match run with
        | some r =>
          if ck.2.qp = n ∧ !r.stopped then
            recordErr { plainErr (uDie 2) 0x0406 clsUnitFatal 8 (ck.1 + pk.1 * 2 ^ 16) batch n with
              pipeline := pk.1
              stage := pk.2.decl.deliverStage
              operator := 0x0702 }
              { u with pipes := tmod u.pipes pk.1 fun p =>
                  { p with runs := tput p.runs ck.1 { r with stopped := true, held := [], heldPieces := [] } } }
          else u
        | none => u) t
    else t) s

/-- A request completes with a status and a RESULT; a write that fails stops delivery (R239). -/
def completeWr (n : Nat) (w : WorkReq) (status result : Nat) (s : State) : State :=
  let s1 := emit (.workDone n w.id status result) s
  if w.kind = 1 ∧ (status = stRemoteAccess ∨ status = stRetryExceeded ∨ status = stQpError) then stopDelivery n w.batch s1
  else s1

/-- Post a request on a QP (R347, R348): in ERROR it completes at once with ST_QP_ERROR; in READY it takes its PSNs and goes
when it may. The context is made resident first (R353): while a fetch of it is pending, or none is evictable, its packets wait. -/
def postWork (n kind addr key : Nat) (data : Bytes) (len batch : Nat) (s : State) : State :=
  match tget s.rdma.qps n with
  | none => s
  | some q =>
    let w : WorkReq :=
      { id := q.nextWr, kind := kind, addr := addr, key := key, data := data, len := len, psn := q.postPsn,
        psns := psnsOf kind len, naks := 0, got := 0, batch := batch }
    if !kindSends q.kind kind then s
    else if q.state = 2 then completeWr n w stQpError 0 (modQp n (fun q => { q with nextWr := q.nextWr + 1 }) s)
    else if q.state = 1 then
      let here := q.resident || (!s.fetching n && (makeRoom s).2)
      let s1 := if q.resident || s.fetching n then s
        else if here then bump 0x0B 0 0x08 (emit (.pcieRead 0 (s.contextAddr n) 256) (makeRoom s).1)
        else startFetch firmwareFetch n s
      kickQp n (touchQp n (modQp n (fun q =>
        { q with wrs := q.wrs ++ [w], nextWr := q.nextWr + 1, postPsn := psnAdd q.postPsn w.psns, resident := here }) s1))
    else s

/-- WORK_REQUEST_POST. -/
def execWorkRequestPost (qp kind : Nat) (addr : BitVec 64) (key : Nat) (data : Bytes) (len : Nat) (s : State) : Res :=
  live (whenB s.going (postWork qp kind addr.toNat key data (if kind = 1 ∨ kind = 4 then data.length else len) 0)) s

/-- Everything outstanding completes with ST_FLUSHED and RESULT [0] = 1 (R347, R359). -/
def flushWrs (n : Nat) (ws : List WorkReq) (s : State) : State :=
  ws.foldl (fun (t : State) (w : WorkReq) => completeWr n w stFlushed 1 t) s

/-- A QP enters ERROR (R347): in posting order, the causing request, if one did, completes with its status, the others with ST_FLUSHED; one
"qp error" record names the QP, the remote node, the PSN and the syndrome. -/
def qpError (n psn syn : Nat) (cause : Option Nat) (s : State) : State :=
  match tget s.rdma.qps n with
  | none => s
  | some q =>
    let w := q.wrAt psn
    let s1 := modQp n (fun q =>
      { q with state := 2, wrs := [], waiting := false, unacked := q.postPsn, sndPsn := q.postPsn }) s
    let s2 := recordErr
      (plainErr (uDie 2) 0x0404 clsContained 6 (n + q.remoteNode * 2 ^ 32) (psn + syn * 2 ^ 24)
        ((w.map WorkReq.key).getD 0)) (bump 0x0B 0 0x0E s1)
    match cause, w with
    | some st, some w => q.wrs.foldl (fun (t : State) (x : WorkReq) =>
        if x.id = w.id then completeWr n x st 0 t else completeWr n x stFlushed 1 t) s2
    | _, _ => flushWrs n q.wrs s2

/-- Is a request done once PSNs before `un` are acknowledged? A READ_REQ also needs its responses. -/
def WorkReq.doneBy (w : WorkReq) (left : Nat) : Bool := decide (w.psns ≤ left) && (w.kind != 2 || w.got == w.psns)

/-- Complete the requests that PSNs before the acknowledged one cover, in posting order (R345, R348). -/
def completeDone (n : Nat) : List WorkReq → Nat → State → State
  | [], _, s => modQp n (fun q => { q with wrs := [] }) s
  | w :: ws, left, s =>
    if w.doneBy left then
      completeDone n ws (left - w.psns) (completeWr n w (if w.kind = 5 then stFlushed else stOk) 0 s)
    else modQp n (fun q => { q with wrs := w :: ws }) s

/-- The acknowledged PSN may advance to here: never past a read whose responses are missing. -/
def Qp.ackLimit (q : Qp) (psn : Nat) : Nat :=
  match q.wrs.find? fun w => w.kind == 2 && w.got != w.psns with
  | some w => if psnDiff q.unacked w.psn < psnDiff q.unacked psn then w.psn else psn
  | none => psn

/-- PSNs before `psn` are acknowledged (R345, R346): n returns to 0 and requests complete. -/
def advanceAck (n psn0 : Nat) (s : State) : State :=
  match tget s.rdma.qps n with
  | none => s
  | some q =>
    let psn := q.ackLimit psn0
    let d := psnDiff q.unacked psn
    if 0 < d ∧ d ≤ psnDiff q.unacked q.sndPsn then
      let first := (q.wrs.head?.map WorkReq.psn).getD q.unacked
      completeDone n q.wrs (psnDiff first psn)
        (modQp n (fun q => { q with unacked := psn, retries := 0 }) s)
    else s

/-- Resend from a PSN, counting a retry (R346); past RETRY_LIMIT the QP enters ERROR with the oldest request's
ST_RETRY_EXCEEDED. -/
def retryFrom (n psn : Nat) (s : State) : State :=
  match tget s.rdma.qps n with
  | none => s
  | some q =>
    if q.retryLimit < q.retries + 1 then qpError n q.unacked q.lastSyn (some stRetryExceeded) s
    else
      kickQp n (bump 0x0B 0 0x0C (modQp n (fun q => { q with retries := q.retries + 1, sndPsn := psn }) s))

/-- RETRY_TIMER: unacknowledged packets are resent from the oldest; suspended in a NAK wait and in a freeze (R346, R356,
R434). -/
def retryTimer (n : Nat) (s : State) : State :=
  match tget s.rdma.qps n with
  | none => s
  | some q => if q.state = 1 ∧ q.unacked ≠ q.sndPsn ∧ !q.waiting ∧ s.going then retryFrom n q.unacked s else s

/-- RETRY_TIMER. -/
def execRetryTimer (qp : Nat) (s : State) : Res := live (retryTimer qp) s

/-- ACK_TIMER: 1 µs after the oldest unacknowledged performed packet (R345). -/
def ackTimer (n : Nat) (s : State) : State :=
  match tget s.rdma.qps n with
  | none => s
  | some q => if 0 < q.ackOwed then sendAck n s else s

/-- ACK_TIMER. -/
def execAckTimer (qp : Nat) (s : State) : Res := live (ackTimer qp) s

/-- NAK_BACKOFF_EXPIRY: the wait ends and the QP resends from the NAK's PSN (R356); suspended in a freeze. -/
def backoffExpiry (n : Nat) (s : State) : State :=
  match tget s.rdma.qps n with
  | none => s
  | some q => if q.waiting ∧ s.going then kickQp n (modQp n (fun q => { q with waiting := false }) s) else s

/-- NAK_BACKOFF_EXPIRY. -/
def execNakBackoffExpiry (qp : Nat) (s : State) : Res := live (backoffExpiry qp) s

/-! ### Requester: ACK, NAK and READ_RESP -/

/-- A received ACK (R345). -/
def takeAckPacket (p : Packet) (s : State) : State :=
  let n := p.destQp
  kickQp n (advanceAck n (psnAdd p.aethPsn 1) s)

/-- A CONTEXT_MISS or RNR NAK for a request: the 65th ends it (R356). -/
def missNak (n psn : Nat) (s : State) : State :=
  match tget s.rdma.qps n with
  | none => s
  | some q =>
    match q.wrAt psn with
    | none => s
    | some w =>
      if 64 ≤ w.naks then qpError n psn q.lastSyn (some stRetryExceeded) s
      else
        modQp n (fun q =>
          { q with
            waiting := true
            sndPsn := psn
            wrs := q.wrs.map fun x => if x.id = w.id then { x with naks := x.naks + 1 } else x }) s

/-- A received NAK (R345 to R347, R356): it acknowledges what lies before it, and resends, waits or ends the QP. One for a PSN
above one being acted on is ignored. -/
def takeNakPacket (p : Packet) (s : State) : State :=
  let n := p.destQp
  match tget s.rdma.qps n with
  | none => s
  | some q =>
    let psn := p.aethPsn
    if q.state ≠ 1 ∨ psnDiff q.unacked q.sndPsn < psnDiff q.unacked psn then s
    else
      let s1 := advanceAck n psn (modQp n (fun q => { q with lastSyn := p.syndrome }) s)
      if p.syndrome = 1 then retryFrom n psn s1
      else if p.syndrome = 3 ∨ p.syndrome = 4 then missNak n psn s1
      else if p.syndrome = 2 ∨ p.syndrome = 5 ∨ p.syndrome = 6 then qpError n psn p.syndrome (some stRemoteAccess) s1
      else s1

/-- A received READ_RESP (R343): the response of the oldest missing slot of its request; the last one shows that the request
was performed, and acknowledges it. -/
def takeReadResp (p : Packet) (s : State) : State :=
  let n := p.destQp
  match tget s.rdma.qps n with
  | none => s
  | some q =>
    match q.wrAt p.psn with
    | none => s
    | some w =>
      if w.kind = 2 ∧ psnDiff w.psn p.psn = w.got then
        let s1 := modQp n (fun q =>
          { q with wrs := q.wrs.map fun x => if x.id = w.id then { x with got := x.got + 1 } else x }) s
        if w.got + 1 = w.psns then kickQp n (advanceAck n (psnAdd w.psn w.psns) s1) else s1
      else s

/-! ### Regions (R349 to R352) -/

/-- Byte runs of a region that hold [addr, addr + len), page by page (R351). -/
def regionRuns (g : Region) : Nat → Nat → Nat → List (Nat × Nat)
  | 0, _, _ => []
  | f + 1, addr, len =>
    if len = 0 then []
    else
      let off := addr - g.base + g.firstOffset
      let page := off / 2 ^ g.pageLog2
      let inPage := off % 2 ^ g.pageLog2
      let k := min len (2 ^ g.pageLog2 - inPage)
      (g.pages.getD page 0 + inPage, k) :: regionRuns g f (addr + k) (len - k)

/-- The bus runs of a remote range. -/
def busRuns (g : Region) (addr len : Nat) : List (Nat × Nat) :=
  regionRuns g (len / 2 ^ g.pageLog2 + 2) addr len

/-- The checks of R351, in order; for READ_REQ the whole message counts. -/
def State.keyCheck (s : State) (p : Packet) : Option Region :=
  match tget s.rdma.regions (p.key / 256) with
  | none => none
  | some g =>
    let len := if p.opcode = 2 then p.msgLen else p.length
    let right := if p.opcode = 2 then bitOf g.access 1 else bitOf g.access 0
    if g.revoking.isNone && g.gen == p.key % 256 && (g.peer == 0xFFFF || g.peer == p.srcNode) && right
        && decide (g.base ≤ p.addr) && decide (p.addr + len ≤ g.base + g.length) then some g
    else none

/-- A packet fails its key check (R351): the NAK, the counter and the record. -/
def keyFail (p : Packet) (s : State) : State :=
  nakAt p.destQp p 2 p.psn 0
    (recordErr (plainErr (uDie 2) 0x0403 clsContained 10 (p.key + p.srcNode * 2 ^ 32) p.addr p.srcQp)
      (bump 0x0B 0 0x0D s))

/-- A packet with p = E fails its key check: its NAK would acknowledge the FLUSHes before it, so it waits until they are visible
(R345, R348). -/
def keyRefuse (n : Nat) (q : Qp) (p : Packet) (s : State) : State :=
  if q.flushes.isEmpty then keyFail p s else modQp n (fun x => { x with behind := x.behind.or (some p) }) s

/-- Generation of the next registration of an index (R349). -/
def State.nextGen (s : State) (i : Nat) : Nat := (tgetD s.rdma.gens i 0 + 1) % 256

/-- Pages of all regions. -/
def State.regionPages (s : State) : Nat := (s.rdma.regions.map fun kv => kv.2.pages.length).sum

/-- The index that the next registration takes: never-used ones in order, then freed ones in the order freed (R349). -/
def State.freeIndex (s : State) : Option Nat :=
  if s.rdma.freshIdx < 65536 then some s.rdma.freshIdx else s.rdma.freeIdx.head?

/-- Take an index. -/
def takeIndex (s : State) : State :=
  if s.rdma.freshIdx < 65536 then { s with rdma := { s.rdma with freshIdx := s.rdma.freshIdx + 1 } }
  else { s with rdma := { s.rdma with freeIdx := s.rdma.freeIdx.drop 1 } }

/-- The page count of a registration (R350). -/
def regionPageCount (c : Cmd) : Nat := ceilDiv (c.p32 48 + c.p64 40) (2 ^ c.p8 52)

/-- Are the parameters of REGION_REGISTER in range (R350)? -/
def regionParamsOk (c : Cmd) : Bool :=
  decide (1 ≤ c.p64 40) && decide (c.p64 40 ≤ 2 ^ 40) && decide (c.p64 32 + c.p64 40 ≤ 2 ^ 64)
    && (c.p8 52 == 12 || c.p8 52 == 21) && decide (c.p32 48 < 2 ^ c.p8 52) && decide (1 ≤ c.p8 53)
    && decide (c.p8 53 ≤ 3) && (decide (c.p16 54 ≤ 8191) || c.p16 54 == 0xFFFF)

/-- REGION_REGISTER (R350). -/
def regionRegister (c : Cmd) (s : State) : State :=
  if !regionParamsOk c || !c.dataIs (8 * regionPageCount c) then refuse c.pair c.cid stInvalidField s
  else withData c (fun d t =>
    let pages := (pieces 8 (regionPageCount c) d).map leVal
    if !pages.all (fun a => a % 2 ^ c.p8 52 == 0) then refuse c.pair c.cid stInvalidField t
    else match t.freeIndex with
      | none => refuse c.pair c.cid stNoResources t
      | some i =>
        if 16777216 < t.regionPages + pages.length then refuse c.pair c.cid stNoResources t
        else
          let g : Region :=
            { gen := t.nextGen i, base := c.p64 32, length := c.p64 40, firstOffset := c.p32 48, pageLog2 := c.p8 52,
              access := c.p8 53, peer := c.p16 54, pages := pages, revoking := none }
          let t1 := storeObject 8 i d (takeIndex t)
          finish c.pair c.cid stOk (i * 256 + g.gen)
            { t1 with rdma := { t1.rdma with
                regions := tput t1.rdma.regions i g, gens := tput t1.rdma.gens i g.gen } }) s

/-- REGION_REGISTER. -/
def execRegionRegister (pair cid : Nat) (s : State) : Res := live (runCmd 0x0402 pair cid regionRegister) s

/-- REGION_REVOKE (R352): the region becomes REVOKING, its accepted packets drain, and a PCIe read follows their writes. -/
def regionRevoke (c : Cmd) (s : State) : State :=
  let key := c.p32 32
  match tget s.rdma.regions (key / 256) with
  | none => refuse c.pair c.cid stPrecondition s
  | some g =>
    if g.gen ≠ key % 256 then refuse c.pair c.cid stPrecondition s
    else if g.revoking.isSome then refuse c.pair c.cid stBusy s
    else
      markRunning c.pair c.cid
        (emit (.pcieRead 0 (g.pages.head?.getD 0) 4)
          { s with rdma := { s.rdma with
              regions := tput s.rdma.regions (key / 256) { g with revoking := some (c.pair, c.cid) } } })

/-- REGION_REVOKE. -/
def execRegionRevoke (pair cid : Nat) (s : State) : Res := live (runCmd 0x0403 pair cid regionRevoke) s

/-- The drain of a REVOKING region ends: the command completes and the index is free (R352). -/
def revokeDrain (i : Nat) (s : State) : State :=
  match tget s.rdma.regions i with
  | none => s
  | some g =>
    match g.revoking with
    | none => s
    | some (pair, cid) =>
      finishPlain pair cid stOk
        { s with rdma := { s.rdma with regions := tdel s.rdma.regions i, freeIdx := s.rdma.freeIdx ++ [i] } }

/-- REVOKE_DRAIN_COMPLETE. -/
def execRevokeDrainComplete (index : Nat) (s : State) : Res := live (revokeDrain index) s

/-! ### Responder (R344, R345, R348, R351) -/

/-- E advances. -/
def advanceE (n k : Nat) (s : State) : State := modQp n (fun q => { q with expected := psnAdd q.expected k }) s

/-- Does a packet ask for an ACK (R343)? -/
def Packet.ackReq (p : Packet) : Bool := bitOf p.flags 0

/-- READ_RESP packets for a READ_REQ (R343). `data` is what the PCIe read of the range returns. -/
def readResponses (s : State) (p : Packet) (data : Bytes) : List Packet :=
  (pieces packetData (ceilDiv p.msgLen packetData) (fitTo p.msgLen data)).zipIdx.map fun x =>
    { replyTo s p 3 with
      psn := psnAdd p.psn x.2, length := x.1.length, data := x.1, addr := p.addr + x.2 * packetData, msgLen := p.msgLen
      flags := (if x.2 = 0 then 2 else 0) + (if x.2 + 1 = ceilDiv p.msgLen packetData then 4 else 0) }

/-- A READ_REQ is performed: its PCIe reads go out and its responses follow (R344). -/
def performRead (p : Packet) (g : Region) (s : State) : State :=
  let s1 := emits ((busRuns g p.addr p.msgLen).map fun r => .pcieRead 0 r.1 r.2) s
  (readResponses s p p.data).foldl (fun (t : State) (r : Packet) => sendPacket 2 p.srcNode r t) s1

/-- WRITE data goes to the region's pages (R351). -/
def performWrite (p : Packet) (g : Region) (s : State) : State :=
  emits ((layOut (busRuns g p.addr p.length) p.data).map fun r => .pcieWrite plainVia r.1 r.2) s

/-- A packet with p = E (R344): performed, or refused by its key (R351) or for want of a receive slot (R341). -/
def performPacket (n : Nat) (q : Qp) (p : Packet) (s : State) : State :=
  if p.opcode = 1 then
    match s.keyCheck p with
    | none => keyRefuse n q p s
    | some g => performedOne n p.ackReq (advanceE n 1 (performWrite p g s))
  else if p.opcode = 2 then
    match s.keyCheck p with
    | none => keyRefuse n q p s
    | some g => performedOne n p.ackReq (performRead p g (advanceE n (ceilDiv p.msgLen packetData) s))
  else if p.opcode = 4 then
    if 8 ≤ q.slotsUsed then nakAt n p 4 p.psn (s.raw 0x0B 0 0x05 4) (bump 0x0B 0 0x0B s)
    else performedOne n p.ackReq (advanceE n 1 (modQp n (fun q => { q with inbox := q.inbox ++ [p.data] }) s))
  else if q.kind = 2 then
    -- a FLUSH behind WRITEs into host memory: a PCIe read makes them visible (R348)
    modQp n (fun x => { x with flushes := x.flushes ++ [p.psn], nakSent := false })
      (advanceE n 1 (emit (.pcieRead 0 0 4) s))
  else performedOne n true (advanceE n 1 s)

/-- A duplicate (R344): acknowledged again, or, for READ_REQ, performed again while its region can still be found. -/
def duplicatePacket (n : Nat) (p : Packet) (s : State) : State :=
  if p.opcode = 2 then
    match s.keyCheck p with
    | none => keyFail p s
    | some g => performRead p g s
  else sendAck n s

/-- Does a QP of this kind accept the request (R339)? -/
def kindTakes (qpKind op : Nat) : Bool :=
  (qpKind == 1 && (op == 4 || op == 5)) || (qpKind == 2 && (op == 1 || op == 2 || op == 5))

/-- A request packet meets its resident QP (R339, R344, R347). The sequence NAK carries E, which a FLUSH that is not yet visible has not
passed (R344, R348). -/
def respond (n : Nat) (q : Qp) (p : Packet) (s : State) : State :=
  if q.state = 2 then sendNak p 6 p.psn 0 s
  else if q.state = 0 then s
  else if !kindTakes q.kind p.opcode then sendNak p 5 p.psn 0 s
  else
    let d := psnDiff q.expected p.psn
    if d = 0 then performPacket n q p s
    else if 2 ^ 23 ≤ d then duplicatePacket n p s
    else if q.nakSent then s
    else nakAt n p 1 (q.flushes.head?.getD q.expected) 0 (modQp n (fun q => { q with nakSent := true }) s)

/-- A packet is processed by its resident QP. -/
def processPacket (n : Nat) (p : Packet) (s0 : State) : State :=
  let s := touchQp n s0
  match tget s.rdma.qps n with
  | none => s
  | some q =>
    if p.opcode = 0x10 then takeAckPacket p s
    else if p.opcode = 0x11 then takeNakPacket p s
    else if p.opcode = 3 then takeReadResp p s
    else respond n q p s

/-! ### The miss buffer (R353 to R355) -/

/-- Bytes that packets hold in a port's miss buffer. -/
def State.missBytes (s : State) (port : Nat) : Nat :=
  (s.rdma.qps.map fun kv => ((kv.2.held.filter fun x => x.1 == port).map fun x => 64 + x.2.length).sum).sum

/-- Record the peak of a port's miss buffer (R360). -/
def missPeak (port : Nat) (s : State) : State :=
  setRaw 0x0B 0 0x10 (max (s.raw 0x0B 0 0x10 0) (s.missBytes port)) s

/-- Hold a packet behind its context's fetch. -/
def holdPacket (port n : Nat) (p : Packet) (s : State) : State :=
  missPeak port (modQp n (fun q => { q with held := q.held ++ [(port, p)] }) s)

/-- Refuse a packet for want of room: CONTEXT_MISS once, later ones with a higher PSN silently (R355). -/
def missRefuse (n : Nat) (p : Packet) (pending : Bool) (s : State) : State :=
  let low := ((tget s.rdma.qps n).bind Qp.refusedPsn)
  let silent := match low with
    | some l => decide (0 < psnDiff l p.psn ∧ psnDiff l p.psn < 2 ^ 23)
    | none => false
  if silent then s
  else
    sendNak p 3 p.psn (s.raw 0x0B 0 0x05 4)
      (bump 0x0B 0 0x0A
        (if pending then modQp n (fun q => { q with refusedPsn := some p.psn }) s else s))

/-- Would a packet be discarded silently because an earlier one was refused (R355)? -/
def Qp.behindRefused (q : Qp) (p : Packet) : Bool :=
  match q.refusedPsn with
  | some l => decide (0 < psnDiff l p.psn ∧ psnDiff l p.psn < 2 ^ 23)
  | none => false

/-- A packet whose context is not resident (R354, R355). -/
def missPacket (port n : Nat) (q : Qp) (p : Packet) (s : State) : State :=
  let room := decide (s.missBytes port + 64 + p.length ≤ 262144)
  let free := decide ((s.rdma.fetches.filter fun x => x.1 == port).length < 64)
  if s.fetching n then
    if q.behindRefused p then s
    else if room then holdPacket port n p s
    else missRefuse n p true s
  else if free then
    let s1 := startFetch port n s
    if room then holdPacket port n p s1 else missRefuse n p true s1
  else missRefuse n p false s

/-- A packet for a QP: discarded where the QP does not exist; held or refused where its context is not resident. -/
def admitPacket (port : Nat) (p : Packet) (s : State) : State :=
  match tget s.rdma.qps p.destQp with
  | none => s
  | some q => if q.resident then processPacket p.destQp p s else missPacket port p.destQp q p s

/-- Is a request of R371 metered: VC1 or VC3? -/
def metered (vc : Nat) : Bool := vc == 1 || vc == 3

/-- A packet arrives on an ACTIVE port (R344, R371): the ICRC, the policer for requests, then its QP. -/
def receivePacket (port vc op : Nat) (p : Packet) (s : State) : State :=
  if (s.port port).state ≠ 7 ∨ p.opcode ≠ op then s
  else if p.icrc ≠ p.icrcOf then bump 0x0B 0 0x11 s
  else if metered vc then
    let r := police vc p s
    if r.2.1 then admitPacket port p r.1
    else match r.2.2 with
      | some h => sendNak p 4 p.psn h (bump 0x0B 0 0x0B r.1)
      | none => r.1
  else admitPacket port p s

/-- WRITE. -/
def execWritePacket (port vc : Nat) (p : Packet) (s : State) : Res := live (receivePacket port vc 1 p) s

/-- READ_REQ: `data` is what the host memory holds; it waits with the packet where the packet must wait. -/
def readReqIn (port vc : Nat) (p : Packet) (data : Bytes) (s : State) : State :=
  if p.icrc = p.icrcOf ∧ p.data = [] then
    let q := { p with data := data }
    receivePacket port vc 2 { q with icrc := q.icrcOf } s
  else receivePacket port vc 2 p s

/-- READ_REQ. -/
def execReadReq (port vc : Nat) (p : Packet) (data : Bytes) (s : State) : Res := live (readReqIn port vc p data) s

/-- READ_RESP. -/
def execReadResp (port : Nat) (p : Packet) (s : State) : Res := live (receivePacket port 2 3 p) s

/-- SEND. -/
def execSend (port vc : Nat) (p : Packet) (s : State) : Res := live (receivePacket port vc 4 p) s

/-- FLUSH. -/
def execFlushPacket (port vc : Nat) (p : Packet) (s : State) : Res := live (receivePacket port vc 5 p) s

/-- ACK. -/
def execAck (port : Nat) (p : Packet) (s : State) : Res := live (receivePacket port 2 0x10 p) s

/-- NAK. -/
def execNak (port : Nat) (p : Packet) (s : State) : Res := live (receivePacket port 2 0x11 p) s

/-- A fetched context arrives, when the cache has room for it: its held packets are processed in arrival order (R354), and requests
posted meanwhile go. -/
def contextArrives (port n : Nat) (s : State) : State :=
  if (port, n) ∈ s.rdma.fetches then
    let r := makeRoom s
    if !r.2 then r.1
    else
      let held := ((tget r.1.rdma.qps n).map Qp.held).getD []
      let s1 := modQp n (fun q => { q with resident := true, held := [], refusedPsn := none })
        { r.1 with rdma := { r.1.rdma with fetches := r.1.rdma.fetches.erase (port, n) } }
      kickQp n (held.foldl (fun (t : State) (x : Nat × Packet) => processPacket n x.2 t) s1)
  else s

/-- CONTEXT_FETCH_COMPLETE. -/
def execContextFetchComplete (port qp : Nat) (s : State) : Res := live (contextArrives port qp) s

/-- The PCIe read behind a FLUSH returns: the writes are visible and the FLUSH is acknowledged (R348); a packet that waited behind the
last one is processed. -/
def visibilityRead (n : Nat) (s : State) : State :=
  match tget s.rdma.qps n with
  | none => s
  | some q =>
    if q.flushes.isEmpty then s
    else
      let s1 := sendAck n (modQp n (fun q => { q with flushes := q.flushes.drop 1 }) s)
      match q.behind with
      | none => s1
      | some p =>
        if 1 < q.flushes.length then s1 else respond n { q with flushes := [] } p (modQp n (fun q => { q with behind := none }) s1)

/-- VISIBILITY_READ_COMPLETE. -/
def execVisibilityReadComplete (qp : Nat) (s : State) : Res := live (visibilityRead qp) s

/-! ### QP commands (R357 to R359) -/

/-- A queue pair in RESET. -/
def freshQp (kind limit lru : Nat) : Qp :=
  { kind := kind, state := 0, remoteNode := 0, remoteQp := 0, postPsn := 0, sndPsn := 0, unacked := 0, expected := 0,
    retries := 0, retryLimit := limit, resident := true, lru := lru, wrs := [], nextWr := 0, nakSent := false,
    ackOwed := 0, waiting := false, inbox := [], lastSyn := 0, held := [], refusedPsn := none, flushes := [],
    slots := [], behind := none }

/-- A class 0 buffer for the system owner, from the first stack that can serve it (R270, R341). -/
def State.systemBuf (s : State) : Option Nat :=
  (List.range 8).findSome? fun st =>
    let hs := s.freeBufs 0 st 1 []
    if hs.length = 1 && s.mayTake 17 0 1 && s.inService (uStack st) then hs.head? else none

/-- The receive slots of a CONTROL queue pair: 8 of 16 KiB, in two buffers of the system owner (R341); none where the pool cannot
serve them now. -/
def receiveSlots (kind : Nat) (s : State) : Option (List Nat × State) :=
  if kind ≠ 1 then some ([], s)
  else s.systemBuf.bind fun a =>
    let s1 := grantBufs 17 0 [a] s
    s1.systemBuf.map fun b => ([a, b], grantBufs 17 0 [b] s1)

/-- What a new queue pair takes: a place among the resident contexts (R353, R358) and its receive slots; none where it must wait. -/
def createRoom (kind : Nat) (s : State) : Option (List Nat × State) :=
  if (makeRoom s).2 then receiveSlots kind (makeRoom s).1 else none

/-- QP_CREATE (R358). The context is resident at its end, so while none is evictable it waits. A CONTROL queue pair waits for the buffers of its receive slots (R270). -/
def qpCreate (c : Cmd) (s : State) : State :=
  let n := c.p32 32
  let entries := s.raw 0x0B 0 0x03 0
  let lim := c.p8 37
  if n = 0 ∨ 2 < c.p8 36 ∨ (15 < lim ∧ lim ≠ 0xFF) ∨ (if entries = 0 then 2 ^ 20 else entries) ≤ n then
    refuse c.pair c.cid stInvalidField s
  else if entries = 0 ∨ thas s.rdma.qps n then refuse c.pair c.cid stPrecondition s
  else
    match createRoom (c.p8 36) s with
    | none => s
    | some (slots, s1) =>
      let q := { freshQp (c.p8 36) (if lim = 0xFF then s.raw 0x0B 0 0x04 7 else lim) s1.rdma.clock with slots := slots }
      finishPlain c.pair c.cid stOk
        { s1 with rdma := { s1.rdma with qps := tput s1.rdma.qps n q, clock := s1.rdma.clock + 1 } }

/-- QP_CREATE. -/
def execQpCreate (pair cid : Nat) (s : State) : Res := live (runCmd 0x0404 pair cid qpCreate) s

/-- Is a QP in use by delivery (R359)? -/
def State.qpBusy (s : State) (n : Nat) (q : Qp) : Bool :=
  s.pipes.any fun kv => kv.2.active && (q.kind == 1 || kv.2.consumers.any fun ck => ck.2.qp == n)

/-- Return a QP to RESET (R359): its requests are flushed, its held packets and sequence state discarded. Its receive slots, and its
remote end until ACTION 0 names another, stay. -/
def resetQp (n : Nat) (q : Qp) (s : State) : State :=
  let s1 := { s with rdma := { s.rdma with
    qps := tput s.rdma.qps n { freshQp q.kind q.retryLimit q.lru with
      resident := q.resident, nextWr := q.nextWr, remoteNode := q.remoteNode, remoteQp := q.remoteQp, lastSyn := q.lastSyn,
      inbox := q.inbox, slots := q.slots }
    fetches := s.rdma.fetches.filter fun x => x.2 ≠ n } }
  flushWrs n q.wrs s1

/-- Is the QP parameter good (R359)? -/
def qpParam (c : Cmd) : Bool := decide (1 ≤ c.p32 32) && decide (c.p32 32 < 2 ^ 20)

/-- QP_MODIFY runs with one of its actions: bad fields are refused whichever action they name (R359). -/
def qpModify (action : Nat) (f : Cmd → Nat → Qp → State → State) (c : Cmd) (s : State) : State :=
  let a := c.p8 36
  if 3 < a then refuse c.pair c.cid stInvalidField s
  else if a ≠ action then s
  else if !qpParam c ∨ (a = 3 ∧ !c.exactBuf 64) ∨ (a ≠ 3 ∧ !c.noData)
      ∨ (a = 0 ∧ (8191 < c.p16 38 ∨ 2 ^ 20 ≤ c.p32 40 ∨ 2 ^ 24 ≤ c.p32 44 ∨ 2 ^ 24 ≤ c.p32 48)) then
    refuse c.pair c.cid stInvalidField s
  else match tget s.rdma.qps (c.p32 32) with
    | none => refuse c.pair c.cid stPrecondition s
    | some q => f c (c.p32 32) q s

/-- Does a READY CONTROL QP to the node exist (R340)? -/
def State.controlQp (s : State) (node : Nat) : Option Nat :=
  (s.rdma.qps.find? fun kv => kv.2.kind == 1 && kv.2.state == 1 && kv.2.remoteNode == node).map Prod.fst

/-- ACTION 0: from RESET to READY (R357, R359). -/
def qpReady (c : Cmd) (n : Nat) (q : Qp) (s : State) : State :=
  if q.state ≠ 0 ∨ (q.kind = 1 ∧ (s.controlQp (c.p16 38)).isSome) then refuse c.pair c.cid stPrecondition s
  else
    let sq := c.p32 44
    finishPlain c.pair c.cid stOk
      (modQp n (fun q => { q with
        state := 1, remoteNode := c.p16 38, remoteQp := c.p32 40, postPsn := sq, sndPsn := sq, unacked := sq
        expected := c.p32 48 }) s)

/-- ACTION 1: to RESET (R357, R359). -/
def qpToReset (c : Cmd) (n : Nat) (q : Qp) (s : State) : State :=
  if q.state = 0 then refuse c.pair c.cid stPrecondition s
  else if s.qpBusy n q then refuse c.pair c.cid stBusy s
  else finishPlain c.pair c.cid stOk (resetQp n q s)

/-- ACTION 2: READY to ERROR (R347, R357). -/
def qpToError (c : Cmd) (n : Nat) (q : Qp) (s : State) : State :=
  if q.state ≠ 1 then refuse c.pair c.cid stPrecondition s
  else if s.qpBusy n q then refuse c.pair c.cid stBusy s
  else finishPlain c.pair c.cid stOk (qpError n q.unacked 0 none s)

/-- The 64 bytes of ACTION 3 (R359). -/
def Qp.query (q : Qp) : Bytes :=
  fitTo 64 (putLE 1 q.state ++ putLE 1 q.kind ++ putLE 2 q.remoteNode ++ putLE 4 q.remoteQp ++ putLE 4 q.sndPsn
    ++ putLE 4 q.unacked ++ putLE 4 q.expected ++ putLE 1 q.retries ++ putLE 1 (if q.resident then 1 else 0)
    ++ putLE 2 q.wrs.length ++ putLE 1 q.lastSyn)

/-- QP_MODIFY_READY. -/
def execQpModifyReady (pair cid : Nat) (s : State) : Res := live (runCmd 0x0405 pair cid (qpModify 0 qpReady)) s

/-- QP_MODIFY_RESET. -/
def execQpModifyReset (pair cid : Nat) (s : State) : Res := live (runCmd 0x0405 pair cid (qpModify 1 qpToReset)) s

/-- QP_MODIFY_ERROR. -/
def execQpModifyError (pair cid : Nat) (s : State) : Res := live (runCmd 0x0405 pair cid (qpModify 2 qpToError)) s

/-- QP_MODIFY_QUERY. -/
def execQpModifyQuery (pair cid : Nat) (pcieOk : Bool) (s : State) : Res :=
  live (runCmd 0x0405 pair cid (qpModify 3 fun c _ q t => replyData c pcieOk q.query c.plainResult id t)) s

/-- QP_DESTROY (R359). -/
def qpDestroy (c : Cmd) (s : State) : State :=
  if !qpParam c then refuse c.pair c.cid stInvalidField s
  else match tget s.rdma.qps (c.p32 32) with
    | none => refuse c.pair c.cid stPrecondition s
    | some q =>
      if s.qpBusy (c.p32 32) q then refuse c.pair c.cid stBusy s
      else
        let s1 := q.slots.foldl (fun (t : State) (h : Nat) => freeChain h t) (resetQp (c.p32 32) q s)
        finishPlain c.pair c.cid stOk { s1 with rdma := { s1.rdma with qps := tdel s1.rdma.qps (c.p32 32) } }

/-- QP_DESTROY. -/
def execQpDestroy (pair cid : Nat) (s : State) : Res := live (runCmd 0x0406 pair cid qpDestroy) s

/-! ### Delivery messages (R231, R340, R341) -/

/-- Bytes 0 to 27 of a message header (R231). -/
def Message.head (m : Message) : Bytes :=
  putLE 1 m.kind ++ putLE 1 m.pipeline ++ putLE 2 m.consumer ++ putLE 2 m.sender ++ putLE 2 m.count ++ putLE 8 m.index
    ++ putLE 8 m.value ++ zeros 4

/-- MSG_CRC (R231). -/
def Message.crcOf (m : Message) : Nat := crc32c (m.head ++ m.body)

/-- A message's bytes. -/
def Message.bytes (m : Message) : Bytes := m.head ++ putLE 4 m.crc ++ m.body

/-- A message with its count and CRC. -/
def makeMessage (kind pipeline consumer sender count index value : Nat) (body : Bytes) : Message :=
  let m : Message :=
    { kind := kind, pipeline := pipeline, consumer := consumer, sender := sender, count := count, index := index,
      value := value, body := body, crc := 0 }
  { m with crc := m.crcOf }

/-- Bytes of one entry of a message kind (R231, R429). -/
def entryBytes (kind : Nat) : Nat :=
  if kind = 1 then 4 else if kind = 2 then 24 else if kind = 3 ∨ kind = 4 then 8 else if kind = 5 ∨ kind = 6 then 16
  else if kind = 0x40 then 48 else if kind = 0x45 then 12 else 16

/-- The messages that a long delivery message is sent as (R341): each with its own header and consecutive entries. -/
def splitMessage (m : Message) : List Message :=
  let e := entryBytes m.kind
  let per := (packetData - 32) / e
  if m.body.length + 32 ≤ packetData then [m]
  else (pieces (per * e) (m.body.length / (per * e) + 1) m.body).map fun b =>
    makeMessage m.kind m.pipeline m.consumer m.sender (b.length / e) m.index m.value b

/-- Send one delivery message to another node on its READY CONTROL QP; without one it is not sent, and "no control path" is
recorded (R340). -/
def sendMessage (node : Nat) (m : Message) (s : State) : State :=
  match s.controlQp node with
  | some n =>
    (splitMessage m).foldl (fun (t : State) (x : Message) =>
      postWork n 4 0 0 x.bytes x.bytes.length x.index (emit (.message node x) t)) s
  | none =>
    recordErr { plainErr (uDie 2) 0x0405 clsUnitFatal 8 (m.consumer % 2 ^ 12 + m.pipeline * 2 ^ 16) m.index 0 with
      pipeline := m.pipeline } s

/-- The firmware has processed a message: the receive slot it lay in is free (R341). -/
def freeSlot (m : Message) (s : State) : State :=
  match s.rdma.qps.find? fun kv => kv.2.kind == 1 && kv.2.remoteNode == m.sender && kv.2.inbox.contains m.bytes with
  | some kv => modQp kv.1 (fun q => { q with inbox := q.inbox.erase m.bytes }) s
  | none => s

end Sys2Proof.Machine
end

