-- ==== Sys2Proof/Machine/Clapper.lean ====
section
/-! DEFINITION. The clapper: freezes, their triggers, the CLAPPER# ball and the release (R431, R433 to R435). -/

namespace Sys2Proof.Machine

/-- Body of a clapper record (R439 TYPE 5, R444 TYPE 0x0052): freeze or release, and the trigger. -/
def clapperBody (release trigger : Nat) : Bytes := fitTo 32 (putLE 1 release ++ putLE 1 trigger)

/-- Write the records of a freeze or a release. -/
def clapperRecord (release trigger : Nat) (s : State) : State :=
  traceRecord 5 0 0xFF 0 0 (clapperBody release trigger) (logRecord 0x0052 0 (clapperBody release trigger) s)

/-- Drive CLAPPER#, or stop driving it: the ball is active low. -/
def driveBall (on : Bool) (s : State) : State :=
  if s.clap.driving = on then s
  else emit (.pin "CLAPPER#" (if on then 0 else 1)) { s with clap := { s.clap with driving := on } }

/-- Enter a freeze (R433): STATUS.FROZEN rises, FREEZE_TB is taken, and CLAPPER# is driven under CLAPPER_DRIVE or `drive`.
During a freeze nothing changes (R434). A stopped package does not freeze. -/
def enterFreeze (trigger : Nat) (drive : Bool) (s : State) : State :=
  if s.ken.frozen ∨ s.ken.fatal then s
  else
    let s1 := { s with
      ken := { s.ken with frozen := true }
      clap := { s.clap with freezeTb := s.tb, trigger := trigger, released := false } }
    driveBall (drive || s.raw 0x12 0 0x02 0 == 1) (clapperRecord 0 trigger (bump 0x12 0 0x05 s1))

/-- Does a lockstep pair whose divergence froze the node drive CLAPPER# for it (R430)? -/
def State.lockDrives (s : State) : Bool := s.clap.divergence.any fun p => (tget s.lock p).any Lockstep.drive

/-- CLAPPER_DRIVE was written: a frozen node follows it until its ACTION 2 (R433). -/
def driveWritten (s : State) : State :=
  if s.ken.frozen ∧ !s.clap.released then driveBall (s.raw 0x12 0 0x02 0 == 1 || s.lockDrives) s else s

/-- CLAPPER_ARM was written: an armed node freezes while the ball is low (R433). -/
def armWritten (s : State) : State :=
  if s.raw 0x12 0 0x01 0 = 1 ∧ s.clap.ballLow then enterFreeze 2 false s else s

/-- Release the freeze (R431, R435): work resumes, and every pipeline whose divergence caused it stops with ROLE 0. -/
def releaseFreeze (s : State) : State :=
  let s1 := clapperRecord 1 s.clap.trigger { s with ken := { s.ken with frozen := false } }
  let s2 := s.clap.divergence.foldl (fun (t : State) (pipe : Nat) =>
    let u := if ((tget t.pipes pipe).map Pipeline.active).getD false then stopPipe pipe 5 t else t
    { u with lock := tmod u.lock pipe fun k => { k with role := 0 } }) s1
  kickAll (applyOpPoints { s2 with clap := { s2.clap with divergence := [], held := none } })

/-- CLAPPER commands of an action. -/
def clapperCmd (action pair cid : Nat) (f : Cmd → State → State) (s : State) : State :=
  runCmd 0x0506 pair cid (fun c t => if min (c.p8 32) 3 % 3 = action then
    (if 2 < c.p8 32 then refuse pair cid stInvalidField t else f c t) else t) s

/-- CLAPPER_FREEZE_NOW. -/
def execClapperFreezeNow (pair cid : Nat) (s : State) : Res :=
  live (clapperCmd 0 pair cid fun _ t => finishPlain pair cid stOk (enterFreeze 0 false t)) s

/-- ACTION 1: a freeze at AT, replacing a pending one; at once where AT has passed. -/
def freezeAt (c : Cmd) (s : State) : State :=
  let at_ := c.p64 40
  if s.ken.frozen then finishPlain c.pair c.cid stOk s
  else if at_ ≤ s.tb then
    finishPlain c.pair c.cid stOk (enterFreeze 1 false { s with clap := { s.clap with at_ := none } })
  else finishPlain c.pair c.cid stOk { s with clap := { s.clap with at_ := some at_ } }

/-- CLAPPER_FREEZE_AT. -/
def execClapperFreezeAt (pair cid : Nat) (s : State) : Res := live (clapperCmd 1 pair cid freezeAt) s

/-- ACTION 2: the node's drive ends; the release comes at once with CLAPPER_ARM 0 or a ball that reads deasserted, else it is
held (R435). -/
def clapperRelease (ballHigh : Bool) (c : Cmd) (s : State) : State :=
  if !s.ken.frozen then refuse c.pair c.cid stPrecondition s
  else if s.clap.held.isSome then refuse c.pair c.cid stBusy s
  else
    let s1 := driveBall false { s with clap := { s.clap with released := true } }
    if s.raw 0x12 0 0x01 0 = 0 ∨ ballHigh then finishPlain c.pair c.cid stOk (releaseFreeze s1)
    else markRunning c.pair c.cid { s1 with clap := { s1.clap with held := some (c.pair, c.cid) } }

/-- CLAPPER_RELEASE. -/
def execClapperRelease (pair cid : Nat) (ballHigh : Bool) (s : State) : Res :=
  live (clapperCmd 2 pair cid (clapperRelease ballHigh)) s

/-- CLAPPER_PIN_ASSERT: the ball has been low for 20 ns. -/
def execClapperPinAssert (s : State) : Res :=
  live (fun t =>
    let u := { t with clap := { t.clap with ballLow := true } }
    if t.raw 0x12 0 0x01 0 = 1 then enterFreeze 2 false u else u) s

/-- CLAPPER_PIN_DEASSERT: the ball has been high for 20 ns; a held release ends. -/
def execClapperPinDeassert (s : State) : Res :=
  live (fun t =>
    let u := { t with clap := { t.clap with ballLow := false } }
    match t.clap.held with
    | some h => finishPlain h.1 h.2 stOk (releaseFreeze u)
    | none => u) s

/-- CLAPPER_AT_REACHED: the timebase has reached AT of a pending freeze. -/
def execClapperAtReached (s : State) : Res :=
  live (fun t => match t.clap.at_ with
    | some a => if a ≤ t.tb then enterFreeze 1 false { t with clap := { t.clap with at_ := none } } else t
    | none => t) s

end Sys2Proof.Machine
end

