-- ==== Sys2Proof/Machine/Codec.lean ====
section
/-! DEFINITION. The block codecs (R68, R70, R147): raw DEFLATE streams of RFC 1951, decoded in full; Zstd.lean holds the other. -/

namespace Sys2Proof.Machine

/-! ### DEFLATE (RFC 1951) -/

/-- Bits of a byte run, first bit first: least significant bit of each byte first. -/
def bitsOf (bs : Bytes) : List Bool := (bs.map fun b => (List.range 8).map fun i => b.getLsbD i).flatten

/-- Value of bits, least significant first. -/
def bitsVal : List Bool → Nat
  | [] => 0
  | b :: t => (if b then 1 else 0) + 2 * bitsVal t

/-- Read `n` bits. -/
def takeBits (n : Nat) (bs : List Bool) : Option (Nat × List Bool) :=
  if bs.length < n then none else some (bitsVal (bs.take n), bs.drop n)

/-- A canonical Huffman code: (length, code, symbol). -/
abbrev HuffCode := List (Nat × Nat × Nat)

/-- Canonical codes of one length, for the symbols that have it. -/
def huffLevel (lens : List Nat) (len code : Nat) : HuffCode :=
  ((lens.zipIdx.filter fun p => p.1 == len).map Prod.snd).zipIdx.map fun p => (len, code + p.2, p.1)

/-- Canonical codes from code lengths: lengths `len` upward, `n` of them, the first code being `code`. -/
def huffBuild (lens : List Nat) : Nat → Nat → Nat → HuffCode
  | 0, _, _ => []
  | n + 1, len, code =>
    let l := huffLevel lens len code
    l ++ huffBuild lens n (len + 1) ((code + l.length) * 2)

/-- The Huffman code of a list of lengths, at most 15 bits (RFC 1951). -/
def huffOf (lens : List Nat) : HuffCode := huffBuild lens 15 1 0

/-- Decode one symbol, at most `n` more bits. -/
def huffRead (h : HuffCode) : Nat → Nat → Nat → List Bool → Option (Nat × List Bool)
  | 0, _, _, _ => none
  | _, _, _, [] => none
  | n + 1, len, code, b :: t =>
    let c := code * 2 + if b then 1 else 0
    match h.find? fun x => x.1 == len + 1 && x.2.1 == c with
    | some x => some (x.2.2, t)
    | none => huffRead h n (len + 1) c t

/-- Decode one symbol. -/
def huffSym (h : HuffCode) (bs : List Bool) : Option (Nat × List Bool) := huffRead h 15 0 0 bs

/-- Base length and extra bits of length codes 257 to 285. -/
def lenBase : List (Nat × Nat) :=
  [(3, 0), (4, 0), (5, 0), (6, 0), (7, 0), (8, 0), (9, 0), (10, 0), (11, 1), (13, 1), (15, 1), (17, 1), (19, 2), (23, 2),
   (27, 2), (31, 2), (35, 3), (43, 3), (51, 3), (59, 3), (67, 4), (83, 4), (99, 4), (115, 4), (131, 5), (163, 5),
   (195, 5), (227, 5), (258, 0)]

/-- Base distance and extra bits of distance codes 0 to 29. -/
def distBase : List (Nat × Nat) :=
  (List.range 30).map fun c => if c < 2 then (c + 1, 0) else (1 + 2 ^ (c / 2 - 1) * (2 + c % 2), c / 2 - 1)

/-- Copy `n` bytes from distance `d`; the output is newest first. -/
def copyBack (d : Nat) : Nat → Bytes → Option Bytes
  | 0, out => some out
  | n + 1, out =>
    match out[d - 1]? with
    | none => none
    | some b => copyBack d n (b :: out)

/-- Decode symbols of a compressed block until its end; output newest first, at most `lim` bytes. -/
def inflateSyms (lim : Nat) (lit dist : HuffCode) : Nat → List Bool → Bytes → Option (List Bool × Bytes)
  | 0, _, _ => none
  | n + 1, bs, out =>
    match huffSym lit bs with
    | none => none
    | some (sym, r) =>
      if sym < 256 then inflateSyms lim lit dist n r (BitVec.ofNat 8 sym :: out)
      else if sym = 256 then some (r, out)
      else
        match lenBase[sym - 257]? with
        | none => none
        | some (lb, le) =>
          match takeBits le r with
          | none => none
          | some (lx, r1) =>
            match huffSym dist r1 with
            | none => none
            | some (ds, r2) =>
              match distBase[ds]? with
              | none => none
              | some (db, de) =>
                match takeBits de r2 with
                | none => none
                | some (dx, r3) =>
                  if lim < out.length then none
                  else match copyBack (db + dx) (lb + lx) out with
                    | none => none
                    | some out1 => inflateSyms lim lit dist n r3 out1

/-- Code lengths of a dynamic block: `n` still to read, `acc` newest first. -/
def inflateLens (h : HuffCode) : Nat → Nat → List Bool → List Nat → Option (List Nat × List Bool)
  | 0, _, _, _ => none
  | f + 1, n, bs, acc =>
    if n = 0 then some (acc.reverse, bs)
    else
      match huffSym h bs with
      | none => none
      | some (sym, r) =>
        if sym < 16 then inflateLens h f (n - 1) r (sym :: acc)
        else
          let eb := if sym = 16 then 2 else if sym = 17 then 3 else 7
          let base := if sym = 18 then 11 else 3
          match takeBits eb r with
          | none => none
          | some (x, r1) =>
            if n < base + x then none
            else if sym = 16 then
              match acc with
              | [] => none
              | v :: _ => inflateLens h f (n - (base + x)) r1 (List.replicate (base + x) v ++ acc)
            else inflateLens h f (n - (base + x)) r1 (List.replicate (base + x) 0 ++ acc)

/-- Order of the code length code lengths. -/
def clOrder : List Nat := [16, 17, 18, 0, 8, 7, 9, 6, 10, 5, 11, 4, 12, 3, 13, 2, 14, 1, 15]

/-- Lengths of the code length code: the read values in `clOrder`. -/
def clLens (vals : List Nat) : List Nat :=
  (List.range 19).map fun s => ((clOrder.zip vals).find? fun p => p.1 == s).elim 0 Prod.snd

/-- Read `n` values of 3 bits. -/
def take3s : Nat → List Bool → Option (List Nat × List Bool)
  | 0, bs => some ([], bs)
  | n + 1, bs =>
    match takeBits 3 bs with
    | none => none
    | some (v, r) => (take3s n r).map fun p => (v :: p.1, p.2)

/-- The two codes of a dynamic block. -/
def inflateDyn (bs : List Bool) : Option (HuffCode × HuffCode × List Bool) :=
  match takeBits 14 bs with
  | none => none
  | some (v, r) =>
    let hlit := v % 32 + 257
    let hdist := v / 32 % 32 + 1
    match take3s (v / 1024 + 4) r with
    | none => none
    | some (vals, r1) =>
      match inflateLens (huffOf (clLens vals)) 400 (hlit + hdist) r1 [] with
      | none => none
      | some (ls, r2) => some (huffOf (ls.take hlit), huffOf (ls.drop hlit), r2)

/-- Literal and length code of a fixed block. -/
def fixedLit : HuffCode :=
  huffOf (List.replicate 144 8 ++ List.replicate 112 9 ++ List.replicate 24 7 ++ List.replicate 8 8)

/-- Distance code of a fixed block. -/
def fixedDist : HuffCode := huffOf (List.replicate 30 5)

/-- Bytes of a bit run whose length is a multiple of 8. -/
def bytesOfBits : Nat → List Bool → Bytes
  | 0, _ => []
  | n + 1, bs => BitVec.ofNat 8 (bitsVal (bs.take 8)) :: bytesOfBits n (bs.drop 8)

/-- Decode blocks until the final one; output newest first. -/
def inflateBlocks (lim : Nat) : Nat → List Bool → Bytes → Option (List Bool × Bytes)
  | 0, _, _ => none
  | n + 1, bs, out =>
    match takeBits 3 bs with
    | none => none
    | some (h, r) =>
      let one : Option (List Bool × Bytes) :=
        if h / 2 = 0 then
          let r1 := r.drop (r.length % 8)
          match takeBits 32 r1 with
          | none => none
          | some (v, r2) =>
            let len := v % 65536
            if v / 65536 ≠ 65535 - len ∨ r2.length < 8 * len ∨ lim < out.length then none
            else some (r2.drop (8 * len), (bytesOfBits len r2).reverse ++ out)
        else if h / 2 = 1 then inflateSyms lim fixedLit fixedDist r.length r out
        else if h / 2 = 2 then
          match inflateDyn r with
          | none => none
          | some (l, d, r1) => inflateSyms lim l d r1.length r1 out
        else none
      match one with
      | none => none
      | some (r3, out1) => if h % 2 = 1 then some (r3, out1) else inflateBlocks lim n r3 out1

/-- A DEFLATE block of `n` original bytes: one raw stream whose final block ends in the last stored byte (R147). -/
def deflateDecode (stored : Bytes) (n : Nat) : Option Bytes :=
  let bs := bitsOf stored
  match inflateBlocks n (bs.length + 1) bs [] with
  | none => none
  | some (rest, out) => if rest.length < 8 ∧ out.length = n then some out.reverse else none

end Sys2Proof.Machine
end

