-- ==== Sys2Proof/Machine/Zstd.lean ====
section
/-! DEFINITION. zstd frames (R147, RFC 8878): literals in every mode (raw, RLE, Huffman with its own tree or the previous one), sequences
in every mode (predefined, RLE, FSE, repeat), and the content checksum (XXH64). -/

namespace Sys2Proof.Machine

/-! ### Bit streams read from their end -/

/-- The bits of a stream that is read backwards: from the highest set bit of its last byte, which is the end mark, down. -/
def backBits (bs : Bytes) : Option (List Bool) :=
  if bs.getLastD 0 = 0 then none
  else match (bitsOf bs).reverse.dropWhile fun b => !b with
    | [] => none
    | _ :: t => some t

/-- Read `n` bits, most significant first; beyond the end they are 0. -/
def backRead (n : Nat) (bits : List Bool) : Nat × List Bool :=
  let got := bits.take n
  (got.foldl (fun (a : Nat) (b : Bool) => 2 * a + if b then 1 else 0) 0 * 2 ^ (n - got.length), bits.drop n)

/-! ### FSE tables -/

/-- An FSE decoding table: accuracy log, and per state its symbol, the bits to read and the base of the next state. -/
structure FseTable where
  log : Nat
  cells : List (Nat × Nat × Nat)
  deriving DecidableEq, Repr

/-- Zeros that follow a probability of 0: 2 bits at a time, as long as they are 3. -/
def fseZeros : Nat → List Bool → List Int → Option (List Int × List Bool)
  | 0, _, _ => none
  | f + 1, bits, acc =>
    match takeBits 2 bits with
    | none => none
    | some (r, t) =>
      let a := List.replicate r 0 ++ acc
      if r = 3 then fseZeros f t a else some (a, t)

/-- The probabilities of a table description, newest first: −1 stands for "less than 1". -/
def fseProbs : Nat → Nat → List Bool → List Int → Option (List Int × List Bool)
  | 0, _, _, _ => none
  | f + 1, left, bits, acc =>
    if left = 0 then some (acc, bits)
    else if 256 ≤ acc.length then none
    else
      let w := Nat.log2 (left + 1) + 1
      match takeBits (w - 1) bits with
      | none => none
      | some (low, t) =>
        let gap := 2 ^ w - 1 - (left + 1)
        let r : Option (Nat × List Bool) :=
          if low < gap then some (low, t)
          else match t with
            | [] => none
            | b :: u => some (if b then low + 2 ^ (w - 1) - gap else low, u)
        match r with
        | none => none
        | some (v, u) =>
          let cost := if v = 0 then 1 else v - 1
          if left < cost then none
          else if v = 1 then
            match fseZeros 256 u (0 :: acc) with
            | none => none
            | some (a, y) => fseProbs f left y a
          else fseProbs f (left - cost) u (((v : Int) - 1) :: acc)

/-- The next free position when symbols are spread over a table. -/
def fseStep (size high : Nat) : Nat → Nat → Nat
  | 0, p => p
  | f + 1, p =>
    let q := (p + size / 2 + size / 8 + 3) % size
    if high ≤ q then fseStep size high f q else q

/-- Spread symbols over the positions below `high`: (position, symbol), each symbol as often as its probability says. -/
def fseSpread (size high : Nat) : List (Nat × Nat) → Nat → List (Nat × Nat) → List (Nat × Nat)
  | [], _, acc => acc
  | (sym, n) :: t, pos, acc =>
    let r := (List.range n).foldl (fun (a : Nat × List (Nat × Nat)) (_ : Nat) =>
      (fseStep size high size a.1, (a.1, sym) :: a.2)) (pos, acc)
    fseSpread size high t r.1 r.2

/-- The cells of a table, in state order: the k-th state of a symbol of probability p counts as p + k. -/
def fseCells (log : Nat) (probs : List Int) : List Nat → List (Nat × Nat) → List (Nat × Nat × Nat)
  | [], _ => []
  | sym :: t, seen =>
    let k := ((seen.find? fun x => x.1 == sym).map Prod.snd).getD 0
    let p := probs.getD sym 0
    let d := (if p < 0 then 1 else p.toNat) + k
    let b := log - Nat.log2 d
    (sym, b, d * 2 ^ b - 2 ^ log) :: fseCells log probs t ((sym, k + 1) :: seen)

/-- The table of a distribution. -/
def fseTable (log : Nat) (probs : List Int) : FseTable :=
  let size := 2 ^ log
  let low := (probs.zipIdx.filter fun p => p.1 == -1).map Prod.snd
  let high := size - low.length
  let spread := fseSpread size high ((probs.zipIdx.filter fun p => decide (0 < p.1)).map fun p => (p.2, p.1.toNat)) 0 []
  let at_ (i : Nat) : Nat :=
    if high ≤ i then low.getD (size - 1 - i) 0 else ((spread.find? fun x => x.1 == i).map Prod.snd).getD 0
  { log := log, cells := fseCells log probs ((List.range size).map at_) [] }

/-- Read a table description of accuracy at most `maxLog`, with symbols up to `maxSym`: the table and the bytes after it. -/
def fseRead (maxLog maxSym : Nat) (d : Bytes) : Option (FseTable × Bytes) :=
  let bits := bitsOf d
  match takeBits 4 bits with
  | none => none
  | some (a, t) =>
    let log := a + 5
    if maxLog < log then none
    else match fseProbs 300 (2 ^ log) t [] with
      | none => none
      | some (ps, rest) =>
        if maxSym + 1 < ps.length then none
        else some (fseTable log ps.reverse, d.drop (ceilDiv (bits.length - rest.length) 8))

/-- A table that holds one symbol. -/
def fseOne (sym : Nat) : FseTable := { log := 0, cells := [(sym, 0, 0)] }

/-- The cell of a state. -/
def FseTable.cell (t : FseTable) (st : Nat) : Nat × Nat × Nat := t.cells.getD st (0, 0, 0)

/-- The next state. -/
def FseTable.next (t : FseTable) (st : Nat) (bits : List Bool) : Nat × List Bool :=
  let r := backRead (t.cell st).2.1 bits
  ((t.cell st).2.2 + r.1, r.2)

/-! ### Huffman-coded literals -/

/-- A Huffman table: the bits of its longest code, and for each value of so many bits the symbol and its length. -/
structure ZHuff where
  log : Nat
  cells : List (Nat × Nat)
  deriving DecidableEq, Repr

/-- The table of weights; the last symbol's weight is what fills the table. -/
def huffOfWeights (ws : List Nat) : Option ZHuff :=
  let sum := (ws.map fun w => if w = 0 then 0 else 2 ^ (w - 1)).sum
  if sum = 0 ∨ 255 < ws.length then none
  else
    let log := Nat.log2 sum + 1
    let left := 2 ^ log - sum
    if 11 < log ∨ 2 ^ Nat.log2 left ≠ left then none
    else
      let all := (ws ++ [Nat.log2 left + 1]).zipIdx
      some {
        log := log
        cells := ((List.range log).map fun i =>
          ((all.filter fun p => p.1 == i + 1).map fun p => List.replicate (2 ^ i) (p.2, log - i)).flatten).flatten }

/-- Weights from an FSE stream with two alternating states, at most 255. -/
def fseWeights (t : FseTable) : Nat → Nat → Nat → List Bool → List Nat → List Nat
  | 0, _, _, _, acc => acc.reverse
  | f + 1, s1, s2, bits, acc =>
    let acc1 := (t.cell s1).1 :: acc
    if bits.length < (t.cell s1).2.1 then ((t.cell s2).1 :: acc1).reverse
    else
      let n := t.next s1 bits
      fseWeights t f s2 n.1 n.2 acc1

/-- Read a tree description: the table and the bytes after it. -/
def huffTree (d : Bytes) : Option (ZHuff × Bytes) :=
  let h := byteAt d 0
  if d.isEmpty then none
  else if 128 ≤ h then
    let n := h - 127
    let used := ceilDiv n 2
    if d.length < 1 + used then none
    else
      let ws := (List.range n).map fun i =>
        let b := byteAt d (1 + i / 2)
        if i % 2 = 0 then b / 16 else b % 16
      (huffOfWeights ws).map fun t => (t, d.drop (1 + used))
  else if d.length < 1 + h then none
  else match fseRead 6 255 (sub d 1 h) with
    | none => none
    | some (t, rest) =>
      match backBits rest with
      | none => none
      | some bits =>
        if bits.length < 2 * t.log then none
        else
          let a := backRead t.log bits
          let b := backRead t.log a.2
          (huffOfWeights (fseWeights t 254 a.1 b.1 b.2 [])).map fun z => (z, d.drop (1 + h))

/-- `n` symbols of a Huffman stream, which they must use up. -/
def huffSyms (t : ZHuff) : Nat → List Bool → List Nat → Option (List Nat)
  | 0, bits, acc => if bits.isEmpty then some acc.reverse else none
  | n + 1, bits, acc =>
    let c := t.cells.getD (backRead t.log bits).1 (0, 0)
    if c.2 = 0 ∨ bits.length < c.2 then none else huffSyms t n (bits.drop c.2) (c.1 :: acc)

/-- One Huffman stream of `n` literals. -/
def huffStream (t : ZHuff) (n : Nat) (d : Bytes) : Option Bytes :=
  (backBits d).bind fun bits => (huffSyms t n bits []).map fun l => l.map (BitVec.ofNat 8)

/-- Four streams with their jump table. -/
def huffFour (t : ZHuff) (n : Nat) (d : Bytes) : Option Bytes :=
  let a := field d 0 2
  let b := field d 2 2
  let c := field d 4 2
  let q := ceilDiv n 4
  if d.length < 6 + a + b + c ∨ n < 3 * q then none
  else match huffStream t q (sub d 6 a), huffStream t q (sub d (6 + a) b), huffStream t q (sub d (6 + a + b) c),
      huffStream t (n - 3 * q) (d.drop (6 + a + b + c)) with
    | some w, some x, some y, some z => some (w ++ x ++ y ++ z)
    | _, _, _, _ => none

/-! ### Blocks -/

/-- What one block leaves for the next: the Huffman table, the three FSE tables, and the repeat offsets. -/
structure ZCtx where
  huff : Option ZHuff
  ll : Option FseTable
  off : Option FseTable
  ml : Option FseTable
  reps : Nat × Nat × Nat
  deriving DecidableEq, Repr

/-- The context at the start of a frame. -/
def zStart : ZCtx := { huff := none, ll := none, off := none, ml := none, reps := (1, 4, 8) }

/-- The literals section: the literals, the table in use, and the bytes after it. -/
def zLiterals (huff : Option ZHuff) (d : Bytes) : Option (Bytes × Option ZHuff × Bytes) :=
  let b := byteAt d 0
  let type := b % 4
  let fmt := b / 4 % 4
  if type < 2 then
    let hl := if fmt % 2 = 0 then 1 else if fmt = 1 then 2 else 3
    let size := if fmt % 2 = 0 then b / 8 else field d 0 hl / 16
    let used := if type = 0 then size else 1
    if d.length < hl + used then none
    else some (if type = 0 then sub d hl size else List.replicate size (d.getD hl 0), huff, d.drop (hl + used))
  else
    let w := if fmt < 2 then 10 else if fmt = 2 then 14 else 18
    let hl := if fmt < 2 then 3 else if fmt = 2 then 4 else 5
    let v := field d 0 hl / 16
    let size := v % 2 ^ w
    let comp := v / 2 ^ w
    if d.length < hl + comp then none
    else
      let body := sub d hl comp
      let rest := d.drop (hl + comp)
      let tree : Option (ZHuff × Bytes) := if type = 2 then huffTree body else huff.map fun t => (t, body)
      match tree with
      | none => none
      | some (t, s) => (if fmt = 0 then huffStream t size s else huffFour t size s).map fun l => (l, some t, rest)

/-- Base and extra bits of literal-length codes. -/
def llCode (c : Nat) : Nat × Nat :=
  if c < 16 then (c, 0)
  else
    [(16, 1), (18, 1), (20, 1), (22, 1), (24, 2), (28, 2), (32, 3), (40, 3), (48, 4), (64, 6), (128, 7), (256, 8), (512, 9),
      (1024, 10), (2048, 11), (4096, 12), (8192, 13), (16384, 14), (32768, 15), (65536, 16)].getD (c - 16) (0, 0)

/-- Base and extra bits of match-length codes. -/
def mlCode (c : Nat) : Nat × Nat :=
  if c < 32 then (c + 3, 0)
  else
    [(35, 1), (37, 1), (39, 1), (41, 1), (43, 2), (47, 2), (51, 3), (59, 3), (67, 4), (83, 4), (99, 5), (131, 7), (259, 8),
      (515, 9), (1027, 10), (2051, 11), (4099, 12), (8195, 13), (16387, 14), (32771, 15), (65539, 16)].getD (c - 32) (0, 0)

/-- The predefined distribution of literal lengths. -/
def llDefault : FseTable :=
  fseTable 6 ([4, 3] ++ List.replicate 11 2 ++ List.replicate 3 1 ++ List.replicate 9 2 ++ [3, 2] ++ List.replicate 5 1
    ++ List.replicate 4 (-1))

/-- The predefined distribution of match lengths. -/
def mlDefault : FseTable :=
  fseTable 6 ([1, 4, 3] ++ List.replicate 6 2 ++ List.replicate 37 1 ++ List.replicate 7 (-1))

/-- The predefined distribution of offset codes. -/
def offDefault : FseTable :=
  fseTable 5 (List.replicate 6 1 ++ List.replicate 3 2 ++ List.replicate 15 1 ++ List.replicate 5 (-1))

/-- One of the three tables by its mode: predefined, one symbol, described, or the previous one. -/
def zTable (mode maxLog maxSym : Nat) (dflt : FseTable) (prev : Option FseTable) (d : Bytes) : Option (FseTable × Bytes) :=
  if mode = 0 then some (dflt, d)
  else if mode = 1 then (if d.isEmpty ∨ maxSym < byteAt d 0 then none else some (fseOne (byteAt d 0), d.drop 1))
  else if mode = 2 then fseRead maxLog maxSym d
  else prev.map fun t => (t, d)

/-- The offset that an offset value names, and the repeat offsets after it; 0 is no offset. -/
def zOffset (value ll : Nat) (r : Nat × Nat × Nat) : Nat × (Nat × Nat × Nat) :=
  if 3 < value then (value - 3, (value - 3, r.1, r.2.1))
  else
    let i := if ll = 0 then value else value - 1
    if i = 0 then (r.1, r)
    else if i = 1 then (r.2.1, (r.2.1, r.1, r.2.2))
    else if i = 2 then (r.2.2, (r.2.2, r.1, r.2.1))
    else (r.1 - 1, (r.1 - 1, r.1, r.2.1))

/-- The sequences of a block, as (literal length, match length, offset value). -/
def zSequences (ll off ml : FseTable) : Nat → Nat × Nat × Nat → List Bool → Option (List (Nat × Nat × Nat))
  | 0, _, bits => if bits.isEmpty then some [] else none
  | n + 1, st, bits =>
    let oc := (off.cell st.2.1).1
    let mc := mlCode (ml.cell st.2.2).1
    let lc := llCode (ll.cell st.1).1
    let o := backRead oc bits
    let m := backRead mc.2 o.2
    let l := backRead lc.2 m.2
    if bits.length < oc + mc.2 + lc.2 then none
    else
      let one := (lc.1 + l.1, mc.1 + m.1, 2 ^ oc + o.1)
      if n = 0 then (if l.2.isEmpty then some [one] else none)
      else
        let a := ll.next st.1 l.2
        let b := ml.next st.2.2 a.2
        let c := off.next st.2.1 b.2
        if l.2.length < (ll.cell st.1).2.1 + (ml.cell st.2.2).2.1 + (off.cell st.2.1).2.1 then none
        else (zSequences ll off ml n (a.1, c.1, b.1) c.2).map fun t => one :: t

/-- Execute sequences: literals, then a match; the output is newest first and at most `lim` bytes. -/
def zExecute (lim window : Nat) : List (Nat × Nat × Nat) → Bytes → Nat × Nat × Nat → Bytes → Option (Bytes × (Nat × Nat × Nat))
  | [], lits, r, out => if lim < out.length + lits.length then none else some (lits.reverse ++ out, r)
  | (ll, ml, v) :: t, lits, r, out =>
    let x := zOffset v ll r
    if lits.length < ll ∨ lim < out.length + ll + ml ∨ x.1 = 0 ∨ window < x.1 then none
    else match copyBack x.1 ml ((lits.take ll).reverse ++ out) with
      | none => none
      | some o => zExecute lim window t (lits.drop ll) x.2 o

/-- Number of sequences, and the bytes after it. -/
def zCount (d : Bytes) : Option (Nat × Bytes) :=
  let b := byteAt d 0
  if d.isEmpty then none
  else if b < 128 then some (b, d.drop 1)
  else if b < 255 then (if d.length < 2 then none else some ((b - 128) * 256 + byteAt d 1, d.drop 2))
  else if d.length < 3 then none else some (field d 1 2 + 0x7F00, d.drop 3)

/-- A compressed block: the output so far, newest first, grows by it. -/
def zCompressed (lim window : Nat) (c : ZCtx) (out d : Bytes) : Option (Bytes × ZCtx) :=
  match zLiterals c.huff d with
  | none => none
  | some (lits, huff, d1) =>
    match zCount d1 with
    | none => none
    | some (n, d2) =>
      if n = 0 then
        if d2.isEmpty ∧ out.length + lits.length ≤ lim then some (lits.reverse ++ out, { c with huff := huff }) else none
      else if d2.isEmpty ∨ byteAt d2 0 % 4 ≠ 0 then none
      else
        let modes := byteAt d2 0
        match zTable (modes / 64) 9 35 llDefault c.ll (d2.drop 1) with
        | none => none
        | some (ll, d3) =>
          match zTable (modes / 16 % 4) 8 31 offDefault c.off d3 with
          | none => none
          | some (off, d4) =>
            match zTable (modes / 4 % 4) 9 52 mlDefault c.ml d4 with
            | none => none
            | some (ml, d5) =>
              match backBits d5 with
              | none => none
              | some bits =>
                let a := backRead ll.log bits
                let b := backRead off.log a.2
                let e := backRead ml.log b.2
                if bits.length < ll.log + off.log + ml.log then none
                else match zSequences ll off ml n (a.1, b.1, e.1) e.2 with
                  | none => none
                  | some seqs =>
                    (zExecute lim window seqs lits c.reps out).map fun r =>
                      (r.1, { huff := huff, ll := some ll, off := some off, ml := some ml, reps := r.2 })

/-- The blocks of a frame with a window of `window` bytes: the content, newest first, and the rest. No block is larger than the
window, nor its content. -/
def zBlocks (window : Nat) : Nat → ZCtx → Bytes → Bytes → Option (Bytes × Bytes)
  | 0, _, _, _ => none
  | f + 1, c, out, d =>
    let h := field d 0 3
    let type := h / 2 % 4
    let size := h / 8
    let body := d.drop 3
    let used := if type = 1 then 1 else size
    if d.length < 3 ∨ type = 3 ∨ body.length < used ∨ window < size then none
    else
      let r : Option (Bytes × ZCtx) :=
        if type = 0 then some ((body.take size).reverse ++ out, c)
        else if type = 1 then some (List.replicate size (body.headD 0) ++ out, c)
        else zCompressed (out.length + window) window c out (body.take size)
      match r with
      | none => none
      | some (o, c1) => if h % 2 = 1 then some (o, body.drop used) else zBlocks window f c1 o (body.drop used)

/-! ### XXH64 -/

/-- A 64-bit word rotated left. -/
def rotl64 (v : BitVec 64) (n : Nat) : BitVec 64 := v.rotateLeft n

/-- The five primes. -/
abbrev xxP1 : BitVec 64 := 0x9E3779B185EBCA87
abbrev xxP2 : BitVec 64 := 0xC2B2AE3D27D4EB4F
abbrev xxP3 : BitVec 64 := 0x165667B19E3779F9
abbrev xxP4 : BitVec 64 := 0x85EBCA77C2B2AE63
abbrev xxP5 : BitVec 64 := 0x27D4EB2F165667C5

/-- One round. -/
def xxRound (acc w : BitVec 64) : BitVec 64 := rotl64 (acc + w * xxP2) 31 * xxP1

/-- Merge an accumulator. -/
def xxMerge (h acc : BitVec 64) : BitVec 64 := (h ^^^ xxRound 0 acc) * xxP1 + xxP4

/-- A 64-bit little-endian word of a run. -/
def xxWord (d : Bytes) (i : Nat) : BitVec 64 := BitVec.ofNat 64 (field d i 8)

/-- Whole stripes of 32 bytes. -/
def xxStripes : Nat → Bytes → BitVec 64 × BitVec 64 × BitVec 64 × BitVec 64 → (BitVec 64 × BitVec 64 × BitVec 64 × BitVec 64) × Bytes
  | 0, d, a => (a, d)
  | n + 1, d, a =>
    if d.length < 32 then (a, d)
    else
      xxStripes n (d.drop 32) (xxRound a.1 (xxWord d 0), xxRound a.2.1 (xxWord d 8), xxRound a.2.2.1 (xxWord d 16),
        xxRound a.2.2.2 (xxWord d 24))

/-- The bytes after the stripes. -/
def xxTail : Nat → Bytes → BitVec 64 → BitVec 64
  | 0, _, h => h
  | n + 1, d, h =>
    if 8 ≤ d.length then xxTail n (d.drop 8) (rotl64 (h ^^^ xxRound 0 (xxWord d 0)) 27 * xxP1 + xxP4)
    else if 4 ≤ d.length then
      xxTail n (d.drop 4) (rotl64 (h ^^^ BitVec.ofNat 64 (field d 0 4) * xxP1) 23 * xxP2 + xxP3)
    else match d with
      | [] => h
      | b :: t => xxTail n t (rotl64 (h ^^^ BitVec.ofNat 64 b.toNat * xxP5) 11 * xxP1)

/-- XXH64 with seed 0. -/
def xxh64 (d : Bytes) : BitVec 64 :=
  let r := xxStripes d.length d (xxP1 + xxP2, xxP2, 0, 0 - xxP1)
  let a := r.1
  let h0 := if d.length < 32 then xxP5
    else
      xxMerge (xxMerge (xxMerge (xxMerge (rotl64 a.1 1 + rotl64 a.2.1 7 + rotl64 a.2.2.1 12 + rotl64 a.2.2.2 18) a.1) a.2.1)
        a.2.2.1) a.2.2.2
  let h := xxTail r.2.length r.2 (h0 + BitVec.ofNat 64 d.length)
  let x := (h ^^^ (h >>> 33)) * xxP2
  let y := (x ^^^ (x >>> 29)) * xxP3
  y ^^^ (y >>> 32)

/-! ### Frames -/

/-- Is a frame one with Single_Segment_Flag 1 and no checksum, as the node writes them (R148)? -/
def zPlain (stored : Bytes) : Bool := bitOf (byteAt stored 4) 5 && !bitOf (byteAt stored 4) 2

/-- A zstd block of `n` original bytes: exactly one frame that fills the stored bytes, its content size present and
equal to `n`, no dictionary, a window of at most 64 KiB, a present checksum verified (R147). -/
def zstdDecode (stored : Bytes) (n : Nat) : Option Bytes :=
  let fhd := byteAt stored 4
  let single := bitOf fhd 5
  let did := fhd % 4
  let didLen := if did = 3 then 4 else did
  let fcs := fhd / 64
  let fcsLen := if fcs = 0 then (if single then 1 else 0) else 2 ^ fcs
  let wOff := 5
  let dOff := if single then wOff else wOff + 1
  let fOff := dOff + didLen
  let size := field stored fOff fcsLen + if fcsLen = 2 then 256 else 0
  let w := byteAt stored wOff
  let base := 2 ^ (10 + w / 8)
  let window := if single then size else base + base / 8 * (w % 8)
  let sum := bitOf fhd 2
  if field stored 0 4 ≠ 0xFD2FB528 ∨ stored.length < 6 ∨ bitOf fhd 3 ∨ fcsLen = 0 ∨ size ≠ n
      ∨ field stored dOff didLen ≠ 0 ∨ 65536 < window then none
  else match zBlocks window stored.length zStart [] (stored.drop (fOff + fcsLen)) with
    | none => none
    | some (out, rest) =>
      let c := out.reverse
      if rest.length = (if sum then 4 else 0) ∧ c.length = n ∧ (!sum ∨ field rest 0 4 = (xxh64 c).toNat % 2 ^ 32) then some c
      else none

/-- Decompress a stored block to its `n` original bytes; none is a codec failure (R147). -/
def decodeBlock (codec : Nat) (stored : Bytes) (n : Nat) : Option Bytes :=
  if codec = 0 then zstdDecode stored n else if codec = 1 then deflateDecode stored n else none

/-- Compress and store a closed block: the stored bytes, and whether they are raw (R70, R148). The encoder's output is used where it
is smaller than the original, decodes back to it, and, as a zstd frame, is a single segment without a checksum; every output of
the real encoder is so. -/
def storeBlock (codec level fw : Nat) (orig : Bytes) : Bytes × Bool :=
  let z := Config.compress codec level fw orig
  if z.length < orig.length ∧ decodeBlock codec z orig.length = some orig ∧ (codec ≠ 0 ∨ zPlain z) then (z, false)
  else (orig, true)

end Sys2Proof.Machine
end

