-- ==== Sys2Proof/Machine/Reels.lean ====
section
/-! DEFINITION. Reels (R65 to R76): REEL_APPEND OPEN, SAMPLES and SEAL. -/

namespace Sys2Proof.Machine

/-- Start of the block directory, in 4 KiB units from the reel start. -/
def Reel.dirOffset (r : Reel) : Nat := 1 + ceilDiv (r.slateCap * 64) 4096

/-- Start of the payload, in 4 KiB units. -/
def Reel.payloadOffset (r : Reel) : Nat := r.dirOffset + ceilDiv (r.blockCap * 16) 4096

/-- The reel header (R66): counts, footer offset and STATE as given. -/
def Reel.header (r : Reel) (no : Nat) : Bytes :=
  withCrc (fitTo 4092 (putLE 4 0x4C525A45 ++ putLE 2 1 ++ putLE 2 r.dataset ++ putLE 4 no
    ++ putLE 4 (if r.sealed then r.slates else 0) ++ putLE 8 r.first ++ putLE 4 r.slateCap ++ putLE 4 r.blockCap
    ++ putLE 4 (if r.sealed then r.blocks else 0) ++ putLE 1 r.codec ++ putLE 1 r.level
    ++ putLE 1 (if r.sealed then 2 else 1) ++ zeros 1 ++ putLE 4 r.dirOffset ++ putLE 4 r.payloadOffset
    ++ putLE 4 (if r.sealed then r.footer else 0) ++ putLE 4 r.fw ++ putLE 8 r.tbOpen))

/-- Write bytes at a byte offset of a volume, the rest of the blocks they touch unchanged. REEL_APPEND writes in class 2
(R291). -/
def writeAt (volume off : Nat) (bs : Bytes) (s : State) : State :=
  if bs.isEmpty then s
  else
    let b0 := off / 4096
    let n := ceilDiv (off % 4096 + bs.length) 4096
    writeBytes volume b0 2 (patch (s.readBlocks volume b0 n) (off % 4096) bs) (readRun volume b0 n s)

/-- VOLUME of REEL_APPEND. -/
def Cmd.reelVolume (c : Cmd) : Nat := c.p16 36
/-- REEL of REEL_APPEND. -/
def Cmd.reelNo (c : Cmd) : Nat := c.p32 40
/-- Table key of the reel a REEL_APPEND names. -/
def Cmd.reelKey (c : Cmd) : Nat := Machine.reelKey c.reelVolume c.reelNo

/-- Another REEL_APPEND for the reel, fetched earlier, is outstanding (R74). -/
def State.reelBusy (s : State) (c : Cmd) : Bool :=
  s.ken.cmds.any fun x => x.opcode == 0x030A && decide (x.ord < c.ord) && x.reelKey == c.reelKey

/-- Open reels of the package. -/
def State.openCount (s : State) : Nat := (s.cat.reels.filter fun kv => !kv.2.sealed).length

/-- Reels of a volume. -/
def State.reelCount (s : State) (volume : Nat) : Nat := (s.cat.reels.filter fun kv => kv.1 / 2 ^ 32 == volume).length

/-- Store a reel's table entry. -/
def putReel (key : Nat) (r : Reel) (s : State) : State := { s with cat := { s.cat with reels := tput s.cat.reels key r } }

/-- The reel that an OPEN makes. -/
def Cmd.newReel (c : Cmd) (tb fw : Nat) : Reel :=
  let r : Reel :=
    { start := c.p64 48, dataset := c.p16 38, first := c.p64 56, slateCap := c.p32 64, blockCap := c.p32 68,
      codec := c.p8 33, level := c.p8 34, sealed := false, slates := 0, blocks := 0, nextUnit := 0, tbOpen := tb,
      fw := fw, footer := 0 }
  { r with nextUnit := r.payloadOffset }

/-- Are the OPEN parameters in range (R66, R72)? -/
def Cmd.openFields (c : Cmd) : Bool :=
  decide (c.p8 33 ≤ 1) && decide (1 ≤ c.p8 34) && decide (c.p8 34 ≤ if c.p8 33 = 0 then 19 else 9)
    && decide (c.reelVolume ≤ 127) && decide (c.p64 56 < 2 ^ 47) && decide (1 ≤ c.p32 64 ∧ c.p32 64 ≤ 16777216)
    && decide (1 ≤ c.p32 68 ∧ c.p32 68 ≤ 268435456) && c.noData

/-- REEL_APPEND OPEN (R72, R74): the table entry, the header with STATE 1, zeroed index and directory. -/
def reelOpen (c : Cmd) (s : State) : State :=
  if !c.openFields then refuse c.pair c.cid stInvalidField s
  else if s.reelBusy c then refuse c.pair c.cid stBusy s
  else if !thas s.flash.volumes c.reelVolume || thas s.cat.reels c.reelKey then refuse c.pair c.cid stPrecondition s
  else if 256 ≤ s.openCount ∨ 1048576 ≤ s.reelCount c.reelVolume then refuse c.pair c.cid stNoResources s
  else
    let r := c.newReel s.tb (Config.fwRelease s.firmware)
    let st := s.volStatus c.reelVolume r.start r.payloadOffset true
    if st ≠ stOk then refuse c.pair c.cid st s
    else if !s.hostRoom c.reelVolume r.payloadOffset then s
    else
      finish c.pair c.cid stOk r.payloadOffset
        (writeBytes c.reelVolume r.start 2 (r.header c.reelNo ++ zeros ((r.payloadOffset - 1) * 4096))
          (putReel c.reelKey r s))

/-- REEL_APPEND with a SUBOP of its own. -/
def runReel (subop pair cid : Nat) (f : Cmd → State → State) (s : State) : State :=
  runCmd 0x030A pair cid (fun c t =>
    if 2 < c.p8 32 then refuse pair cid stInvalidField t else if c.p8 32 = subop then f c t else t) s

/-- REEL_OPEN. -/
def execReelOpen (pair cid : Nat) (s : State) : Res := live (runReel 0 pair cid reelOpen) s

/-- A slate as the host gives it, checked: SAMPLE as expected, device and reserved fields 0, CLASS and LENGTH agreeing
(R67, R73). -/
def slateGiven (dataset index : Nat) (b : Bytes) : Bool :=
  let cls := byteAt b 8
  let len := field b 20 4
  decide (index < 2 ^ 47) && field b 0 8 == index + dataset * 2 ^ 48 && decide (cls ≤ 5) && zeroAt b 10 10
    && zeroAt b 24 4 && zeroAt b 60 4 && decide (len ≤ 268435456) && (cls == 0) == (len == 0)

/-- Slates of consecutive samples. -/
def slatesGiven (dataset : Nat) : Nat → List Bytes → Bool
  | _, [] => true
  | i, b :: t => slateGiven dataset i b && slatesGiven dataset (i + 1) t

/-- The blocks a SAMPLES command makes, newest first, the open one apart; `next` is the open block's index. -/
structure Packing where
  closed : List Bytes
  cur : Bytes
  next : Nat
  places : List (Nat × Nat)
  deriving DecidableEq, Repr

/-- Close the current block, if it holds anything (R69). -/
def Packing.close (p : Packing) : Packing :=
  if p.cur.isEmpty then p else { p with closed := p.cur :: p.closed, cur := [], next := p.next + 1 }

/-- Pack one sample of original bytes by the rules of R69, in their order. -/
def Packing.add (p : Packing) (absent : Bool) (bs : Bytes) : Packing :=
  if absent then { p with places := p.places ++ [(0, 0)] }
  else if bs.length ≤ 65536 - p.cur.length then
    { p with cur := p.cur ++ bs, places := p.places ++ [(p.next, p.cur.length)] }
  else if bs.length ≤ 65536 then
    let q := p.close
    { q with cur := bs, places := q.places ++ [(q.next, 0)] }
  else
    let q := p.close
    let bl := pieces 65536 (ceilDiv bs.length 65536) bs
    { closed := bl.reverse ++ q.closed, cur := [], next := q.next + bl.length, places := q.places ++ [(q.next, 0)] }

/-- Pack samples: (absent, bytes) in slate order, the last block closing when the command ends (R69 rule 5). -/
def packSamples (firstBlock : Nat) (xs : List (Bool × Bytes)) : Packing :=
  let p0 : Packing := { closed := [], cur := [], next := firstBlock, places := [] }
  (xs.foldl (fun (p : Packing) x => p.add x.1 x.2) p0).close

/-- Split the data of a SAMPLES command into each sample's bytes. -/
def splitSamples : List Bytes → Bytes → List (Bool × Bytes)
  | [], _ => []
  | sl :: t, d => (byteAt sl 8 == 0, d.take (field sl 20 4)) :: splitSamples t (d.drop (field sl 20 4))

/-- The device fields of a slate filled in (R67). -/
def fillSlate (sl : Bytes) (place : Nat × Nat) (bs : Bytes) : Bytes :=
  let b := sl.take 12 ++ putLE 4 place.1 ++ putLE 2 place.2 ++ sub sl 18 6 ++ putLE 4 (crc32c bs) ++ sub sl 28 32
  withCrc b

/-- A directory entry (R68). -/
def dirEntry (unit codec : Nat) (stored : Bytes) (raw : Bool) (orig : Bytes) : Bytes :=
  putLE 4 unit ++ putLE 4 stored.length ++ putLE 2 (orig.length - 1) ++ putLE 1 codec ++ putLE 1 (if raw then 1 else 0)
    ++ putLE 4 (crc32c orig)

/-- Store closed blocks from a payload unit on: (directory entries, payload bytes padded to 4 KiB, next unit) (R70). -/
def storeBlocks (codec level fw : Nat) : Nat → List Bytes → Bytes × Bytes × Nat
  | unit, [] => ([], [], unit)
  | unit, o :: t =>
    let z := storeBlock codec level fw o
    let n := ceilDiv z.1.length 4096
    let r := storeBlocks codec level fw (unit + n) t
    (dirEntry unit codec z.1 z.2 o ++ r.1, fitTo (4096 * n) z.1 ++ r.2.1, r.2.2)

/-- REEL_APPEND SAMPLES (R69, R70, R72 to R75). -/
def reelSamples (c : Cmd) (s : State) : State :=
  match tget s.cat.reels c.reelKey with
  | none => refuse c.pair c.cid stPrecondition s
  | some r =>
    if s.reelBusy c then refuse c.pair c.cid stBusy s
    else if r.sealed then refuse c.pair c.cid stPrecondition s
    else
      let n := c.p32 72
      if !c.hasData ∨ c.p16 38 ≠ r.dataset then refuse c.pair c.cid stInvalidField s
      else withData c (fun d s =>
        let sls := pieces 64 n d
        let total := (sls.map fun b => field b 20 4).sum
        if sls.length ≠ n ∨ d.length ≠ roundUp (64 * n + total) 4 ∨ c.dataLen ≠ d.length
            ∨ !slatesGiven r.dataset (r.first + r.slates) sls ∨ r.slateCap < r.slates + n then
          refuse c.pair c.cid stInvalidField s
        else
          let xs := splitSamples sls (d.drop (64 * n))
          let p := packSamples r.blocks xs
          let blocks := p.closed.reverse
          if r.blockCap < r.blocks + blocks.length then refuse c.pair c.cid stInvalidField s
          else
            let z := storeBlocks r.codec r.level (Config.fwRelease s.firmware) r.nextUnit blocks
            let st := s.volStatus c.reelVolume r.start z.2.2 true
            if st ≠ stOk then refuse c.pair c.cid st s
            else if !s.hostRoom c.reelVolume (z.2.2 - r.nextUnit + 2 * n + 4) then s
            else
              let filled := ((sls.zip p.places).zip xs).map fun q => fillSlate q.1.1 q.1.2 q.2.2
              let base := r.start * 4096
              let r1 := { r with slates := r.slates + n, blocks := r.blocks + blocks.length, nextUnit := z.2.2 }
              finish c.pair c.cid stOk (r1.slates + r1.blocks * 2 ^ 32)
                (putReel c.reelKey r1
                  (writeAt c.reelVolume (base + 4096 + r.slates * 64) filled.flatten
                    (writeAt c.reelVolume (base + r.dirOffset * 4096 + r.blocks * 16) z.1
                      (writeAt c.reelVolume (base + r.nextUnit * 4096) z.2.1 s))))) s

/-- REEL_SAMPLES. -/
def execReelSamples (pair cid : Nat) (s : State) : Res := live (runReel 1 pair cid reelSamples) s

/-- The reel footer (R71). -/
def Reel.footerBytes (r : Reel) (no tb : Nat) (manifest : Bytes) : Bytes :=
  withCrc (fitTo 4092 (putLE 4 0x54465A45 ++ putLE 2 r.dataset ++ zeros 2 ++ putLE 4 no ++ putLE 4 r.slates
    ++ putLE 4 r.blocks ++ zeros 4 ++ putLE 8 (r.footer * 4096) ++ manifest ++ putLE 8 tb))

/-- REEL_APPEND SEAL (R71, R72, R75): header with STATE 2, footer, MANIFEST to the host. -/
def reelSeal (pcieOk : Bool) (c : Cmd) (s : State) : State :=
  match tget s.cat.reels c.reelKey with
  | none => refuse c.pair c.cid stPrecondition s
  | some r =>
    if s.reelBusy c then refuse c.pair c.cid stBusy s
    else if r.sealed then refuse c.pair c.cid stPrecondition s
    else if !c.exactBuf 48 ∨ c.p16 38 ≠ r.dataset then refuse c.pair c.cid stInvalidField s
    else
      let st := s.volStatus c.reelVolume r.start (r.nextUnit + 1) true
      if st ≠ stOk then refuse c.pair c.cid st s
      else if !s.hostRoom c.reelVolume 2 then s
      else
        let r1 := { r with sealed := true, footer := r.nextUnit }
        let s1 := readRun c.reelVolume r.start r1.footer (writeBytes c.reelVolume r.start 2 (r1.header c.reelNo) s)
        let manifest := sha384 (s1.readBytes c.reelVolume (r.start * 4096) (r1.footer * 4096))
        if pcieOk then
          replyData c true manifest (r1.footer + 1) id
            (putReel c.reelKey r1
              (writeBytes c.reelVolume (r.start + r1.footer) 2 (r1.footerBytes c.reelNo s.tb manifest) s1))
        else refuse c.pair c.cid stDataAddress s

/-! ### A REEL_APPEND that ends early (R54, R75) -/

/-- What a REEL_APPEND does when it runs. -/
def reelAppend (c : Cmd) (s : State) : State :=
  if c.p8 32 = 0 then reelOpen c s else if c.p8 32 = 1 then reelSamples c s else reelSeal true c s

/-- Blocks whose content differs between two states: (key, content in the second). -/
def changedBlocks (s t : State) : List (Nat × Bytes) :=
  (((t.flash.blocks ++ s.flash.blocks).map Prod.fst).eraseDups.filter fun k => s.block k != t.block k).map fun k => (k, t.block k)

/-- Each of some blocks is wholly written or not at all, in any combination (R54). REEL_APPEND writes in class 2 (R291). -/
def tearSome (keys : List (Nat × Bytes)) (s : State) : State :=
  keys.foldl (fun (t : State) (kv : Nat × Bytes) =>
    tickFree (if Config.freeBool t.freeTick && t.placeable (kv.1 / 2 ^ 40) 2 then writeBlock (kv.1 / 2 ^ 40) (kv.1 % 2 ^ 40) 2 kv.2 t else t)) s

/-- A REEL_APPEND that may start is under way: its row stands for its end. -/
def State.appending (s : State) (c : Cmd) : Bool :=
  c.opcode == 0x030A && c.phase == .waiting && decide (c.p8 32 ≤ 2) && s.mayStart c && !s.ken.fatal && !s.ken.frozen

/-- A REEL_APPEND that is ended leaves each of the blocks that it would have written old or new, and the reel as it was (R54, R75). -/
def tearReel (c : Cmd) (s : State) : State :=
  if s.appending c then tearSome (changedBlocks s (reelAppend c s)) s else s

/-- REEL_SEAL. -/
def execReelSeal (pair cid : Nat) (pcieOk : Bool) (s : State) : Res := live (runReel 2 pair cid (reelSeal pcieOk)) s

end Sys2Proof.Machine
end

