-- ==== Sys2Proof/Machine/Flash.lean ====
section
/-! DEFINITION. Events of the flash media (R288, R292, R294 to R298, R304 to R306): programs, reads, verification,
background work, program failures and supply sag. -/

namespace Sys2Proof.Machine

/-! ### FLASH_PROGRAM_COMPLETE and STRIPE_VERIFY -/

/-- The last page of a WRITE is programmed, its parity with it: its blocks are written and it completes (R288). Until then READs see every
block of it as it was. A WRITE for which there is no free stripe waits. -/
def flashProgramComplete (pair cid : Nat) (lastPage : Bool) (s : State) : State :=
  match s.ken.cmds.find? fun c => c.writing && c.pair == pair && c.cid == cid with
  | none => s
  | some c =>
    if lastPage && s.hostRoom c.volume c.count then
      finishPlain pair cid (if s.ken.fatal then stPackageFatal else stOk)
        (completeFlushes (writeBlocks c.volume (c.p8 34) c.block ((blocksOf (c.data.getD [])).take c.count) s))
    else s

/-- FLASH_PROGRAM_COMPLETE. -/
def execFlashProgramComplete (pair cid : Nat) (lastPage : Bool) (s : State) : Res :=
  live (flashProgramComplete pair cid lastPage) s

/-- The code words of a stripe that lie on given members and are still the current copies of their blocks, or the copies of
relocations in progress. -/
def State.wordsOn (s : State) (k planes : Nat) (members : List Nat) : List FlashWord :=
  match tget s.flash.stripes k with
  | none => []
  | some st =>
    ((st.held.zipIdx.filter fun p => decide (memberOf planes p.2 ∈ members)).map Prod.fst).filter fun w => s.isCurrent k w

/-- Does the stripe that a code word was copied from still hold it? -/
def State.hasSource (s : State) (w : FlashWord) : Bool :=
  (w.src.bind fun k => tget s.flash.stripes k).any fun st => st.held.any fun x => x.key == w.key && x.wsn == w.wsn

/-- Write code words of a stripe again, into another open stripe of its mode and class (R295, R304). Each keeps the source that it
has; without one, what is left of its stripe is its source. -/
def rewriteWords (k : Nat) (slc : Bool) (cls : Nat) : List FlashWord → State → State
  | [], s => s
  | w :: t, s =>
    match openStripe (stripeSn k) slc cls 0 (some k) s with
    | none => rewriteWords k slc cls t s
    | some o =>
      let x := { w with src := if s.hasSource w then w.src else some k }
      rewriteWords k slc cls t (holdWord o.1 x (s.block w.key) { o.2 with flash := { o.2.flash with
        home := if tget o.2.flash.home w.key = some k then tput o.2.flash.home w.key o.1 else o.2.flash.home
        copies := if tget o.2.flash.copies w.key = some k then tput o.2.flash.copies w.key o.1 else o.2.flash.copies } })

/-- Retire a member's block: a spare of its die takes its place where one is left, and the logbook records it (R295). -/
def retireBlock (k member : Nat) (s : State) : State :=
  let sn := stripeSn k
  match s.magOf sn with
  | none => s
  | some (bay, m) =>
    let die := m.dieOfMember (k % 2 ^ 32) member
    let used := tgetD m.sparesUsed die 0
    let s1 := modMag sn (fun m =>
      { m with sparesUsed := if used < m.spares then tput m.sparesUsed die (used + 1) else m.sparesUsed,
               retired := m.retired + 1 }) s
    let body := fitTo 32 (putLE 8 die ++ putLE 8 (m.blockNo (k % 2 ^ 32)) ++ putLE 8 (s.erases m k)
      ++ putLE 8 (Config.recordTemp s.freeTick))
    logRecord 0x0031 (uMagazine bay) body (tickFree (bump 0x07 bay 0x0B s1))

/-- Erase one member's block of a stripe. -/
def eraseMember (k member : Nat) (s : State) : State :=
  match s.magOf (stripeSn k) with
  | some (bay, m) => dieOp .erase bay m (k % 2 ^ 32) member s
  | none => s

/-- One member's block failed verification: its data is written again into another stripe, and it is erased; a second failure in its
life retires it (R295). -/
def failMember (k : Nat) (st : Stripe) (planes member : Nat) (s : State) : State :=
  let sk := k * 16 + member
  let s1 := eraseMember k member (rewriteWords k st.slc st.cls (s.wordsOn k planes [member]) s)
  if 1 ≤ tgetD s.flash.strikes sk 0 then retireBlock k member s1
  else { s1 with flash := { s1.flash with strikes := tput s1.flash.strikes sk 1 } }

/-- Members of a stripe that fail verification: those with a code word that did not decode at the first read, or decoded with more
than VERIFY_LIMIT corrected bits (R294). A code word that is not named decoded without error. -/
def State.failedMembers (s : State) (bay : Nat) (m : Magazine) (reads : List (Nat × Option Nat)) : List Nat :=
  ((reads.filter fun r => r.2.all fun bits => decide (s.raw 0x07 bay 0x07 40 < bits)).map fun r => memberOf m.planes r.1).eraseDups

/-- A closed stripe is read back: blocks that pass stand, and the others are written again (R294, R295); its parity is released once
every block has passed and every copy made from it is verified. FLUSH commands whose data is then all verified complete (R289). -/
def stripeVerify (k : Nat) (reads : List (Nat × Option Nat)) (s : State) : State :=
  match tget s.flash.stripes k, s.magOf (stripeSn k) with
  | some st, some (bay, m) =>
    if st.closed && !st.verified then
      let s0 := (List.range 16).foldl (fun (t : State) (i : Nat) => dieOp .read bay m (k % 2 ^ 32) i t) s
      let moved := (s.failedMembers bay m reads).foldl (fun t x => failMember k st m.planes x t)
        { s0 with flash := { s0.flash with stripes := tput s0.flash.stripes k { st with verified := true } } }
      completeFlushes (releaseParity (eraseEmpty (stripeSn k) (wearCheck (stripeSn k) s moved)))
    else s
  | _, _ => s

/-- STRIPE_VERIFY. -/
def execStripeVerify (stripe : Nat) (reads : List (Nat × Option Nat)) (s : State) : Res := live (stripeVerify stripe reads) s

/-! ### PROGRAM_FAIL -/

/-- SCOPE_ID of a flash block (R379). -/
def flashScope (key : Nat) : Nat := key % 2 ^ 40 + key / 2 ^ 40 % 2 ^ 7 * 2 ^ 40

/-- DETAIL of a flash-block record: magazine, die, erase block (R379). -/
def flashDetail (bay die blk : Nat) : Nat := bay + die % 2 ^ 8 * 2 ^ 8 + blk % 2 ^ 32 * 2 ^ 16

/-- An error of flash-block scope. -/
def flashErr (bay channel cause cls key die blk erases : Nat) : ErrArgs :=
  plainErr (uChannel (bay * 8 + channel)) cause cls 7 (flashScope key) (flashDetail bay die blk) erases

/-- Blocks become lost: recorded in the mapping and counted (R298). -/
def loseBlocks (bay sn : Nat) (keys : List Nat) (s : State) : State :=
  let fresh := keys.filter fun k => k ∉ s.flash.lost
  bumpBy 0x07 bay 0x0A fresh.length
    (modMag sn (fun m => { m with lost := m.lost + fresh.length })
      { s with flash := { s.flash with
          lost := s.flash.lost ++ fresh
          blocks := tfilter s.flash.blocks fun k _ => k ∉ fresh
          home := tfilter s.flash.home fun k _ => k ∉ fresh
          copies := tfilter s.flash.copies fun k _ => k ∉ fresh } })

/-- A program fails on one member of an open stripe (R304), or on two before the first is recovered: then code words with a surviving
source are copied from it, and the others are lost. -/
def programFail (k die : Nat) (second : Option Nat) (s : State) : State :=
  let sn := stripeSn k
  match tget s.flash.stripes k, s.magOf sn with
  | some st, some (bay, m) =>
    if st.closed then s
    else
      let d := m.dieOfMember (k % 2 ^ 32) die
      let members := die :: second.toList
      let noSpare := members.filter fun x => decide (m.spares ≤ tgetD m.sparesUsed (m.dieOfMember (k % 2 ^ 32) x) 0)
      let hit := s.wordsOn k m.planes members
      let s1 := members.foldl (fun t x => retireBlock k x t) s
      let s2 := if !noSpare.isEmpty then
          { s1 with flash := { s1.flash with
              stripes := tmod s1.flash.stripes k fun st =>
                { st with closed := true, closedTb := s.tb, lostDies := st.lostDies ++ noSpare } } }
        else s1
      let record (cause cls : Nat) (t : State) : State :=
        recordErr (flashErr bay (die / 2) cause cls ((hit.map FlashWord.key).headD 0) d (m.blockNo (k % 2 ^ 32)) (s.erases m k)) t
      let s3 := match second with
        | none => record 0x0302 clsCorrected (rewriteWords k st.slc st.cls hit s2)
        | some _ =>
          let gone := (hit.filter fun w => !s.hasSource w).map FlashWord.key
          record 0x0303 clsContained (loseBlocks bay sn gone (rewriteWords k st.slc st.cls (hit.filter s.hasSource) s2))
      wearCheck sn s s3
  | _, _ => s

/-- PROGRAM_FAIL. -/
def execProgramFail (stripe die : Nat) (second : Option Nat) (s : State) : Res := live (programFail stripe die second) s

/-! ### FLASH_READ_COMPLETE -/

/-- Histogram bucket of a correction step (R298): the attempt that succeeded, as in `State.correction`. -/
def histBucket (attempt : Nat) : Nat :=
  if attempt = 0 then 0
  else if attempt ≤ 3 then 1 else if attempt ≤ 7 then 2 else if attempt ≤ 15 then 3
  else if attempt = 16 then 4 else if attempt = 17 then 5 else 6

/-- Count a code word in a magazine's read histogram, saturating (R303). -/
def Magazine.countRead (m : Magazine) (b : Nat) : Magazine :=
  let h := if m.hist.length < 8 then List.replicate 8 0 else m.hist
  { m with hist := h.set b (min (h.getD b 0 + 1) 0xFFFFFFFF) }

/-- Is a decoded code word the block that was requested (R282)? One that is not counts as an uncorrectable read. -/
def FlashRead.is (r : FlashRead) (volume block : Nat) : Bool := r.volume == volume && r.block == block && r.crc == crc32c r.data

/-- The attempt that gives a code word (R298): 0 the first read; 1 to 15 the read-retry offsets; 16 the soft decode of three reads at
the best offset; 17 the XOR of the other pages and the parity page, while parity is held; 18 none, the block is lost. `reads` gives
what each attempt decodes to. -/
def correction (parity : Bool) (volume block : Nat) (reads : List (Option FlashRead)) : Nat :=
  ((List.range 18).find? fun i => (i != 17 || parity) && (reads.getD i none).any fun r => r.is volume block).getD 18

/-- The operations of the attempts up to one: each read-retry offset is set and read, the best one three times. -/
def retryOps (bay place attempt : Nat) : List Output :=
  let one : List Output := [.flashOp .read bay place, .flashOp .readStatus bay place]
  let at_ (i : Nat) : List Output := .flashOp .setFeatures bay (place + i * 2 ^ 64) :: one
  one ++ ((List.range (min attempt 15)).map fun i => at_ (i + 1)).flatten ++ if 16 ≤ attempt then one ++ one ++ one else []

/-- May background work run on a magazine: state 3 or 4, or 5 before it quiesces, no freeze, no inhibit (R305, R308,
R434)? -/
def State.mayWork (s : State) (m : Magazine) : Bool := m.takesCommands && s.going && !s.flash.inhibit

/-- Relocate the blocks that were read with difficulty, as far as background work may run on their magazines (R298, R305). -/
def relocateWeak (s : State) : State :=
  let ready (key : Nat) : Option Magazine :=
    ((tget s.flash.volumes (key / 2 ^ 40)).bind s.volMag).bind fun bm => if s.mayWork bm.2 then some bm.2 else none
  let now := s.flash.weak.filter fun key => (ready key).isSome
  now.foldl (fun (t : State) (key : Nat) =>
    match ready key with
    | some m => if thas t.flash.copies key then t else startCopies m.sn (t.blockClass key) none [key] t
    | none => t)
    { s with flash := { s.flash with weak := s.flash.weak.filter fun key => (ready key).isNone } }

/-- A code word of a block is read, by R298. A weak read relocates the block in the background; a lost block records one error. -/
def flashReadComplete (volume block : Nat) (reads : List (Option FlashRead)) (s : State) : State :=
  let key := blockKey volume block
  match tget s.flash.volumes volume, tget s.flash.home key with
  | some v, some k =>
    match s.volMag v with
    | none => s
    | some (bay, m) =>
      let parity := ((tget s.flash.stripes k).map fun st => !st.parity.isEmpty).getD false
      let n := correction parity volume block reads
      let member := memberOf m.planes (s.wordIndex key)
      let die := m.dieOfMember (k % 2 ^ 32) member
      let s1 := emits (retryOps bay (m.flashPlace (k % 2 ^ 32) member) n)
        (modMag v.sn (fun m => m.countRead (histBucket n)) s)
      if n = 18 then
        recordErr (flashErr bay (member / 2) 0x0301 clsContained key die (m.blockNo (k % 2 ^ 32)) (s.erases m k))
          (loseBlocks bay v.sn [key] s1)
      else if 8 ≤ n then
        relocateWeak { s1 with flash := { s1.flash with weak := if key ∈ s1.flash.weak then s1.flash.weak else s1.flash.weak ++ [key] } }
      else s1
  | _, _ => s

/-- FLASH_READ_COMPLETE. -/
def execFlashReadComplete (volume block : Nat) (reads : List (Option FlashRead)) (s : State) : Res :=
  live (flashReadComplete volume block reads) s

/-! ### Background work -/

/-- A slice of background folding (R292): it starts at FOLD_START percent of the SLC capacity and stops at half of it; a
FOLD running or paused on the magazine holds it (R293). -/
def backgroundFold (bay units : Nat) (s0 : State) : State :=
  let s := relocateWeak s0
  match s.magAt bay with
  | none => s
  | some m =>
    let cap := s.slcCapacity bay m
    let startAt := cap * s.raw 0x07 bay 0x03 50 / 100
    let used := s.slcUsed m.sn
    let on := decide (m.sn ∈ s.flash.foldOn)
    if !s.mayWork m || !s.landing || s.ken.longOps.any (fun l => l.opcode == 0x0307 && l.target == uMagazine bay) then s
    else if !on && decide (used < startAt) then s
    else if on && decide (used ≤ startAt / 2) then
      { s with flash := { s.flash with foldOn := s.flash.foldOn.filter (· ≠ m.sn) } }
    else
      let s1 := wearCheck m.sn s (foldBlocks m.sn (min units (used - startAt / 2)) s)
      { s1 with flash := { s1.flash with foldOn := if on then s1.flash.foldOn else s1.flash.foldOn ++ [m.sn] } }

/-- BACKGROUND_FOLD. -/
def execBackgroundFold (magazine units : Nat) (s : State) : Res := live (backgroundFold magazine units) s

/-- Does the first victim beat the second: larger (1 − u) × a / (1 + u), then lower erase count, then lower number
(R296)? With v of n blocks valid the score is (n − v) × a / (n + v). -/
def betterVictim (x y : Nat × Nat × Nat × Nat × Nat) : Bool :=
  let (kx, vx, nx, ax, ex) := x
  let (ky, vy, ny, ay, ey) := y
  let sx := (nx - vx) * ax * (ny + vy)
  let sy := (ny - vy) * ay * (nx + vx)
  decide (sy < sx) || (sx == sy && (decide (ex < ey) || (ex == ey && decide (kx < ky))))

/-- Victim of garbage collection in a stripe group; a stripe with every block valid is never chosen (R296). The blocks of a stripe are
all that it has room for. -/
def State.victimOf (s : State) (m : Magazine) (group : Nat) : Option Nat :=
  let cands := (s.flash.stripes.filter fun kv =>
      stripeSn kv.1 == m.sn && kv.1 % 2 ^ 32 / max 1 m.perGroup == group && kv.2.closed
        && decide (s.validIn kv.1 < m.stripeWords kv.2.slc)).map fun kv =>
    (kv.1, s.validIn kv.1, m.stripeWords kv.2.slc, s.tb - kv.2.closedTb, s.erases m kv.1)
  (cands.foldl (fun o x => match o with
    | none => some x
    | some y => if betterVictim x y then some x else some y) none).map Prod.fst

/-- Relocate the current copies of a stripe into a class (R296, R297). -/
def relocateStripe (sn k cls : Nat) (s : State) : State :=
  let keys := ((s.flash.home.filter fun kv => kv.2 == k).map Prod.fst).filter fun key => !thas s.flash.copies key
  eraseEmpty sn (startCopies sn cls (some k) keys (flashReads keys s))

/-- One victim of garbage collection (R296): it runs from below GC_START free stripes until GC_STOP; relocation raises
the class by 1, up to 3 (R291). -/
def garbageCollection (bay group : Nat) (s0 : State) : State :=
  let s := relocateWeak s0
  match s.magAt bay with
  | none => s
  | some m =>
    let free := s.freeInGroup m group
    let id := m.sn * 256 + group
    let on := decide (id ∈ s.flash.gcOn)
    if !s.mayWork m then s
    else if !on && decide (s.raw 0x07 bay 0x04 16 ≤ free) then s
    else if on && decide (s.raw 0x07 bay 0x05 24 ≤ free) then
      { s with flash := { s.flash with gcOn := s.flash.gcOn.filter (· ≠ id) } }
    else
      match s.victimOf m group with
      | none => s
      | some k =>
        let cls := min 3 (((tget s.flash.stripes k).map Stripe.cls).getD 0 + 1)
        let s1 := wearCheck m.sn s (relocateStripe m.sn k cls s)
        { s1 with flash := { s1.flash with gcOn := if on then s1.flash.gcOn else s1.flash.gcOn ++ [id] } }

/-- GARBAGE_COLLECTION. -/
def execGarbageCollection (magazine group : Nat) (s : State) : Res := live (garbageCollection magazine group) s

/-- The class 3 closed stripe of a magazine with the smallest erase count (R296). -/
def State.coldest (s : State) (sn : Nat) : Option Nat :=
  ((s.flash.stripes.filter fun kv => stripeSn kv.1 == sn && kv.2.closed && kv.2.cls == 3).foldl
    (fun o kv => match o with
      | none => some kv.1
      | some k => if tgetD s.flash.wear kv.1 0 < tgetD s.flash.wear k 0 then some kv.1 else some k) none)

/-- Static wear levelling (R296): when erase counts differ by more than WEAR_SPREAD. -/
def staticWearLevelling (bay : Nat) (s : State) : State :=
  match s.magAt bay with
  | none => s
  | some m =>
    if s.mayWork m && decide (s.raw 0x07 bay 0x06 1000 < s.eraseMax m - s.eraseMin m) then
      match s.coldest m.sn with
      | none => s
      | some k => wearCheck m.sn s (relocateStripe m.sn k 3 s)
    else s

/-- STATIC_WEAR_LEVELLING. -/
def execStaticWearLevelling (magazine : Nat) (s : State) : Res := live (staticWearLevelling magazine) s

/-- Switch a block's mapping to its new copy, once the copy's stripe is verified; a WRITE or TRIM since has discarded the
copy (R297). -/
def relocationSwitch (volume block : Nat) (s : State) : State :=
  let key := blockKey volume block
  match tget s.flash.copies key with
  | none => s
  | some k =>
    if ((tget s.flash.stripes k).map fun st => st.closed && st.verified).getD false then
      let s1 := { s with flash := { s.flash with home := tput s.flash.home key k, copies := tdel s.flash.copies key } }
      wearCheck (stripeSn k) s (eraseEmpty (stripeSn k) s1)
    else s

/-- RELOCATION_SWITCH. -/
def execRelocationSwitch (volume block : Nat) (s : State) : Res := live (relocationSwitch volume block) s

/-- Interface training of a magazine's channels (R281). -/
def trainingOps (bay : Nat) (first : Bool) : List Output :=
  ((List.range 8).map fun ch =>
    (if first then [Output.flashOp .setFeatures bay ch, .flashOp .zqLong bay ch, .flashOp .dcc bay ch] else [.flashOp .zqShort bay ch])
      ++ [.flashOp .readDqTraining bay ch, .flashOp .writeDqTraining bay ch]).flatten

/-- Interface training of every magazine in use, every 100 ms (R281). -/
def interfaceRetrain (s : State) : State :=
  emits ((s.flash.magazines.filter fun kv => decide (2 ≤ kv.2.state ∧ kv.2.state ≤ 5)).map fun kv => trainingOps kv.1 false).flatten s

/-- INTERFACE_RETRAIN_TIMER. -/
def execInterfaceRetrainTimer (s : State) : Res := live interfaceRetrain s

/-! ### Supply sag -/

/-- INHIBIT_PCT (R312). -/
def State.inhibitPct (s : State) : Nat := s.raw 0x07 0x0100 0x01 95

/-- Every REEL_APPEND under way that satisfies `p` ends with a status, its blocks torn. -/
def failAppends (p : Cmd → Bool) (status : Nat) (s : State) : State :=
  (s.ken.cmds.filter fun c => s.appending c && p c).foldl
    (fun (t : State) (c : Cmd) => refuse c.pair c.cid status (tearReel c t)) s

/-- The program-inhibit condition sets (R305): event 0x0006, INHIBITS, WP#, and every WRITE and REEL_APPEND whose data is not yet
programmed ends with ST_SUPPLY_LOW. -/
def programInhibitSet (pwrWarn : Bool) (railPct : Nat) (s : State) : State :=
  let low := decide (railPct < s.inhibitPct)
  let s1 := { s with flash := { s.flash with pwrWarn := pwrWarn, railLow := low } }
  if (pwrWarn || low) && !s.flash.inhibit then
    let s2 := failWrites (fun _ => true) stSupplyLow (failAppends (fun _ => true) stSupplyLow s1)
    let s3 := bump 0x07 0x0100 0x03 { s2 with flash := { s2.flash with inhibit := true } }
    emit (.pin "WP#" 0) (raiseEvent 0x0006 uPackage (1 + 2 ^ 8) s3)
  else s1

/-- PROGRAM_INHIBIT_SET. -/
def execProgramInhibitSet (pwrWarn : Bool) (railPct : Nat) (s : State) : Res := live (programInhibitSet pwrWarn railPct) s

/-- The condition clears: PWR_WARN# deasserted and the rail above INHIBIT_PCT + 1 for 10 ms (R305). -/
def programInhibitClear (s : State) : State :=
  if s.flash.inhibit then
    let s1 := completeFlushes (emit (.pin "WP#" 1) (raiseEvent 0x0006 uPackage 1
      { s with flash := { s.flash with inhibit := false, pwrWarn := false, railLow := false } }))
    relocateWeak (s.flash.magazines.foldl (fun (t : State) (kv : Nat × Magazine) => wearCheck kv.2.sn t (eraseEmpty kv.2.sn t)) s1)
  else s

/-- PROGRAM_INHIBIT_CLEAR. -/
def execProgramInhibitClear (s : State) : Res := live programInhibitClear s

/-- The rail falls below ABORT_PCT: RESET LUN to every die with a program or erase in flight, which `busy` names as (magazine, die);
the aborted programs are made again from their sources, so no content changes (R306). -/
def flashAbort (railPct : Nat) (busy : List (Nat × Nat)) (s : State) : State :=
  if railPct < s.raw 0x07 0x0100 0x02 90 then emits (busy.map fun d => .flashOp .resetLun d.1 d.2) s else s

/-- FLASH_ABORT. -/
def execFlashAbort (railPct : Nat) (busy : List (Nat × Nat)) (s : State) : Res := live (flashAbort railPct busy) s

end Sys2Proof.Machine
end

