-- ==== Sys2Proof/Machine/Magazine.lean ====
section
/-! DEFINITION. Magazines as they come and go (R279, R280, R307 to R311, R486): presence, insertion, attended and commanded eject,
surprise removal and power faults. -/

namespace Sys2Proof.Machine

/-! ### Pins and events -/

/-- Event 0x0004 of a bay: 1 button, 2 cancelled, 3 safe to remove, 4 surprise removal, 5 inserted (R308, R310, R311). -/
def magEvent (bay kind : Nat) (s : State) : State := raiseEvent 0x0004 (uMagazine bay) (bay + kind % 16 * 2 ^ 8) s

/-- Event 0x0004 of a bay whose magazine failed: the manual gives [11:8] no code for it. -/
def failEvent (bay : Nat) (s : State) : State := tickFree (magEvent bay (Config.freeNat s.freeTick) s)

/-- Change the magazine of a bay, and its amber LED with it. -/
def modBay (bay : Nat) (f : Magazine → Magazine) (s : State) : State :=
  showAmber bay s { s with flash := { s.flash with magazines := tmod s.flash.magazines bay f } }

/-! ### Commands in flight -/

/-- Is a WRITE to the magazine's volumes still in flight? -/
def State.writesTo (s : State) (sn : Nat) (c : Cmd) : Bool := ((tget s.flash.volumes c.volume).map fun v => v.sn == sn).getD false

/-- The long operations that work on a bay's magazine have lost it: each ends at its next continuation (R309, R310). -/
def loseOps (bay : Nat) (s : State) : State :=
  { s with ken := { s.ken with
      longOps := s.ken.longOps.map fun l => if l.target = uMagazine bay then { l with removed := true } else l } }

/-- Every storage command in flight on a magazine's volumes ends with ST_MEDIA_REMOVED (R310). -/
def failCommands (sn : Nat) (s : State) : State :=
  let s0 := failAppends (fun c => ((tget s.flash.volumes c.reelVolume).map fun v => v.sn == sn).getD false) stMediaRemoved s
  let s1 := failWrites (s0.writesTo sn) stMediaRemoved s0
  (s1.ken.cmds.filter fun c => c.flushing && s1.writesTo sn c).foldl
    (fun (t : State) (c : Cmd) => refuse c.pair c.cid stMediaRemoved t) s1

/-! ### Insertion (R279, R280, R311) -/

/-- PRESENCE_RISE: an empty bay debounces. -/
def presenceRise (bay : Nat) (s : State) : State :=
  if thas s.flash.magazines bay || decide (bay ∈ s.flash.arriving) then s
  else { s with flash := { s.flash with arriving := s.flash.arriving ++ [bay] } }

/-- PRESENCE_RISE. -/
def execPresenceRise (magazine : Nat) (s : State) : Res := live (presenceRise magazine) s

/-- Are a magazine's dies what R279 asks for? -/
def geometryOk (dies : List Nat) (g : DieReport) : Bool :=
  let n := dies.headD 0
  dies.length == 8 && dies.all (· == n) && decide (2 ≤ n) && decide (n ≤ 16) && n % 2 == 0 && g.uniform && g.bitsPerCell == 4
    && g.slcMode && g.pageData == 16384 && decide (2048 ≤ g.pageSpare) && (g.planes == 2 || g.planes == 4) && g.luns == 1
    && decide (2 ^ 37 ≤ g.dieBytes) && decide (g.dieBytes ≤ 2 ^ 39)

/-- The magazine that an image describes, initialising. -/
def freshMagazine (sn n : Nat) (g : DieReport) (rates : List Nat) (i : MagImage) : Magazine where
  sn := sn
  state := 1
  powered := true
  prior := 0
  ejecting := false
  ejectBy := none
  quiescing := false
  formatted := i.formatted
  geo := g
  diesPerChannel := n
  userBlocks := i.userBlocks
  spares := i.spares
  sparesUsed := i.sparesUsed
  rates := rates
  hostWritten := 0
  flashWritten := 0
  retired := 0
  lost := 0
  hist := []
  wsn := 0
  formats := 0

/-- Put a magazine in a bay: one that this node knows comes back with all it had, but for its histogram (R303). -/
def placeMagazine (bay n : Nat) (g : DieReport) (rates : List Nat) (i : MagImage) (s : State) : State :=
  showAmber bay s (match i.known.bind fun sn => s.flash.away.find? fun m => m.sn == sn with
  | some m =>
    { s with flash := { s.flash with
      away := s.flash.away.filter fun x => x.sn != m.sn
      magazines := tput s.flash.magazines bay { m with state := 1, powered := true, rates := rates, hist := [] } } }
  | none =>
    { s with flash := { s.flash with
      nextSn := s.flash.nextSn + 1
      magazines := tput s.flash.magazines bay (freshMagazine s.flash.nextSn n g rates i)
      incoming := tput s.flash.incoming bay i } })

/-- Channels that failed training at every rate leave service (R280). -/
def failChannels (bay : Nat) (rates : List Nat) (s : State) : State :=
  (List.range 8).foldl (fun (t : State) (i : Nat) =>
    if rates.getD i 0 = 0 then
      let u := uChannel (8 * bay + i)
      recordErr (plainErr u 0x0307 clsUnitFatal 2 u 0 0) t
    else t) s

/-- A magazine fails: state 7. Commands in flight on it end (R287). -/
def failMagazine (bay : Nat) (s : State) : State :=
  match s.magAt bay with
  | none => s
  | some m => modBay bay (fun m => { m with state := 7 }) (failCommands m.sn (loseOps bay s))

/-- Rates of a magazine's 8 channels, as codes 0 to 3; a channel that is retired trains at none. -/
def State.fitRates (s : State) (bay : Nat) (l : List Nat) : List Nat :=
  (List.range 8).map fun i => if uChannel (8 * bay + i) ∈ s.ftest.retired then 0 else min (l.getD i 0) 3

/-- What an insertion sends to a magazine's dies (R281, R311): in SDR timing mode 0 a reset, the identifiers and the parameter page of
each die, which a VOLUME SELECT addresses; where they are accepted, the switch to NV-LPDDR4 and the training of each channel. -/
def insertionOps (bay n : Nat) (accepted : Bool) : List Output :=
  ((List.range 8).map fun ch => ((List.range n).map fun d =>
    [FlashOp.volumeSelect, .reset, .readId, .readParameterPage, .readUniqueId, .setFeatures, .getFeatures].map fun o =>
      Output.flashOp o bay ((ch * n + d) * 2 ^ 32)).flatten).flatten
    ++ if accepted then trainingOps bay true else []

/-- INSERTION_DEBOUNCE: power, checks and training. From boot stage 5 on only; a fault at insertion keeps PWR_EN low (R486). -/
def insertionDebounce (bay : Nat) (present fault : Bool) (dies : List Nat) (g : DieReport) (rates : List Nat) (i : MagImage)
    (s : State) : State :=
  if bay ∉ s.flash.arriving ∨ s.ken.bootStage < 5 then s
  else
    let s0 := { s with flash := { s.flash with arriving := s.flash.arriving.filter (· ≠ bay) } }
    if !present then s0
    else
      let s1 := placeMagazine bay (dies.headD 0) g (s.fitRates bay rates) i s0
      if fault then failEvent bay (modBay bay (fun m => { m with state := 7, powered := false }) s1)
      else
        let s2 := emits (insertionOps bay (dies.headD 0) (geometryOk dies g)) (magPin "LED_G" bay 3 (magPin "PWR_EN" bay 1 s1))
        if !geometryOk dies g then
          recordErr (plainErr (uMagazine bay) 0x0305 clsUnitFatal 2 (uMagazine bay) 0 0) (failEvent bay (failMagazine bay s2))
        else if (s.fitRates bay rates).any (· == 0) then failMagazine bay (failChannels bay (s.fitRates bay rates) s2)
        else s2

/-- INSERTION_DEBOUNCE. -/
def execInsertionDebounce (magazine : Nat) (stillPresent fault : Bool) (diesPerChannel : List Nat) (report : DieReport)
    (channelRates : List Nat) (image : MagImage) (s : State) : Res :=
  live (insertionDebounce magazine stillPresent fault diesPerChannel report channelRates image) s

/-- Volumes of an image whose numbers no other volume holds. -/
def State.bringable (s : State) (i : MagImage) : List (Nat × Nat × Bool) :=
  i.volumes.filter fun v => !thas s.flash.volumes v.1

/-- Place the blocks that a foreign magazine brings, in closed and verified stripes of `n` blocks. -/
def placeImage (sn n : Nat) : Nat → List (Nat × Bytes) → State → State
  | 0, _, s => s
  | fuel + 1, content, s =>
    let part := content.take n
    if part.isEmpty then s
    else
      let base := ((s.magOf sn).map fun bm => bm.2.wsn).getD 0
      let words := part.zipIdx.map fun p =>
        ({ key := p.1.1, wsn := base + 1 + p.2, cls := 0, crc := crc32c (fitTo 4096 p.1.2), src := none } : FlashWord)
      match takeStripe sn 0 { newStripe false 0 with closed := true, verified := true, closedTb := s.tb, held := words } s with
      | none => s
      | some o =>
        placeImage sn n fuel (content.drop n) (modMag sn (fun m => { m with wsn := base + part.length })
          { o.2 with flash := { o.2.flash with
              blocks := part.foldl (fun t kv => tputD t kv.1 (fitTo 4096 kv.2) zeroBlock) o.2.flash.blocks
              home := part.foldl (fun t kv => tput t kv.1 o.1) o.2.flash.home } })

/-- Bring a foreign magazine's volumes, blocks and reels. -/
def bringImage (bay sn : Nat) (i : MagImage) (s : State) : State :=
  let vs := s.bringable i
  let ours (v : Nat) : Bool := vs.any fun x => x.1 == v
  let content := i.content.filter fun kv => ours (kv.1 / 2 ^ 40)
  let addVol (t : Table Volume) (v : Nat × Nat × Bool) : Table Volume :=
    tput t v.1 { sn := sn, bay := bay, blocks := v.2.1, readOnly := v.2.2 }
  let addReel (t : Table Reel) (kv : Nat × Reel) : Table Reel := tput t kv.1 kv.2
  let reels := i.reels.filter fun kv => ours (kv.1 / 2 ^ 32)
  let s1 := { s with
    flash := { s.flash with volumes := vs.foldl addVol s.flash.volumes }
    cat := { s.cat with reels := reels.foldl addReel s.cat.reels } }
  placeImage sn (((s.magOf sn).map fun bm => bm.2.stripeWords false).getD 1) content.length content s1

/-- Key of a magazine's lifetime counter in `periodOff`: 0 to 7 its read histogram, 8 lost blocks, 9 retired blocks. -/
def magPeriodKey (sn k : Nat) : Nat := 2 ^ 40 + sn * 16 + k

/-- A magazine's lifetime counters. -/
def Magazine.lifetimes (m : Magazine) : List Nat := ((List.range 8).map fun k => m.hist.getD k 0) ++ [m.lost, m.retired]

/-- Let the dailies reports count a magazine's lifetime counters from here, unless they count it already (R442). -/
def countFrom (m : Magazine) (s : State) : State :=
  if thas s.obs.periodOff (magPeriodKey m.sn 0) then s
  else
    { s with obs := { s.obs with
        periodOff := m.lifetimes.zipIdx.foldl
          (fun (t : Table Int) (x : Nat × Nat) => tput t (magPeriodKey m.sn x.2) (-(x.1 : Int))) s.obs.periodOff } }

/-- Samples on a magazine that comes back are fetched again from the next batch whose production starts (R311). -/
def fetchAgain (sn : Nat) (s : State) : State :=
  { s with pipes := s.pipes.map fun kv =>
      (kv.1, if kv.2.active then { kv.2 with back := tput kv.2.back sn kv.2.started } else kv.2) }

/-- MAGAZINE_READY: state 2, 3 or 4; state 7 where a volume's number is taken (R311). -/
def magazineReady (bay : Nat) (s : State) : State :=
  match s.magAt bay with
  | none => s
  | some m =>
    if m.state ≠ 1 then s
    else
      let i := tget s.flash.incoming bay
      let s := { s with flash := { s.flash with
        volumes := tmapv s.flash.volumes fun _ v => if v.sn == m.sn then { v with bay := bay } else v } }
      let clash := i.any fun x => (s.bringable x).length != x.volumes.length
      let s1 := match i with
        | some x => bringImage bay m.sn x { s with flash := { s.flash with incoming := tdel s.flash.incoming bay } }
        | none => s
      if clash then failEvent bay (failMagazine bay s1)
      else
        let st := if !m.formatted then 2 else if m.sparePct ≤ 2 then 4 else 3
        enterService (uMagazine bay) (magEvent bay 5 (magPin "LED_G" bay 1 (modBay bay (fun m => { m with state := st })
          (countFrom m (fetchAgain m.sn s1)))))

/-- MAGAZINE_READY. -/
def execMagazineReady (magazine : Nat) (s : State) : Res := live (magazineReady magazine) s

/-! ### Eject (R308, R309) -/

/-- ATTENTION_BUTTON: starts an eject, or cancels one within its window; ignored while quiescing. -/
def attentionButton (bay : Nat) (s : State) : State :=
  match s.magAt bay with
  | none => s
  | some m =>
    if m.state = 3 ∨ m.state = 4 then
      magPin "LED_G" bay 2 (magEvent bay 1 (modBay bay (fun m => { m with state := 5, prior := m.state, ejecting := true }) s))
    else if m.state = 5 ∧ !m.quiescing then
      magPin "LED_G" bay 1 (magEvent bay 2 (modBay bay (fun m => { m with state := m.prior, ejecting := false }) s))
    else s

/-- ATTENTION_BUTTON. -/
def execAttentionButton (magazine : Nat) (s : State) : Res := live (attentionButton magazine) s

/-- Quiescing begins: the magazine's volumes refuse new commands, its paused operations are lost, and it leaves service (R308, R309). -/
def quiesce (bay : Nat) (s : State) : State :=
  departService (uMagazine bay) (magPin "LED_G" bay 3 (modBay bay (fun m => { m with quiescing := true }) (loseOps bay s)))

/-- EJECT_WINDOW_EXPIRY. -/
def ejectWindowExpiry (bay : Nat) (s : State) : State :=
  match s.magAt bay with
  | some m => if m.state = 5 ∧ !m.quiescing then quiesce bay s else s
  | none => s

/-- EJECT_WINDOW_EXPIRY. -/
def execEjectWindowExpiry (magazine : Nat) (s : State) : Res := live (ejectWindowExpiry magazine) s

/-- MAGAZINE_EJECT: the same eject without the cancellation window; its completion waits for state 6. -/
def magazineEject (c : Cmd) (s : State) : State :=
  match s.magAt (c.p8 32) with
  | none => refuse c.pair c.cid (if 7 < c.p8 32 then stInvalidField else stPrecondition) s
  | some m =>
    if m.state = 5 then refuse c.pair c.cid stBusy s
    else if m.state ≠ 3 ∧ m.state ≠ 4 then refuse c.pair c.cid stPrecondition s
    else quiesce (c.p8 32) (markRunning c.pair c.cid (modBay (c.p8 32) (fun m =>
      { m with state := 5, prior := m.state, ejecting := true, ejectBy := some (c.pair, c.cid) }) s))

/-- MAGAZINE_EJECT. -/
def execMagazineEject (pair cid : Nat) (s : State) : Res := live (runCmd 0x0309 pair cid magazineEject) s

/-- Pad and close every open stripe of a magazine. -/
def closeAll (sn : Nat) (s : State) : State :=
  ((s.flash.stripes.filter fun kv => stripeSn kv.1 == sn && !kv.2.closed).map Prod.fst).foldl
    (fun (t : State) (k : Nat) => closeStripe k t) s

/-- Is every stripe of a magazine closed and verified? -/
def State.allVerified (s : State) (sn : Nat) : Bool :=
  s.flash.stripes.all fun kv => stripeSn kv.1 != sn || (kv.2.closed && kv.2.verified)

/-- The magazine is powered off: state 6; the eject that a command started completes. -/
def powerOff (bay : Nat) (m : Magazine) (s : State) : State :=
  let s1 := magPin "PWR_EN" bay 0 (magPin "LED_G" bay 0 (magEvent bay 3 (modBay bay (fun m =>
    { m with state := 6, powered := false, ejecting := false, quiescing := false, ejectBy := none }) s)))
  match m.ejectBy with
  | some (pair, cid) => finishPlain pair cid stOk s1
  | none => s1

/-- EJECT_POWER_OFF: commands in flight have run to completion and no inhibit holds. Open stripes are padded and closed; once every
stripe is verified, the magazine is powered off. -/
def ejectPowerOff (bay : Nat) (s : State) : State :=
  match s.magAt bay with
  | some m =>
    if m.state = 5 ∧ m.quiescing ∧ !s.flash.inhibit ∧ !(s.ken.cmds.any fun c => c.writing && s.writesTo m.sn c) then
      if s.allVerified m.sn then powerOff bay m s else closeAll m.sn s
    else s
  | none => s

/-- EJECT_POWER_OFF. -/
def execEjectPowerOff (magazine : Nat) (s : State) : Res := live (ejectPowerOff magazine) s

/-- EJECT_INHIBIT_TIMEOUT: powered off with its stripes open; a command that still waits on them ends (R287). -/
def ejectInhibitTimeout (bay : Nat) (s : State) : State :=
  match s.magAt bay with
  | some m => if m.state = 5 ∧ m.quiescing ∧ s.flash.inhibit then powerOff bay m (failCommands m.sn s) else s
  | none => s

/-- EJECT_INHIBIT_TIMEOUT. -/
def execEjectInhibitTimeout (magazine : Nat) (s : State) : Res := live (ejectInhibitTimeout magazine) s

/-! ### Removal (R310, R311, R486) -/

/-- The magazine leaves its bay; the node keeps what it knows of it. -/
def takeAway (bay : Nat) (m : Magazine) (s : State) : State :=
  { s with flash := { s.flash with
    magazines := tdel s.flash.magazines bay
    incoming := tdel s.flash.incoming bay
    away := s.flash.away ++ [{ m with
      state := 0
      powered := false
      ejecting := false
      quiescing := false
      ejectBy := none }] } }

/-- A surprise removal's effects: channels stop, commands end, events 0x0004 and 0x0001, one record. -/
def surprise (bay : Nat) (m : Magazine) (s : State) : State :=
  let s1 := failCommands m.sn (magPin "PWR_EN" bay 0 (emit (.flashOp .stop bay 0) (loseOps bay s)))
  let s2 := match m.ejectBy with
    | some (pair, cid) => refuse pair cid stMediaRemoved s1
    | none => s1
  recordErr (plainErr (uMagazine bay) 0x0306 clsUnitFatal 2 (uMagazine bay) 0 0) (magEvent bay 4 s2)

/-- SURPRISE_REMOVAL: presence falls on a magazine not in state 6. -/
def surpriseRemoval (bay : Nat) (s : State) : State :=
  match s.magAt bay with
  | some m =>
    if m.state = 6 then s else magPin "LED_G" bay 0 (showAmber bay s (takeAway bay m (surprise bay m s)))
  | none => s

/-- SURPRISE_REMOVAL. -/
def execSurpriseRemoval (magazine : Nat) (s : State) : Res := live (surpriseRemoval magazine) s

/-- MAGAZINE_POWER_FAULT: as a surprise removal, and the magazine, still in its bay, fails (R486). -/
def magazinePowerFault (bay : Nat) (s : State) : State :=
  match s.magAt bay with
  | some m =>
    if m.powered then
      modBay bay (fun m => { m with state := 7, powered := false, ejecting := false, quiescing := false, ejectBy := none })
        (surprise bay m s)
    else s
  | none => s

/-- MAGAZINE_POWER_FAULT. -/
def execMagazinePowerFault (magazine : Nat) (s : State) : Res := live (magazinePowerFault magazine) s

/-- SAFE_REMOVAL: presence falls in state 6, or during the debounce: the bay is empty. -/
def safeRemoval (bay : Nat) (s : State) : State :=
  if bay ∈ s.flash.arriving then { s with flash := { s.flash with arriving := s.flash.arriving.filter (· ≠ bay) } }
  else match s.magAt bay with
    | some m => if m.state = 6 then takeAway bay m s else s
    | none => s

/-- SAFE_REMOVAL. -/
def execSafeRemoval (magazine : Nat) (s : State) : Res := live (safeRemoval magazine) s

end Sys2Proof.Machine
end

