-- ==== Sys2Proof/Machine/Resets.lean ====
section
/-! DEFINITION. Ending commands early: RESET_RING_PAIR (R53, R54) and the controller reset (R37). -/

namespace Sys2Proof.Machine

/-! ### What a command leaves when it is ended -/

/-- The pair of a command that no ring holds: it stands for a command that has been ended. -/
def noPair : Nat := 256

/-- Forget that a command waits for something: a stop is withdrawn (R140), a checkpoint is not made, a release, a revocation
and an ejection go on without their command. -/
def forgetWaits (pair cid : Nat) (s : State) : State :=
  let me : Option (Nat × Nat) := some (pair, cid)
  let stops := (s.pipes.filter fun kv => kv.2.stop.any fun x => x.pair == pair && x.cid == cid).map Prod.fst
  let s1 := stops.foldl (fun (t : State) (k : Nat) => withdrawStop k t) s
  let region (g : Region) : Region := if g.revoking = me then { g with revoking := some (noPair, 0) } else g
  let mag (m : Magazine) : Magazine := if m.ejectBy = me then { m with ejectBy := none } else m
  let pipe (p : Pipeline) : Pipeline :=
    { p with checkpoints := p.checkpoints.filter fun x => !(x.1 == pair && x.2.1 == cid) }
  { s1 with
    pipes := tmapv s1.pipes fun _ p => pipe p
    clap := { s1.clap with held := if s1.clap.held = me then none else s1.clap.held }
    rdma := { s1.rdma with regions := tmapv s1.rdma.regions fun _ g => region g }
    flash := { s1.flash with magazines := tmapv s1.flash.magazines fun _ m => mag m } }

/-- End an unfinished command: a WRITE or REEL_APPEND in flight leaves each block old or new (R54). -/
def endCmd (c : Cmd) (s : State) : State :=
  forgetWaits c.pair c.cid (if c.writing then tearWrite c s else tearReel c s)

/-- End what a pair has under way beside its commands: its paused long operations, whose handles become invalid, and the loads
that belong to it (R53, R58, R83). -/
def endPairWork (pair : Nat) (s : State) : State :=
  { s with
    ken := { s.ken with longOps := s.ken.longOps.filter fun l => l.pair != pair }
    cat := { s.cat with staged := tfilter s.cat.staged fun _ g => g.pair != pair } }

/-! ### RESET_RING_PAIR (R53) -/

/-- Steps 1, 2 and 4, and the end of the pair's unfinished commands: fetching stops, none starts any more, each unfinished one
is finished with ST_ABORTED. -/
def beginReset (pair : Nat) (s : State) : State :=
  let open_ := (s.outstanding pair).filter fun c => c.phase != .finished
  let s1 := open_.foldl (fun (t : State) (c : Cmd) => refuse c.pair c.cid stAborted (endCmd c t)) s
  endPairWork pair (modRing pair (fun r => { r with stopped := true, resetLost := some 0 }) s1)

/-- Place a command in CMD_ID order. -/
def insertCmd (c : Cmd) : List Cmd → List Cmd
  | [] => [c]
  | x :: t => if c.cid ≤ x.cid then c :: x :: t else x :: insertCmd c t

/-- A pair's commands in ascending CMD_ID order. -/
def State.byCid (s : State) (pair : Nat) : List Cmd := (s.outstanding pair).foldr insertCmd []

/-- Write, or lose, the completions of step 3, while the completion ring has room. -/
def writeAborted (pair : Nat) (lost : List Nat) : List Cmd → State → State
  | [], s => s
  | c :: t, s =>
    match tget s.ken.rings pair with
    | none => s
    | some r =>
      if r.cqFree = 0 then s
      else
        let s1 := onWritten c (retireCmd c s)
        writeAborted pair lost t
          (if c.cid ∈ lost then ringError pair 3 (modRing pair (fun r => { r with resetLost := r.resetLost.map (· + 1) }) s1)
          else
            signalPair pair (modRing pair RingPair.advance
              (emit (.pcieWrite (s.entryVia pair) (r.cqBase + 32 * r.cqTail) (completionEntry c r)) s1)))

/-- The pair as a new pair (step 5): its parameters stay, and so do completions not yet signalled. -/
def RingPair.renewed (r : RingPair) : RingPair :=
  { newRing r.storage r.fence r.sqBase r.cqBase r.sqLog2 r.cqLog2 r.vector r.coalC r.coalT with unsignalled := r.unsignalled }

/-- RESET_RING_PAIR. `lost`: the CMD_IDs whose completion write meets a PCIe error. While the completion ring is full the
command goes on waiting. -/
def resetRingPair (lost : List Nat) (c : Cmd) (s : State) : State :=
  let pair := c.p8 32
  if pair = 0 then refuse c.pair c.cid stInvalidField s
  else
    match tget s.ken.rings pair with
    | none => refuse c.pair c.cid stPrecondition s
    | some r =>
      let s1 := if r.resetLost.isSome then s else beginReset pair s
      let s2 := writeAborted pair lost (s1.byCid pair) s1
      if (s2.outstanding pair).isEmpty then
        finish c.pair c.cid stOk (((tget s2.ken.rings pair).bind RingPair.resetLost).getD 0 % 2 ^ 16)
          (modRing pair RingPair.renewed s2)
      else s2

/-- RESET_RING_PAIR. -/
def execResetRingPair (pair cid : Nat) (lost : List Nat) (s : State) : Res :=
  live (runCmd 0x0003 pair cid (resetRingPair lost)) s

/-! ### The controller reset (R37) -/

/-- The controller reset: every outstanding command ends without a completion, every pair but pair 0 is deleted, every handle
and load is gone, RDY is 0. -/
def controllerReset (s : State) : State :=
  let open_ := s.ken.cmds.filter fun c => c.phase != .finished
  let s1 := s.ken.cmds.foldl (fun (t : State) (c : Cmd) => dropPending c.ord t)
    (open_.foldl (fun (t : State) (c : Cmd) => endCmd c t) s)
  { s1 with
    ken := { s1.ken with
      en := false
      rdy := false
      cmds := []
      longOps := []
      rings := tfilter s1.ken.rings fun k _ => k == 0 }
    cat := { s1.cat with staged := [] } }

/-- CONTROLLER_RESET: CTRL.EN written from 1 to 0 on sub-link 0 (R31, R37). -/
def execControllerReset (sub : Nat) (s : State) : Res :=
  live (whenB (s.barUp && sub == 0 && s.ken.en) controllerReset) s

end Sys2Proof.Machine
end

