-- ==== Sys2Proof/Machine/Bar.lean ====
section
/-! DEFINITION. BAR0 (R33 to R36, R488): the register file that a sub-link's software reads and writes. An access is an aligned
one of 4 or 8 bytes; an 8-byte access is its two halves. -/

namespace Sys2Proof.Machine

/-! ### The layout (R33) -/

/-- Index of the package's share that a sub-link has, minus 1, of `n`. -/
def State.share (s : State) (n : Nat) : Nat := n / s.sublinks - 1

/-- ID. -/
def State.regId (s : State) : Nat :=
  0x0900 + 0x00A1 * 2 ^ 16 + Config.kenletMinor s.firmware % 256 * 2 ^ 32 + Config.kenletMajor s.firmware % 256 * 2 ^ 40

/-- CAP, as a sub-link reads it. -/
def State.regCap (s : State) (sub : Nat) : Nat :=
  s.share Config.ringPairs + 16 * 2 ^ 8 + 4 * 2 ^ 13 + s.share Config.vectors * 2 ^ 16
    + (if s.ken.bifMode = 3 then 0 else s.ken.bifMode % 4) * 2 ^ 25 + sub % 8 * 2 ^ 27 + Config.storageTags * 2 ^ 32
    + 125 * 2 ^ 40

/-- STATUS. -/
def State.regStatus (s : State) : Nat :=
  (if s.ken.rdy then 1 else 0) + (if s.ken.fatal then 2 else 0) + (if s.ken.frozen then 4 else 0)
    + (if s.ken.booted then 8 else 0) + s.ken.bootStage % 16 * 16

/-- ADM_DEPTH. -/
def State.regDepth (s : State) : Nat := s.ken.admSqLog2 % 32 + s.ken.admCqLog2 % 32 * 2 ^ 16

/-- The 32 bits that a read of a BAR0 offset returns through a sub-link; TIMEBASE, REFUSAL and RING_ERROR have effects of their own.
A doorbell reads 0, and so does a table entry outside the sub-link's share (R31). -/
def State.regRead (s : State) (sub off : Nat) : Nat :=
  match off with
  | 0x0000 => s.regId % 2 ^ 32
  | 0x0004 => s.regId / 2 ^ 32
  | 0x0008 => s.regCap sub % 2 ^ 32
  | 0x000C => s.regCap sub / 2 ^ 32
  | 0x0010 => if s.ken.en then 1 else 0
  | 0x0014 => s.regStatus
  | 0x0018 => s.regDepth
  | 0x0020 => s.ken.admSqBase.toNat % 2 ^ 32
  | 0x0024 => s.ken.admSqBase.toNat / 2 ^ 32
  | 0x0028 => s.ken.admCqBase.toNat % 2 ^ 32
  | 0x002C => s.ken.admCqBase.toNat / 2 ^ 32
  | 0x0030 => s.ken.evStatus.toNat
  | 0x0034 => s.ken.evMask.toNat
  | 0x0038 => s.ken.refusal.toNat
  | 0x003C => s.ken.ringError.toNat
  | 0x0040 => s.tb % 2 ^ 32
  | 0x0044 => s.tb / 2 ^ 32
  | 0x0048 => s.ken.fatalInfo.toNat % 2 ^ 32
  | 0x004C => s.ken.fatalInfo.toNat / 2 ^ 32
  | o =>
    if 0x2000 ≤ o ∧ o < 0x4000 ∧ s.vectorSublink ((o - 0x2000) / 16) = sub then
      (tgetD s.ken.msixTable ((o - 0x2000) / 4) (if (o - 0x2000) / 4 % 4 = 3 then 1 else 0)).toNat
    else if 0x4000 ≤ o ∧ o < 0x4040 then
      ((List.range 32).map fun i =>
        let v := (o - 0x4000) * 8 + i
        if v ∈ s.ken.msixPba ∧ s.vectorSublink v = sub then 2 ^ i else 0).sum
    else 0

/-! ### Reads with an effect -/

/-- REFUSAL_READ: the register is returned, then cleared. -/
def refusalRead (s : State) : State :=
  { emit (.readReturn s.ken.refusal.toNat) s with ken := { s.ken with refusal := 0 } }

/-- REFUSAL_READ, on any sub-link (R31). -/
def execRefusalRead (sub : Nat) (s : State) : Res := live (whenB (s.barUp && decide (sub < s.sublinks)) refusalRead) s

/-- RING_ERROR_READ: the register is returned, then cleared. -/
def ringErrorRead (s : State) : State :=
  { emit (.readReturn s.ken.ringError.toNat) s with ken := { s.ken with ringError := 0 } }

/-- RING_ERROR_READ. -/
def execRingErrorRead (sub : Nat) (s : State) : Res :=
  live (whenB (s.barUp && decide (sub < s.sublinks)) ringErrorRead) s

/-- A read of TIMEBASE (R35): 64 bits at once; 32 bits at 0x0040 latch the upper half, which 0x0044 then returns once. -/
def timebaseRead (sub off size : Nat) (s : State) : State :=
  if size = 8 ∧ off = 0x0040 then emit (.readReturn s.tb) s
  else if off = 0x0040 then
    { emit (.readReturn (s.tb % 2 ^ 32)) s with ken := { s.ken with tbLatch := tput s.ken.tbLatch sub (s.tb / 2 ^ 32) } }
  else
    { emit (.readReturn (tgetD s.ken.tbLatch sub (s.tb / 2 ^ 32))) s with
      ken := { s.ken with tbLatch := tdel s.ken.tbLatch sub } }

/-- TIMEBASE_READ. -/
def execTimebaseRead (sub off size : Nat) (s : State) : Res :=
  live (whenB (s.barUp && decide (sub < s.sublinks) && (off == 0x0040 || (off == 0x0044 && size != 8)))
    (timebaseRead sub off size)) s

/-! ### Writes -/

/-- A refused write (R34). -/
def refuseWrite (off status : Nat) (s : State) : State :=
  { s with ken := { s.ken with refusal := BitVec.ofNat 32 (off % 2 ^ 16 + status % 2 ^ 15 * 2 ^ 16 + 2 ^ 31) } }

/-- Serve ring pair 0 as a new ring, from the admin registers (R36, R43). -/
def serveAdmin (s : State) : State :=
  { s with ken := { s.ken with
      rdy := true
      rings := tput s.ken.rings 0
        (newRing false false s.ken.admSqBase.toNat s.ken.admCqBase.toNat s.ken.admSqLog2 s.ken.admCqLog2 0 0 0) } }

/-- CTRL.EN from 0 to 1: it takes effect while BOOTED is 1 (R36). -/
def enable (s : State) : State :=
  let s1 := { s with ken := { s.ken with en := true } }
  if s.ken.booted then serveAdmin s1 else s1

/-- CTRL_ENABLE, on sub-link 0. -/
def execCtrlEnable (sub : Nat) (s : State) : Res := live (whenB (s.barUp && sub == 0 && !s.ken.en) enable) s

/-- A write of ADM_DEPTH made at an offset (R34). -/
def admDepth (off : Nat) (v : BitVec 32) (s : State) : State :=
  let sq := bits v.toNat 4 0
  let cq := bits v.toNat 20 16
  if s.ken.en then refuseWrite off stCfgBusy s
  else if sq < 4 ∨ 16 < sq ∨ cq < 4 ∨ 16 < cq then refuseWrite off stInvalidField s
  else { s with ken := { s.ken with admSqLog2 := sq, admCqLog2 := cq } }

/-- ADM_DEPTH_WRITE, on sub-link 0. -/
def execAdmDepthWrite (sub : Nat) (v : BitVec 32) (s : State) : Res :=
  live (whenB (s.barUp && sub == 0) (admDepth 0x0018 v)) s

/-- A W1C write of EVENT_STATUS (R488). EVENT_PENDING stays 1 while an event is queued (R55). -/
def eventStatusWrite (v : BitVec 32) (s : State) : State :=
  let kept := s.ken.evStatus &&& ~~~ v.setWidth 5
  let held := if s.ken.events.isEmpty then kept else kept ||| (s.ken.evStatus &&& evPending)
  { s with ken := { s.ken with evStatus := held } }

/-- EVENT_STATUS_WRITE, on any sub-link (R31). -/
def execEventStatusWrite (sub : Nat) (v : BitVec 32) (s : State) : Res :=
  live (whenB (s.barUp && decide (sub < s.sublinks)) (eventStatusWrite v)) s

/-- A write of EVENT_MASK: a mask bit cleared while its status bit is 1 fires vector 0 (R488). -/
def eventMaskWrite (v : BitVec 32) (s : State) : State :=
  let m := v.setWidth 5
  let s1 := { s with ken := { s.ken with evMask := m } }
  if s.ken.evStatus &&& s.ken.evMask &&& ~~~ m = 0 then s1 else fireVector 0 s1

/-- EVENT_MASK_WRITE. -/
def execEventMaskWrite (sub : Nat) (v : BitVec 32) (s : State) : Res :=
  live (whenB (s.barUp && decide (sub < s.sublinks)) (eventMaskWrite v)) s

/-- Half `hi` of a ring base takes a value; bits [11:0] are reserved (R33). -/
def baseHalf (old : BitVec 64) (hi : Bool) (v : BitVec 32) : BitVec 64 :=
  if hi then BitVec.ofNat 64 (old.toNat % 2 ^ 32 + v.toNat * 2 ^ 32)
  else BitVec.ofNat 64 (old.toNat / 2 ^ 32 * 2 ^ 32 + v.toNat / 4096 * 4096)

/-- A write of 32 bits into the MSI-X table, inside the sub-link's share (R31). Of Vector Control, bit 0 is stored; unmasking a
vector that is pending sends it (R488, the PCIe rule). -/
def msixWrite (sub off : Nat) (v : BitVec 32) (s : State) : State :=
  let k := (off - 0x2000) / 4
  let vec := k / 4
  if s.vectorSublink vec ≠ sub then s
  else
    let s1 := { s with ken := { s.ken with msixTable := tput s.ken.msixTable k (if k % 4 = 3 then v &&& 1 else v) } }
    if k % 4 = 3 ∧ v.getLsbD 0 = false ∧ vec ∈ s.ken.msixPba then
      fireVector vec { s1 with ken := { s1.ken with msixPba := s1.ken.msixPba.filter (· ≠ vec) } }
    else s1

/-- A write of the 32 bits at an offset, as part of an access that starts at `at_`. Offsets that are read-only or not listed
ignore it (R33); a class I field is refused while EN is 1 (R34); only sub-link 0 writes CTRL and the admin registers (R31). -/
def regWrite (sub at_ off : Nat) (v : BitVec 32) (s : State) : State :=
  if off = 0x0010 then
    if sub ≠ 0 ∨ v.getLsbD 0 = s.ken.en then s else if v.getLsbD 0 then enable s else controllerReset s
  else if off = 0x0018 then (if sub = 0 then admDepth at_ v s else s)
  else if off = 0x0020 ∨ off = 0x0024 then
    if sub ≠ 0 then s
    else if s.ken.en then refuseWrite at_ stCfgBusy s
    else { s with ken := { s.ken with admSqBase := baseHalf s.ken.admSqBase (off == 0x0024) v } }
  else if off = 0x0028 ∨ off = 0x002C then
    if sub ≠ 0 then s
    else if s.ken.en then refuseWrite at_ stCfgBusy s
    else { s with ken := { s.ken with admCqBase := baseHalf s.ken.admCqBase (off == 0x002C) v } }
  else if off = 0x0030 then eventStatusWrite v s
  else if off = 0x0034 then eventMaskWrite v s
  else if 0x1000 ≤ off ∧ off < 0x1800 then
    if off % 8 = 0 then sqTailWrite sub ((off - 0x1000) / 8) v s else cqHeadWrite sub ((off - 0x1000) / 8) v s
  else if 0x2000 ≤ off ∧ off < 0x4000 then msixWrite sub off v s
  else s

/-- A write of 4 or 8 bytes. -/
def registerWrite (sub off size : Nat) (v : BitVec 64) (s : State) : State :=
  if size = 4 ∧ off % 4 = 0 then regWrite sub off off (v.setWidth 32) s
  else if size = 8 ∧ off % 8 = 0 then
    regWrite sub off (off + 4) (BitVec.ofNat 32 (v.toNat / 2 ^ 32)) (regWrite sub off off (v.setWidth 32) s)
  else s

/-- REGISTER_WRITE. -/
def execRegisterWrite (sub off size : Nat) (v : BitVec 64) (s : State) : Res :=
  live (whenB (s.barUp && decide (sub < s.sublinks)) (registerWrite sub off size v)) s

end Sys2Proof.Machine
end

