-- ==== Sys2Proof/Machine/Firmware.lean ====
section
/-! DEFINITION. Firmware and identity: FIRMWARE_STAGE, FIRMWARE_ACTIVATE (R463 to R465), CERT_READ and ATTEST_REPORT (R467 to
R469). -/

namespace Sys2Proof.Machine

/-! ### FIRMWARE_STAGE (R465) -/

/-- Largest bundle: a bank's 60 MiB (R463). -/
def bankBytes : Nat := 60 * 2 ^ 20

/-- The unit that FIRMWARE_STAGE holds: the boot flash. -/
def stageTarget (_ : Cmd) (_ : State) : Nat := 2 ^ 22 + 2

/-- KIND 0 or 1, FLAGS [1:0], data from the host. -/
def stageCheck (c : Cmd) (_ : State) : Nat := if 1 < c.p8 32 ∨ 3 < c.p8 33 ∨ !c.hasData then stInvalidField else stOk

/-- The bank that a bundle is staged in: the one not last booted. -/
def State.stageBank (s : State) : Nat := 1 - s.pow.bankBooted

/-- Bytes staged so far of a kind. -/
def State.stagedImage (s : State) (kind : Nat) : Bytes := if kind = 0 then s.pow.staged else s.pow.stagedCert

/-- Discard what is staged of a kind. -/
def dropStaged (kind : Nat) (s : State) : State :=
  { s with pow := if kind = 0 then { s.pow with staged := [], stagedOk := false } else { s.pow with stagedCert := [] } }

/-- Stage an image's bytes. A bundle's lie in the bank not last booted, which so loses what it held. -/
def putStaged (kind : Nat) (bs : Bytes) (s : State) : State :=
  { s with pow :=
      if kind = 0 then { s.pow with
        staged := bs, stagedOk := false
        banks := tput s.pow.banks s.stageBank bs
        bankOk := tput s.pow.bankOk s.stageBank 0 }
      else { s.pow with stagedCert := bs } }

/-- Stage `n` bytes of the command's data from where it stands. FIRST, on the command that starts, discards any partly staged
image. The result: none for an offset that leaves a gap or a bundle over 60 MiB. -/
def stageSome (n : Nat) (l : LongOp) (s : State) : Option (LongOp × State) :=
  let kind := byteAt l.entry 32
  let s0 := if !l.paused && bitOf (byteAt l.entry 33) 0 then dropStaged 0 (dropStaged 1 s) else s
  let off := field l.entry 40 8 + l.progress
  let part := (l.data.drop l.progress).take n
  let old := s0.stagedImage kind
  if old.length < off ∨ (kind = 0 ∧ bankBytes < off + part.length) then none
  else some ({ l with progress := l.progress + part.length }, putStaged kind (patch old off part) s0)

/-- The image is refused, and what is staged is discarded. -/
def refuseStaged (l : LongOp) (status : Nat) (s : State) : State :=
  refuse l.pair l.cid status (dropStaged (byteAt l.entry 32) s)

/-- A model-signing certificate is accepted when the installed key signed it, or none is installed. -/
def certOk (old new : Bytes) : Bool := old.isEmpty || Config.certAccepts old new

/-- LAST: the image is verified. A certificate replaces the installed one at once. -/
def verifyStaged (l : LongOp) (s : State) : State :=
  if byteAt l.entry 32 = 0 then
    if !Config.bundleVerifies s.pow.staged then refuseStaged l stSignature s
    else if Config.securityVersion s.pow.staged < s.pow.securityMax then refuseStaged l stVersion s
    else finish l.pair l.cid stOk s.pow.staged.length { s with pow := { s.pow with stagedOk := true } }
  else if certOk s.pow.modelCert s.pow.stagedCert then
    finish l.pair l.cid stOk s.pow.stagedCert.length
      (logRecord 0x0003 uPackage (fitTo 64 (putLE 1 1))
        { s with pow := { s.pow with modelCert := s.pow.stagedCert, stagedCert := [] } })
  else refuseStaged l stSignature s

/-- The end of FIRMWARE_STAGE: RESULT is the bytes staged so far. -/
def stageDone (l : LongOp) (s : State) : State :=
  match stageSome l.data.length l s with
  | none => refuseStaged l stInvalidField s
  | some (l1, s1) =>
    if bitOf (byteAt l.entry 33) 1 then verifyStaged l1 s1
    else finish l.pair l.cid stOk (s1.stagedImage (byteAt l.entry 32)).length s1

/-- FIRMWARE_STAGE. -/
def execFirmwareStage (pair cid : Nat) (s : State) : Res :=
  live (runLong 0x0007 pair cid stageTarget stageCheck stageDone) s

/-! ### FIRMWARE_ACTIVATE (R465) -/

/-- FIRMWARE_ACTIVATE: the warm reset follows as ACTIVATION_RESET. -/
def firmwareActivate (c : Cmd) (s : State) : State :=
  if !s.pow.stagedOk then refuse c.pair c.cid stPrecondition s
  else if s.pipes.any (fun kv => kv.2.active) || s.ken.longOps.any (fun l => l.paused) then refuse c.pair c.cid stBusy s
  else
    finishPlain c.pair c.cid stOk
      (logRecord 0x0003 uPackage (fitTo 64 (putLE 1 0 ++ putLE 1 s.stageBank ++ zeros 2
          ++ putLE 4 (Config.fwRelease s.pow.staged) ++ putLE 4 (Config.securityVersion s.pow.staged)))
        { s with pow := { s.pow with activating := true } })

/-- FIRMWARE_ACTIVATE. -/
def execFirmwareActivate (pair cid : Nat) (s : State) : Res := live (runCmd 0x0008 pair cid firmwareActivate) s

/-! ### CERT_READ and ATTEST_REPORT -/

/-- The certificate that WHICH names; none: not installed. -/
def State.certificate (s : State) (which : Nat) : Option Bytes :=
  if which = 0 then some Config.deviceCert
  else if which = 1 then some Config.caCert
  else if s.pow.modelCert.isEmpty then none
  else some s.pow.modelCert

/-- CERT_READ (R468). -/
def certRead (pcieOk : Bool) (c : Cmd) (s : State) : State :=
  if 2 < c.p8 32 ∨ !c.minBuf 4096 then refuse c.pair c.cid stInvalidField s
  else
    match s.certificate (c.p8 32) with
    | none => refuse c.pair c.cid stPrecondition s
    | some d => replyData c pcieOk d d.length id s

/-- CERT_READ. -/
def execCertRead (pair cid : Nat) (pcieOk : Bool) (s : State) : Res := live (runCmd 0x0701 pair cid (certRead pcieOk)) s

/-- Bytes 0 to 415 of the attestation report (R469). -/
def State.attestBody (s : State) (nonce : Bytes) : Bytes :=
  let hash (b : Bytes) : Bytes := fitTo 48 (sha384 b)
  fitTo 416 (putLE 4 0x54415A45 ++ putLE 2 1 ++ putLE 2 s.fab.nodeId ++ orderCode ++ putLE 2 0x00A1 ++ zeros 2
    ++ putLE 4 (Config.fwRelease s.firmware) ++ putLE 4 (Config.securityVersion s.firmware)
    ++ putLE 4 (Config.opcatVersion s.firmware) ++ putLE 4 s.obs.powerCycle ++ zeros 4 ++ fitTo 32 nonce ++ fitTo 48 pufIdHash
    ++ hash Config.stage1Loader ++ hash s.firmware ++ (if s.pow.modelCert.isEmpty then zeros 48 else hash s.pow.modelCert)
    ++ hash (s.counts ++ s.coreMap) ++ putLE 8 s.tb ++ putLE 8 s.obs.nextLsn)

/-- ATTEST_REPORT. -/
def attestReport (pcieOk : Bool) (c : Cmd) (s : State) : State :=
  if !c.exactBuf 512 then refuse c.pair c.cid stInvalidField s
  else
    let b := s.attestBody (sub c.entry 32 32)
    replyData c pcieOk (b ++ fitTo 96 (Config.identitySign b)) c.plainResult id s

/-- ATTEST_REPORT. -/
def execAttestReport (pair cid : Nat) (pcieOk : Bool) (s : State) : Res :=
  live (runCmd 0x0700 pair cid (attestReport pcieOk)) s

end Sys2Proof.Machine
end

