-- ==== Sys2Proof/Machine/Ledger.lean ====
section
/-! DEFINITION. Ledger pipelines: spans, reports, packing, results and placements (R221 to R224, R226 to R231). -/

namespace Sys2Proof.Machine

/-! ### Who is who -/

/-- Is this node the lockstep shadow of a pipeline (R427)? -/
def State.isShadow (s : State) (pipe : Nat) : Bool := ((tget s.lock pipe).map fun k => k.role == 2).getD false

/-- Is this node the ledger node of a span? A shadow is none (R222, R427). -/
def State.ledgerHere (s : State) (pipe : Nat) (p : Pipeline) (span : Nat) : Bool :=
  p.ledgerNode span == s.fab.nodeId && !s.isShadow pipe

/-- Nodes of a dataset's summaries. -/
def State.summaryNodes (s : State) (h : Nat) : List Nat :=
  (((tget s.cat.summaries h).getD []).map fun m => m.entries.map Route.node).flatten

/-- The other serving nodes of a pipeline: those its routing summaries or its consumers' ASSEMBLERs name (R340). -/
def State.peersOf (s : State) (p : Pipeline) : List Nat :=
  (((p.decl.datasets.map s.summaryNodes).flatten ++ (tvals p.consumers).map Consumer.assembler).filter
    fun x => x ≠ s.fab.nodeId ∧ x ≠ 0xFFFF).eraseDups

/-- Send a message to every other serving node; a shadow sends none (R427). -/
def sendAll (pipe : Nat) (p : Pipeline) (m : Message) (s : State) : State :=
  if s.isShadow pipe then s else (s.peersOf p).foldl (fun (t : State) (x : Nat) => sendMessage x m t) s

/-- The primary of a lockstep pair forwards a message that it receives or makes to its shadow (R427, R429). -/
def forwardToShadow (m : Message) (s : State) : State :=
  match tget s.lock m.pipeline with
  | some k =>
    if k.role = 1 then
      sendMessage k.partner (makeMessage 0x47 m.pipeline 0xFFFF s.fab.nodeId 1 0 0 m.bytes) s
    else s
  | none => s

/-- INDEX of a span message: [47:0] span, [63:48] epoch (R231). -/
def spanIndex (epoch span : Nat) : Nat := span % 2 ^ 48 + epoch * 2 ^ 48

/-- CONSUMER of a message that serves all consumers (R231). -/
abbrev allConsumers : Nat := 0xFFFF

/-- Change a span's record. -/
def modSpan (pipe epoch span : Nat) (f : SpanRec → SpanRec) (s : State) : State :=
  modPipe pipe (fun p => { p with spans := tput p.spans (spanKey epoch span) (f (p.span epoch span)) }) s

/-! ### Packing (R228) -/

/-- The pieces of a document: (offset, piece, tokens). Only a document longer than a sequence is split or truncated. -/
def docPieces (seqLen overlong off tokens : Nat) : List (Nat × Nat × Nat) :=
  if overlong = 1 ∨ tokens ≤ seqLen then [(off, 0, min tokens seqLen)]
  else (List.range (ceilDiv tokens seqLen)).map fun k => (off, k, min seqLen (tokens - k * seqLen))

/-- The state of packing: the queue of (offset, piece, tokens), the open sequence, newest part first, and the closed ones, newest first. -/
structure Packer where
  queue : List (Nat × Nat × Nat)
  cur : List (Nat × Nat × Nat × Nat × Nat)
  closed : List (List (Nat × Nat × Nat × Nat × Nat))
  deriving DecidableEq, Repr

/-- Tokens used in a sequence. -/
def usedOf (cur : List (Nat × Nat × Nat × Nat × Nat)) : Nat := (cur.map fun x => x.2.2.2.2).sum

/-- place() of R228. -/
def Packer.place (k : Packer) (seqLen maxSeg : Nat) : Packer :=
  let free := seqLen - usedOf k.cur
  match (if k.cur.length < maxSeg then k.queue.find? fun d => decide (d.2.2 ≤ free) else none) with
  | some d =>
    { k with queue := k.queue.erase d, cur := (d.1, d.2.1, k.cur.length + 1, usedOf k.cur, d.2.2) :: k.cur }
  | none => { k with cur := [], closed := k.cur.reverse :: k.closed }

/-- place() while the queue is as long as `n`. -/
def Packer.drain (seqLen maxSeg n : Nat) : Nat → Packer → Packer
  | 0, k => k
  | f + 1, k => if n ≤ k.queue.length ∧ k.queue ≠ [] then drain seqLen maxSeg n f (k.place seqLen maxSeg) else k

/-- Pack a span's pieces into sequences of parts (offset, piece, segment, start, tokens) (R228). -/
def packSpan (seqLen maxSeg : Nat) (ds : List (Nat × Nat × Nat)) : List (List (Nat × Nat × Nat × Nat × Nat)) :=
  let k0 : Packer := { queue := [], cur := [], closed := [] }
  let k1 := ds.foldl (fun (k : Packer) (d : Nat × Nat × Nat) =>
    Packer.drain seqLen maxSeg 64 2 { k with queue := k.queue ++ [d] }) k0
  let k2 := Packer.drain seqLen maxSeg 1 (2 * ds.length + 2) k1
  (if k2.cur.isEmpty then k2.closed else k2.cur.reverse :: k2.closed).reverse

/-! ### Results of a span -/

/-- Positions of a span. -/
def spanLength (n span : Nat) : Nat := min 65536 (n - span * 65536)

/-- The marks of one offset: what a report says of it, and the sequences that begin there. -/
def marksAt (corrupt : Nat) (off doc cause opens : Nat) : List (Nat × Nat) :=
  if doc = 0 ∨ (cause ≠ 0 ∧ corrupt = 1) then []
  else if cause ≠ 0 ∨ opens = 0 then [(off, noUnitMark)]
  else List.replicate (opens - 1) (off, moreUnitMark)

/-- Everything the owners have reported of a span: (offset, document, cause, tokens), ascending. -/
def SpanRec.entries (r : SpanRec) : List (Nat × Nat × Nat × Nat) :=
  ((r.reports.map Prod.snd).flatten.foldl (fun (t : Table (Nat × Nat × Nat)) (e : Nat × Nat × Nat × Nat) =>
    tput t e.1 e.2) []).map fun kv => (kv.1, kv.2)

/-- Offset of a sequence's first part. -/
def seqFirst (q : List (Nat × Nat × Nat × Nat × Nat)) : Nat := (q.head?.map Prod.fst).getD 0

/-- A span's skipped and empty positions with their causes, from its reports (R231). -/
def SpanRec.resultList (r : SpanRec) : List (Nat × Nat) :=
  (r.entries.filter fun e => e.2.1 == 0 || e.2.2.1 != 0).map fun e => (e.1, e.2.2.1)

/-- A span's marks, from its reports and sequences. -/
def SpanRec.markList (r : SpanRec) (corrupt : Nat) : List (Nat × Nat) :=
  (r.entries.map fun e =>
    marksAt corrupt e.1 e.2.1 e.2.2.1 (r.seqs.filter fun q => seqFirst q == e.1).length).flatten

/-! ### Assigning slots -/

/-- Class of a sample, from its slate. -/
def Sample.cls (x : Sample) : Nat := byteAt x.slate 8

/-- Is a class packed by the pipeline's SPLICE stage? -/
def Decl.packs (d : Decl) (cls : Nat) : Bool := d.stages.any fun st => st.kind == 7 && st.has cls

/-- Change a sample. -/
def modSample (key : Nat) (f : Sample → Sample) (s : State) : State :=
  { s with eng := { s.eng with samples := tmod s.eng.samples key f } }

/-- Forget a sample. -/
def dropSample (key : Nat) (s : State) : State :=
  { s with eng := { s.eng with samples := tdel s.eng.samples key } }

/-- A sample with its unit (R221): batch and slot, and what was skipped before it. -/
def Sample.placed (x : Sample) (d : Decl) (r : SpanRec) (base : Nat) : Sample :=
  let off := x.position % 65536
  let u := base + unitsBefore d.corrupt r.list off
  let sk := skippedBefore d.corrupt r.list off
  { x with batch := u / max 1 d.batch, slot := some (u % max 1 d.batch), skipped := sk.1, skipCause := sk.2 }

/-- The span's result places this node's own unpacked units (R221, R224). -/
def placeSamples (pipe epoch span : Nat) (p : Pipeline) (r : SpanRec) (base : Nat) (s : State) : State :=
  let place (kv : Nat × Sample) : Nat × Sample :=
    let x := kv.2
    let here := decide (x.pipeline = pipe ∧ x.epoch = epoch ∧ spanOf x.position = span)
    if here && !p.decl.packs x.cls && fillsUnit p.decl.corrupt r.list (x.position % 65536) then
      (kv.1, x.placed p.decl r base)
    else kv
  { s with eng := { s.eng with samples := s.eng.samples.map place } }

/-- Unit of sequence number k of a span. -/
def SpanRec.seqUnit (r : SpanRec) (corrupt base k : Nat) : Nat :=
  let first := seqFirst (r.seqs.getD k [])
  base + unitsBefore corrupt r.list first + ((r.seqs.take k).filter fun q => seqFirst q == first).length

/-- The ledger node's own record of its span's sequences. -/
def recordSeqs (pipe epoch span : Nat) (p : Pipeline) (r : SpanRec) (base : Nat) (s : State) : State :=
  (List.range r.seqs.length).foldl (fun (t : State) (k : Nat) =>
    let q := r.seqs.getD k []
    let u := r.seqUnit p.decl.corrupt base k
    let same := ((r.seqs.take k).filter fun y => seqFirst y == seqFirst q).length
    let sk := if same = 0 then skippedBefore p.decl.corrupt r.list (seqFirst q) else (0, 0)
    let rec1 : SeqRec :=
      { epoch := epoch, span := span, batch := u / max 1 p.decl.batch, slot := u % max 1 p.decl.batch, cause := 0,
        skipped := sk.1, skipCause := sk.2, parts := q, got := [], written := false, flushed := false }
    modPipe pipe (fun p => { p with seqs := tput p.seqs u rec1 }) t) s

/-- The slots of the last batch beyond the last unit (R223): empty, cause 21. -/
def recordFillers (pipe epoch span u : Nat) (p : Pipeline) (s : State) : State :=
  if p.decl.tail = 0 ∧ epoch + 1 = p.decl.epochs ∧ span + 1 = spansIn (s.domain p.decl) then
    (List.range (p.decl.ledgerBatches u * p.decl.batch - u)).foldl (fun (t : State) (k : Nat) =>
      let rec1 : SeqRec :=
        { epoch := epoch, span := span, batch := (u + k) / max 1 p.decl.batch, slot := (u + k) % max 1 p.decl.batch,
          cause := 21, skipped := 0, skipCause := 0, parts := [], got := [], written := false, flushed := false }
      modPipe pipe (fun p => { p with seqs := tput p.seqs (u + k) rec1 }) t) s
  else s

/-- A document with its placed pieces, none of them written. -/
def Sample.withPlaced (x : Sample) (l : List Placed) : Sample :=
  { x with pieces := l.map fun y => (y.piece, y.unit, y.seg, y.start, y.tokens, false) }

/-- One placed piece of one of this node's documents. -/
def placePiece (pipe epoch pos : Nat) (y : Placed) (s : State) : State :=
  modPipe pipe (fun p =>
    let l := tgetD p.placed (posKey epoch pos) []
    if l.any fun z => z.piece == y.piece then p else { p with placed := tput p.placed (posKey epoch pos) (l ++ [y]) })
    (modSample (sampleKey pipe epoch pos) (fun x =>
      if x.pieces.any fun z => z.1 == y.piece then x
      else { x with pieces := x.pieces ++ [(y.piece, y.unit, y.seg, y.start, y.tokens, false)] }) s)

/-- Placements of a sequence's parts (R231): the owner's, by message, or this node's own at once. -/
def sendPlacements (pipe epoch span : Nat) (p : Pipeline) (parts : List (Nat × Nat × Nat × Nat × Nat × Nat)) (s : State) :
    State :=
  let owner (off : Nat) : Nat := (s.ownerOf p.decl epoch (span * 65536 + off)).getD s.fab.nodeId
  let s1 := parts.foldl (fun (t : State) (x : Nat × Nat × Nat × Nat × Nat × Nat) =>
    if owner x.1 = s.fab.nodeId then placePiece pipe epoch (span * 65536 + x.1)
        { piece := x.2.1, unit := x.2.2.2.2.2, seg := x.2.2.1, start := x.2.2.2.1, tokens := x.2.2.2.2.1 } t
    else t) s
  let body (l : List (Nat × Nat × Nat × Nat × Nat × Nat)) : Bytes := (l.map fun x =>
    putLE 2 x.1 ++ putLE 2 x.2.2.1 ++ putLE 2 x.2.1 ++ zeros 2 ++ putLE 8 (x.2.2.2.2.2 % 2 ^ 48)).flatten
  let msg (l : List (Nat × Nat × Nat × Nat × Nat × Nat)) : Message :=
    makeMessage 5 pipe allConsumers s.fab.nodeId l.length (spanIndex epoch span) 0 (body l)
  let own := parts.filter fun x => owner x.1 == s.fab.nodeId
  let s2 := if own.isEmpty then s1 else forwardToShadow (msg own) s1
  let others := ((parts.map fun x => owner x.1).filter fun o => o ≠ s.fab.nodeId).eraseDups
  others.foldl (fun (t : State) (o : Nat) =>
    sendMessage o (msg (parts.filter fun x => owner x.1 == o)) t) s2

/-- All the parts of a span's sequences, with their units: (offset, piece, segment, start, tokens, unit). -/
def SpanRec.placements (r : SpanRec) (corrupt base : Nat) : List (Nat × Nat × Nat × Nat × Nat × Nat) :=
  ((List.range r.seqs.length).map fun k =>
    (r.seqs.getD k []).map fun x => (x.1, x.2.1, x.2.2.1, x.2.2.2.1, x.2.2.2.2, r.seqUnit corrupt base k)).flatten

/-! ### Results (R222, R223, R231) -/

/-- Body of a SPAN_RESULT: its entries, then the END entry with the unit count. -/
def resultBody (skips : List (Nat × Nat)) (units : Nat) : Bytes :=
  (skips.map fun e => putLE 8 (e.1 + e.2 * 2 ^ 16)).flatten ++ putLE 8 (2 ^ 23 + units * 2 ^ 24)

/-- A node holds a span's result: units get their slots, and the next span its UNIT_BASE (R223, R224). -/
def holdResult (pipe epoch span base units : Nat) (skips marks : List (Nat × Nat)) (s : State) : State :=
  let s1 := modSpan pipe epoch span (fun r =>
    { r with unitBase := some base, units := some units, result := true, skips := skips, marks := marks }) s
  match tget s1.pipes pipe with
  | none => s1
  | some p =>
    let n := s1.domain p.decl
    let nx := nextSpan n epoch span
    let s2 := placeSamples pipe epoch span p (p.span epoch span) base s1
    if nx.1 < p.decl.epochs then
      modSpan pipe nx.1 nx.2 (fun r => { r with unitBase := some (p.decl.nextBase n span (base + units)) }) s2
    else s2

/-- Has every owner of a span's positions reported in full? -/
def State.allReported (s : State) (p : Pipeline) (epoch span : Nat) (r : SpanRec) : Bool :=
  (s.spanOwners p.decl epoch span).all fun o => decide (o ∈ r.doneFrom)

/-- The ledger node closes a span (R222, R223, R228): with every report and the UNIT_BASE, it packs (a SPLICE entry's work,
`splice`), counts the units, sends the result and the placements, and holds the result itself. -/
def closeSpan (splice : Bool) (pipe epoch span : Nat) (s : State) : State :=
  match tget s.pipes pipe with
  | none => s
  | some p =>
    let r := p.span epoch span
    match r.unitBase with
    | none => s
    | some base =>
      let b := (p.decl.blockOf 0x0701).getD []
      if r.result || r.packed || !(b.isEmpty || splice) || !s.ledgerHere pipe p span || !s.allReported p epoch span r then s
      else
        let docs := r.entries.filter fun e => e.2.1 == 1 && e.2.2.1 == 0
        let seqs := if b.isEmpty then []
          else packSpan (field b 0 4) (field b 8 2)
            (docs.map fun e => docPieces (field b 0 4) (byteAt b 10) e.1 e.2.2.2).flatten
        let r1 := { r with packed := true, seqs := seqs }
        let skips := r1.resultList
        let marks := r1.markList p.decl.corrupt
        let len := spanLength (s.domain p.decl) span
        let r2 := { r1 with skips := skips, marks := marks }
        let units := unitsBefore p.decl.corrupt r2.list len
        let m := makeMessage 4 pipe allConsumers s.fab.nodeId (skips.length + 1) (spanIndex epoch span) base
          (resultBody skips units)
        let s1 := modSpan pipe epoch span (fun _ => r2) s
        let s2 := recordSeqs pipe epoch span p r2 base s1
        let s3 := recordFillers pipe epoch span (base + units) p s2
        endCheck pipe (sendPlacements pipe epoch span p (r2.placements p.decl.corrupt base)
          (holdResult pipe epoch span base units skips marks (forwardToShadow m (sendAll pipe p m s3))))

/-- Close spans from one on, while this node is the next one's ledger node too and has its reports. -/
def closeSpans (pipe : Nat) : Nat → Nat → Nat → State → State
  | 0, _, _, s => s
  | f + 1, epoch, span, s =>
    let t := closeSpan false pipe epoch span s
    match tget t.pipes pipe with
    | none => t
    | some p =>
      if (p.span epoch span).result then
        let nx := nextSpan (t.domain p.decl) epoch span
        if nx.1 < p.decl.epochs ∧ thas p.spans (spanKey nx.1 nx.2) ∧ !(p.span nx.1 nx.2).result then
          closeSpans pipe f nx.1 nx.2 t
        else t
      else t

/-- How many spans a node holds records of: a bound for closing them in turn. -/
def State.spanCount (s : State) (pipe : Nat) : Nat := ((tget s.pipes pipe).map fun p => p.spans.length + 1).getD 1

/-- A ledger node takes in entries of a report (R222); `last` when nothing more follows from this sender. -/
def takeReport (pipe epoch span sender : Nat) (es : List (Nat × Nat × Nat × Nat)) (last : Bool) (s : State) : State :=
  closeSpans pipe (s.spanCount pipe) epoch span
    (modSpan pipe epoch span (fun r =>
      { r with
        reports := tput r.reports sender (tgetD r.reports sender [] ++ es)
        doneFrom := if last && !decide (sender ∈ r.doneFrom) then r.doneFrom ++ [sender] else r.doneFrom }) s)

/-! ### An owner's report (R222, R232) -/

/-- Entries that a report carries: kept samples of unpacked classes have none. -/
def reportEntries (resolved : Table Nat) : List (Nat × Nat × Nat × Nat) :=
  (resolved.filter fun kv => kv.2 ≠ 0).map fun kv => (kv.1, kv.2 / 2 ^ 8 % 2, kv.2 % 2 ^ 8, kv.2 / 2 ^ 16)

/-- Entries of a span report in one message (R341). -/
abbrev reportPer : Nat := (packetData - 32) / 8

/-- Body of a SPAN_REPORT (R231). -/
def reportBody (es : List (Nat × Nat × Nat × Nat)) : Bytes :=
  (es.map fun e => putLE 4 (e.1 + e.2.1 * 2 ^ 16 + e.2.2.1 * 2 ^ 17) ++ putLE 4 e.2.2.2).flatten

/-- Is a report message the last of its sender: shorter than a full one, or naming every position? -/
def lastReport (value count total : Nat) : Bool := decide (count < reportPer) || decide (value ≤ total)

/-- Send this node's report of a span once every position it owns there is resolved (R222, R232). A report whose last part is
full is followed by an empty one, so that its end shows. -/
def reportSpan (pipe epoch span : Nat) (s : State) : State :=
  match tget s.pipes pipe with
  | none => s
  | some p =>
    let r := p.span epoch span
    let own := s.ownedIn pipe p.decl epoch span
    if r.reported || own.isEmpty || !own.all (fun x => thas r.resolved (x % 65536)) || s.isShadow pipe then s
    else
      let es := reportEntries r.resolved
      let s1 := modSpan pipe epoch span (fun r => { r with reported := true }) s
      if p.ledgerNode span = s.fab.nodeId then takeReport pipe epoch span s.fab.nodeId es true s1
      else
        let m (l : List (Nat × Nat × Nat × Nat)) : Message :=
          makeMessage 3 pipe allConsumers s.fab.nodeId l.length (spanIndex epoch span) own.length (reportBody l)
        let s2 := sendMessage (p.ledgerNode span) (m es) s1
        if 0 < es.length ∧ es.length % reportPer = 0 ∧ es.length ≠ own.length then
          sendMessage (p.ledgerNode span) (m []) s2
        else s2

/-- A position of a ledger pipeline is resolved: a kept sample, a document with its tokens, or a cause (R222). -/
def resolvePos (pipe epoch pos value : Nat) (s : State) : State :=
  reportSpan pipe epoch (spanOf pos)
    (modSpan pipe epoch (spanOf pos) (fun r => { r with resolved := tput r.resolved (pos % 65536) value }) s)

/-! ### Received span messages (R222 to R224, R231) -/

/-- Does a delivery message arrive whole, for a pipeline that runs here? Its MSG_CRC must match (R231). -/
def State.accepts (s : State) (m : Message) (kind : Nat) : Bool :=
  s.going && m.kind == kind && m.crc == m.crcOf && ((tget s.pipes m.pipeline).map Pipeline.active).getD false
    && m.body.length == m.count * entryBytes kind

/-- Entries of a received SPAN_REPORT. -/
def parseReport (body : Bytes) : List (Nat × Nat × Nat × Nat) :=
  (pieces 8 (body.length / 8) body).map fun b => (field b 0 2, bits (field b 0 4) 16 16, bits (field b 0 4) 23 17, field b 4 4)

/-- SPAN_REPORT: only the span's ledger node takes it. -/
def spanReportIn (m : Message) (s0 : State) : State :=
  let s := freeSlot m s0
  match tget s.pipes m.pipeline with
  | none => s
  | some p =>
    let span := m.index % 2 ^ 48
    let epoch := m.index / 2 ^ 48
    if s.accepts m 3 && p.decl.ledger && s.ledgerHere m.pipeline p span && !decide (m.sender ∈ (p.span epoch span).doneFrom) then
      let es := parseReport m.body
      let have_ := (tgetD (p.span epoch span).reports m.sender []).length
      takeReport m.pipeline epoch span m.sender es (lastReport m.value m.count (have_ + es.length)) s
    else s

/-- SPAN_REPORT. -/
def execSpanReport (m : Message) (s : State) : Res := live (whenB s.going (spanReportIn m)) s

/-- Entries of a received SPAN_RESULT: (offset, cause), and the units of its END entry where it has one. -/
def parseResult (body : Bytes) : List (Nat × Nat) × Option Nat :=
  let es := (pieces 8 (body.length / 8) body).map fun b => field b 0 8
  ((es.filter fun v => !bitOf v 23).map fun v => (v % 2 ^ 16, bits v 22 16),
    (es.find? fun v => bitOf v 23).map fun v => v / 2 ^ 24)

/-- SPAN_RESULT (R223, R224): parts gather until the END entry comes; then the result is held, and this node closes the next
span where it is its ledger node. -/
def spanResultTake (m : Message) (s : State) : State :=
  match tget s.pipes m.pipeline with
  | none => s
  | some p =>
    let span := m.index % 2 ^ 48
    let epoch := m.index / 2 ^ 48
    let r := p.span epoch span
    if s.accepts m 4 && p.decl.ledger && !r.result then
      let x := parseResult m.body
      let all := r.skips ++ x.1
      match x.2 with
      | none => modSpan m.pipeline epoch span (fun r => { r with skips := all }) s
      | some units =>
        let marks := if (p.decl.blockOf 0x0701).isSome then Config.spliceMarks m.pipeline epoch span else []
        let s1 := endCheck m.pipeline (holdResult m.pipeline epoch span m.value units all marks s)
        let nx := nextSpan (s.domain p.decl) epoch span
        if nx.1 < p.decl.epochs then closeSpans m.pipeline (s1.spanCount m.pipeline) nx.1 nx.2 s1 else s1
    else s

/-- SPAN_RESULT. -/
def execSpanResult (m : Message) (s : State) : Res :=
  live (whenB s.going fun t => whenB (t.accepts m 4) (forwardToShadow m) (spanResultTake m (freeSlot m t))) s

/-- Tokens of a piece of a document of this node. -/
def pieceTokens (d : Decl) (x : Sample) (piece : Nat) : Nat :=
  let b := (d.blockOf 0x0701).getD []
  let l := field b 0 4
  min l (field x.desc 4 4 - piece * l)

/-- START of a placed piece: given by segment order, the tokens of the earlier segments of its sequence, where they are all this
node's own. The tokens of another node's pieces reach an owner by no message (R231): there START is free. -/
def State.pieceStart (s : State) (pipe unit seg : Nat) : Nat :=
  let mine := ((s.eng.samples.filter fun kv => kv.2.pipeline == pipe).map fun kv =>
    kv.2.pieces.filter fun y => y.2.1 == unit && decide (y.2.2.1 < seg)).flatten
  if mine.length + 1 = seg then (mine.map fun y => y.2.2.2.2.1).sum else Config.remoteStart pipe unit seg

/-- One entry of a PLACEMENT. -/
def takePlacement (pipe epoch span : Nat) (d : Decl) (b : Bytes) (s : State) : State :=
  let pos := span * 65536 + field b 0 2
  match tget s.eng.samples (sampleKey pipe epoch pos) with
  | none => s
  | some x =>
    let unit := field b 8 8 % 2 ^ 48
    let seg := field b 2 2
    placePiece pipe epoch pos
      { piece := field b 4 2, unit := unit, seg := seg, start := s.pieceStart pipe unit seg, tokens := pieceTokens d x (field b 4 2) } s

/-- PLACEMENT: the document owner learns segment, piece and unit (R231). -/
def placementTake (m : Message) (s : State) : State :=
  match tget s.pipes m.pipeline with
  | none => s
  | some p =>
    if s.accepts m 5 then
      (pieces 16 m.count m.body).foldl (fun (t : State) (b : Bytes) =>
        takePlacement m.pipeline (m.index / 2 ^ 48) (m.index % 2 ^ 48) p.decl b t) s
    else s

/-- PLACEMENT. -/
def execPlacement (m : Message) (s : State) : Res :=
  live (whenB s.going fun t => whenB (t.accepts m 5) (forwardToShadow m) (placementTake m (freeSlot m t))) s

/-! ### SPAN_FETCH_START (R224) -/

/-- The smallest oldest-unreleased batch among a pipeline's consumers. -/
def Pipeline.lowestOldest (p : Pipeline) : Nat :=
  match (tvals p.runs).map ConsRun.oldest with
  | [] => p.cursor
  | x :: xs => xs.foldl (fun (a b : Nat) => min a b) x

/-- May the node start fetching a span's positions (R224)? None before the anchor span is (R242), nor one whose UNIT_BASE is known to
lie in a batch that a stop has discarded (R140). A span 16 before that lies before the anchor counts as held. -/
def Pipeline.mayFetch (p : Pipeline) (epoch span : Nat) : Bool :=
  decide ((p.spans.head?.map Prod.fst).getD 0 ≤ spanKey epoch span)
    && (p.stop.all fun k => !k.limits || (p.span epoch span).unitBase.all fun u => decide (u / max 1 p.decl.batch < k.at_)) &&
  if span < 16 then true
  else
    let k := spanKey epoch (span - 16)
    match tget p.spans k with
    | none => decide (k < ((p.spans.head?.map Prod.fst).getD 0))
    | some r => r.result && decide ((r.unitBase.getD 0) / max 1 p.decl.batch < p.lowestOldest + 8)

/-- SPAN_FETCH_START. A node that owns nothing in the span has nothing to fetch. -/
def spanFetchStart (pipe epoch span : Nat) (s : State) : State :=
  match tget s.pipes pipe with
  | none => s
  | some p =>
    if p.active && p.decl.ledger && decide (epoch < p.decl.epochs) && decide (span < spansIn (s.domain p.decl))
        && p.mayFetch epoch span then
      modSpan pipe epoch span (fun r => { r with started := true }) s
    else s

/-- SPAN_FETCH_START. -/
def execSpanFetchStart (pipeline epoch span : Nat) (s : State) : Res :=
  live (whenB s.going (spanFetchStart pipeline epoch span)) s

/-- SPLICE: the ledger node packs a span's documents and gives the span its units (R222, R228). -/
def execSplice (pipeline epoch span : Nat) (s : State) : Res :=
  live (whenB s.going fun t => closeSpans pipeline (t.spanCount pipeline) epoch span (closeSpan true pipeline epoch span t)) s

end Sys2Proof.Machine
end

