-- ==== Sys2Proof/Machine/Stores.lean ====
section
/-! DEFINITION. The operand stores of the cores with their merge buffers (R252) and the cluster stores (R253). -/

namespace Sys2Proof.Machine

/-! ### Correct one, detect two -/

/-- The places of `n` data bits in the code: the numbers from 3 that are no powers of two. -/
def hammingPlaces (n : Nat) : List Nat := ((List.range (n + 16)).filter fun p => decide (3 ≤ p) && 2 ^ Nat.log2 p != p).take n

/-- XOR of the places of the set bits, and their parity. -/
def hammingSum (data : Bytes) : Nat × Bool :=
  ((bitsOf data).zip (hammingPlaces (8 * data.length))).foldl
    (fun (a : Nat × Bool) (b : Bool × Nat) => if b.1 then (a.1 ^^^ b.2, !a.2) else a) (0, false)

/-- Parity of a number's bits. -/
def parityOf (n : Nat) : Bool := (List.range 16).foldl (fun (a : Bool) (i : Nat) => a != bitOf n i) false

/-- The check bytes of a word: 7 check bits of 64 data bits, or 9 of 256, and the overall parity above them. -/
def hammingCheck (data : Bytes) : Bytes :=
  let k := if data.length = 8 then 7 else 9
  let r := hammingSum data
  putLE (if data.length = 8 then 1 else 2) (r.1 + if r.2 != parityOf r.1 then 2 ^ k else 0)

/-- Change one bit of a run of bytes. -/
def flipBit (bs : Bytes) (i : Nat) : Bytes := patch bs (i / 8) [BitVec.ofNat 8 (byteAt bs (i / 8) ^^^ 2 ^ (i % 8))]

/-- The data of a stored word of `w` data bytes: as held, with its one wrong bit corrected, or none for a double-bit error. -/
def hammingRead (w : Nat) (bs : Bytes) : Option Bytes :=
  let data := bs.take w
  let k := if w = 8 then 7 else 9
  let c := field bs w (bs.length - w)
  let r := hammingSum data
  let syn := r.1 ^^^ c % 2 ^ k
  let odd := r.2 != parityOf (c % 2 ^ (k + 1))
  if syn = 0 then some data
  else if !odd then none
  else if 2 ^ Nat.log2 syn = syn then some data
  else ((hammingPlaces (8 * w)).findIdx? fun p => p == syn).map (flipBit data)

/-! ### Words of a store -/

/-- Data bytes of a word: of an operand store, of a cluster store. -/
def storeWidth (cluster : Bool) : Nat := if cluster then 32 else 8

/-- Words of a store: 2 MiB of a core, 32 MiB of a cluster. -/
def storeWords (cluster : Bool) : Nat := if cluster then 1048576 else 262144

/-- The cluster or core that an engine queue's unit belongs to; none where it has no such store. -/
def storeUnit (cluster : Bool) (k : Nat) : Option Nat :=
  let q := k % 1024
  match k / 1024 with
  | 2 => if cluster then some (q / 4) else none
  | 3 => if cluster then some q else none
  | 4 => if cluster then some q else none
  | 5 => if cluster then some (q / 2) else none
  | 6 => some (if cluster then q / 4 else q)
  | 7 => some (if cluster then q / 4 else q)
  | 8 => some (if cluster then q / 4 else q)
  | _ => none

/-- A word as the SRAM holds it. -/
def State.storeWord (s : State) (cluster : Bool) (u w : Nat) : StoreWord :=
  let t := if cluster then s.mem.stores.cluster else s.mem.stores.operand
  tgetD t (u * 2 ^ 32 + w) (.held (zeros (storeWidth cluster + if cluster then 2 else 1)))

/-- Change the stores. -/
def modStores (f : Stores → Stores) (s : State) : State := { s with mem := { s.mem with stores := f s.mem.stores } }

/-- Set a word of the SRAM. -/
def setStoreWord (cluster : Bool) (u w : Nat) (v : StoreWord) (s : State) : State :=
  modStores (fun t =>
    if cluster then { t with cluster := tput t.cluster (u * 2 ^ 32 + w) v } else { t with operand := tput t.operand (u * 2 ^ 32 + w) v }) s

/-- Bits of a word have changed in the SRAM. -/
def disturbWord (cluster : Bool) (u w : Nat) (flips : List Nat) (s : State) : State :=
  match s.storeWord cluster u w with
  | .held bs => if flips.isEmpty then s else setStoreWord cluster u w (.held (flips.foldl flipBit bs)) s
  | .poison => s

/-- The data of a word; none for poison and for a double-bit error. -/
def State.storeData (s : State) (cluster : Bool) (u w : Nat) : Option Bytes :=
  match s.storeWord cluster u w with
  | .held bs => hammingRead (storeWidth cluster) bs
  | .poison => none

/-- Write a whole word, without a read. -/
def storeWhole (cluster : Bool) (u w : Nat) (data : Bytes) (s : State) : State :=
  setStoreWord cluster u w (.held (data ++ hammingCheck data)) s

/-- Read-modify-write: the bytes given replace those of the word. A word that cannot be read is poisoned, and the write fails. -/
def storeModify (cluster : Bool) (u w : Nat) (bytes : List (Option Byte)) (s : State) : State × Bool :=
  match s.storeData cluster u w with
  | some bs => (storeWhole cluster u w (bs.zipIdx.map fun p => (bytes.getD p.2 none).getD p.1) s, true)
  | none => (setStoreWord cluster u w .poison s, false)

/-! ### Merge buffers (R252) -/

/-- Entries of a queue's merge buffer, oldest first. -/
def State.merging (s : State) (k : Nat) : List MergeEntry := tgetD s.mem.stores.merge k []

/-- Set them. -/
def setMerging (k : Nat) (l : List MergeEntry) (s : State) : State :=
  modStores (fun t => { t with merge := if l.isEmpty then tdel t.merge k else tput t.merge k l }) s

/-- Write entries out, oldest first; false where one fails. -/
def writeOut (u : Nat) : List MergeEntry → State → State × Bool
  | [], s => (s, true)
  | e :: t, s =>
    let r := storeModify false u e.word e.bytes s
    let q := writeOut u t r.1
    (q.1, r.2 && q.2)

/-- The entries that satisfy `p` are written out. -/
def flushMerge (k u : Nat) (p : MergeEntry → Bool) (s : State) : State × Bool :=
  writeOut u ((s.merging k).filter p) (setMerging k ((s.merging k).filter fun e => !p e) s)

/-- A write of up to a word into a merge buffer: it merges with the entry of its word, or takes a free one, for which the oldest is
written out where none is; an entry whose 8 bytes are written goes to the SRAM whole. -/
def mergeWrite (k u w off : Nat) (data : Bytes) (s : State) : State × Bool :=
  let l := s.merging k
  let had := l.find? fun e => e.word == w
  let oldest := if had.isNone ∧ 8 ≤ l.length then l.head? else none
  let r := match oldest with
    | some o => flushMerge k u (fun e => e.word == o.word) s
    | none => (s, true)
  let old := (had.map MergeEntry.bytes).getD (List.replicate 8 none)
  let new := old.zipIdx.map fun p => if off ≤ p.2 ∧ p.2 < off + data.length then data[p.2 - off]? else p.1
  let m := r.1.merging k
  let s1 :=
    if new.all Option.isSome then
      storeWhole false u w (new.map fun b => b.getD 0) (setMerging k (m.filter fun e => e.word != w) r.1)
    else if had.isSome then setMerging k (m.map fun e => if e.word = w then { e with bytes := new } else e) r.1
    else setMerging k (m ++ [{ word := w, bytes := new }]) r.1
  (s1, r.2)

/-- All entries of a queue's buffer are written out: its engine completes its current entry. -/
def settleMerge (k : Nat) (s : State) : State × Bool :=
  match storeUnit false k with
  | some u => if (s.merging k).isEmpty then (s, true) else flushMerge k u (fun _ => true) s
  | none => (s, true)

/-- An access of the engine of a queue (R252, R253); false where it meets poison or a double-bit error. A read of a word with a
pending entry writes the entry out first, so that it returns the merged bytes. -/
def storeAccess (k : Nat) (a : StoreAccess) (s : State) : State × Bool :=
  match storeUnit a.cluster k with
  | none => (s, true)
  | some u =>
    if storeWords a.cluster ≤ a.word then (s, true)
    else
      let s1 := disturbWord a.cluster u a.word a.flips s
      let width := storeWidth a.cluster
      match a.write with
      | none =>
        let r := if a.cluster then (s1, true) else flushMerge k u (fun e => e.word == a.word) s1
        (r.1, r.2 && (r.1.storeData a.cluster u a.word).isSome)
      | some (off, data) =>
        if width < off + data.length then (s1, true)
        else if !a.cluster then mergeWrite k u a.word off data s1
        else if data.length = width then (storeWhole true u a.word data s1, true)
        else
          storeModify true u a.word
            ((List.range width).map fun i => if off ≤ i ∧ i < off + data.length then data[i - off]? else none) s1

end Sys2Proof.Machine
end

