-- ==== Sys2Proof/Machine/Engine.lean ====
section
/-! DEFINITION. Engine queues (R118 to R123), the samples in production (R24, R25, R115, R129, R133, R151, R225, R226), engine
faults (R388, R389) and checker votes (R390 to R392). -/

namespace Sys2Proof.Machine

/-! ### Queues (R119) -/

/-- Key of a queue. -/
def queueKey (engine q : Nat) : Nat := engine * 1024 + q

/-- Queues of an engine kind. -/
def queueCount (engine : Nat) : Nat :=
  if engine = 1 then 32 else if engine = 2 then 64 else if engine = 3 ∨ engine = 4 then 16 else if engine = 5 then 32
  else if engine = 6 ∨ engine = 7 ∨ engine = 8 then 64 else if engine = 9 then 18 else 0

/-- Entries a queue of an engine kind holds. -/
def queueRoom (engine : Nat) : Nat :=
  if engine = 1 then 128 else if engine = 2 then 16 else if engine = 3 ∨ engine = 4 then 8 else if engine = 5 then 16
  else if engine = 6 ∨ engine = 7 then 32 else if engine = 8 then 64 else if engine = 9 then 256 else 0

/-- An empty queue. -/
def emptyQueue : EQueue := { nextSeq := 0, entries := [], completions := [] }

/-- A queue. -/
def State.queue (s : State) (k : Nat) : EQueue := tgetD s.eng.queues k emptyQueue

/-- Change a queue. -/
def modQueue (k : Nat) (f : EQueue → EQueue) (s : State) : State :=
  { s with eng := { s.eng with queues := tput s.eng.queues k (f (s.queue k)) } }

/-- Physical core slot of a logical core (R18): its own place until a spare has taken its identity. -/
def State.slotOf (s : State) (l : Nat) : Nat := tgetD s.ftest.logical l (l / 4 * 5 + l % 4)

/-- State of a physical core slot: 0 logical, 1 spare, 2 testing, 3 requalifying, 4 retired; unlisted ones are as built
(R403, R416). -/
def State.coreState (s : State) (i : Nat) : Nat := tgetD s.ftest.slots i (if i % 5 = 4 then 1 else 0)

/-- The unit that serves queue `q` of an engine kind now. -/
def State.engineUnit (s : State) (engine q : Nat) : Nat :=
  if engine = 1 then uSe q else if engine = 2 then uIde q else if engine = 3 then uVde q else if engine = 4 then uAde q
  else if engine = 5 then uTke q else if engine = 9 then uPort q else uSlot (s.slotOf q)

/-- The unit that serves a queue. -/
def State.queueUnit (s : State) (k : Nat) : Nat := s.engineUnit (k / 1024) (k % 1024)

/-- Does the unit of queue `q` serve: itself, its cluster and its stack (R18, R20, R21)? A core under test runs no entry. -/
def State.engineServes (s : State) (engine q : Nat) : Bool :=
  let u := s.engineUnit engine q
  s.inService u && match engine with
    | 1 => s.inService (uStack (q / 4))
    | 2 => s.inService (uCluster (q / 4))
    | 3 => s.inService (uCluster q)
    | 4 => s.inService (uCluster q)
    | 5 => s.inService (uCluster (q / 2))
    | 9 => true
    | _ => s.inService (uCluster (q / 4)) && s.coreState (s.slotOf q) != 2

/-- Queues of an engine kind whose units serve. -/
def State.servingQueues (s : State) (engine : Nat) : List Nat :=
  (List.range (queueCount engine)).filter fun q => s.engineServes engine q

/-! ### The way of a sample (R115) -/

/-- A place on the way of a sample: an operator of a stage; INSTANCE is 0xFFFF where it is not listed. -/
structure Site where
  op : Nat
  stage : Nat
  inst : Nat
  deriving DecidableEq, Repr

/-- The site of an operator entry. -/
def Decl.siteOf (d : Decl) (o : OpE) : Site :=
  { op := o.op, stage := o.stage, inst := (d.instanceOf o.stage o.op).getD 0xFFFF }

/-- An operator of a stage, listed or not. -/
def Decl.implied (d : Decl) (st : StageE) (op : Nat) : Site :=
  match (d.opsOf st).find? fun o => o.op == op with
  | some o => d.siteOf o
  | none => { op := op, stage := st.id, inst := 0xFFFF }

/-- Operators of the FETCH stage in the order in which a sample meets them: the predicate on the slate comes before any
block is read (R126), MINHASH after the bytes are verified. -/
def Decl.fetchSites (d : Decl) : List Site :=
  match d.stages.head? with
  | none => []
  | some st =>
    let listed (op : Nat) : Bool := (d.opsOf st).any fun o => o.op == op
    (if listed 0x0103 then [d.implied st 0x0103] else []) ++ [d.implied st 0x0101, d.implied st 0x0102]
      ++ (if listed 0x0104 then [d.implied st 0x0104] else [])

/-- Operators between FETCH and DELIVER that samples of a class pass. SPLICE works on spans, not on samples. -/
def Decl.bodySites (d : Decl) (cls : Nat) : List Site :=
  ((d.stages.filter fun st => st.kind != 1 && st.kind != 7 && st.kind != 8 && st.has cls).map fun st =>
    (d.opsOf st).map d.siteOf).flatten

/-- Operators of the DELIVER stage. DELIVER itself gathers no packed document: its sequence does. -/
def Decl.deliverSites (d : Decl) (cls : Nat) : List Site :=
  match d.stages.getLast? with
  | none => []
  | some st =>
    let own := (d.opsOf st).map d.siteOf
    let all := if own.any (fun x => x.op == 0x0702) then own else own ++ [d.implied st 0x0702]
    if d.packs cls then all.filter fun x => x.op != 0x0702 else all

/-- The whole way of samples of a class. -/
def Decl.sites (d : Decl) (cls : Nat) : List Site := d.fetchSites ++ d.bodySites cls ++ d.deliverSites cls

/-- Where the DELIVER stage begins. -/
def Decl.deliverFrom (d : Decl) (cls : Nat) : Nat := (d.fetchSites ++ d.bodySites cls).length

/-- The operator a sample meets next. -/
def Sample.site (x : Sample) (d : Decl) : Option Site := (d.sites x.cls)[x.opIdx]?

/-- Budget of a site: its entry's, or the default (R114, R162). -/
def Decl.budgetAt (d : Decl) (x : Site) : Nat :=
  match d.ops[x.inst]? with
  | some o => if o.budget = 0 then opBudget x.op else o.budget
  | none => opBudget x.op

/-- Parameter block of an instance. -/
def Decl.paramsAt (d : Decl) (inst : Nat) : Bytes := ((d.ops[inst]?).map d.block).getD []

/-! ### Samples -/

/-- ERROR_OFFSET where there is no error. -/
abbrev noOffset : Nat := 0xFFFFFFFF

/-- A sample about to be fetched. -/
def newSample (pipe dataset index epoch pos batch : Nat) (slot : Option Nat) : Sample where
  pipeline := pipe
  dataset := dataset
  index := index
  epoch := epoch
  position := pos
  batch := batch
  slot := slot
  slate := []
  opIdx := 0
  desc := []
  data := []
  crc := 0
  writer := 0
  models := []
  offsets := []
  phase := .ready
  status := 0
  cause := 0
  errCode := 0
  errOff := noOffset
  transits := 0
  poisons := 0
  fetches := 0
  skipped := 0
  skipCause := 0
  inBuf := none
  outBuf := none
  place := none
  pieces := []
  chain := []
  home := none
  shot := none
  modelBufs := []
  failOp := 0
  failUnit := 0
  writerStage := 0
  record := none

/-- Key of a sample. -/
def Sample.key (x : Sample) : Nat := sampleKey x.pipeline x.epoch x.position

/-- The sample is made again from the fetch stage, for its own slot or its own places in sequences, with the shot record it was
made with (R21, R133, R151, R251). One that is discarded is not. -/
def remake (x : Sample) (s : State) : State :=
  if x.phase = .discarded then s
  else
    modSample x.key (fun _ => { newSample x.pipeline x.dataset x.index x.epoch x.position x.batch x.slot with
      transits := x.transits
      poisons := x.poisons
      skipped := x.skipped
      skipCause := x.skipCause
      pieces := x.pieces
      shot := x.shot
      record := x.record }) (freeBufs x s)

/-- A position is made: its shot record is freed (R134). The sample keeps what the record said, for the case that it is made again. -/
def markMade (pipe epoch pos : Nat) (s : State) : State :=
  match tget s.pipes pipe with
  | none => s
  | some p =>
    let k := posKey epoch pos
    modSample (sampleKey pipe epoch pos) (fun x => { x with shot := (tget p.shots k).orElse fun _ => x.shot })
      (modPipe pipe (fun p => { p with
        made := if k ∈ p.made then p.made else p.made ++ [k]
        shots := tdel p.shots k }) s)

/-- A sample leaves the path without an output (R129, R225, R226): in a direct pipeline its slot is empty; in a ledger
pipeline its position is resolved with the cause, and only an unpacked sample under CORRUPT_MODE 0 keeps a unit. -/
def leavePath (x : Sample) (cause errCode errOff : Nat) (s : State) : State :=
  match tget s.pipes x.pipeline with
  | none => s
  | some p =>
    let s1 := markMade x.pipeline x.epoch x.position (freeBufs x s)
    let empty : Sample := { x with
      phase := .done
      status := 2
      cause := cause
      errCode := errCode
      errOff := errOff
      desc := []
      data := []
      crc := 0
      models := []
      inBuf := none
      outBuf := none
      modelBufs := []
      place := none }
    if !p.decl.ledger then modSample x.key (fun _ => empty) s1
    else if p.decl.packs x.cls then
      resolvePos x.pipeline x.epoch x.position (cause + 2 ^ 8) (dropSample x.key s1)
    else if p.decl.corrupt = 1 then resolvePos x.pipeline x.epoch x.position cause (dropSample x.key s1)
    else resolvePos x.pipeline x.epoch x.position cause (modSample x.key (fun _ => empty) s1)

/-- Cause code of the record that goes with a slot cause; 0 where the error has a record of another scope (R380). -/
def recordOf (slotCause : Nat) : Nat :=
  match slotCause with
  | 4 => 0x0101
  | 5 => 0x0102
  | 6 => 0x0105
  | 7 => 0x0106
  | 8 => 0x0103
  | 9 => 0x0107
  | 10 => 0x0108
  | 11 => 0x0109
  | 12 => 0x010A
  | 13 => 0x010C
  | 14 => 0x010D
  | 15 => 0x010E
  | 16 => 0x010F
  | 17 => 0x0304
  | 20 => 0x0504
  | 21 => 0x0505
  | _ => 0

/-- An error in the scope of a sample (R379). -/
def sampleErr (x : Sample) (unit stage op cause cls slotCause code errCode attempts errOff : Nat) : ErrArgs :=
  ErrArgs.under x.record { plainErr unit cause cls 3 (sampleScope x.dataset x.index)
      (slotCause + code * 2 ^ 8 + errCode * 2 ^ 16 + attempts % 2 ^ 8 * 2 ^ 24 + errOff % 2 ^ 32 * 2 ^ 32)
      (x.epoch % 2 ^ 16) with
    pipeline := x.pipeline
    stage := stage
    operator := op }

/-- A sample takes the corrupt-sample path for a slot cause, with its CONTAINED record where that has sample scope. -/
def corruptPath (x : Sample) (unit stage op slotCause code errCode attempts errOff : Nat) (s : State) : State :=
  let r := recordOf slotCause
  let s1 := if r = 0 then s
    else recordErr (sampleErr x unit stage op r clsContained slotCause code errCode attempts errOff) s
  leavePath x slotCause errCode errOff s1

/-! ### Admission (R24, R25, R81, R103, R133, R224) -/

/-- The lowest batch a lockstep shadow may run ahead from (R427); none where the node is no shadow. -/
def State.shadowLow (s : State) (pipe : Nat) : Option Nat :=
  (tget s.lock pipe).bind fun k => if k.role = 2 then some k.lowest else none

/-- May production of a batch start, for a consumer (R25, R140, R427)? -/
def State.inWindow (s : State) (pipe : Nat) (p : Pipeline) (consumer b : Nat) : Bool :=
  decide (p.cursor ≤ b) && p.inStop b
    && match s.shadowLow pipe with
      | some low => decide (b < low + 8)
      | none => decide (b < p.oldestOf consumer + 8)

/-- Does a position lie in a window that waits to be rebuilt (R245, R251)? -/
def Pipeline.windowWaits (p : Pipeline) (epoch pos : Nat) : Bool :=
  (p.schedule epoch).any fun e => e.waiting.contains (windowOf pos)

/-- May the node start making the sample at a position? -/
def State.mayAdmit (s : State) (pipe : Nat) (p : Pipeline) (epoch pos : Nat) : Bool :=
  let d := p.decl
  let n := s.domain d
  let b := d.nominalBatch n epoch pos
  let held := (p.schedule epoch).any fun e => decide (pos ∈ e.positions)
  (p.state == 3 || p.state == 4) && decide (pos < n) && decide (epoch < d.epochs) && held && p.mayProduce epoch b
    && !p.windowWaits epoch pos && !decide (posKey epoch pos ∈ p.made) && !thas s.eng.samples (sampleKey pipe epoch pos)
    && (d.shotMode != 2 || thas p.shots (posKey epoch pos))
    && (if d.ledger then (p.span epoch (spanOf pos)).started && p.stop.all fun k => !k.limits || !s.posFrom p k.at_ epoch pos
      else d.delivered n epoch pos &&
        (p.consumerOf (d.nominalSlot n epoch pos)).any fun c => s.inWindow pipe p c.1 b)

/-- The sample of a position enters production (R126): a direct one knows its slot, and so does one made again after a withdrawn
stop, whose span's result is held (R140). The forward check comes first: where σ_e(p)
is no index of this node, the window that holds p is built again (R105). -/
def enterSample (pipe epoch pos : Nat) (s : State) : State :=
  match tget s.pipes pipe with
  | none => s
  | some p =>
    if !s.mayAdmit pipe p epoch pos then s
    else if !s.ownsPos pipe p.decl epoch pos then windowRebuild pipe epoch (windowOf pos) (some pos) s
    else
      let n := s.domain p.decl
      let b := p.decl.nominalBatch n epoch pos
      let hi := s.sampleAt p.decl epoch pos
      let direct := !p.decl.ledger
      let x0 := newSample pipe hi.1 hi.2 epoch pos (if direct then b else 0)
        (if direct then some (p.decl.nominalSlot n epoch pos) else none)
      let r := p.span epoch (spanOf pos)
      let x := if direct || !r.result then x0
        else match tget p.placed (posKey epoch pos) with
          | some l => x0.withPlaced l
          | none => if fillsUnit p.decl.corrupt r.list (pos % 65536) then x0.placed p.decl r (r.unitBase.getD 0) else x0
      modPipe pipe (fun p => { p with started := max p.started (b + 1) })
        { s with eng := { s.eng with samples := tput s.eng.samples x.key x } }

/-! ### Issue (R120, R122) -/

/-- Does an operator need an output buffer of its own (R24, R122): what reads flash, the landing buffer of its slate or blocks; what
writes a sample's bytes; a model, its outputs? CRC_VERIFY checks the fetched bytes where they lie. -/
def needsOut (op : Nat) : Bool :=
  op == 0x0103 || op == 0x0101 || op / 256 == 2 || op / 256 == 3 || op / 256 == 4 || op / 256 == 5

/-- The pool buffers a sample holds. -/
def Sample.bufs (x : Sample) : List Nat := x.inBuf.toList ++ x.outBuf.toList ++ x.modelBufs

/-- An allocated pool buffer of the pipeline that no sample holds yet (R24, R122). -/
def State.spareBuf (s : State) (pipe : Nat) : Option Nat :=
  let used : List Nat := (s.eng.samples.map fun kv => kv.2.bufs).flatten
  let linked : List Nat := s.pool.entries.map fun kv => kv.2.link
  (s.pool.entries.find? fun kv => kv.2.owner == pipe && !decide (kv.1 ∈ used) && !decide (kv.1 ∈ linked)).map Prod.fst

/-- FLAGS of an entry: first and last operator of the sample (R120). -/
def entryFlags (d : Decl) (x : Sample) : Nat :=
  (if x.opIdx = 0 then 1 else 0) + (if x.opIdx + 1 = (d.sites x.cls).length then 2 else 0)

/-- The 64 bytes of an entry (R120). -/
def entryImage (d : Decl) (x : Sample) (t : Site) (engine seq : Nat) (out : Option Nat) : Bytes :=
  let pOff := ((d.ops[t.inst]?).map OpE.pOff).getD 0
  putLE 2 t.op ++ putLE 2 t.stage ++ putLE 1 x.pipeline ++ putLE 1 engine ++ putLE 2 (entryFlags d x)
    ++ putLE 8 (sampleScope x.dataset x.index) ++ putLE 8 x.batch ++ putLE 4 (x.slot.getD 0) ++ putLE 2 x.epoch
    ++ putLE 2 t.inst ++ putLE 4 (x.inBuf.getD noBuf) ++ putLE 4 (out.getD noBuf) ++ putLE 4 pOff
    ++ putLE 4 (d.budgetAt t) ++ putLE 8 x.position ++ putLE 4 seq ++ zeros 4

/-- Place an entry for a site of a sample on a queue. -/
def placeEntry (p : Pipeline) (x : Sample) (t : Site) (k : Nat) (out : Option Nat) (s : State) : State :=
  let q := s.queue k
  let e : Entry :=
    { op := t.op, stage := t.stage, pipeline := x.pipeline, engine := k / 1024, sample := x.key, instance_ := t.inst,
      budget := p.decl.budgetAt t, seq := q.nextSeq, attempts := 0, fault := 0, first := 0, tb := s.tb,
      raw := entryImage p.decl x t (k / 1024) q.nextSeq out, runOn := none }
  modSample x.key (fun x => { x with phase := .issued, place := some (k, q.nextSeq), outBuf := out })
    (modQueue k (fun q => { q with nextSeq := (q.nextSeq + 1) % 2 ^ 32, entries := q.entries ++ [e] }) s)

/-- Does a sample wait for a slot or pieces before its DELIVER stage? -/
def Sample.awaitsSlot (x : Sample) (d : Decl) : Bool :=
  decide (d.deliverFrom x.cls ≤ x.opIdx) && (if d.packs x.cls then x.pieces.isEmpty else x.slot.isNone)

/-- The firmware places the next entry of a sample (R122): the queue has room and its unit serves, the output buffer is
allocated. Where no unit of the kind serves any more, the sample takes cause 21 (R410). A repeated fetch stays off the engine
that failed (R149). -/
def issueEntry (key k : Nat) (s0 : State) : State :=
  let s := enterSample (key / 2 ^ 63) (key / 2 ^ 47 % 2 ^ 16) (key % 2 ^ 47) s0
  match tget s.eng.samples key with
  | none => s
  | some x =>
    match tget s.pipes x.pipeline with
    | none => s0
    | some p =>
      let unmapped := x.slate.isEmpty && (runOf (s.runsFor x.pipeline x.dataset) x.index).isNone
      if x.phase ≠ .ready || !(p.state == 3 || p.state == 4) || x.awaitsSlot p.decl then s0
      else match x.site p.decl with
        | none => s0
        | some t =>
          let eng := opEngine t.op
          let out := if needsOut t.op then s.spareBuf x.pipeline else none
          if unmapped then corruptPath x (uLogical 0) t.stage t.op 12 0 0 0 noOffset s
          else if (s.servingQueues eng).isEmpty then corruptPath x (uLogical 0) t.stage t.op 21 0 0 0 noOffset s
          else if x.fetches = 1 ∧ t.op = 0x0102 ∧ s.queueUnit k = x.failUnit ∧ 1 < (s.servingQueues eng).length then s0
          else if k / 1024 ≠ eng ∨ queueCount eng ≤ k % 1024 ∨ !s.engineServes eng (k % 1024)
              ∨ queueRoom eng ≤ (s.queue k).entries.length ∨ (needsOut t.op && out.isNone) then s0
          else placeEntry p x t k out s

/-- ENGINE_ENTRY_ISSUE. -/
def execEngineEntryIssue (sample queue : Nat) (s : State) : Res := live (whenB s.going (issueEntry sample queue)) s

/-! ### Executing an entry -/

/-- DONE, with nothing written. -/
def doneC (work : Nat) : Completion :=
  { seq := 0, code := 0, workUsed := work, writes := false, desc := [], data := [], models := [], offsets := [], cause := 0,
    errCode := 0, errOff := noOffset, voted := false, lostWord := none }

/-- DONE, with an output. -/
def writeC (work : Nat) (desc data : Bytes) : Completion :=
  { doneC work with writes := true, desc := desc, data := data }

/-- CORRUPT, with its slot cause, error code and offset. -/
def corruptC (work cause errCode errOff : Nat) : Completion :=
  { doneC work with code := 3, cause := cause, errCode := errCode, errOff := errOff }

/-- DROPPED, with its slot cause. -/
def dropC (work cause : Nat) : Completion := { doneC work with code := 4, cause := cause }

/-- OVERSIZE, with its error code (R121, R162, R163). -/
def oversizeC (work errCode errOff : Nat) : Completion :=
  { doneC work with code := 1, cause := 7, errCode := errCode, errOff := errOff }

/-- An entry whose work would exceed its budget stops there (R162). Budget 0: the operator's chapter states none. -/
def Entry.within (e : Entry) (work : Nat) (c : Completion) : Completion :=
  if e.budget ≠ 0 ∧ e.budget < work then oversizeC e.budget 9 noOffset else c

/-- The unit that executes an entry: its queue's, or the other unit that a third attempt runs on (R388). -/
def State.entryUnit (s : State) (k : Nat) (e : Entry) : Nat := e.runOn.getD (s.queueUnit k)

/-- Is an entry a memory command (R260)? -/
def Entry.isMemory (e : Entry) : Bool := byteAt e.raw 5 == 0x81

/-- The oldest entry of a queue that is not executed yet (R122). -/
def State.current (s : State) (k : Nat) : Option Entry := (s.queue k).entries[(s.queue k).completions.length]?

/-- The sample an entry serves, while it is still in place: a remade or discarded one is not (R151, R169). -/
def State.sampleFor (s : State) (k : Nat) (e : Entry) : Option Sample :=
  (tget s.eng.samples e.sample).bind fun x => if x.place = some (k, e.seq) then some x else none

/-- ERROR_OFFSET of an error of code 6 to 9, whose byte R164 does not name: free for the sample and the operator (R167). -/
def State.located (s : State) (k : Nat) (e : Entry) (c : Completion) : Completion :=
  if c.errOff = noOffset ∧ 6 ≤ c.errCode ∧ c.errCode ≤ 9 then
    match s.sampleFor k e with
    | none => c
    | some x =>
      let b := ((tget s.pipes x.pipeline).map fun p => p.decl.paramsAt e.instance_).getD []
      { c with errOff := Config.limitOffset e.op c.errCode b (x.slate ++ x.data) % 2 ^ 32 }
  else c

/-- The completion of the current entry of a queue is written. -/
def putCompletion (k : Nat) (e : Entry) (c : Completion) (s : State) : State :=
  modQueue k (fun q => { q with completions := q.completions ++ [{ s.located k e c with seq := e.seq }] }) s

/-- The record of an engine fault, once its outcome is known (R388): scope the unit that met it first. -/
def faultRecord (h : Option (Nat × Nat)) (e : Entry) (cls flags : Nat) (s : State) : State :=
  recordErr (ErrArgs.under h { plainErr e.first e.fault cls 2 e.first e.seq e.attempts with
    flags := flags
    pipeline := e.pipeline
    stage := e.stage
    operator := e.op }) s

/-- The record whose handling makes an entry's sample again, if one does (R387). -/
def State.entryRecord (s : State) (k : Nat) (e : Entry) : Option (Nat × Nat) := (s.sampleFor k e).bind Sample.record

/-- SEQ of the record that now holds a unit's scope, as a PARENT names it. -/
def State.unitRecord (s : State) (unit : Nat) : Nat :=
  ((s.heldRecord (dieOf unit) 2 unit).map Prod.fst).getD noParent

/-- A unit becomes suspect, by the record whose SEQ is given (R388, R391, R392). -/
def suspect (unit seq dissents : Nat) (s : State) : State :=
  { s with eng := { s.eng with suspects := tput s.eng.suspects unit (seq, dissents), runs := tdel s.eng.runs unit } }

/-- A suspect unit completes one more operator invocation (R391). -/
def countRun (unit : Nat) (s : State) : State :=
  if thas s.eng.suspects unit then { s with eng := { s.eng with runs := tput s.eng.runs unit (tgetD s.eng.runs unit 0 + 1) } }
  else s

/-- The retry sequence (R388). The first fault is retried on the same unit, the second on another unit of the kind, which the
firmware chooses; the third, or the second with no other unit in service, fails the sample with cause 21. At depth 2 there is no
retry: the sample fails at once (R387). -/
def engineFault (cause k : Nat) (s : State) : State :=
  match s.current k with
  | none => s
  | some e0 =>
    let i := (s.queue k).completions.length
    let first := if e0.attempts = 0 then s.entryUnit k e0 else e0.first
    let others := ((s.servingQueues e0.engine).map (s.engineUnit e0.engine)).filter fun u => u ≠ first
    let h := s.entryRecord k e0
    let again := e0.attempts = 1 ∧ !others.isEmpty ∧ !atDepth h
    let e : Entry := { e0 with
      attempts := e0.attempts + 1
      fault := if e0.attempts = 0 then cause else e0.fault
      first := first
      runOn := if again then others[Config.freeNat s.freeTick % max 1 others.length]? else e0.runOn }
    let s1 := modQueue k (fun q => { q with entries := q.entries.set i e }) s
    if e.attempts = 1 ∧ !atDepth h then s1
    else if again then tickFree s1
    else
      let s2 := faultRecord h e clsContained 2 s1
      let seq := s2.unitRecord first
      let s3 := suspect first seq 0 s2
      let s4 := match e.runOn with
        | some u => suspect u seq 0 s3
        | none => s3
      putCompletion k e (corruptC 0 21 0 noOffset) s4

/-- The engine completes the current entry of a queue: its merge buffer is written out first, and a word that cannot be read there makes
the entry one that met POISON in its operand store (R252, R388). -/
def completeEntry (k : Nat) (e : Entry) (c : Completion) (s : State) : State :=
  let r := settleMerge k s
  if r.2 then putCompletion k e c r.1 else engineFault 0x0501 k r.1

/-- Run the current entry of a queue, when it is an entry of operator `op`: `f` gives its completion and what it does beside.
An entry whose sample is gone runs to its end, and its output is dropped. -/
def runEntry (op k : Nat) (f : Entry → Pipeline → Sample → State → Completion × State) (s : State) : State :=
  match s.current k with
  | none => s
  | some e =>
    if e.op = op ∧ !e.isMemory ∧ (s.eng.sinkWait.all fun w => w.1 != k) then
      match s.sampleFor k e, tget s.pipes e.pipeline with
      | some x, some p =>
        let r := f e p x s
        completeEntry k e r.1 r.2
      | _, _ => completeEntry k e (doneC 0) s
    else s

/-- Run an operator that only computes. -/
def runPure (op k : Nat) (f : Entry → Pipeline → Sample → State → Completion) (s : State) : State :=
  whenB s.going (runEntry op k fun e p x t => (f e p x t, t)) s

/-! ### Counters of an operator instance (R436) -/

/-- Bytes written to OUT_BUF: descriptor and data, or a model's outputs (R121). -/
def Completion.outLen (c : Completion) : Nat := c.desc.length + c.data.length + 4 * c.models.length

/-- Counter key of an entry's work. -/
def counterKey (pipe inst op engine : Nat) : Nat :=
  if pipe = 0xFF then 0xFF * 2 ^ 20 + engine else pipe * 2 ^ 20 + (if inst = 0xFFFF then 0xFFF + op else inst)

/-- Counters at zero. -/
def zeroCounter : Counter :=
  { entries := 0, work := 0, busy := 0, queued := 0, codes := List.replicate 7 0, retries := 0, bytesIn := 0, bytesOut := 0,
    allocWaits := 0 }

/-- Add a completed entry to its counters. The cycles it took and waited are its engine's own (R13): free values. -/
def countEntry (e : Entry) (c : Completion) (bytesIn : Nat) (s : State) : State :=
  let k := counterKey e.pipeline e.instance_ e.op e.engine
  let r := tgetD s.obs.counters k zeroCounter
  let bump1 (i n : Nat) : Nat := if i = c.code then min (n + 1) 0xFFFFFFFF else n
  let new : Counter := { r with
    entries := r.entries + 1
    work := r.work + c.workUsed
    busy := r.busy + Config.localCycles s.freeTick
    queued := r.queued + Config.localCycles (s.freeTick + 1)
    codes := r.codes.zipIdx.map fun v => bump1 v.2 v.1
    retries := r.retries + e.attempts
    bytesIn := r.bytesIn + bytesIn
    bytesOut := r.bytesOut + c.outLen }
  tickFree (tickFree { s with obs := { s.obs with counters := tput s.obs.counters k new } })

/-- The 16 bytes of a completion (R121). -/
def Completion.bytes (c : Completion) (e : Entry) : Bytes :=
  putLE 4 c.seq ++ putLE 1 c.code ++ putLE 1 (byteAt e.raw 5) ++ zeros 2 ++ putLE 4 c.workUsed
    ++ putLE 4 c.outLen

/-- The Waiquel command record of an entry, for a pipeline whose TRACE is set, and for work outside pipelines (R137, R439, R440). -/
def traceEntry (k : Nat) (e : Entry) (c : Completion) (s : State) : State :=
  if e.pipeline = 0xFF ∨ s.raw 0x02 e.pipeline 0x0A 0 = 1 then
    traceRecord 1 (s.entryUnit k e) e.pipeline e.stage e.op (e.raw ++ c.bytes e ++ putLE 8 e.tb ++ zeros 8) s
  else s

/-! ### ENGINE_COMPLETION (R121) -/

/-- Payload bytes of a finished sample: its data, then the model outputs on the next 64-byte boundary (R217). -/
def Sample.payload (x : Sample) : Bytes :=
  if x.models.isEmpty then x.data
  else fitTo (roundUp x.data.length 64) x.data ++ (x.models.map fun kv => f32Bytes kv.2).flatten

/-- A sample has passed every stage before DELIVER: it is made. Its payload must fit (R136, R217); in a ledger pipeline its
position is resolved (R222). -/
def sampleMade (x : Sample) (unit : Nat) (s : State) : State :=
  match tget s.pipes x.pipeline with
  | none => s
  | some p =>
    let packed := p.decl.packs x.cls
    if !packed ∧ p.decl.outputBytes < x.payload.length then
      corruptPath x unit (((p.decl.stages.getLast?).map StageE.id).getD 0) 0x0702 13 0 0 0 noOffset s
    else
      let s1 := markMade x.pipeline x.epoch x.position s
      if p.decl.ledger then
        resolvePos x.pipeline x.epoch x.position (if packed then 2 ^ 8 + field x.desc 4 4 * 2 ^ 16 else 0) s1
      else s1

/-- A sample passes to its next operator (R121): its output becomes its current buffer, which carries the CRC of the bytes written
into it (R150); a model's outputs stay in theirs beside it. -/
def passOn (x : Sample) (e : Entry) (c : Completion) (unit : Nat) (s : State) : State :=
  match tget s.pipes x.pipeline with
  | none => s
  | some p =>
    let models := if c.models.isEmpty then x.models else tput x.models e.instance_ c.models
    let moved := c.writes && x.outBuf.isSome
    let y : Sample := if c.writes then
        { x with
          desc := c.desc
          data := c.data
          crc := crc32c (c.desc ++ c.data)
          writer := e.op
          writerStage := e.stage
          offsets := c.offsets
          inBuf := if moved then x.outBuf else x.inBuf
          outBuf := none }
      else if c.models.isEmpty then { x with outBuf := none }
      else { x with modelBufs := x.modelBufs ++ x.outBuf.toList, outBuf := none }
    -- a new buffer replaces the input; the landing buffer of a slate alone is free again
    let s0 := if moved then freeBuf x.inBuf s else if c.writes || !c.models.isEmpty then s else freeBuf x.outBuf s
    let last := decide (x.opIdx + 1 = (p.decl.sites x.cls).length)
    let z : Sample := { y with
      models := models
      opIdx := x.opIdx + 1
      phase := if last then .done else .ready
      record := if last then none else x.record
      place := none
      chain := x.chain ++ [(e.instance_, e.op, c.code, crc32c (if c.models.isEmpty then y.data else f32Bytes c.models))]
      status := if c.code = 2 then 1 else x.status
      cause := if c.code = 2 then c.cause else x.cause
      errCode := if c.code = 2 then c.errCode else x.errCode
      errOff := if c.code = 2 then c.errOff else x.errOff }
    let wrote := if c.writes then c.desc ++ c.data else f32Bytes c.models
    let s1 := modSample x.key (fun _ => z) (if c.writes || !c.models.isEmpty then carryCrc x.outBuf (crc32c wrote) s0 else s0)
    if z.opIdx = p.decl.deliverFrom z.cls then sampleMade z unit s1 else s1

/-- Is it a failure of the fetch that is repeated once (R149)? -/
def fetchFault (e : Entry) (c : Completion) (x : Sample) : Bool :=
  c.code == 3 && (c.cause == 4 || c.cause == 5) && (e.op == 0x0101 || e.op == 0x0102) && x.fetches == 0 && !x.slate.isEmpty

/-- A fetch that failed once and then passed records its first failure as CORRECTED (R149): the operator and the unit that failed. -/
def fetchCured (x : Sample) (e : Entry) (s : State) : State :=
  if e.op = 0x0102 ∧ x.fetches = 1 then
    recordErr (sampleErr x x.failUnit e.stage x.failOp (recordOf x.cause) clsCorrected x.cause 3 0 2 x.errOff) s
  else s

/-- The record of a code word that a reader lost (R250). -/
def State.lostRecord (s : State) (w : Nat) : Option (Nat × Nat) :=
  s.heldRecord (4 + w / 2 ^ 30) 4 (w % 2 ^ 30 + w / 2 ^ 30 * 2 ^ 32)

/-- An entry that faulted and then succeeded (R388): transient after one fault, persistent after two. -/
def faultCured (h : Option (Nat × Nat)) (e : Entry) (s : State) : State :=
  if e.attempts = 0 then s
  else if e.attempts = 1 then faultRecord h e clsCorrected 1 s
  else
    let t := faultRecord h e clsCorrected 2 s
    suspect e.first (t.unitRecord e.first) 0 t

/-- The sample of an entry that was retried, as its errors see it: they are raised while the fault's record is handled (R387). -/
def State.inRetry (s : State) (e : Entry) (x : Sample) : Sample :=
  if e.attempts = 0 then x else { x with record := (s.heldRecord (dieOf e.first) 2 e.first).orElse fun _ => x.record }

/-- What a completion's code makes of its sample (R121). -/
def outcome (x : Sample) (e : Entry) (c : Completion) (unit : Nat) (s : State) : State :=
  match c.code with
  | 0 =>
    let y := if e.op = 0x0102 then { x with cause := 0, errOff := noOffset } else x
    passOn y e c unit (fetchCured x e s)
  | 2 =>
    passOn x e c unit
      (recordErr (sampleErr (s.inRetry e x) unit e.stage e.op 0x0104 clsContained c.cause 2 c.errCode 0
        c.errOff) s)
  | 4 => leavePath x c.cause c.errCode c.errOff s
  | 5 => s
  | 6 =>
    -- a lost schedule word costs the sample nothing: its window is rebuilt (R251)
    if (c.lostWord.map fun w => wordArea (w % 2 ^ 30)) = some 1 then remake x s
    else if x.poisons = 0 ∧ c.cause ≠ 19 ∧ !atDepth x.record then
      remake { x with poisons := 1, record := (c.lostWord.bind s.lostRecord).orElse fun _ => x.record } s
    else corruptPath x unit e.stage e.op 19 6 0 0 noOffset s
  | _ =>
    if fetchFault e c x ∧ !atDepth x.record then
      modSample x.key (fun x => { x with
        phase := .completed
        place := none
        cause := c.cause
        errOff := c.errOff
        failOp := e.op
        failUnit := unit }) s
    else
      let attempts := if x.fetches = 1 then 2 else e.attempts
      -- the directory index of a failing block is no ERROR_OFFSET of the slot (R149, R218)
      let y := { x with errOff := noOffset }
      let r := recordOf c.cause
      let s1 := if r = 0 ∨ c.voted ∨ (c.cause = 21 ∧ 0 < e.attempts) then s
        else recordErr (sampleErr (s.inRetry e y) unit e.stage e.op r clsContained c.cause c.code c.errCode attempts c.errOff) s
      leavePath y c.cause c.errCode (if c.cause = 4 ∨ c.cause = 5 then noOffset else c.errOff) s1

/-- An input that fails its carried CRC (R151): the record of the sample names the reader, a second one, of the operator instance
that wrote the buffer, names the writer, since a record holds one pipeline, stage and operator (R378; DESIGN CHOICE). Then the
sample is made again; the second time it is corrupt. -/
def transit (x : Sample) (e : Entry) (unit : Nat) (s : State) : State :=
  let y := { x with transits := x.transits + 1 }
  let wrote : ErrArgs :=
    { plainErr unit 0x0103 clsContained 11 (x.pipeline + x.writerStage * 2 ^ 16 + x.writer * 2 ^ 32) 0 0 with
      pipeline := x.pipeline
      stage := x.writerStage
      operator := x.writer }
  if x.transits = 0 ∧ !atDepth x.record then
    let t := recordErr (sampleErr y unit e.stage e.op 0x0103 clsContained 8 0 0 1 noOffset) s
    remake { y with record := (t.heldRecord (dieOf unit) 3 (sampleScope x.dataset x.index)).orElse fun _ => x.record }
      (recordErr (wrote.under x.record) t)
  else recordErr (wrote.under x.record) (corruptPath y unit e.stage e.op 8 0 0 2 noOffset s)

/-- The bytes of a sample's buffer as its reader sees them: `flips` are the bits that changed on the way. -/
def Sample.inputAsRead (x : Sample) (flips : Bytes) : Bytes := xorBytes (x.desc ++ x.data) flips

/-- Does the CRC of the input as read differ from the one the buffer carries (R150)? -/
def Sample.inputFails (x : Sample) (flips : Bytes) : Bool := crc32c (x.inputAsRead flips) != x.crc

/-- Does an entry read a buffer that another operator wrote (R150)? -/
def readsInput (e : Entry) : Bool := !(e.op == 0x0103 || e.op == 0x0101)

/-- The pool buffer that holds a code word (R266). -/
def bufferAt (stack idx : Nat) : Nat :=
  if idx < 48 * 2 ^ 24 then bufHandle 0 stack ((idx - 34 * 2 ^ 24) / 1024) else bufHandle 1 stack ((idx - 48 * 2 ^ 24) / 32768)

/-- The sample that a memory command serves: the one whose buffer holds a word. -/
def State.sampleHolding (s : State) (w : Nat) : Option Sample :=
  if wordArea (w % 2 ^ 30) ≠ 2 then none
  else
    let h := bufferAt (w / 2 ^ 30) (w % 2 ^ 30)
    (s.eng.samples.find? fun kv => kv.2.bufs.any fun b => (chainOf s.pool.entries 129 b).contains h).map Prod.snd

/-- The word that a memory command's work depends on: the one it lost, else the first of its source or destination. -/
def Completion.servesWord (c : Completion) (e : Entry) : Nat :=
  let at_ (a : Nat) : Nat := a / 2 ^ 36 % 8 * 2 ^ 30 + a % 2 ^ 36 / 64
  c.lostWord.getD (if wordArea (at_ (field e.raw 8 8) % 2 ^ 30) = 2 then at_ (field e.raw 8 8) else at_ (field e.raw 16 8))

/-- The completion of a memory command is taken (R251, R260, R388): one that failed with POISON, or after the retry sequence, makes
the sample whose buffer it concerns again, or fails it. -/
def memoryOutcome (e : Entry) (c : Completion) (unit : Nat) (s : State) : State :=
  if c.code = 6 ∨ c.cause = 21 then
    match s.sampleHolding (c.servesWord e) with
    | some x => if x.phase = .discarded then s else outcome x e c unit s
    | none => s
  else faultCured none e s

/-- ENGINE_COMPLETION: the oldest completion of a queue is taken. One with CHECK_MISMATCH waits for its vote (R390); that of a
discarded sample frees its output unread (R169). -/
def engineCompletion (k : Nat) (flips : Bytes) (s : State) : State :=
  match (s.queue k).completions, (s.queue k).entries with
  | c :: cs, e :: es =>
    if c.code = 5 then s
    else
      let unit := s.entryUnit k e
      let x := s.sampleFor k e
      let s1 := modQueue k (fun q => { q with completions := cs, entries := es }) s
      let s2 := traceEntry k e c (countRun unit (countEntry e c ((x.map fun y => y.data.length).getD 0) s1))
      if e.isMemory then memoryOutcome e c unit s2
      else match x with
        | none => faultCured none e s2
        | some x =>
          if x.phase = .discarded then dropSample x.key (freeBufs x (faultCured x.record e s2))
          else if readsInput e && x.inputFails flips then transit x e unit s2
          else outcome x e c unit (if c.cause = 21 then s2 else faultCured x.record e s2)
  | _, _ => s

/-- ENGINE_COMPLETION. -/
def execEngineCompletion (queue : Nat) (flips : Bytes) (s : State) : Res :=
  live (whenB s.going (engineCompletion queue flips)) s

/-! ### Engine faults (R388, R389) -/

/-- ENGINE_PARITY_ERROR: a parity error inside the engine of a queue, or, where `access` is given, an access of it to its operand store or
cluster store, which is a fault of the entry where it meets POISON there (R252, R253, R388). -/
def parityError (k : Nat) (access : Option StoreAccess) (s : State) : State :=
  match access with
  | none => engineFault 0x0501 k s
  | some a =>
    let r := storeAccess k a s
    if r.2 then r.1 else engineFault 0x0501 k r.1

/-- ENGINE_PARITY_ERROR. -/
def execEngineParityError (queue : Nat) (access : Option StoreAccess) (s : State) : Res :=
  live (whenB s.going (parityError queue access)) s

/-- ENGINE_HANG. -/
def execEngineHang (queue : Nat) (s : State) : Res := live (whenB s.going (engineFault 0x0502 queue)) s

/-! ### Votes (R390 to R392) -/

/-- The bits a vote compares: the output buffer, or the model's output. -/
def Completion.result (c : Completion) : Bytes := if c.writes then c.desc ++ c.data else f32Bytes c.models

/-- A completion with the result that stands. -/
def Completion.withResult (c : Completion) (bs : Bytes) : Completion :=
  if c.writes then { c with code := 0, voted := true, desc := bs.take 64, data := bs.drop 64 }
  else { c with code := 0, voted := true, models := f32sOf bs }

/-- Change the oldest completion of a queue. -/
def modOldest (k : Nat) (f : Completion → Completion) (s : State) : State :=
  modQueue k (fun q => { q with completions := q.completions.zipIdx.map fun v => if v.2 = 0 then f v.1 else v.1 }) s

/-- Physical core slots of a slot's cluster that serve and are not under test, but for those in `out` (R390, R402). -/
def State.clusterMates (s : State) (slot : Nat) (out : List Nat) : List Nat :=
  ((List.range 5).map (slot / 5 * 5 + ·)).filter fun i => s.coreServes i && tgetD s.ftest.slots i 0 != 2 && !decide (i ∈ out)

/-- The rotating spare of a cluster, where it has one that is not under test. -/
def State.spareOf (s : State) (c : Nat) : Option Nat :=
  ((List.range 5).map (c * 5 + ·)).find? fun i => s.coreState i == 1 && s.coreServes i

/-- Core slots that may compute r2: the cluster's spare while it computes no other vote result, else its logical cores (R390). -/
def State.secondCores (s : State) (slot1 : Nat) : List Nat :=
  let mates := s.clusterMates slot1 [slot1]
  match s.spareOf (slot1 / 5) with
  | some sp =>
    if sp ∈ mates ∧ (s.eng.votes.all fun v => v.asked != sp || v.results.length != 1) then [sp]
    else mates.filter fun i => i != sp
  | none => mates

/-- An entry placed again with FLAGS.RECOMPUTE (R120, R390). -/
def Entry.recompute (e : Entry) : Entry := { e with raw := patch e.raw 6 (putLE 2 (field e.raw 6 2 ||| 4)) }

/-- CHECK_MISMATCH_VOTE: the completion is counted and traced, and r2 is computed on another core of the cluster, from the same entry
with FLAGS.RECOMPUTE. -/
def startVote (k slot2 : Nat) (s : State) : State :=
  match (s.queue k).completions.head?, (s.queue k).entries with
  | some c, e :: es =>
    let slot1 := s.slotOf (k % 1024)
    if c.code = 5 ∧ (s.eng.votes.all fun v => v.queue != k) ∧ slot2 ∈ s.secondCores slot1 then
      let s1 := traceEntry k e c (countRun (s.entryUnit k e) (countEntry e c (((s.sampleFor k e).map fun y => y.data.length).getD 0) s))
      bump 0x0F (dieOf (uSlot slot1)) 0x07
        (modQueue k (fun q => { q with entries := e.recompute :: es })
          { s1 with eng := { s1.eng with votes := s1.eng.votes ++
            [{ queue := k, seq := c.seq, asked := slot2, results := [(slot1, c.result)] }] } })
    else s
  | _, _ => s

/-- CHECK_MISMATCH_VOTE. -/
def execCheckMismatchVote (queue slot2 : Nat) (s : State) : Res := live (whenB s.going (startVote queue slot2)) s

/-- A core dissents (R391): a record, and the core is suspect; a second dissent within its next 65 536 invocations is persistent. -/
def dissent (h : Option (Nat × Nat)) (slot slot2 slot3 agree : Nat) (e : Entry) (s : State) : State :=
  let before := if 65536 ≤ tgetD s.eng.runs (uSlot slot) 0 then 0 else ((tget s.eng.suspects (uSlot slot)).map Prod.snd).getD 0
  let a : ErrArgs :=
    { plainErr (uSlot slot) 0x0503 clsCorrected 2 (uSlot slot)
        (uSlot slot2 + uSlot slot3 * 2 ^ 16 + agree * 2 ^ 32) 0 with
      flags := if before = 0 then 8 else 8 + 2
      pipeline := e.pipeline
      stage := e.stage
      operator := e.op }
  let t := recordErr (a.under h) s
  suspect (uSlot slot) (t.unitRecord (uSlot slot)) (before + 1) t

/-- The next cluster of the same die with a core that serves, in cluster order and wrapping; its lowest logical core. -/
def State.nextCluster (s : State) (slot : Nat) : Option Nat :=
  let c := slot / 5
  (((List.range 7).map fun i => c / 8 * 8 + (c % 8 + 1 + i) % 8).find? fun c => decide (0 < s.clusterCores c)).map fun c =>
    s.slotOf (4 * c)

/-- May a core compute r3: a third core of the cluster, or, where it has none, the next cluster's (R390)? -/
def State.mayThird (s : State) (slot1 slot2 slot3 : Nat) : Bool :=
  let mates := s.clusterMates slot1 [slot1, slot2]
  if mates.isEmpty then s.nextCluster slot1 == some slot3 else decide (slot3 ∈ mates)

/-- End a vote. -/
def dropVote (k : Nat) (s : State) : State :=
  { s with eng := { s.eng with votes := s.eng.votes.filter fun v => v.queue != k } }

/-- SEQ of the record that now holds a sample's scope. -/
def State.sampleRecord (s : State) (die : Nat) (x : Sample) : Nat :=
  ((s.heldRecord die 3 (sampleScope x.dataset x.index)).map Prod.fst).getD noParent

/-- The record of a three-way disagreement (R392), and the SEQ it has. -/
def threeWayRecord (k : Nat) (e : Entry) (unit : Nat) (s : State) : State × Nat :=
  match s.sampleFor k e with
  | none => (s, noParent)
  | some x =>
    let t := recordErr { sampleErr x unit e.stage e.op 0x0504 clsContained 20 5 0 3 noOffset with flags := 4 } s
    (t, t.sampleRecord (dieOf unit) x)

/-- Three different results (R392): no result stands, and the cores of r1 and r2 are suspect. -/
def threeWay (k slot1 slot2 : Nat) (e : Entry) (s : State) : State :=
  let r := threeWayRecord k e (uSlot slot1) s
  suspect (uSlot slot2) r.2 0 (suspect (uSlot slot1) r.2 0
    (bump 0x0F (dieOf (uSlot slot1)) 0x08
      (modOldest k (fun c =>
        { c with code := 3, voted := true, cause := 20, writes := false, desc := [], data := [], models := [] }) r.1)))

/-- VOTE_RESULT: r2, or r3, arrives, an invocation of its core, and may settle the vote (R390). -/
def voteResult (k : Nat) (result : Bytes) (core : Nat) (s0 : State) : State :=
  let s := countRun (uSlot core) s0
  match s.eng.votes.find? fun v => v.queue == k, (s.queue k).entries.head? with
  | some v, some e =>
    match v.results with
    | [r1] =>
      if core ≠ v.asked then s0
      else if result = r1.2 then dropVote k (modOldest k (fun c => c.withResult r1.2) s)
      else { s with eng := { s.eng with votes := s.eng.votes.map fun w =>
        if w.queue = k then { w with results := w.results ++ [(core, result)] } else w } }
    | [r1, r2] =>
      if !s.mayThird r1.1 r2.1 core then s0
      else if result = r1.2 then
        dissent (s.entryRecord k e) r2.1 r2.1 core 2 e (dropVote k (modOldest k (fun c => c.withResult r1.2) s))
      else if result = r2.2 then
        dissent (s.entryRecord k e) r1.1 r2.1 core 1 e (dropVote k (modOldest k (fun c => c.withResult r2.2) s))
      else dropVote k (threeWay k r1.1 r2.1 e s)
    | _ => s0
  | _, _ => s0

/-- VOTE_RESULT. -/
def execVoteResult (queue : Nat) (result : Bytes) (core : Nat) (s : State) : Res :=
  live (whenB s.going (voteResult queue result core)) s

/-- SUSPECT_CLEAR (R391): a core that dissented once and then ran 65 536 invocations without dissent. -/
def suspectClear (unit : Nat) (s : State) : State :=
  match tget s.eng.suspects unit with
  | some v =>
    if v.2 = 1 ∧ 65536 ≤ tgetD s.eng.runs unit 0 then
      { s with eng := { s.eng with suspects := tdel s.eng.suspects unit, runs := tdel s.eng.runs unit } }
    else s
  | none => s

/-- SUSPECT_CLEAR. -/
def execSuspectClear (unit : Nat) (s : State) : Res := live (suspectClear unit) s

end Sys2Proof.Machine
end

