-- ==== Sys2Proof/Machine/PoolOps.lean ====
section
/-! DEFINITION. The pool's operations (R270 to R277): ALLOC and its waits, FREE, SHARE with the copy fallback, ADD and RELEASE, and what
a failed one does to its caller's work. -/

namespace Sys2Proof.Machine

/-- An operation appears in the command trace with the work that it serves; the manual gives its record no content. -/
def tracePool (stack owner stage op : Nat) (s : State) : State :=
  tickFree (traceRecord 1 (uDie (4 + stack)) (if owner ≤ 15 then owner else 0xFF) stage op (Config.freeBytes s.freeTick 96) s)

/-! ### ALLOC -/

/-- The COPY memory command that fills a further reader's buffer (R260, R277). -/
def copyCommand (owner stage op src dst n seq : Nat) : Bytes :=
  fitTo 64 (putLE 2 op ++ putLE 2 stage ++ putLE 1 (if owner ≤ 15 then owner else 0xFF) ++ [0x81, 0x01, 0x00] ++ putLE 8 src
    ++ putLE 8 dst ++ putLE 4 n ++ zeros 28 ++ putLE 4 seq)

/-- First code word of a buffer (R266). -/
def bufWord (h : Nat) : Nat :=
  if bufCls h = 0 then 34 * 2 ^ 24 + bufIndex h * 1024 else 48 * 2 ^ 24 + bufIndex h * 32768

/-- Stack address of a buffer. -/
def bufAddr (h : Nat) : Nat := bufStack h * 2 ^ 36 + bufWord h * 64

/-- A queue of the stack's engines that has room. -/
def State.copyQueue (s : State) (stack n : Nat) : Option Nat :=
  ((List.range 4).map fun i => queueKey 1 (stack * 4 + i)).find? fun k =>
    s.engineServes 1 (k % 1024) && decide ((s.queue k).entries.length + n ≤ queueRoom 1)

/-- Place the COPY commands of a chain, one for each of its buffers. -/
def placeCopies (w : PoolWait) (k : Nat) : List (Nat × Nat) → State → State
  | [], s => s
  | (src, dst) :: t, s =>
    let q := s.queue k
    let e : Entry :=
      { op := w.op, stage := w.stage, pipeline := if w.owner ≤ 15 then w.owner else 0xFF, engine := 1, sample := 0, instance_ := 0xFFFF,
        budget := 0, seq := q.nextSeq, attempts := 0, fault := 0, first := 0, tb := s.tb,
        raw := copyCommand w.owner w.stage w.op (bufAddr src) (bufAddr dst) (bufBytes (bufCls src)) q.nextSeq, runOn := none }
    placeCopies w k t (modQueue k (fun q => { q with nextSeq := (q.nextSeq + 1) % 2 ^ 32, entries := q.entries ++ [e] }) s)

/-- Serve a request with free buffers: a copy's buffer carries the original's CRC, and its bytes come by COPY (R277). -/
def grantWait (w : PoolWait) (hs : List Nat) (s : State) : State :=
  let s1 := grantBufs w.owner w.cls hs s
  match w.copyOf with
  | none => s1
  | some src =>
    let from_ := chainOf s.pool.entries 129 src
    let crc := ((tget s.pool.entries src).map PoolEntry.crc).getD 0
    let s2 := modBuf (hs.headD noBuf) (fun e => { e with crc := crc }) s1
    match s.copyQueue (bufStack src) hs.length with
    | some k => placeCopies w k (from_.zip hs) s2
    | none => s2

/-- Can a request be served now: with buffers, and a copy with room in a queue? -/
def State.mayServe (s : State) (w : PoolWait) (filling : List Nat) : Option (List Nat) :=
  match s.canServe w filling with
  | some hs =>
    match w.copyOf with
    | some src => if thas s.pool.entries src && (s.copyQueue (bufStack src) hs.length).isSome then some hs else none
    | none => some hs
  | none => none

/-- The instance whose next entry's output a request is for: its counter key (R270, R436). -/
def State.waitingInstance (s : State) (w : PoolWait) : Option Nat :=
  match tget s.eng.samples w.sample, tget s.pipes w.owner with
  | some x, some p => (x.site p.decl).bind fun t =>
      if x.pipeline = w.owner ∧ t.op = w.op ∧ w.copyOf.isNone then some (counterKey w.owner t.inst t.op (opEngine t.op)) else none
  | _, _ => none

/-- An output allocation that waits counts in its instance's ALLOC_WAITS (R436). -/
def countWait (w : PoolWait) (s : State) : State :=
  match s.waitingInstance w with
  | none => s
  | some k =>
    let r := tgetD s.obs.counters k zeroCounter
    { s with obs := { s.obs with counters := tput s.obs.counters k { r with allocWaits := r.allocWaits + 1 } } }

/-- ALLOC: served at once, or waits (R270). -/
def allocBufs (w : PoolWait) (filling : List Nat) (s : State) : State :=
  if w.ok then
    match s.mayServe w filling, s.noneAhead w with
    | some hs, true => grantWait w hs s
    | _, _ => bump 0x06 w.owner 0x07 { countWait w s with pool := { s.pool with waits := s.pool.waits ++ [w] } }
  else s

/-- POOL_ALLOC. -/
def execPoolAlloc (owner cls stack bytes sample stage op : Nat) (filling : List Nat) (s : State) : Res :=
  live (whenB s.going fun s => allocBufs
    { owner := owner, cls := cls, stack := stack, bytes := bytes, sample := sample, stage := stage, op := op, copyOf := none } filling
    (tracePool stack owner stage op s)) s

/-- A waiting allocation is served, once a buffer of its class is free in the stack the firmware now takes (R271). A copy stays in the
stack of its original's choice. -/
def allocGrant (cls stack : Nat) (filling : List Nat) (s : State) : State :=
  match s.nextWaiter cls with
  | none => s
  | some w =>
    match s.mayServe { w with stack := stack } filling with
    | none => s
    | some hs => grantWait w hs { s with pool := { s.pool with waits := s.pool.waits.erase w } }

/-- ALLOC_GRANT. -/
def execAllocGrant (cls stack : Nat) (filling : List Nat) (s : State) : Res :=
  live (whenB s.going (allocGrant cls stack filling)) s

/-! ### FREE, SHARE, ADD, RELEASE -/

/-- A pool operation fails: a CONTAINED record, and DOUBLE_FREES of the caller's owner; the caller's work, the entry that its engine
runs, follows the retry sequence (R275, R388). -/
def poolFault (h owner stage op caller cause : Nat) (s : State) : State :=
  engineFault 0x0501 caller (bump 0x06 owner 0x08
    (recordErr { plainErr (uStack (bufStack h)) cause clsContained 9 (h % 2 ^ 32) (owner % 256) 0 with
      pipeline := if owner ≤ 15 then owner else 0xFF
      stage := stage
      operator := op } s))

/-- Run an operation on an allocated buffer, or fail: "handle" where it is invalid, `cause` where its bit is 0 (R275). `caller` is the
engine queue whose entry issued it. -/
def onBuffer (h owner stage op caller cause : Nat) (f : PoolEntry → State → State) (s0 : State) : State :=
  let s := tracePool (bufStack h) owner stage op s0
  if !s.handleOk h then poolFault h owner stage op caller 0x020E s
  else match tget s.pool.entries h with
    | none => poolFault h owner stage op caller cause s
    | some e => f e s

/-- POOL_FREE. -/
def execPoolFree (handle owner stage op caller : Nat) (s : State) : Res :=
  live (whenB s.going (onBuffer handle owner stage op caller 0x020C fun _ t => freeChain handle t)) s

/-- Bytes of a chain that a copy takes: one buffer of class 0, or the buffers of class 1. -/
def chainBytes (h : Nat) (s : State) : Nat := (chainOf s.pool.entries 129 h).length * bufBytes (bufCls h)

/-- Allocate a chain for each of `n` further readers, for copies of one that could not be shared (R277). -/
def copyReaders (h owner stage op : Nat) (filling : List Nat) : Nat → State → State
  | 0, s => s
  | n + 1, s =>
    copyReaders h owner stage op filling n
      (allocBufs { owner := owner, cls := bufCls h, stack := bufStack h, bytes := min (chainBytes h s) 268435520, sample := 0,
                   stage := stage, op := op, copyOf := some h } filling s)

/-- A free reference-count entry of a stack's S-die: the lowest index (R276). -/
def State.freeRef (s : State) (stack : Nat) : Nat :=
  ((List.range (s.refsUsed stack + 1)).find? fun i => !thas s.pool.refs (stack * 2 ^ 17 + i)).getD 0

/-- SHARE: an entry with count n, or the copy fallback (R276, R277). A buffer already shared keeps its entry. -/
def shareBuf (h n stage op : Nat) (filling : List Nat) (e : PoolEntry) (s : State) : State :=
  if n < 2 ∨ 65535 < n ∨ e.ref.isSome then s
  else if s.refsUsed (bufStack h) < 131072 then
    let i := s.freeRef (bufStack h)
    modBuf h (fun e => { e with ref := some i })
      { s with pool := { s.pool with refs := tput s.pool.refs (bufStack h * 2 ^ 17 + i) n } }
  else copyReaders h e.owner stage op filling (n - 1) (bumpBy 0x06 0x0100 0x04 (n - 1) s)

/-- POOL_SHARE. -/
def execPoolShare (handle n owner stage op caller : Nat) (filling : List Nat) (s : State) : Res :=
  live (whenB s.going (onBuffer handle owner stage op caller 0x020D (shareBuf handle n stage op filling))) s

/-- Change a reference count. -/
def setRef (stack i n : Nat) (s : State) : State :=
  { s with pool := { s.pool with refs := tput s.pool.refs (stack * 2 ^ 17 + i) n } }

/-- Count of a reference-count entry. -/
def State.refCount (s : State) (stack i : Nat) : Nat := tgetD s.pool.refs (stack * 2 ^ 17 + i) 0

/-- ADD: adds to the count of a shared buffer; an unshared one has no count to add to. -/
def addBuf (h k : Nat) (e : PoolEntry) (s : State) : State :=
  match e.ref with
  | none => s
  | some i => setRef (bufStack h) i (s.refCount (bufStack h) i + k) s

/-- POOL_ADD. -/
def execPoolAdd (handle k owner stage op caller : Nat) (s : State) : Res :=
  live (whenB s.going (onBuffer handle owner stage op caller 0x020D (addBuf handle k))) s

/-- RELEASE: one reader less; at 0 the entry and the chain are freed (R276). Of an unshared buffer the manual states no
result: a free value says whether it is freed. -/
def releaseBuf (h : Nat) (e : PoolEntry) (s : State) : State :=
  match e.ref with
  | some i =>
    let n := s.refCount (bufStack h) i
    if n ≤ 1 then freeChain h s else setRef (bufStack h) i (n - 1) s
  | none => tickFree (if Config.freeBool s.freeTick then freeChain h s else s)

/-- POOL_RELEASE. -/
def execPoolRelease (handle owner stage op caller : Nat) (s : State) : Res :=
  live (whenB s.going (onBuffer handle owner stage op caller 0x020C (releaseBuf handle))) s

end Sys2Proof.Machine
end

