-- ==== Sys2Proof/Machine/StackMem.lean ====
section
/-! DEFINITION. Stack memory (R248 to R259): what follows a read's outcome, writes, remap, the scrubber and fills. A row names
the errors that its words meet; Words.lean and Reed.lean say what outcome they give. -/

namespace Sys2Proof.Machine

/-! ### Stacks -/

/-- Remapped indices of a stack. -/
def State.remapped (s : State) (stack : Nat) : List Nat := tgetD s.mem.remap stack []

/-- Does a stack's word exist: a stack in service, an index of its code words? -/
def State.wordServes (s : State) (stack idx : Nat) : Bool :=
  decide (stack < 8) && decide (idx < 2 ^ 30) && s.inService (uStack stack)

/-! ### Who reads -/

/-- A reader: its unit, the pipeline, stage and operator it works for, and the record, if any, in whose handling it reads (R387). -/
structure Reader where
  unit : Nat
  pipeline : Nat
  stage : Nat
  op : Nat
  nest : Option (Nat × Nat) := none
  deriving DecidableEq, Repr

/-- The reader that a number names: from 1 024 the current entry of that engine queue; below it firmware on a CP core; from 65 536 firmware
on a CP core at work on a command, pair × 65 536 + CMD_ID above that. -/
def State.readerOf (s : State) (r : Nat) : Reader :=
  if r < 1024 ∨ 65536 ≤ r then { unit := uCp (r % 4), pipeline := 0xFF, stage := 0, op := 0 }
  else match s.current r with
    | some e => { unit := s.queueUnit r, pipeline := e.pipeline, stage := e.stage, op := e.op, nest := s.entryRecord r e }
    | none => { unit := s.queueUnit r, pipeline := 0xFF, stage := 0, op := 0 }

/-- A record of scope code word, in the S-die's ring (R250, R379). -/
def wordRecord (cause cls stack idx sym : Nat) (rd : Reader) (s : State) : State :=
  recordErrOn (4 + stack)
    (ErrArgs.under rd.nest
      { plainErr (uStack stack) cause cls 4 (idx % 2 ^ 30 + stack * 2 ^ 32) (sym % 2 ^ 16 + wordChannel idx * 2 ^ 16) rd.unit with
        pipeline := rd.pipeline
        stage := rd.stage
        operator := rd.op }) s

/-- A record of scope pseudo-channel. -/
def channelRecord (cause cls stack idx : Nat) (rd : Reader) (s : State) : State :=
  recordErrOn (4 + stack)
    (ErrArgs.under rd.nest
      { plainErr (uStack stack) cause cls 5 (wordChannel idx + stack * 2 ^ 8) idx 0 with
        pipeline := rd.pipeline
        stage := rd.stage
        operator := rd.op }) s

/-! ### A stack leaves service (R21, R256, R273) -/

/-- Entries of a queue that is not served any more go back to the firmware, which places them elsewhere (R122). -/
def requeue (k : Nat) (s : State) : State :=
  let q := s.queue k
  (q.entries.drop q.completions.length).foldl (fun (t : State) (e : Entry) =>
    modSample e.sample (fun x => if x.place = some (k, e.seq) then { x with phase := .ready, place := none } else x) t)
    (modQueue k (fun q => { q with entries := q.entries.take q.completions.length }) s)

/-- Samples with a buffer in a stack are made again (R21). -/
def remakeIn (stack : Nat) (s : State) : State :=
  (s.eng.samples.filter fun kv => kv.2.bufs.any fun h => bufStack h == stack).foldl
    (fun (t : State) (kv : Nat × Sample) =>
      remake { kv.2 with record := (s.heldRecord (4 + stack) 2 (uStack stack)).orElse fun _ => kv.2.record } t) s

/-- A unit joins the retired ones, whose list every boot restores; a logbook record says so (R408). -/
def noteRetired (u cause parent : Nat) (s : State) : State :=
  if u ∈ s.ftest.retired then s
  else
    logRecord 0x0022 u (retirementBody u cause parent)
      { s with ftest := { s.ftest with retired := s.ftest.retired ++ [u] } }

/-- A stack is retired (R256, R408): the logbook record, the UNIT_FATAL record, its buffers and the samples in them, the schedule
windows with entries in it, its engines' entries. The stack alone is recorded and raises event 0x0001: its four stack engines, which
leave with it, raise none of their own (DESIGN CHOICE). -/
def retireStack (stack cause : Nat) (s : State) : State :=
  if s.inService (uStack stack) then
    let s1 := recordErrOn (4 + stack) (plainErr (uStack stack) cause clsUnitFatal 2 (uStack stack) 0 0)
      (noteRetired (uStack stack) cause noParent s)
    let s2 := loseScheduleStack stack (dropStackBufs stack (remakeIn stack s1))
    (List.range 4).foldl (fun (t : State) (i : Nat) => requeue (queueKey 1 (stack * 4 + i)) t) s2
  else s

/-- 256 consecutive uncorrectable or address outcomes on a pseudo-channel retire the stack (R256). -/
def noteStreak (bad : Bool) (stack idx : Nat) (s : State) : State :=
  let k := stack * 32 + wordChannel idx
  if bad then
    let n := tgetD s.mem.streak k 0 + 1
    let s1 := { s with mem := { s.mem with streak := tput s.mem.streak k n } }
    if n = 256 then retireStack stack 0x020B s1 else s1
  else { s with mem := { s.mem with streak := tdel s.mem.streak k } }

/-! ### Remap (R255, R256) -/

/-- A persistent uncorrectable word met with the remap table full counts once; the 16th retires its stack (R256). -/
def notePersist (stack idx : Nat) (s : State) : State :=
  let key := wordKey stack idx
  if s.mem.persist.contains key then s
  else
    let l := s.mem.persist ++ [key]
    let s1 := { s with mem := { s.mem with persist := l } }
    if (l.filter fun k => k / 2 ^ 30 == stack).length = 16 then retireStack stack 0x020B s1 else s1

/-- A persistent word takes a remap entry; with none left it stays, and is recorded once. -/
def remapWord (stack idx sym : Nat) (poisoned : Bool) (s : State) : State :=
  let l := s.remapped stack
  if idx ∈ l then s
  else if l.length < 32 then
    tickFree (logRecord 0x0030 (uStack stack)
      (fitTo 32 (putLE 4 stack ++ putLE 4 idx ++ putLE 2 sym ++ putLE 2 (Config.recordTemp s.freeTick)))
      { s with mem := { s.mem with remap := tput s.mem.remap stack (l ++ [idx]) } })
  else
    let rd : Reader := { unit := uDie (4 + stack), pipeline := 0xFF, stage := 0, op := 0 }
    let s1 := if wordKey stack idx ∈ s.mem.fullSeen then s
      else wordRecord 0x0208 clsContained stack idx sym rd
        { s with mem := { s.mem with fullSeen := s.mem.fullSeen ++ [wordKey stack idx] } }
    if poisoned then notePersist stack idx s1 else s1

/-! ### Decode outcomes (R248) -/

/-- One stored symbol was in error: corrected, written back and read again. -/
def correctWord (stack idx sym : Nat) (bs : Bytes) (again : List Nat) (rd : Reader) (s : State) : State :=
  let s1 := setWord stack idx (.data bs) (channelRecord 0x0201 clsCorrected stack idx rd (bump 0x05 stack 0x05 s))
  if again.isEmpty then s1 else remapWord stack idx sym false s1

/-- A word that cannot be corrected is rewritten as poisoned, and read back. -/
def poisonWord (cause stack idx : Nat) (again : List Nat) (rd : Reader) (s : State) : State :=
  let s1 := setWord stack idx .poison (wordRecord cause clsContained stack idx 0xFFFF rd (bump 0x05 stack 0x06 s))
  if again.isEmpty then s1 else remapWord stack idx (again.headD 0) true s1

/-- A misdirected access: the word is left unchanged. -/
def misdirect (stack idx : Nat) (rd : Reader) (s : State) : State :=
  noteStreak true stack idx (channelRecord 0x0205 clsContained stack idx rd (bump 0x05 stack 0x07 s))

/-- A read of a word decodes it (R248): the state after, and the data where they are returned. -/
def decodeWord (stack idx : Nat) (f : WordFault) (rd : Reader) (s : State) : State × Option Bytes :=
  let s0 := f.used s
  match s.outcomeAt stack idx f with
  | .data bs => (noteStreak false stack idx s0, some bs)
  | .corrected sym bs => (correctWord stack idx sym bs f.again rd (noteStreak false stack idx s0), some bs)
  | .uncorrectable => (noteStreak true stack idx (poisonWord 0x0203 stack idx f.again rd s0), none)
  | .address => (misdirect stack idx rd s0, none)
  | .uninitialised =>
    (wordRecord 0x0206 clsContained stack idx 0xFFFF rd (bump 0x05 stack 0x08 (noteStreak false stack idx s0)), none)
  | .poison => (wordRecord 0x0207 clsContained stack idx 0xFFFF rd (noteStreak false stack idx s0), none)

/-- The other half's copy of a table word (R245). -/
def otherHalf (stack : Nat) : Nat := (stack + 4) % 8

/-- A word as a reader gets it (R251): a table word that is not returned comes from the other half's copy, and is restored; where that
is not returned either, or its stack is out of service, the objects that lie there are damaged. A schedule word that is not returned
makes its windows wait for their rebuild. -/
def readWord (stack idx : Nat) (fs : List (Nat × WordFault)) (rd : Reader) (s : State) : State × Option Bytes :=
  let r := decodeWord stack idx (faultAt fs stack idx) rd s
  if r.2.isSome then r
  else if wordArea idx = 0 then
    let other := otherHalf stack
    if r.1.wordServes other idx then
      let q := decodeWord other idx (faultAt fs other idx) rd r.1
      match q.2 with
      | some bs => (wordRecord 0x0202 clsCorrected stack idx 0xFFFF rd (setWord stack idx (.data bs) q.1), some bs)
      | none => (damageObjects stack idx q.1, none)
    else (damageObjects stack idx r.1, none)
  else if wordArea idx = 1 then (loseScheduleWord stack idx r.1, none)
  else r

/-- POISON for an entry whose read of a word failed; cause 19 marks a damaged object of the table area (R250, R251). -/
def poisonC (work stack idx : Nat) : Completion :=
  { doneC work with code := 6, cause := if wordArea idx = 0 then 19 else 0, lostWord := some (wordKey stack idx) }

/-- The firmware operation of a command fails (R250, R251): it completes, with a status that no chapter states. -/
def failCommand (pair cid : Nat) (s : State) : State := tickFree (refuse pair cid (Config.failStatus s.freeTick % 2 ^ 16) s)

/-- The poison signal of a read: the reader's current entry completes with POISON, or the firmware operation fails. -/
def poisonReader (r stack idx : Nat) (s : State) : State :=
  if 65536 ≤ r then failCommand ((r - 65536) / 65536) ((r - 65536) % 65536) s
  else if r < 1024 then s
  else match s.current r with
    | some e => completeEntry r e (poisonC 0 stack idx) s
    | none => s

/-- The stack that serves an access to a word: that of a table word of a stack out of service is in the other half (R245). -/
def State.servingStack (s : State) (stack idx : Nat) : Nat :=
  if wordArea idx = 0 && !s.inService (uStack stack) then otherHalf stack else stack

/-- CODE_WORD_READ: `faults` are the errors that the words read meet. -/
def codeWordRead (stack0 idx : Nat) (faults : List (Nat × WordFault)) (reader : Nat) (s : State) : State :=
  let stack := s.servingStack stack0 idx
  if s.wordServes stack idx then
    let r := readWord stack idx faults (s.readerOf reader) s
    if r.2.isNone then poisonReader reader stack idx r.1 else r.1
  else s

/-- CODE_WORD_READ. -/
def execCodeWordRead (stack idx : Nat) (faults : List (Nat × WordFault)) (reader : Nat) (s : State) : Res :=
  live (codeWordRead stack idx faults reader) s

/-! ### Writes (R254) -/

/-- A narrow write: read-modify-write in the S-die, by what the read meets; false where the writer completes with POISON. -/
def narrowWrite (stack idx off : Nat) (data : Bytes) (f : WordFault) (rd : Reader) (s : State) : State × Bool :=
  let s0 := f.used s
  match s.outcomeAt stack idx f with
  | .data bs => (setWord stack idx (.data (patch bs off data)) (noteStreak false stack idx s0), true)
  | .corrected sym bs =>
    (setWord stack idx (.data (patch bs off data)) (correctWord stack idx sym bs f.again rd (noteStreak false stack idx s0)), true)
  | .uninitialised => (setWord stack idx (.data (patch (zeros 64) off data)) (noteStreak false stack idx s0), true)
  | .poison => (wordRecord 0x0207 clsContained stack idx 0xFFFF rd (noteStreak false stack idx s0), false)
  | .uncorrectable => (noteStreak true stack idx (poisonWord 0x0203 stack idx f.again rd s0), false)
  | .address => (misdirect stack idx rd s0, false)

/-- Write into a word, whole or narrow: a whole write replaces any content and records nothing. -/
def writeWord (stack idx off : Nat) (data : Bytes) (f : WordFault) (rd : Reader) (s : State) : State × Bool :=
  if off = 0 ∧ data.length = 64 then (setWord stack idx (.data data) s, true) else narrowWrite stack idx off data f rd s

/-- CODE_WORD_WRITE. A table word of a stack out of service is written in the other half (R245). -/
def codeWordWrite (stack0 idx off : Nat) (data : Bytes) (fault : WordFault) (writer : Nat) (s : State) : State :=
  let stack := s.servingStack stack0 idx
  if s.wordServes stack idx ∧ off + data.length ≤ 64 then
    let r := writeWord stack idx off data fault (s.readerOf writer) s
    if r.2 then r.1 else poisonReader writer stack idx r.1
  else s

/-- CODE_WORD_WRITE. -/
def execCodeWordWrite (stack idx off : Nat) (data : Bytes) (fault : WordFault) (writer : Nat) (s : State) : Res :=
  live (codeWordWrite stack idx off data fault writer) s

/-! ### The scrubber (R257, R258) -/

/-- One word as the scrubber treats it: it decodes by R248, and patterns are counted and not recorded. -/
def scrubWord (stack idx : Nat) (f : WordFault) (s : State) : State :=
  let rd : Reader := { unit := uDie (4 + stack), pipeline := 0xFF, stage := 0, op := 0 }
  let s0 := f.used s
  match s.outcomeAt stack idx f with
  | .data _ => noteStreak false stack idx s0
  | .corrected sym bs => correctWord stack idx sym bs f.again rd (noteStreak false stack idx s0)
  | .uncorrectable => noteStreak true stack idx (poisonWord 0x0204 stack idx f.again rd s0)
  | .address => misdirect stack idx rd s0
  | .uninitialised => bump 0x05 stack 0x09 (noteStreak false stack idx s0)
  | .poison => bump 0x05 stack 0x09 (noteStreak false stack idx s0)

/-- Does a scrub pass, running or paused, cover a stack? -/
def State.passCovers (s : State) (stack : Nat) : Bool :=
  s.ken.longOps.any fun l => l.opcode == 0x0508 && bitOf (byteAt l.entry 32) stack

/-- SCRUB_STEP: the next word of the background scrubber. -/
def scrubStep (stack : Nat) (fault : WordFault) (s : State) : State :=
  if s.wordServes stack 0 && !s.passCovers stack then
    let i := s.raw 0x05 stack 0x03 0
    let s1 := setRaw 0x05 stack 0x03 ((i + 1) % 2 ^ 30) (scrubWord stack i fault s)
    if i + 1 = 2 ^ 30 then bump 0x05 stack 0x04 s1 else s1
  else s

/-- SCRUB_STEP. -/
def execScrubStep (stack : Nat) (fault : WordFault) (s : State) : Res :=
  live (scrubStep stack fault) s

/-- Stacks that a STACKS byte selects. -/
def stacksOf (mask : Nat) : List Nat := (List.range 8).filter fun i => bitOf mask i

/-- Words per stack of a scrub pass. -/
def scrubCount (c : Cmd) : Nat := if c.p64 48 = 0 then 2 ^ 30 - c.p64 40 else c.p64 48

/-- Unit that a scrub pass or a fill holds: told apart by opcode and STACKS. -/
def stacksTarget (c : Cmd) (_ : State) : Nat := 2 ^ 22 + c.opcode * 256 + c.p8 32

/-- Is a stack that the command selects held by another operation of the kind? -/
def State.stacksHeld (s : State) (c : Cmd) : Bool :=
  s.ken.longOps.any fun l => l.opcode == c.opcode && (stacksOf (c.p8 32)).any fun i => bitOf (byteAt l.entry 32) i

/-- Checks of SCRUB_PASS. -/
def scrubCheck (c : Cmd) (s : State) : Nat :=
  if c.p8 32 = 0 ∨ 2 ^ 30 ≤ c.p64 40 ∨ 2 ^ 30 - c.p64 40 < c.p64 48 then stInvalidField
  else if s.stacksHeld c then stBusy else stOk

/-- PROGRESS of these operations: steps taken on every stack in the low 40 bits, the total above. -/
def progressOf (steps total : Nat) : Nat := steps + total * 2 ^ 40

/-- RESULT: total in the low bits, stacks skipped because they left service above. -/
def stacksResult (s : State) (mask total width : Nat) : Nat :=
  total % 2 ^ width + ((stacksOf mask).filter fun i => !s.inService (uStack i)).length * 2 ^ width

/-- Words without a fault from `lo` up to `hi` are read: patterns among them are counted, and the runs of bad reads of their
pseudo-channels end (R256, R257). -/
def scrubClean (stack lo hi : Nat) (s : State) : State :=
  let known := (s.mem.words.filter fun kv =>
    decide (wordKey stack lo ≤ kv.1 ∧ kv.1 < wordKey stack hi) && kv.2 != .poison).length
  let touched (k : Nat) : Bool :=
    k / 32 == stack && (List.range (min (hi - lo) 128)).any fun i => wordChannel (lo + i) == k % 32
  bumpBy 0x05 stack 0x09 (hi - lo - known)
    { s with mem := { s.mem with streak := tfilter s.mem.streak fun k _ => !touched k } }

/-- Scrub the words of a stack from `lo` up to `hi`, in ascending order, with the faulty ones among them. -/
def scrubSpan (stack hi : Nat) : List (Nat × WordFault) → Nat → State → State
  | [], lo, s => scrubClean stack lo hi s
  | (k, f) :: t, lo, s =>
    let i := k % 2 ^ 30
    if k / 2 ^ 30 = stack ∧ lo ≤ i ∧ i < hi then scrubSpan stack hi t (i + 1) (scrubWord stack i f (scrubClean stack lo i s))
    else scrubSpan stack hi t lo s

/-- Scrub `n` words of each selected stack in service from where a pass stands; `faults` names the words in error. -/
def scrubRange (n : Nat) (faults : List (Nat × WordFault)) (l : LongOp) (s : State) : State × LongOp × Nat :=
  let c := l.cmd
  let steps := l.progress % 2 ^ 40
  let selected := (stacksOf (c.p8 32)).filter fun i => s.inService (uStack i)
  let first := c.p64 40 + steps
  let sorted : Table WordFault := faults.foldl (fun t f => tput t f.1 f.2) []
  let s1 := selected.foldl (fun (t : State) (st : Nat) => scrubSpan st (first + n) sorted first t) s
  let total := l.progress / 2 ^ 40 + n * selected.length
  (s1, { l with progress := progressOf (steps + n) total }, stacksResult s1 (c.p8 32) total 40)

/-- SCRUB_PASS to its end. -/
def scrubDone (faults : List (Nat × WordFault)) (l : LongOp) (s : State) : State :=
  let r := scrubRange (scrubCount l.cmd - l.progress % 2 ^ 40) faults l s
  finish l.pair l.cid stOk r.2.2 r.1

/-- SCRUB_PASS. -/
def execScrubPass (pair cid : Nat) (faults : List (Nat × WordFault)) (s : State) : Res :=
  live (runLong 0x0508 pair cid stacksTarget scrubCheck (scrubDone faults)) s

/-- A slice of SCRUB_PASS: `n` words on each stack, leaving one at least. -/
def scrubSlice (faults : List (Nat × WordFault)) (n : Nat) (l : LongOp) (s : State) : State × LongOp × Nat :=
  scrubRange (min n (scrubCount l.cmd - l.progress % 2 ^ 40 - 1)) faults l s

/-! ### INIT_FILL (R259, R266) -/

/-- Buffers of a stack, class 0 first: number ↦ handle. -/
def nthBuffer (stack i : Nat) : Nat :=
  if i < perStack 0 then bufHandle 0 stack i else bufHandle 1 stack (i - perStack 0)

/-- Buffers of a stack. -/
def stackBuffers : Nat := perStack 0 + perStack 1

/-- Write an 8-byte pattern over a buffer. -/
def fillBuffer (h : Nat) (pattern : Bytes) (s : State) : State :=
  let w : Bytes := (List.replicate 8 pattern).flatten
  (List.range (bufBytes (bufCls h) / 64)).foldl (fun (t : State) (i : Nat) => setWord (bufStack h) (bufWord h + i) (.data w) t) s

/-- Checks of INIT_FILL. -/
def fillCheck (c : Cmd) (s : State) : Nat :=
  if c.p8 32 = 0 ∨ c.p8 33 ≠ 0 then stInvalidField else if s.stacksHeld c then stBusy else stOk

/-- Fill up to `n` buffers of each selected stack in service, from where a fill stands. -/
def fillRange (n : Nat) (l : LongOp) (s : State) : State × LongOp × Nat :=
  let c := l.cmd
  let steps := l.progress % 2 ^ 40
  let selected := (stacksOf (c.p8 32)).filter fun i => s.inService (uStack i)
  let hs : List Nat := (selected.map fun st => (List.range n).map fun i => nthBuffer st (steps + i)).flatten
  let free := hs.filter fun h => !thas s.pool.entries h
  let s1 := free.foldl (fun (t : State) (h : Nat) => fillBuffer h (putLE 8 (c.p64 40)) t) s
  let total := l.progress / 2 ^ 40 + (free.map fun h => bufBytes (bufCls h)).sum
  (s1, { l with progress := progressOf (steps + n) total }, stacksResult s1 (c.p8 32) total 48)

/-- INIT_FILL to its end. -/
def fillDone (l : LongOp) (s : State) : State :=
  let r := fillRange (stackBuffers - l.progress % 2 ^ 40) l s
  finish l.pair l.cid stOk r.2.2 r.1

/-- INIT_FILL. -/
def execInitFill (pair cid : Nat) (s : State) : Res := live (runLong 0x0509 pair cid stacksTarget fillCheck fillDone) s

/-- A slice of INIT_FILL: `n` buffers of each stack, leaving one at least. -/
def fillSlice (n : Nat) (l : LongOp) (s : State) : State × LongOp × Nat :=
  fillRange (min n (stackBuffers - l.progress % 2 ^ 40 - 1)) l s

end Sys2Proof.Machine
end

