-- ==== Sys2Proof/Machine/FieldTest.lean ====
section
/-! DEFINITION. In-field test, spare cores and retirement (R18, R20, R400 to R416). Temperatures are °C × 8. -/

namespace Sys2Proof.Machine

/-! ### Core slots (R403, R416) -/

/-- Set the state of a core slot. -/
def setCore (i v : Nat) (s : State) : State := { s with ftest := { s.ftest with slots := tput s.ftest.slots i v } }

/-- The logical core whose identity a slot holds. -/
def State.identityOf (s : State) (i : Nat) : Option Nat :=
  ((List.range 4).map (i / 5 * 4 + ·)).find? fun l => s.slotOf l == i && s.inService (uLogical l)

/-- A logical identity of a cluster that no core holds. -/
def State.lostIdentity (s : State) (c : Nat) : Option Nat :=
  ((List.range 4).map (c * 4 + ·)).find? fun l => !s.inService (uLogical l)

/-- A slot takes a logical identity. -/
def takeIdentity (l slot : Nat) (s : State) : State :=
  setCore slot 0 { s with ftest := { s.ftest with logical := tput s.ftest.logical l slot } }

/-- A slot returns to the rotation: as the spare, or, where a logical identity has no core, with that identity (R18). -/
def becomeSpare (i : Nat) (s : State) : State :=
  match s.lostIdentity (i / 5) with
  | some l => enterService (uLogical l) (takeIdentity l i s)
  | none => setCore i 1 s

/-- The queued entries of a logical core go to other cores. -/
def requeueCore (l : Nat) (s : State) : State :=
  [6, 7, 8].foldl (fun (t : State) (e : Nat) => requeue (queueKey e l) t) s

/-- A logical identity leaves service: its queued entries are issued again to the cluster's other cores (R18, R409). -/
def loseIdentity (l : Nat) (s : State) : State := requeueCore l (departService (uLogical l) s)

/-- The core slot of a cluster that is under test and holds no identity. It counts as in service (R18). -/
def State.testedSlot (s : State) (c : Nat) : Option Nat :=
  ((List.range 5).map (c * 5 + ·)).find? fun i => s.coreState i == 2 && s.coreServes i && (s.identityOf i).isNone

/-- A slot gives up its logical identity: to the spare where there is one; else to the core under test, which serves it once its test
has ended, the logical count being unchanged (R18); else the identity leaves service (R409). -/
def releaseCore (i : Nat) (s : State) : State :=
  match s.identityOf i with
  | none => s
  | some l =>
    match s.spareOf (i / 5), s.testedSlot (i / 5) with
    | some sp, _ => takeIdentity l sp s
    | none, some j => requeueCore l { s with ftest := { s.ftest with logical := tput s.ftest.logical l j } }
    | none, none => loseIdentity l s

/-! ### Retirement (R20, R408) -/

/-- Queue that a unit other than a core serves. -/
def unitQueue (u : Nat) : Option Nat :=
  match u / 4096 with
  | 5 => some (queueKey 2 (u % 4096))
  | 6 => some (queueKey 3 (u % 4096))
  | 7 => some (queueKey 4 (u % 4096))
  | 8 => some (queueKey 5 (u % 4096))
  | 9 => some (queueKey 1 (u % 4096))
  | 13 => some (queueKey 9 (u % 4096))
  | _ => none

/-- The work queued for a unit that has left service goes elsewhere (R17, R122). -/
def reissue (u : Nat) (s : State) : State :=
  match unitQueue u with
  | some k => requeue k s
  | none => s

/-- A cluster whose physical cores are all retired leaves service as a whole (R20). -/
def retireCluster (c : Nat) (s : State) : State :=
  if (List.range 5).all fun k => s.slotRetired (c * 5 + k) then
    let s1 := recordErr (plainErr (uCluster c) 0x0506 clsUnitFatal 2 (uCluster c) 0 0) s
    ((List.range 4).map (fun k => queueKey 2 (4 * c + k)) ++ [queueKey 3 c, queueKey 4 c, queueKey 5 (2 * c), queueKey 5 (2 * c + 1)]).foldl
      (fun (t : State) (k : Nat) => requeue k t) s1
  else s

/-- A unit is retired for the life of the part: logbook record, UNIT_FATAL record, and what goes with the unit. Every stripe of a
magazine has two members on each of its channels, so a magazine that loses a channel fails, as one whose channel does not train
(R280, R283). -/
def retireUnit (u parent : Nat) (s : State) : State :=
  if u ∈ s.ftest.retired then s
  else
    let s0 := noteRetired u 0x0506 parent s
    let s1 := { s0 with ftest := { s0.ftest with
          tests := s.ftest.tests.filter fun t => t.unit != u
          pendingTakeover := tfilter s.ftest.pendingTakeover fun _ d => uSlot d.slot != u } }
    let fatal (t : State) : State := recordErr { plainErr u 0x0506 clsUnitFatal 2 u 0 0 with
          parent := parent, depth := if parent = noParent then 0 else 1 } t
    match u / 4096 with
    | 3 => retireCluster (u % 4096 / 5) (fatal (setCore (u % 4096) 4 (releaseCore (u % 4096) s1)))
    | 10 => retireStack (u % 4096) 0x0506 s1
    | 11 => departService (uMagazine (u % 4096 / 8)) (failMagazine (u % 4096 / 8) (fatal s1))
    | 13 => reissue u (disablePort (u % 4096) 0 true (fatal s1))
    | _ => reissue u (fatal s1)

/-! ### Tests (R403 to R406) -/

/-- Completed tests of a unit in its life. -/
def State.testsDone (s : State) (u : Nat) : Nat := tgetD s.ftest.completed u 0

/-- Is a unit under test? -/
def State.testing (s : State) (u : Nat) : Bool := s.ftest.tests.any fun t => t.unit == u

/-- Is EXTENDED set? Its reset value is 1 on the -LX part (R416). -/
def State.extended (s : State) : Bool := s.raw 0x10 0x0100 0x01 (if Config.isLX then 1 else 0) == 1

/-- May another test of a core start on a C-die (R402, R416)? -/
def State.dieAllows (s : State) (die : Nat) : Bool :=
  decide ((s.ftest.tests.filter fun t => t.unit / 4096 == 3 && dieOf t.unit == die).length < s.raw 0x10 0x0100 0x02 2)

/-- The setup of a test that starts now. -/
def State.newTest (s : State) (u trigger parent : Nat) (ext nominal : Bool) (temp : Int) : TestRun :=
  { unit := u, trigger := trigger, extended := ext, nominal := nominal, seqNo := s.testsDone u % 3, tbStart := s.tb,
    tempStart := temp, parent := parent }

/-- A test starts: a core slot is testing; another unit is out of service meanwhile, and its work goes elsewhere (R405). -/
def startTest (t : TestRun) (s : State) : State :=
  let s1 := { s with ftest := { s.ftest with tests := s.ftest.tests ++ [t] } }
  if t.unit / 4096 = 3 then setCore (t.unit % 4096) 2 s1 else reissue t.unit (departService t.unit s1)

/-- Outcome of a test (R406): 0 pass, 1 transient, 2 persistent, 3 retired by this test (R408). -/
def State.outcomeOf (s : State) (o : TestOut) : Nat :=
  if o.failPattern = 0xFFFF then 0
  else if !o.repeatFails then 1
  else if 1 ≤ tgetD s.ftest.persistent o.unit 0 then 3 else 2

/-- The 64 bytes of a test record (R415). -/
def TestRec.bytes (r : TestRec) : Bytes :=
  withCrc (fitTo 60 (putLE 8 r.tbStart ++ putLE 8 r.tbEnd ++ putLE 2 r.unit ++ putLE 1 r.trigger ++ putLE 1 r.setup
    ++ putLE 1 r.outcome ++ zeros 1 ++ putLE 2 r.failPattern ++ putLE 2 (r.tempStart % 65536).toNat
    ++ putLE 2 (r.tempPeak % 65536).toNat ++ putLE 2 r.vddMv ++ putLE 2 r.freqMhz ++ putLE 8 r.signature ++ putLE 8 r.expected
    ++ putLE 4 r.parent))

/-- Cluster of a unit whose tests the cluster fields count. -/
def clusterOf (u : Nat) : Option Nat :=
  let i := u % 4096
  match u / 4096 with
  | 3 => some (i / 5)
  | 5 => some (i / 4)
  | 6 => some i
  | 7 => some i
  | 8 => some (i / 2)
  | _ => none

/-- The record of a test that has ended. -/
def State.testRecord (s : State) (t : TestRun) (o : TestOut) (outcome : Nat) : TestRec :=
  let core := decide (t.unit / 4096 = 3)
  let mv := s.setPoint (if t.unit / 4096 = 9 then 4 else dieOf t.unit)
  { tbStart := t.tbStart, tbEnd := s.tb, unit := t.unit, trigger := t.trigger,
    setup := (if t.extended then 1 else 0) + (if t.nominal then 2 else 0) + t.seqNo * 4, outcome := outcome,
    failPattern := o.failPattern, tempStart := t.tempStart, tempPeak := o.tempPeak,
    vddMv := if core && !t.nominal then mv - 30 else mv,
    freqMhz := if core && !t.nominal then 832 else 800,
    signature := if outcome = 0 then 0 else o.signature, expected := if outcome = 0 then 0 else o.expected, parent := t.parent }

/-- Keep a test record: the last 256, and the logbook's copy (R415, R444). -/
def keepRecord (r : TestRec) (s : State) : State :=
  let full := decide (256 ≤ s.ftest.records.length)
  logRecord (if r.outcome ≤ 1 then 0x0020 else 0x0021) r.unit r.bytes
    { s with ftest := { s.ftest with
        records := (if full then s.ftest.records.drop 1 else s.ftest.records) ++ [r]
        replaced := if full then s.ftest.replaced + 1 else s.ftest.replaced } }

/-- Counters of a finished test. -/
def countTest (u outcome : Nat) (s : State) : State :=
  let s1 := { s with ftest := { s.ftest with
    completed := tput s.ftest.completed u (s.testsDone u + 1)
    persistent := if 2 ≤ outcome then tput s.ftest.persistent u (tgetD s.ftest.persistent u 0 + 1) else s.ftest.persistent
    clock := s.ftest.clock + 1
    lastTest := if u / 4096 = 3 then tput s.ftest.lastTest (u % 4096) (s.ftest.clock + 1) else s.ftest.lastTest } }
  match clusterOf u with
  | none => s1
  | some c =>
    let s2 := bump 0x10 c 0x04 s1
    if outcome = 1 then bump 0x10 c 0x05 s2 else if 2 ≤ outcome then bump 0x10 c 0x06 s2 else s2

/-- A core slot enters REQUALIFYING (R407). -/
def requalify (i : Nat) (t : TestRun) (s : State) : State :=
  departService (uSlot i) (setCore i 3 { s with ftest := { s.ftest with passes := tput s.ftest.passes i { count := 0, failed := t } } })

/-- What the outcome makes of the unit (R406 to R408). `held`: the slot kept its logical identity during the test. -/
def afterTest (t : TestRun) (outcome : Nat) (held : Bool) (s : State) : State :=
  let u := t.unit
  let s1 := { s with
    ftest := { s.ftest with tests := s.ftest.tests.filter fun x => x.unit != u }
    eng := { s.eng with suspects := tdel s.eng.suspects u, runs := tdel s.eng.runs u } }
  if outcome = 3 then retireUnit u t.parent s1
  else if u / 4096 = 3 then
    if outcome = 2 then requalify (u % 4096) t (if held then releaseCore (u % 4096) s1 else s1)
    else if held then setCore (u % 4096) 0 s1
    else if s1.coreState (u % 4096) = 3 then s1
    else becomeSpare (u % 4096) s1
  else enterService u s1

/-- A test ends: records, event 0x000A for a failure, counters and the outcome. -/
def finishTest (t : TestRun) (o : TestOut) (held : Bool) (s : State) : State :=
  let outcome := s.outcomeOf o
  let s1 := countTest t.unit outcome (keepRecord (s.testRecord t o outcome) s)
  let s2 := if outcome = 0 then s1 else raiseEvent 0x000A t.unit (t.unit + outcome * 2 ^ 16) s1
  afterTest t outcome held s2

/-- TEST_COMPLETE. After PACKAGE_FATAL no test is left to complete (R402). -/
def testComplete (o : TestOut) (s : State) : State :=
  match s.ftest.tests.find? fun t => t.unit == o.unit with
  | some t => finishTest t o (decide (t.unit / 4096 = 3) && (s.identityOf (t.unit % 4096)).isSome) s
  | none => s

/-- TEST_COMPLETE. -/
def execTestComplete (out : TestOut) (s : State) : Res := live (testComplete out) s

/-! ### Rotation (R402, R403) -/

/-- DEFERRALS of a cluster rises. -/
def deferTest (c : Nat) (wait : Bool) (s : State) : State :=
  let s1 := bump 0x10 c 0x07 s
  if wait then { s1 with ftest := { s1.ftest with
    deferred := if c ∈ s1.ftest.deferred then s1.ftest.deferred else s1.ftest.deferred ++ [c] } }
  else s1

/-- The slot of a cluster whose last completed test is oldest, ties going to the lower slot. -/
def State.oldestSlot (s : State) (c : Nat) : Option Nat :=
  (((List.range 5).map (c * 5 + ·)).filter fun i => s.coreState i ≤ 2 && s.coreServes i).foldl
    (fun (o : Option Nat) (i : Nat) => match o with
      | none => some i
      | some j => if tgetD s.ftest.lastTest i 0 < tgetD s.ftest.lastTest j 0 then some i else some j) none

/-- Does the due test of another cluster of the die wait ahead of a cluster's (R402)? -/
def State.waitsBehind (s : State) (c : Nat) : Bool :=
  (s.ftest.waiting.takeWhile fun d => d != c).any fun d => dieOf (uCluster d) == dieOf (uCluster c)

/-- A cluster's test starts, or waits for its takeover: its due time is served. -/
def leaveWait (c : Nat) (s : State) : State :=
  { s with ftest := { s.ftest with waiting := s.ftest.waiting.filter fun d => d != c } }

/-- A core slot's test falls due: the spare is tested at once, another slot waits for a takeover (R402, R403). -/
def coreTestDue (i trigger parent : Nat) (temp : Int) (s : State) : State :=
  let c := i / 5
  if s.ken.fatal ∨ s.testing (uSlot i) ∨ thas s.ftest.pendingTakeover c then s
  else if (s.spareOf c).isNone then deferTest c false (leaveWait c s)
  else if 760 ≤ temp then deferTest c true (leaveWait c s)
  else if !s.dieAllows (dieOf (uSlot i)) || s.waitsBehind c then
    { s with ftest := { s.ftest with waiting := if c ∈ s.ftest.waiting then s.ftest.waiting else s.ftest.waiting ++ [c] } }
  else if s.coreState i = 1 then startTest (s.newTest (uSlot i) trigger parent s.extended false temp) (leaveWait c s)
  else
    let due : TestDue := { slot := i, temp := temp, trigger := trigger, parent := parent }
    leaveWait c { s with ftest := { s.ftest with pendingTakeover := tput s.ftest.pendingTakeover c due } }

/-- A cluster's rotation interval expires. -/
def rotationDue (c : Nat) (temp : Int) (s : State) : State :=
  if s.raw 0x10 c 0x01 1 = 0 ∨ !s.inService (uCluster c) then leaveWait c s
  else match s.oldestSlot c with
    | some i => coreTestDue i 0 noParent temp s
    | none => leaveWait c s

/-- ROTATION_TEST_DUE. -/
def execRotationTestDue (cluster : Nat) (temp : Int) (s : State) : Res := live (rotationDue cluster temp) s

/-- TEST_DEFERRAL_RETRY: every 60 s; a test that waits for MAX_PER_DIE is tried again with it. -/
def deferralRetry (c : Nat) (temp : Int) (s : State) : State :=
  if c ∈ s.ftest.deferred ∨ c ∈ s.ftest.waiting then
    rotationDue c temp { s with ftest := { s.ftest with deferred := s.ftest.deferred.filter (· ≠ c) } }
  else s

/-- TEST_DEFERRAL_RETRY. -/
def execTestDeferralRetry (cluster : Nat) (temp : Int) (s : State) : Res := live (deferralRetry cluster temp) s

/-- Is a slot free for a takeover: it computes no vote result, and the core's entry is in no retry (R402)? -/
def State.takeoverFree (s : State) (spare l : Nat) : Bool :=
  (s.eng.votes.all fun v => v.asked != spare) &&
    [6, 7, 8].all fun e => (s.current (queueKey e l)).all fun x => x.attempts == 0

/-- The core that a cluster is to release writes out its merge buffers (R252, R401); an entry that cannot is one that met POISON. -/
def State.coreFlushed (s : State) (c : Nat) : State :=
  match (tget s.ftest.pendingTakeover c).bind fun d => s.identityOf d.slot with
  | some l => if !s.going then s else [6, 7, 8].foldl (fun (t : State) (e : Nat) =>
      let r := settleMerge (queueKey e l) t
      if r.2 then r.1 else engineFault 0x0501 (queueKey e l) r.1) s
  | none => s

/-- TAKEOVER: at a core step boundary the spare takes over the released core's logical identity (R401). -/
def takeover (c : Nat) (s0 : State) : State :=
  let s := s0.coreFlushed c
  match tget s.ftest.pendingTakeover c, s.spareOf c with
  | some d, some sp =>
    match s.identityOf d.slot with
    | some l =>
      if s.going && s.takeoverFree sp l then
        let s1 := takeIdentity l sp { s with ftest := { s.ftest with pendingTakeover := tdel s.ftest.pendingTakeover c } }
        startTest (s1.newTest (uSlot d.slot) d.trigger d.parent s1.extended false d.temp) s1
      else s
    | none => s
  | _, _ => s

/-- TAKEOVER. -/
def execTakeover (cluster : Nat) (s : State) : Res := live (takeover cluster) s

/-- SUSPECT_TEST: a suspect unit is tested ahead of the rotation; another unit than a core when it has finished its current
entry (R408). -/
def suspectTest (u : Nat) (temp : Int) (s : State) : State :=
  match tget s.eng.suspects u with
  | none => s
  | some v =>
    if !s.inService u || s.testing u || s.ken.fatal then s
    else if u / 4096 = 3 then
      let c := u % 4096 / 5
      let kept : State := { s with ftest := { s.ftest with pendingTakeover := tdel s.ftest.pendingTakeover c } }
      coreTestDue (u % 4096) 1 v.1 temp kept
    else startTest (s.newTest u 1 v.1 false true temp) s

/-- SUSPECT_TEST. -/
def execSuspectTest (unit : Nat) (temp : Int) (s : State) : Res := live (suspectTest unit temp) s

/-- A retest of a requalifying slot, in the failing test's setup: two consecutive passes return it, a failure retires it (R407,
R408). -/
def requalRetest (i : Nat) (temp : Int) (dayPassed : Bool) (o : TestOut) (s : State) : State :=
  let p := tgetD s.ftest.passes i { count := 0, failed := s.newTest (uSlot i) 3 noParent s.extended false temp }
  let near := decide (temp - p.failed.tempStart ≤ 24 ∧ p.failed.tempStart - temp ≤ 24)
  if s.coreState i ≠ 3 ∨ s.ken.fatal ∨ !(near || dayPassed) ∨ !s.dieAllows (dieOf (uSlot i)) then s
  else
    let x := { o with unit := uSlot i, repeatFails := true }
    let t := { p.failed with trigger := 3, tbStart := s.tb, tempStart := temp }
    let outcome := s.outcomeOf x
    let s1 := countTest (uSlot i) outcome (keepRecord (s.testRecord t x outcome) s)
    if outcome = 0 then
      if 1 ≤ p.count then
        enterService (uSlot i) (becomeSpare i
          { s1 with ftest := { s1.ftest with passes := tdel s1.ftest.passes i } })
      else { s1 with ftest := { s1.ftest with passes := tput s1.ftest.passes i { p with count := 1 } } }
    else retireUnit (uSlot i) p.failed.parent (raiseEvent 0x000A (uSlot i) (uSlot i + outcome * 2 ^ 16) s1)

/-- REQUALIFICATION_RETEST. -/
def execRequalificationRetest (slot : Nat) (temp : Int) (dayPassed : Bool) (out : TestOut) (s : State) : Res :=
  live (requalRetest slot temp dayPassed out) s

/-! ### Commands (R409, R413 to R415) -/

/-- TEST_ROTATION_SET. -/
def testRotationSet (c : Cmd) (s : State) : State :=
  let mask := c.p16 32
  if mask = 0 ∨ 1 < c.p8 34 ∨ c.p16 36 = 0 ∨ 168 < c.p16 36 then refuse c.pair c.cid stInvalidField s
  else finishPlain c.pair c.cid stOk (((List.range 16).filter fun i => bitOf mask i).foldl
    (fun (t : State) (i : Nat) => setRaw 0x10 i 0x02 (c.p16 36) (setRaw 0x10 i 0x01 (c.p8 34) t)) s)

/-- TEST_ROTATION_SET. -/
def execTestRotationSet (pair cid : Nat) (s : State) : Res := live (runCmd 0x0600 pair cid testRotationSet) s

/-- Units a TEST_RUN tests, in order. -/
def State.testUnits (s : State) (u : Nat) : List Nat :=
  if u = 0 then
    ((List.range 80).map uSlot ++ (List.range 64).map uIde ++ (List.range 16).map uVde ++ (List.range 16).map uAde
      ++ (List.range 32).map uTke ++ (List.range 32).map uSe).filter fun x => s.inService x
  else [u]

/-- Would the test of a unit take the last one in service of a kind that a running pipeline needs? -/
def State.lastOfKind (s : State) (u : Nat) : Bool :=
  match unitQueue u with
  | none => false
  | some k =>
    let e := k / 1024
    s.servingQueues e == [k % 1024] &&
      s.pipes.any fun kv => kv.2.active && ([1, 2, 3, 4, 5].any fun c => (kv.2.decl.sites c).any fun x => opEngine x.op == e)

/-- Has a cluster a spare that computes no vote result (R390, R414)? -/
def State.idleSpare (s : State) (c : Nat) : Bool := (s.spareOf c).any fun sp => s.eng.votes.all fun v => v.asked != sp

/-- Checks of TEST_RUN (R414). -/
def testCheck (c : Cmd) (s : State) : Nat :=
  let u := c.p16 32
  let t := u / 4096
  if !desDefined u ∨ !(t == 0 || t == 3 || (decide (5 ≤ t) && decide (t ≤ 9))) ∨ 1 < c.p8 34 ∨ 1 < c.p8 35
      ∨ (c.p8 34 = 1 ∧ !s.extended) then stInvalidField
  else if u ∈ s.ftest.retired then stPrecondition
  else if (t = 0 ∧ s.pipes.any fun kv => kv.2.active) ∨ (t = 3 ∧ !s.idleSpare (u % 4096 / 5)) ∨ s.lastOfKind u
      ∨ s.testing u then stBusy
  else stOk

/-- Unit that a TEST_RUN holds. -/
def testTarget (c : Cmd) (_ : State) : Nat := 2 ^ 24 + c.p16 32

/-- Test one unit for TEST_RUN. A core of a single test is released to the spare first, and becomes the spare; in a test of the
whole package every core keeps its identity (R414). -/
def runTest (l : LongOp) (whole : Bool) (outs : List TestOut) (temp : Int) (u : Nat) (s : State) : State :=
  let o : TestOut := (outs.find? fun x => x.unit == u).getD
    { unit := u, failPattern := 0xFFFF, repeatFails := false, signature := 0, expected := 0, tempPeak := temp }
  let t := s.newTest u 2 noParent (byteAt l.entry 34 == 1) (byteAt l.entry 35 == 1) temp
  if u / 4096 = 3 then
    let i := u % 4096
    let held := whole && (s.identityOf i).isSome
    finishTest t o held (if whole then s else releaseCore i s)
  else finishTest t o false (startTest t s)

/-- Test `n` units from where a TEST_RUN stands. Progress: units tested, and the worst outcome above. -/
def testSome (n : Nat) (outs : List TestOut) (temp : Int) (l : LongOp) (s : State) : State × LongOp :=
  let u := field l.entry 32 2
  let from_ := l.progress % 2 ^ 16
  let us := ((s.testUnits u).drop from_).take n
  let worst := us.foldl (fun (w : Nat) (x : Nat) =>
    max w (((outs.find? fun o => o.unit == x).map s.outcomeOf).getD 0)) (l.progress / 2 ^ 16)
  (us.foldl (fun (t : State) (x : Nat) => runTest l (decide (u = 0)) outs temp x t) s,
    { l with progress := from_ + us.length + worst * 2 ^ 16 })

/-- TEST_RUN to its end. -/
def testDone (outs : List TestOut) (temp : Int) (l : LongOp) (s : State) : State :=
  let r := testSome 4096 outs temp l s
  finish l.pair l.cid stOk (r.2.progress / 2 ^ 16 + r.2.progress % 2 ^ 16 * 2 ^ 8) r.1

/-- TEST_RUN. -/
def execTestRun (pair cid : Nat) (outs : List TestOut) (temp : Int) (s : State) : Res :=
  live (runLong 0x0601 pair cid testTarget testCheck (testDone outs temp)) s

/-- A slice of TEST_RUN: `n` units that pass, leaving one at least. -/
def testSlice (n : Nat) (l : LongOp) (s : State) : State × LongOp × Nat :=
  let all := (s.testUnits (field l.entry 32 2)).length
  let r := testSome (min n (all - l.progress % 2 ^ 16 - 1)) [] 0 l s
  (r.1, r.2, r.2.progress % 2 ^ 16 * 2 ^ 8)

/-- TEST_RESULTS_READ. -/
def testResults (pcieOk : Bool) (c : Cmd) (s : State) : State :=
  let max := c.p16 32
  if max = 0 ∨ 256 < max ∨ 1 < c.p8 34 ∨ !c.minBuf (64 * max) then refuse c.pair c.cid stInvalidField s
  else
    let out := s.ftest.records.take max
    replyData c pcieOk (out.map TestRec.bytes).flatten (out.length + Nat.min s.ftest.replaced 0xFFFF * 2 ^ 16)
      (fun t => if bitOf (c.p8 34) 0 then t
        else { t with ftest := { t.ftest with records := t.ftest.records.drop max, replaced := 0 } }) s

/-- TEST_RESULTS_READ. -/
def execTestResultsRead (pair cid : Nat) (pcieOk : Bool) (s : State) : Res :=
  live (runCmd 0x0602 pair cid (testResults pcieOk)) s

/-- May UNIT_RETIRE retire a designator (R409)? CP core 0 cannot be retired. -/
def mayRetire (u : Nat) : Bool :=
  let t := u / 4096
  desDefined u && (t == 3 || (decide (5 ≤ t) && decide (t ≤ 11)) || t == 13 || t == 14) && u != uCp 0

/-- UNIT_RETIRE. -/
def unitRetire (c : Cmd) (s : State) : State :=
  let u := c.p16 32
  if !mayRetire u then refuse c.pair c.cid stInvalidField s
  else if u ∈ s.ftest.retired then refuse c.pair c.cid stPrecondition s
  else finishPlain c.pair c.cid stOk (retireUnit u noParent s)

/-- UNIT_RETIRE. -/
def execUnitRetire (pair cid : Nat) (s : State) : Res := live (runCmd 0x0603 pair cid unitRetire) s

end Sys2Proof.Machine
end

