-- ==== Sys2Proof/Machine/Notices.lean ====
section
/-! DEFINITION. Continuity and release (R216, R232 to R238): where slots lie, notices, the continuity buffer, the release of a
batch, and the ring's HEAD. -/

namespace Sys2Proof.Machine

/-! ### Addresses (R216) -/

/-- Stride of a consumer's batch buffers. -/
def Consumer.stride (k : Consumer) : Nat := roundUp (k.slotCount * (k.slotBytes + 128)) 4096

/-- Address of a batch's buffer. -/
def Consumer.buffer (k : Consumer) (b : Nat) : Nat := k.bufAddr + b % max 1 k.buffers * k.stride

/-- Address of a slot. -/
def Consumer.slotAddr (k : Consumer) (b sl : Nat) : Nat := k.buffer b + (sl - k.slotFirst) * k.slotBytes

/-- Address of a slot's metadata record. -/
def Consumer.metaAddr (k : Consumer) (b sl : Nat) : Nat := k.buffer b + k.slotCount * k.slotBytes + (sl - k.slotFirst) * 128

/-- Field instance of a consumer (R238). -/
def consInst (pipe consumer : Nat) : Nat := pipe * 4096 + consumer

/-- Change the delivery state of a consumer. -/
def modRun (pipe consumer : Nat) (f : ConsRun → ConsRun) (s : State) : State :=
  modPipe pipe (fun p => { p with runs := tmod p.runs consumer f }) s

/-- Is this node the assembler of a consumer? A shadow is none (R427). -/
def State.assembles (s : State) (pipe : Nat) (k : Consumer) : Bool := k.assembler == s.fab.nodeId && !s.isShadow pipe

/-! ### Units, positions and epochs (R97, R221) -/

/-- Epoch and position of a unit, by the span results held; none of a unit beyond the last one known. -/
def Pipeline.unitPos (p : Pipeline) (u : Nat) : Option (Nat × Nat) :=
  (p.spanBelow u).bind fun r =>
    let l := (p.span r.1 r.2.1).list
    if r.2.2.2.any fun m => decide (r.2.2.1 + m ≤ u) then none
    else ((List.range 65536).find? fun o => decide (u - r.2.2.1 < unitsBefore p.decl.corrupt l (o + 1))).map fun o =>
      (r.1, r.2.1 * 65536 + o)

/-- Epoch and position of what fills a slot. -/
def State.slotHolds (s : State) (p : Pipeline) (b sl : Nat) : Option (Nat × Nat) :=
  if p.decl.ledger then p.unitPos (b * p.decl.batch + sl) else some (p.decl.slotPos (s.domain p.decl) b sl)

/-- Is the SHIFT of any of a consumer's slots of a batch not 0 (R218, R235)? That of a slot beyond the last unit is the one its
record carries. -/
def State.shifted (s : State) (pipe : Nat) (p : Pipeline) (k : Consumer) (b : Nat) : Bool :=
  p.decl.ledger && (List.range k.slotCount).any fun i =>
    let u := b * p.decl.batch + k.slotFirst + i
    match p.unitPos u with
    | some x => (2 ^ 48 + x.2 - (p.decl.slotPos (s.domain p.decl) b (k.slotFirst + i)).2) % 2 ^ 48 != 0
    | none => field (fitTo 24 (Config.fillerBytes pipe u)) 16 8 != 0

/-- Epoch of a slot. -/
def State.slotEpoch (s : State) (p : Pipeline) (b sl : Nat) : Nat := ((s.slotHolds p b sl).map Prod.fst).getD 0

/-! ### Taking notices (R233) -/

/-- One entry of a SLOT_NOTICE at the assembler: the slot becomes final, or the notice is a duplicate. -/
def takeSlot (pipe consumer batch : Nat) (e : Nat × Nat) (s : State) : State :=
  match tget s.pipes pipe with
  | none => s
  | some p =>
    match tget p.consumers consumer, tget p.runs consumer with
    | some k, some r =>
      let there := tgetD r.finals batch []
      if r.oldest ≤ batch ∧ batch < r.oldest + 8 ∧ k.slotFirst ≤ e.1 ∧ e.1 < k.slotFirst + k.slotCount
          ∧ (there.all fun f => f.1 != e.1) then
        modRun pipe consumer (fun r => { r with finals := tput r.finals batch (there ++ [e]) }) s
      else bump 0x03 (consInst pipe consumer) 0x05 s
    | _, _ => s

/-- The entries of a SLOT_NOTICE: slot and STATE. -/
def parseSlots (body : Bytes) : List (Nat × Nat) :=
  (pieces 4 (body.length / 4) body).map fun b => (field b 0 4 % 2 ^ 20, bits (field b 0 4) 21 20)

/-- A SLOT_NOTICE at its assembler. -/
def takeSlots (m : Message) (s : State) : State :=
  match (tget s.pipes m.pipeline).bind fun p => tget p.consumers m.consumer with
  | some k =>
    if s.assembles m.pipeline k then
      (parseSlots m.body).foldl (fun (t : State) (e : Nat × Nat) => takeSlot m.pipeline m.consumer m.index e t) s
    else s
  | none => s

/-- SLOT_NOTICE. -/
def execSlotNotice (m : Message) (s : State) : Res :=
  live (whenB s.going fun t => let u := freeSlot m t; if u.accepts m 1 then takeSlots m u else u) s

/-- One entry of a PIECE_NOTICE at the ledger node: (offset, piece, START, TOKENS, CRC) (R230, R231). -/
def takePiece (pipe epoch span : Nat) (e : Nat × Nat × Nat) (s : State) : State :=
  modPipe pipe (fun p =>
    { p with seqs := tmapv p.seqs fun _ q =>
        if q.epoch = epoch ∧ q.span = span ∧ (q.parts.any fun x => x.1 == e.1 && x.2.1 == e.2.1)
            ∧ (q.got.all fun x => x.1 != e.1 || x.2.1 != e.2.1) then
          { q with got := q.got ++ [e] }
        else q }) s

/-- A PIECE_NOTICE at its ledger node. -/
def takePieces (m : Message) (s : State) : State :=
  (pieces 16 m.count m.body).foldl (fun (t : State) (b : Bytes) =>
    takePiece m.pipeline (m.index / 2 ^ 48) (m.index % 2 ^ 48) (field b 0 2, field b 2 2, field b 12 4) t) s

/-- PIECE_NOTICE. -/
def execPieceNotice (m : Message) (s : State) : Res :=
  live (whenB s.going fun t => let u := freeSlot m t; if u.accepts m 6 then takePieces m u else u) s

/-! ### Sending notices (R232, R430) -/

/-- A notice reaches its node: this one at once, another by message. -/
def deliverNotice (node : Nat) (m : Message) (s : State) : State :=
  if node = s.fab.nodeId then (if m.kind = 1 then takeSlots m s else takePieces m s) else sendMessage node m s

/-- Key of the mark that a batch has matched, among a lockstep's digests: 4b own, 4b + 1 the partner's, 4b + 2 the mark. -/
def matchKey (b : Nat) : Nat := 4 * b + 2

/-- Has a batch matched? -/
def Lockstep.hasMatched (k : Lockstep) (b : Nat) : Bool := decide (b < k.lowest) || thas k.digests (matchKey b)

/-- Must notices of a batch wait for its match: on a paired or diverged primary (R430)? -/
def State.holdsNotices (s : State) (pipe b : Nat) : Bool :=
  match tget s.lock pipe with
  | some k => k.role == 1 && (k.lsState == 1 || k.lsState == 2) && !k.hasMatched b
  | none => false

/-- Send a notice of a batch, or hold it; a shadow sends none. -/
def sendNotice (node batch : Nat) (m : Message) (s : State) : State :=
  if s.isShadow m.pipeline then s
  else if s.holdsNotices m.pipeline batch then
    { s with lock := tmod s.lock m.pipeline fun k => { k with heldMsgs := k.heldMsgs ++ [(node, batch, m)] } }
  else deliverNotice node m s

/-! ### RELEASE_NOTICE (R234, R236, R142) -/

/-- Reach the boundaries that the oldest unreleased batches now prove. -/
def moveCursor (pipe : Nat) (s : State) : State :=
  match tget s.pipes pipe with
  | some p => reachBoundaries pipe (p.lowestOldest + 1 - p.cursor) s
  | none => s

/-- What this node knows of a consumer's release. -/
def learnRelease (pipe consumer oldest writable : Nat) (s : State) : State :=
  moveCursor pipe (modRun pipe consumer (fun r => { r with oldest := oldest, writable := writable }) s)

/-- RELEASE_NOTICE at a serving node: one from the consumer's assembler. -/
def takeRelease (m : Message) (s : State) : State :=
  (pieces 24 m.count m.body).foldl (fun (t : State) (b : Bytes) =>
    match (tget t.pipes m.pipeline).bind fun p => tget p.consumers (field b 0 2) with
    | some k =>
      if k.assembler = m.sender ∧ m.sender ≠ t.fab.nodeId then
        learnRelease m.pipeline (field b 0 2) (field b 8 8) (field b 16 8) t
      else t
    | none => t) s

/-- RELEASE_NOTICE. -/
def execReleaseNotice (m : Message) (s : State) : Res :=
  live (whenB s.going fun t => let u := freeSlot m t; if u.accepts m 2 then takeRelease m u else u) s

/-- The RELEASE_NOTICE of a consumer. -/
def releaseMessage (node pipe consumer : Nat) (r : ConsRun) (batch : Nat) : Message :=
  makeMessage 2 pipe consumer node 1 batch 0 (putLE 2 consumer ++ zeros 6 ++ putLE 8 r.oldest ++ putLE 8 r.writable)

/-- Send it to every other serving node. -/
def sendRelease (pipe consumer batch : Nat) (s : State) : State :=
  match tget s.pipes pipe with
  | some p => match tget p.runs consumer with
    | some r => sendAll pipe p (releaseMessage s.fab.nodeId pipe consumer r batch) s
    | none => s
  | none => s

/-! ### Release (R234, R235) -/

/-- The 64-byte batch descriptor. -/
def State.batchDescriptor (s : State) (pipe consumer : Nat) (p : Pipeline) (k : Consumer) (r : ConsRun) (b : Nat) : Bytes :=
  let fin := tgetD r.finals b []
  let empty := (fin.filter fun e => e.2 == 2).length
  let hidden := (fin.filter fun e => e.2 == 1).length
  let flags := (if 0 < empty then 1 else 0) + (if 0 < hidden then 2 else 0) + (if s.shifted pipe p k b then 4 else 0)
    + (if s.batchesOf p == some (b + 1) then 8 else 0)
    + (if s.slotEpoch p b 0 ≠ s.slotEpoch p b (p.decl.batch - 1) then 16 else 0)
  withCrc (fitTo 60 (putLE 8 b ++ putLE 8 (k.buffer b) ++ putLE 4 k.slotFirst ++ putLE 4 k.slotCount ++ putLE 1 pipe
    ++ zeros 1 ++ putLE 2 consumer ++ putLE 2 (s.slotEpoch p b k.slotFirst) ++ putLE 2 flags ++ putLE 4 empty ++ putLE 4 hidden
    ++ putLE 8 r.tail))

/-- A lower bound of the number of a ledger pipeline's batches, by the last span whose units are known (R223). -/
def Pipeline.knownBatches (p : Pipeline) : Nat :=
  ((p.spans.filterMap fun kv => match kv.2.unitBase, kv.2.units with
    | some b, some u => some (p.decl.ledgerBatches (b + u))
    | _, _ => none).getLast?).getD 0

/-- Is it known whether a batch is the pipeline's last, as its descriptor must say (R235)? -/
def State.lastKnown (s : State) (p : Pipeline) (b : Nat) : Bool := (s.batchesOf p).isSome || decide (b + 1 < p.knownBatches)

/-- May the assembler release the oldest unreleased batch: every slot final, a free ring entry, delivery not stopped, and
known whether it is the last? -/
def State.mayRelease (s : State) (pipe : Nat) (p : Pipeline) (k : Consumer) (r : ConsRun) : Bool :=
  (p.state == 3 || p.state == 4) && s.lastKnown p r.oldest && p.inStop r.oldest && s.assembles pipe k && !r.stopped
    && decide ((tgetD r.finals r.oldest []).length = k.slotCount) && decide (r.tail < r.head + 2 ^ k.ringLog2)

/-- Post a WRITE of a consumer's QP for a batch (R239). -/
def consumerWrite (k : Consumer) (key addr : Nat) (bs : Bytes) (batch : Nat) (s : State) : State :=
  postWork k.qp 1 addr key bs bs.length batch s

/-- LOW_WATER of a consumer (R238). -/
def State.lowWater (s : State) (pipe consumer : Nat) : Nat := s.raw 0x03 (consInst pipe consumer) 0x01 4

/-- BATCH_RELEASE: descriptor, TAIL, flush, doorbell, RELEASE_NOTICE, in this order (R234). A prepared count that reaches LOW_WATER
arms the alarm again (R237). -/
def batchRelease (pipe consumer : Nat) (s : State) : State :=
  match tget s.pipes pipe with
  | none => s
  | some p =>
    match tget p.consumers consumer, tget p.runs consumer with
    | some k, some r =>
      if s.mayRelease pipe p k r then
        let b := r.oldest
        let tail := r.tail + 1
        let ring := r.ring ++ [b]
        let s1 := consumerWrite k k.ringKey (k.ringAddr + 64 + r.tail % 2 ^ k.ringLog2 * 64)
          (s.batchDescriptor pipe consumer p k r b) b s
        let s2 := consumerWrite k k.ringKey k.ringAddr (putLE 8 tail) b s1
        let s3 := postWork k.qp 5 0 0 [] 0 b s2
        let s4 := consumerWrite k k.ringKey k.doorbell (putLE 8 tail) b s3
        let s5 := modRun pipe consumer (fun r =>
          { r with
            oldest := b + 1
            tail := tail
            ring := ring
            writable := ring.headD b + k.buffers
            armed := r.armed || decide (s.lowWater pipe consumer ≤ tail - r.head)
            finals := tdel r.finals b }) s4
        let s6 := traceRecord 4 (uDie 2) pipe p.decl.deliverStage 0x0702
          (fitTo 32 (putLE 2 consumer ++ zeros 6 ++ putLE 8 b ++ putLE 8 tail)) s5
        moveCursor pipe (sendRelease pipe consumer b s6)
      else s
    | _, _ => s

/-- BATCH_RELEASE. -/
def execBatchRelease (pipeline consumer : Nat) (s : State) : Res := live (whenB s.going (batchRelease pipeline consumer)) s

/-! ### HEAD (R236, R237) -/

/-- HEAD_READ_TIMER: while a released batch is unconsumed, HEAD is read by RDMA. -/
def headReadTimer (pipe consumer : Nat) (s : State) : State :=
  match tget s.pipes pipe with
  | none => s
  | some p =>
    match tget p.consumers consumer, tget p.runs consumer with
    | some k, some r =>
      if p.active && s.assembles pipe k && !r.ring.isEmpty && !r.stopped then
        postWork k.qp 2 (k.ringAddr + 8) k.ringKey [] 8 r.oldest s
      else s
    | _, _ => s

/-- HEAD_READ_TIMER. -/
def execHeadReadTimer (pipeline consumer : Nat) (s : State) : Res := live (whenB s.going (headReadTimer pipeline consumer)) s

/-- The low-water alarm after a HEAD read (R237): event 0x0002 and a telemetry record, once until it re-arms. -/
def lowWaterCheck (pipe consumer : Nat) (s : State) : State :=
  match (tget s.pipes pipe).bind fun p => (tget p.runs consumer).map fun r => (p.decl.deliverStage, r) with
  | none => s
  | some (stage, r) =>
    let n := r.tail - r.head
    let low := s.lowWater pipe consumer
    if low ≤ n then modRun pipe consumer (fun r => { r with armed := true }) s
    else if r.armed ∧ 0 < r.tail then
      traceRecord 3 (uDie 2) pipe stage 0x0702
        (fitTo 32 (putLE 2 consumer ++ zeros 2 ++ putLE 4 n ++ putLE 8 r.oldest ++ putLE 8 r.tail ++ putLE 8 r.head))
        (raiseEvent 0x0002 0 (consumer + pipe * 2 ^ 12 + n * 2 ^ 16)
          (bump 0x03 (consInst pipe consumer) 0x04 (modRun pipe consumer (fun r => { r with armed := false }) s)))
    else s

/-- HEAD_READ_COMPLETE: descriptors up to HEAD are consumed; a HEAD outside the released ones is not one the consumer may
write, and changes nothing. -/
def headReadComplete (pipe consumer head : Nat) (s : State) : State :=
  match tget s.pipes pipe with
  | none => s
  | some p =>
    match tget p.consumers consumer, tget p.runs consumer with
    | some k, some r =>
      if p.active && s.assembles pipe k && !r.stopped && decide (r.head ≤ head ∧ head ≤ r.tail) then
        let ring := r.ring.drop (head - r.head)
        let writable := ring.headD r.oldest + k.buffers
        let s1 := modRun pipe consumer (fun r => { r with head := head, ring := ring, writable := writable }) s
        let s2 := if r.writable < writable then sendRelease pipe consumer (r.oldest - 1) s1 else s1
        lowWaterCheck pipe consumer s2
      else s
    | _, _ => s

/-- HEAD_READ_COMPLETE. -/
def execHeadReadComplete (pipeline consumer : Nat) (head : BitVec 64) (s : State) : Res :=
  live (whenB s.going (headReadComplete pipeline consumer head.toNat)) s

end Sys2Proof.Machine
end

