-- ==== Sys2Proof/Machine/Fields.lean ====
section
/-! DEFINITION. The configurable fields (R56): the field tables of the chapters, GET_FIELD and SET_FIELD.
One entry gives a field's width, access, class, range and the value that a read returns. -/

namespace Sys2Proof.Machine

/-- Access codes of a field (R8). -/
inductive FieldAccess where
  | ro
  | rw
  | rc
  | wo
  deriving DecidableEq, Repr

/-- A field of a field table: width in bits, access, class I or not, the range of a written value, and what a read returns. -/
structure FieldSpec where
  width : Nat
  access : FieldAccess
  idle : Bool
  lo : Nat
  hi : Nat
  value : Nat
  deriving DecidableEq, Repr

/-- A read-only field. -/
def roF (width value : Nat) : Option FieldSpec :=
  some { width := width, access := .ro, idle := false, lo := 0, hi := 2 ^ width - 1, value := value % 2 ^ width }

/-- A counter that a read clears; a count beyond the width reads as a free value. -/
def rcF (width value : Nat) : Option FieldSpec :=
  some { width := width, access := .rc, idle := false, lo := 0, hi := 2 ^ width - 1,
         value := if value < 2 ^ width then value else Config.counterOver width value % 2 ^ width }

/-- A read-write field of class L or S. -/
def rwF (width lo hi value : Nat) : Option FieldSpec :=
  some { width := width, access := .rw, idle := false, lo := lo, hi := hi, value := value % 2 ^ width }

/-- A read-write field of class I. -/
def idleF (width lo hi value : Nat) : Option FieldSpec :=
  some { width := width, access := .rw, idle := true, lo := lo, hi := hi, value := value % 2 ^ width }

/-- Two's complement of a number in `w` bits. -/
def twos (w : Nat) (i : Int) : Nat := (i % (2 ^ w : Nat)).toNat

/-- Pipeline fields, block type 0x02 (R137). -/
def State.pipeField (s : State) (pipe no : Nat) : Option FieldSpec :=
  match tget s.pipes pipe with
  | none => none
  | some p =>
    match no with
    | 0x01 => idleF 21 1 1048576 p.decl.batch
    | 0x02 => idleF 17 1 65536 p.decl.epochs
    | 0x03 => idleF 1 0 1 p.decl.tail
    | 0x04 => idleF 1 0 1 p.decl.corrupt
    | 0x05 => idleF 2 0 2 p.decl.shotMode
    | 0x06 => roF 3 p.state
    | 0x07 => roF 32 p.cursor
    | 0x08 => roF 32 (p.cursor / 2 ^ 32)
    | 0x09 => rwF 4 1 15 (s.raw 0x02 pipe 0x09 8)
    | 0x0A => rwF 1 0 1 (s.raw 0x02 pipe 0x0A 0)
    | n =>
      if 0x10 ≤ n ∧ n ≤ 0x17 then
        some { width := 32, access := .wo, idle := true, lo := 0, hi := 2 ^ 32 - 1, value := 0 }
      else none

/-- Consumer fields, block type 0x03, on the consumer's assembler (R238). -/
def State.consumerField (s : State) (inst no : Nat) : Option FieldSpec :=
  match tget s.pipes (inst / 4096) with
  | none => none
  | some p =>
    match tget p.consumers (inst % 4096) with
    | none => none
    | some k =>
      if k.assembler ≠ s.fab.nodeId then none
      else
        let r := tget p.runs (inst % 4096)
        match no with
        | 0x01 => rwF 9 0 256 (s.raw 0x03 inst 0x01 4)
        | 0x02 => roF 32 ((r.map ConsRun.tail).getD 0)
        | 0x03 => roF 32 ((r.map ConsRun.head).getD 0)
        | 0x04 => rcF 16 (s.raw 0x03 inst 0x04 0)
        | 0x05 => rcF 16 (s.raw 0x03 inst 0x05 0)
        | _ => none

/-- Ledger fields, block type 0x04 (R242). -/
def State.ledgerField (s : State) (pipe no : Nat) : Option FieldSpec :=
  if !thas s.pipes pipe then none
  else
    match no with
    | 0x01 => idleF 16 0 0xFFFF (s.anchorField pipe 1)
    | 0x02 => idleF 32 0 0xFFFFFFFF (s.anchorField pipe 2)
    | 0x03 => idleF 32 0 0xFFFFFFFF (s.anchorField pipe 3)
    | 0x04 => idleF 32 0 0xFFFFFFFF (s.anchorField pipe 4)
    | _ => none

/-- REMAP_ENTRY of a position: [29:0] index, [30] the word holds poison, [31] valid (R265). -/
def State.remapEntry (s : State) (stack i : Nat) : Nat :=
  match (tgetD s.mem.remap stack [])[i]? with
  | none => 0
  | some idx => idx % 2 ^ 30 + (if s.word stack idx = some .poison then 2 ^ 30 else 0) + 2 ^ 31

/-- Stack fields, block type 0x05 (R265). -/
def State.stackField (s : State) (stack no : Nat) : Option FieldSpec :=
  if 7 < stack then none
  else
    match no with
    | 0x01 => roF 1 (if s.inService (uStack stack) then 0 else 1)
    | 0x02 => rwF 11 1 1536 (s.raw 0x05 stack 0x02 64)
    | 0x03 => roF 30 (s.raw 0x05 stack 0x03 0)
    | 0x04 => roF 32 (s.raw 0x05 stack 0x04 0)
    | 0x05 => rcF 32 (s.raw 0x05 stack 0x05 0)
    | 0x06 => rcF 32 (s.raw 0x05 stack 0x06 0)
    | 0x07 => rcF 32 (s.raw 0x05 stack 0x07 0)
    | 0x08 => rcF 32 (s.raw 0x05 stack 0x08 0)
    | 0x09 => rcF 32 (s.raw 0x05 stack 0x09 0)
    | 0x0A => roF 6 (tgetD s.mem.remap stack []).length
    | n => if 0x10 ≤ n ∧ n ≤ 0x2F then roF 32 (s.remapEntry stack (n - 0x10)) else none

/-- Pool fields, block type 0x06 (R278). -/
def State.poolField (s : State) (inst no : Nat) : Option FieldSpec :=
  if inst = 0x0100 then
    match no with
    | 0x01 => roF 21 (s.bufsFree 0)
    | 0x02 => roF 17 (s.bufsFree 1)
    | 0x03 => roF 21 ((List.range 8).map s.refsUsed).sum
    | 0x04 => rcF 32 (s.raw 0x06 0x0100 0x04 0)
    | _ => none
  else if 17 < inst then none
  else
    match no with
    | 0x01 => if inst < 16 then idleF 21 0 (8 * perStack 0) (s.reserve inst 0) else roF 21 (s.reserve inst 0)
    | 0x02 => if inst < 16 then idleF 17 0 (8 * perStack 1) (s.reserve inst 1) else roF 17 (s.reserve inst 1)
    | 0x03 => roF 21 (s.bufsHeld inst 0)
    | 0x04 => roF 17 (s.bufsHeld inst 1)
    | 0x05 => rcF 21 (max (s.raw 0x06 inst 0x05 0) (s.bufsHeld inst 0))
    | 0x06 => rcF 17 (max (s.raw 0x06 inst 0x06 0) (s.bufsHeld inst 1))
    | 0x07 => rcF 32 (s.raw 0x06 inst 0x07 0)
    | 0x08 => rcF 32 (s.raw 0x06 inst 0x08 0)
    | _ => none

/-- Magazine and supply fields, block type 0x07 (R312). An absent magazine reads SPARE_PCT and WEAR_PCT 0. -/
def State.magField (s : State) (inst no : Nat) : Option FieldSpec :=
  if inst = 0x0100 then
    match no with
    | 0x01 => rwF 7 90 98 s.inhibitPct
    | 0x02 => rwF 7 85 97 (s.raw 0x07 0x0100 0x02 90)
    | 0x03 => rcF 32 (s.raw 0x07 0x0100 0x03 0)
    | _ => none
  else if 7 < inst then none
  else
    let m := s.magAt inst
    match no with
    | 0x01 => roF 3 ((m.map Magazine.state).getD 0)
    | 0x02 => rwF 3 0 4 (s.raw 0x07 inst 0x02 4)
    | 0x03 => rwF 7 2 100 (s.raw 0x07 inst 0x03 50)
    | 0x04 => rwF 8 1 254 (s.raw 0x07 inst 0x04 16)
    | 0x05 => rwF 8 2 255 (s.raw 0x07 inst 0x05 24)
    | 0x06 => rwF 16 100 65535 (s.raw 0x07 inst 0x06 1000)
    | 0x07 => rwF 8 1 96 (s.raw 0x07 inst 0x07 40)
    | 0x08 => roF 7 ((m.map Magazine.sparePct).getD 0)
    | 0x09 => roF 16 ((m.map s.wearPct).getD 0)
    | 0x0A => rcF 32 (s.raw 0x07 inst 0x0A 0)
    | 0x0B => rcF 32 (s.raw 0x07 inst 0x0B 0)
    | 0x0C => rwF 1 0 1 (s.raw 0x07 inst 0x0C 0)
    | _ => none

/-- STATE of a volume: 0 online, 1 read-only, 2 offline (R312). -/
def State.volumeState (s : State) (v : Volume) : Nat :=
  match s.volMag v with
  | none => 2
  | some (_, m) => if !(m.state == 3 || m.state == 4) then 2 else if v.readOnly then 1 else 0

/-- Volume fields, block type 0x08 (R312). -/
def State.volumeField (s : State) (volume no : Nat) : Option FieldSpec :=
  match tget s.flash.volumes volume with
  | none => none
  | some v =>
    match no with
    | 0x01 => roF 3 (((s.volMag v).map Prod.fst).getD v.bay)
    | 0x02 => roF 2 (s.volumeState v)
    | 0x03 => roF 32 v.blocks
    | 0x04 => roF 32 (v.blocks / 2 ^ 32)
    | 0x05 => roF 32 (s.flash.lost.filter fun k => k / 2 ^ 40 == volume).length
    | _ => none

/-- What the analog side of a port measured: its FEC counts and eye margin. Free once the port has left RESET; 0 before. -/
def State.lineValue (s : State) (port no : Nat) : Nat :=
  if thas s.fab.ports port then Config.lineValue (fieldId 0x09 port no) s.freeTick else 0

/-- Port fields, block type 0x09 (R337). -/
def State.portField (s : State) (port no : Nat) : Option FieldSpec :=
  if !isPort port then none
  else
    let p := s.port port
    match no with
    | 0x01 => roF 4 p.state
    | 0x02 => roF 3 p.lanes
    | 0x03 => rcF 32 (s.lineValue port 0x03 % 2 ^ 32)
    | 0x04 => rcF 32 (s.lineValue port 0x04 % 2 ^ 32)
    | 0x05 => rcF 32 (s.raw 0x09 port 0x05 0)
    | 0x06 => rcF 32 (s.raw 0x09 port 0x06 0)
    | 0x07 => rcF 16 (s.raw 0x09 port 0x07 0)
    | 0x08 => roF 16 (s.lineValue port 0x08)
    | 0x09 => roF 32 p.delayPs
    | 0x0A => roF 32 (twos 64 p.offsetPs)
    | 0x0B => roF 32 (twos 64 p.offsetPs / 2 ^ 32)
    | 0x0C => rwF 8 8 255 (s.raw 0x09 port 0x0C 64)
    | 0x0D => rcF 32 (s.raw 0x09 port 0x0D 0)
    | _ => none

/-- Time fields, block type 0x0A (R338). -/
def State.timeField (s : State) (inst no : Nat) : Option FieldSpec :=
  if inst ≠ 0 then none
  else
    match no with
    | 0x01 => roF 2 s.fab.timeState
    | 0x02 => rwF 10 10 1000 (s.raw 0x0A 0 0x02 100)
    | 0x03 => roF 32 (twos 32 s.fab.slewPpb)
    | 0x04 => roF 32 (twos 64 s.fab.stepNs)
    | 0x05 => roF 32 (twos 64 s.fab.stepNs / 2 ^ 32)
    | 0x06 => roF 4 s.fab.timeDepth
    | 0x07 => roF 1 (if s.fab.ready then 1 else 0)
    | _ => none

/-- Transport fields, block type 0x0B (R360). -/
def State.rdmaField (s : State) (inst no : Nat) : Option FieldSpec :=
  if inst ≠ 0 then none
  else
    match no with
    | 0x01 => idleF 32 0 0xFFFFFFFF (s.raw 0x0B 0 0x01 0)
    | 0x02 => idleF 32 0 0xFFFFFFFF (s.raw 0x0B 0 0x02 0)
    | 0x03 => idleF 21 0 1048576 (s.raw 0x0B 0 0x03 0)
    | 0x04 => rwF 4 0 15 (s.raw 0x0B 0 0x04 7)
    | 0x05 => rwF 8 1 255 (s.raw 0x0B 0 0x05 4)
    | 0x06 => roF 21 s.rdma.qps.length
    | 0x07 => roF 15 (s.rdma.qps.filter fun kv => kv.2.resident).length
    | 0x0F => roF 17 s.rdma.regions.length
    | 0x10 => rcF 19 (s.raw 0x0B 0 0x10 0)
    | n => if (0x08 ≤ n ∧ n ≤ 0x0E) ∨ n = 0x11 then rcF 32 (s.raw 0x0B 0 n 0) else none

/-- Flow fields, block type 0x0C (R376). BYTES_KIB counts bytes and reads in KiB. -/
def State.flowField (s : State) (dest no : Nat) : Option FieldSpec :=
  if 8191 < dest then none
  else
    match no with
    | 0x01 => rwF 1 0 1 (s.raw 0x0C dest 0x01 0)
    | 0x02 => rwF 23 8 4000000 (s.raw 0x0C dest 0x02 4000000)
    | 0x03 => rwF 9 0 511 (s.raw 0x0C dest 0x03 0)
    | 0x04 => rcF 32 (s.raw 0x0C dest 0x04 0)
    | 0x05 => rcF 32 (s.raw 0x0C dest 0x05 0 / 1024)
    | _ => none

/-- Gate fields, block type 0x0D (R376). -/
def State.gateField (s : State) (port no : Nat) : Option FieldSpec :=
  if !isPort port then none
  else
    match no with
    | 0x01 => rwF 16 0 65535 (s.raw 0x0D port 0x01 0)
    | 0x02 =>
      roF 2 ((if thas s.shaper.active port then 1 else 0) + if thas s.shaper.pending port then 2 else 0)
    | 0x03 => roF 1 (if tgetD s.shaper.gateOpen port true then 1 else 0)
    | 0x04 => rcF 32 (s.raw 0x0D port 0x04 0)
    | 0x05 => rcF 32 (s.raw 0x0D port 0x05 0)
    | _ => none

/-- Policer fields, block type 0x0E (R376). -/
def State.policerField (s : State) (src no : Nat) : Option FieldSpec :=
  if 8191 < src then none
  else if 1 ≤ no ∧ no ≤ 3 then rcF 32 (s.raw 0x0E src no 0)
  else none

/-- Error fields, block type 0x0F (R386). -/
def State.errField (s : State) (die no : Nat) : Option FieldSpec :=
  if 11 < die then none
  else
    match no with
    | 0x01 => roF 7 (s.ringOf die).recs.length
    | 0x02 => roF 28 (s.ringOf die).nextSeq
    | n => if 0x03 ≤ n ∧ n ≤ 0x08 then rcF 32 (s.raw 0x0F die n 0) else none

/-- SLOT_STATE of a cluster: 3 bits a slot (R416). -/
def State.slotStates (s : State) (cluster : Nat) : Nat :=
  ((List.range 5).map fun k => s.coreState (cluster * 5 + k) * 8 ^ k).sum

/-- Test fields, block type 0x10 (R416). -/
def State.testField (s : State) (inst no : Nat) : Option FieldSpec :=
  if inst = 0x0100 then
    let lx := if Config.isLX then 1 else 0
    match no with
    | 0x01 => rwF 1 0 lx (s.raw 0x10 0x0100 0x01 lx)
    | 0x02 => rwF 3 1 4 (s.raw 0x10 0x0100 0x02 2)
    | _ => none
  else if 15 < inst then none
  else
    match no with
    | 0x01 => rwF 1 0 1 (s.raw 0x10 inst 0x01 1)
    | 0x02 => rwF 8 1 168 (s.raw 0x10 inst 0x02 8)
    | 0x03 => roF 15 (s.slotStates inst)
    | 0x04 => rcF 32 (s.raw 0x10 inst 0x04 0)
    | 0x05 => rcF 16 (s.raw 0x10 inst 0x05 0)
    | 0x06 => rcF 16 (s.raw 0x10 inst 0x06 0)
    | 0x07 => rcF 32 (s.raw 0x10 inst 0x07 0)
    | _ => none

/-- Lockstep fields, block type 0x11 (R446). -/
def State.lockField (s : State) (pipe no : Nat) : Option FieldSpec :=
  if !thas s.pipes pipe then none
  else
    let v (f : Lockstep → Nat) : Nat := ((tget s.lock pipe).map f).getD 0
    match no with
    | 0x01 => roF 2 (v Lockstep.role)
    | 0x02 => roF 2 (v Lockstep.lsState)
    | 0x03 => roF 32 (v Lockstep.matched)
    | 0x04 => roF 32 (v Lockstep.divBatch)
    | 0x05 => roF 32 (v Lockstep.divBatch / 2 ^ 32)
    | 0x06 => roF 32 (v Lockstep.divSlot)
    | 0x07 => roF 16 (v Lockstep.divStage)
    | 0x08 => roF 32 (v Lockstep.divOperator)
    | 0x09 => roF 3 (v Lockstep.divKind)
    | 0x0A => rcF 32 (s.raw 0x11 pipe 0x0A 0)
    | _ => none

/-- Oldest LSN held; the next one where the logbook holds none (R446). -/
def State.firstLsn (s : State) : Nat := (s.obs.log.head?.map LogRec.lsn).getD s.obs.nextLsn

/-- Bytes of the permanent logbook region (R443). -/
def permRegion : Nat := 48 * 2 ^ 20

/-- Bytes of the rolling logbook region (R443). -/
def rollRegion : Nat := 16 * 2 ^ 20

/-- Observability fields, block type 0x12 (R446). -/
def State.obsField (s : State) (inst no : Nat) : Option FieldSpec :=
  if inst ≠ 0 then none
  else
    match no with
    | 0x01 => rwF 1 0 1 (s.raw 0x12 0 0x01 0)
    | 0x02 => rwF 1 0 1 (s.raw 0x12 0 0x02 0)
    | 0x03 => roF 32 s.clap.freezeTb
    | 0x04 => roF 32 (s.clap.freezeTb / 2 ^ 32)
    | 0x05 => rcF 16 (s.raw 0x12 0 0x05 0)
    | 0x06 => rcF 32 (s.raw 0x12 0 0x06 0)
    | 0x07 => rcF 32 (s.raw 0x12 0 0x07 0)
    | 0x08 => rwF 8 1 168 (s.raw 0x12 0 0x08 24)
    | 0x09 => roF 32 s.firstLsn
    | 0x0A => roF 32 (s.firstLsn / 2 ^ 32)
    | 0x0B => roF 32 s.obs.nextLsn
    | 0x0C => roF 32 (s.obs.nextLsn / 2 ^ 32)
    | 0x0D => roF 7 (s.obs.permBytes * 100 / permRegion)
    | 0x0E => rcF 32 (s.raw 0x12 0 0x0E 0)
    | 0x0F => rcF 32 (s.raw 0x12 0 0x0F 0)
    | _ => none

/-- The highest die sensor reading now, °C × 8; 0 before any (R471). -/
def State.tempMax (s : State) : Int :=
  match tvals s.pow.dieTemp with
  | [] => 0
  | t :: ts => ts.foldl max t

/-- Clock and power fields, block type 0x13 (R471). -/
def State.powerField (s : State) (inst no : Nat) : Option FieldSpec :=
  if inst ≠ 0 then none
  else
    match no with
    | 0x01 => idleF 5 0 20 (s.raw 0x13 0 0x01 0)
    | 0x02 => idleF 6 25 62 (s.raw 0x13 0 0x02 31)
    | 0x03 => rwF 2 0 3 (s.raw 0x13 0 0x03 1)
    | 0x04 => rwF 4 0 15 (s.raw 0x13 0 0x04 0)
    | 0x05 => rwF 10 400 760 (s.raw 0x13 0 0x05 760)
    | 0x06 => roF 10 s.pow.watts
    | 0x07 => rcF 32 (s.raw 0x13 0 0x07 0)
    | 0x08 => roF 16 (twos 16 s.tempMax)
    | 0x09 => roF 13 (s.pow.stageEnds.getD 6 0 / 1000000)
    | 0x0A => roF 3 s.pow.bootCause
    | _ => none

/-- The field an identifier names: [31:24] block type, [23:8] instance, [7:0] number (R56); none: undefined. -/
def State.fieldSpec (s : State) (id : Nat) : Option FieldSpec :=
  let inst := bits id 23 8
  let no := bits id 7 0
  match bits id 31 24 with
  | 0x02 => s.pipeField inst no
  | 0x03 => s.consumerField inst no
  | 0x04 => s.ledgerField inst no
  | 0x05 => s.stackField inst no
  | 0x06 => s.poolField inst no
  | 0x07 => s.magField inst no
  | 0x08 => s.volumeField inst no
  | 0x09 => s.portField inst no
  | 0x0A => s.timeField inst no
  | 0x0B => s.rdmaField inst no
  | 0x0C => s.flowField inst no
  | 0x0D => s.gateField inst no
  | 0x0E => s.policerField inst no
  | 0x0F => s.errField inst no
  | 0x10 => s.testField inst no
  | 0x11 => s.lockField inst no
  | 0x12 => s.obsField inst no
  | 0x13 => s.powerField inst no
  | _ => none

/-! ### Entries -/

/-- An entry of the command: identifier and value. -/
def Cmd.fieldEntry (c : Cmd) (i : Nat) : Nat × Nat := (c.p32 (40 + 8 * i), c.p32 (44 + 8 * i))

/-- The entries of the command. -/
def Cmd.fieldEntries (c : Cmd) : List (Nat × Nat) := (List.range (c.p8 32)).map c.fieldEntry

/-- N from 1 to 8, and the positions after the N-th all zero (R56). -/
def Cmd.fieldCountOk (c : Cmd) : Bool := decide (1 ≤ c.p8 32 ∧ c.p8 32 ≤ 8) && c.zeroFrom (40 + 8 * c.p8 32)

/-- Count a counter's value on for the period of the next dailies report, as it is about to be cleared (R442). -/
def keepPeriod (id v : Nat) (s : State) : State :=
  { s with obs := { s.obs with periodOff := tput s.obs.periodOff id (tgetD s.obs.periodOff id 0 + v) } }

/-- Clear a field that a read clears (R8). -/
def clearRead (id : Nat) (s : State) : State :=
  match s.fieldSpec id with
  | some f =>
    if f.access = .rc then
      setRaw (bits id 31 24) (bits id 23 8) (bits id 7 0) 0 (keepPeriod id (tgetD s.fields id 0) s)
    else s
  | none => s

/-- Read the entries in order: each 8 bytes, identifier and value; an RC field is cleared as it is read (R56, R8). -/
def readFields : List Nat → State → Bytes × State
  | [], s => ([], s)
  | id :: t, s =>
    let v := ((s.fieldSpec id).map FieldSpec.value).getD 0
    let r := readFields t (tickFree (clearRead id s))
    (putLE 4 id ++ putLE 4 v ++ r.1, r.2)

/-- GET_FIELD (R56). -/
def getFields (pcieOk : Bool) (c : Cmd) (s : State) : State :=
  let ids := c.fieldEntries.map Prod.fst
  if !c.fieldCountOk || !c.minBuf (8 * c.p8 32) || !c.fieldEntries.all (fun e => e.2 == 0)
      || !ids.all (fun id => (s.fieldSpec id).isSome) then
    refuse c.pair c.cid stInvalidField s
  else
    let r := readFields ids s
    replyData c pcieOk r.1 c.plainResult id (if pcieOk then r.2 else s)

/-- GET_FIELD. -/
def execGetField (pair cid : Nat) (pcieOk : Bool) (s : State) : Res := live (runCmd 0x0005 pair cid (getFields pcieOk)) s

/-! ### SET_FIELD -/

/-- Does the block of a class I field run: a pipeline, a pool owner, the transport, the clocks (R10, R137, R278, R360,
R452)? -/
def State.blockRuns (s : State) (id : Nat) : Bool :=
  match bits id 31 24 with
  | 0x02 | 0x04 => ((tget s.pipes (bits id 23 8)).map Pipeline.active).getD false
  | 0x06 => s.ownerActive (bits id 23 8)
  | 0x0B => !s.rdma.qps.isEmpty
  | 0x13 => s.pipes.any fun kv => kv.2.active
  | _ => false

/-- Is the field of an entry a class I field of a running block? -/
def State.entryBusy (s : State) (e : Nat × Nat) : Bool :=
  ((s.fieldSpec e.1).map fun f => f.idle && s.blockRuns e.1).getD false

/-- Ranges that a field's chapter states beside its bounds: OVERHEAD from −64 to 255, QP_TABLE_ADDR [11:0] 0, ENTRIES not 1. -/
def rangeHolds (id v : Nat) : Bool :=
  match bits id 31 24, bits id 7 0 with
  | 0x0C, 0x03 => decide (v ≤ 255 ∨ 448 ≤ v)
  | 0x0B, 0x01 => v % 4096 == 0
  | 0x0B, 0x03 => v != 1
  | _, _ => true

/-- Is an entry's identifier defined and its value in range (R56)? A field that ignores writes judges its width alone. -/
def State.entryOk (s : State) (e : Nat × Nat) : Bool :=
  match s.fieldSpec e.1 with
  | none => false
  | some f =>
    match f.access with
    | .rw | .wo => decide (f.lo ≤ e.2 ∧ e.2 ≤ f.hi) && rangeHolds e.1 e.2
    | .ro | .rc => decide (e.2 < 2 ^ f.width)

/-- Change a pipeline's declaration. -/
def modDecl (pipe : Nat) (f : Decl → Decl) (s : State) : State :=
  { s with pipes := tmod s.pipes pipe fun p => { p with decl := f p.decl } }

/-- Write one field: a declaration's own, else the stored one. Writes to RO and RC fields are ignored (R8). -/
def writeField (e : Nat × Nat) (s : State) : State :=
  let inst := bits e.1 23 8
  let no := bits e.1 7 0
  let kept := match s.fieldSpec e.1 with
    | some f => decide (f.access = .rw ∨ f.access = .wo)
    | none => false
  if !kept then s
  else
    match bits e.1 31 24, no with
    | 0x02, 0x01 => modDecl inst (fun d => { d with batch := e.2 }) s
    | 0x02, 0x02 => modDecl inst (fun d => { d with epochs := e.2 }) s
    | 0x02, 0x03 => modDecl inst (fun d => { d with tail := e.2 }) s
    | 0x02, 0x04 => modDecl inst (fun d => { d with corrupt := e.2 }) s
    | 0x02, 0x05 => modDecl inst (fun d => { d with shotMode := e.2 }) s
    | b, n =>
      if b = 0x02 ∧ 0x10 ≤ n then modDecl inst (fun d => { d with seed := patch d.seed (4 * (n - 0x10)) (putLE 4 e.2) }) s
      else setRaw b inst n e.2 s

/-- Do the conditions that tie fields together hold for the fields beside an entry's (R56, R98, R312)? -/
def State.jointOk (s : State) (id : Nat) : Bool :=
  let inst := bits id 23 8
  let no := bits id 7 0
  match bits id 31 24 with
  | 0x02 =>
    match tget s.pipes inst with
    | none => true
    | some p =>
      decide (3 < no) || !(p.decl.datasets.all fun h => thas s.cat.committed h) || p.decl.fits (s.domain p.decl)
  | 0x07 =>
    if inst = 0x0100 then decide (s.raw 0x07 0x0100 0x02 90 < s.inhibitPct)
    else decide (s.raw 0x07 inst 0x04 16 < s.raw 0x07 inst 0x05 24)
  | _ => true

/-- Domain switches of a change of spread spectrum: every cluster's two domains, and domains 2, 3 and 5 (R452). -/
def switchSpread (s : State) : State :=
  (((List.range 32).map fun k => 16 + k) ++ [66, 67, 69]).foldl (fun (t : State) (k : Nat) => gate k t) s

/-- What the written fields do at once: the amber LED (R312), CLKOBS (R453), a change of spread spectrum (R452). -/
def fieldEffects (ids : List Nat) (was s : State) : State :=
  let changed (b inst n d : Nat) : Bool := s.raw b inst n d != was.raw b inst n d
  let s1 := (List.range 8).foldl (fun (t : State) (bay : Nat) =>
    showAmber bay was t) s
  let s2 := if changed 0x13 0 0x03 1 || changed 0x13 0 0x04 0 then
      emit (.pin "CLKOBS" (s.raw 0x13 0 0x03 1 + 4 * s.raw 0x13 0 0x04 0)) s1
    else s1
  let s3 := whenB (changed 0x12 0 0x01 0) armWritten (whenB (changed 0x12 0 0x02 0) driveWritten s2)
  whenB (ids.any fun id => changed (bits id 31 24) (bits id 23 8) (bits id 7 0) (if bits id 7 0 = 2 then 31 else 0)
    && bits id 31 24 == 0x13 && decide (bits id 7 0 ≤ 2)) switchSpread s3

/-- SET_FIELD (R56): busy, undefined or out of range, joint conditions; then every entry, in order. -/
def setFields (c : Cmd) (s : State) : State :=
  let es := c.fieldEntries
  if !c.fieldCountOk then refuse c.pair c.cid stInvalidField s
  else
    match es.findIdx? s.entryBusy with
    | some i => finish c.pair c.cid stCfgBusy i s
    | none =>
      match es.findIdx? fun e => !s.entryOk e with
      | some i => finish c.pair c.cid stInvalidField i s
      | none =>
        let t := es.foldl (fun (t : State) (e : Nat × Nat) => writeField e t) s
        if es.all fun e => t.jointOk e.1 then finishPlain c.pair c.cid stOk (fieldEffects (es.map Prod.fst) s t)
        else refuse c.pair c.cid stInvalidField s

/-- SET_FIELD. -/
def execSetField (pair cid : Nat) (s : State) : Res := live (runCmd 0x0006 pair cid setFields) s

end Sys2Proof.Machine
end

