-- ==== Sys2Proof/Machine/Observe.lean ====
section
/-! DEFINITION. Counters, the trace ring, dailies reports and the logbook (R436, R440 to R445). -/

namespace Sys2Proof.Machine

/-! ### COUNTERS_READ (R436) -/

/-- One record to write: engine code, stage, operator, instance, and the key of its counters. -/
structure CounterRow where
  engine : Nat
  stage : Nat
  op : Nat
  inst : Nat
  key : Nat
  deriving DecidableEq, Repr

/-- The row of an operator of a pipeline. -/
def counterRow (pipe stage op inst : Nat) : CounterRow :=
  { engine := opEngine op, stage := stage, op := op, inst := inst, key := counterKey pipe inst op (opEngine op) }

/-- Identifier of a pipeline's stage of a kind. -/
def Decl.stageOf (d : Decl) (kind : Nat) : Nat := ((d.stages.find? fun g => g.kind == kind).map StageE.id).getD 0

/-- Records of a declared pipeline: the table's instances, the unlisted operators, then 0x0801. -/
def Decl.counterRows (d : Decl) (pipe : Nat) : List CounterRow :=
  (d.ops.zipIdx.map fun o => counterRow pipe o.1.stage o.1.op o.2)
    ++ (([0x0101, 0x0102, 0x0702].filter fun op => !d.ops.any fun o => o.op == op).map fun op =>
        counterRow pipe (d.stageOf (if op = 0x0702 then 8 else 1)) op 0xFFFF)
    ++ [counterRow pipe 0xFFFF 0x0801 0xFFFF]

/-- Records of the work outside every pipeline: one for each engine code. -/
def outsideRows : List CounterRow :=
  (List.range 9).map fun e => { engine := e + 1, stage := 0, op := 0, inst := 0xFFFF, key := counterKey 0xFF 0xFFFF 0 (e + 1) }

/-- The 128 bytes of a record. -/
def State.counterRecord (s : State) (pipe : Nat) (r : CounterRow) : Bytes :=
  let c := tgetD s.obs.counters r.key zeroCounter
  let b := fitTo 124 (putLE 1 pipe ++ putLE 1 r.engine ++ putLE 2 r.stage ++ putLE 2 r.op ++ putLE 2 r.inst ++ putLE 8 s.tb
    ++ putLE 8 c.entries ++ putLE 8 c.work ++ putLE 8 c.busy ++ putLE 8 c.queued ++ (c.codes.map (putLE 4)).flatten
    ++ putLE 4 c.retries ++ putLE 8 c.bytesIn ++ putLE 8 c.bytesOut ++ putLE 4 c.allocWaits)
  b ++ putLE 4 (crc32c b)

/-- COUNTERS_READ. -/
def countersRead (pcieOk : Bool) (c : Cmd) (s : State) : State :=
  let pipe := c.p8 32
  if (15 < pipe ∧ pipe ≠ 0xFF) ∨ 1 < c.p8 33 then refuse c.pair c.cid stInvalidField s
  else
    let rows := if pipe = 0xFF then some outsideRows else (tget s.pipes pipe).map fun p => p.decl.counterRows pipe
    match rows with
    | none => refuse c.pair c.cid stPrecondition s
    | some rs =>
      if !c.minBuf (128 * rs.length) then refuse c.pair c.cid stInvalidField s
      else
        replyData c pcieOk ((rs.map (s.counterRecord pipe)).flatten) rs.length
          (fun t =>
            if bitOf (c.p8 33) 0 then
              { t with obs := { t.obs with counters := tfilter t.obs.counters fun k _ => !rs.any fun r => r.key == k } }
            else t) s

/-- COUNTERS_READ. -/
def execCountersRead (pair cid : Nat) (pcieOk : Bool) (s : State) : Res :=
  live (runCmd 0x0501 pair cid (countersRead pcieOk)) s

/-! ### TRACE_CONFIG (R440) -/

/-- TRACE_CONFIG. -/
def traceConfig (c : Cmd) (s : State) : State :=
  if c.p8 32 < 10 ∨ 24 < c.p8 32 ∨ 1 < c.p8 33 ∨ c.p64 40 % 4096 ≠ 0 then refuse c.pair c.cid stInvalidField s
  else
    finishPlain c.pair c.cid stOk (setRaw 0x12 0 0x06 0
      { s with obs := { s.obs with
          traceOn := !bitOf (c.p8 33) 0, traceLog2 := c.p8 32, traceKinds := c.p32 36, traceAddr := c.p64 40, traceTail := 0,
          traceHead := 0, traceSeq := 0 } })

/-- TRACE_CONFIG. -/
def execTraceConfig (pair cid : Nat) (s : State) : Res := live (runCmd 0x0502 pair cid traceConfig) s

/-! ### Dailies reports (R441, R442) -/

/-- A counter's count in the period of the report. -/
def State.inPeriod (s : State) (key now : Nat) : Nat := ((tgetD s.obs.periodOff key 0) + now).toNat

/-- A counter field's count in the period. -/
def State.fieldPeriod (s : State) (block inst no : Nat) : Nat := s.inPeriod (fieldId block inst no) (s.raw block inst no 0)

/-- What the report shows of each monitor; where the period brought no reading, a free one. -/
structure Monitors where
  droopMin : List Nat
  droops : List Nat
  slack : List Int
  temps : List Int
  eyes : List Nat
  refresh : List Nat
  deriving DecidableEq, Repr

/-- A free 16-bit signed number for use `t`, index `i`. -/
def freeInt16 (t i : Nat) : Int := signedOf 16 (Config.freeNat (t * 2 ^ 16 + i))

/-- The monitors over the period (R441). -/
def State.monitors (s : State) : Monitors where
  droopMin := (List.range 16).map fun c =>
    ((tget s.obs.droops c).map Prod.snd).getD (Config.freeNat (s.freeTick * 2 ^ 16 + c) % 2 ^ 16)
  droops := (List.range 16).map fun c => ((tget s.obs.droops c).map Prod.fst).getD 0
  slack := (List.range 12).map fun d => (tget s.obs.slack d).getD (freeInt16 s.freeTick (16 + d))
  temps := (List.range 12).map fun d => (tget s.obs.tempPeak d).getD (freeInt16 s.freeTick (32 + d))
  eyes := (List.range 18).map fun p => s.lineValue p 0x08 % 2 ^ 16
  refresh := (List.range 8).map fun k => Config.freeNat (s.freeTick * 2 ^ 16 + 48 + k)

/-- FLASH of a magazine, 64 bytes. -/
def State.dailyFlash (s : State) (bay : Nat) : Bytes :=
  match s.magAt bay with
  | none => zeros 64
  | some m =>
    let v := m.lifetimes.zipIdx.map fun x => s.inPeriod (magPeriodKey m.sn x.2) x.1
    fitTo 64 (((v.take 8).map (putLE 4)).flatten ++ putLE 1 m.sparePct ++ putLE 1 m.state ++ putLE 2 (s.wearPct m)
      ++ ((v.drop 8).map (putLE 4)).flatten)

/-- Does a magazine's read histogram show buckets 4 to 6 in the period? -/
def State.deepReads (s : State) : Bool :=
  s.flash.magazines.any fun kv => [4, 5, 6].any fun k => decide (0 < s.inPeriod (magPeriodKey kv.2.sn k) (kv.2.hist.getD k 0))

/-- WARN (R442); [6] where a permanent record had no room in its region too (R443). An eye counts for a port that has left RESET. -/
def State.warn (s : State) (m : Monitors) : Nat :=
  let b (i : Nat) (x : Bool) : Nat := if x then 2 ^ i else 0
  b 0 (m.slack.any fun v => decide (v < 10))
    + b 1 (m.eyes.zipIdx.any fun v => thas s.fab.ports v.2 && decide (v.1 < 8))
    + b 2 (m.refresh.any fun v => decide (v < 200))
    + b 3 (m.temps.any fun v => decide (800 ≤ v))
    + b 4 (m.droopMin.zipIdx.any fun v => decide (v.1 + 60 ≤ s.setPoint (railOf v.2)))
    + b 5 s.deepReads
    + b 6 (decide (permRegion ≤ s.obs.permBytes) || s.obs.log.any fun r => bitOf r.flags 1)

/-- LSN that the CP will give the next record that arises: records of both queues are written first (R443). -/
def State.comingLsn (s : State) : Nat := s.obs.nextLsn + s.obs.logQueue.length + s.obs.logOver.length

/-- The 1 024 bytes of a report. -/
def State.dailies (s : State) (trigger : Nat) : Bytes :=
  let m := s.monitors
  let errs (no : Nat) : List Nat := (List.range 12).map fun d => s.fieldPeriod 0x0F d no
  let tests (no : Nat) : Nat := ((List.range 16).map fun c => s.fieldPeriod 0x10 c no).sum
  let w (n : Nat) (l : List Nat) : Bytes := (l.map (putLE n)).flatten
  let b := fitTo 1020 (putLE 4 0x4C445A45 ++ putLE 2 1 ++ putLE 1 trigger ++ zeros 1 ++ putLE 8 s.tb ++ putLE 8 s.comingLsn
    ++ putLE 4 s.obs.powerCycle ++ putLE 4 (Config.fwRelease s.firmware) ++ fitTo 40 s.counts ++ w 4 (errs 4) ++ w 4 (errs 5)
    ++ putLE 4 (errs 6).sum ++ putLE 4 (errs 3).sum ++ w 4 ([4, 5, 6, 7].map tests) ++ w 2 m.droopMin ++ w 4 m.droops
    ++ w 2 (m.slack.map (twos 16)) ++ w 2 (m.temps.map (twos 16)) ++ w 2 m.eyes
    ++ w 1 (m.refresh.map fun v => min v 255) ++ putLE 4 (s.warn m)
    ++ ((List.range 8).map s.dailyFlash).flatten)
  b ++ putLE 4 (crc32c b)

/-- Counter fields whose period a report covers. -/
def periodFields : List (Nat × Nat × Nat) :=
  ((List.range 12).map fun d => [3, 4, 5, 6].map fun no => (0x0F, d, no)).flatten
    ++ ((List.range 16).map fun c => [4, 5, 6, 7].map fun no => (0x10, c, no)).flatten

/-- Start the next period: every counter counts from here, every monitor reads anew (R442). -/
def newPeriod (s : State) : State :=
  let fs := periodFields.map fun f => (fieldId f.1 f.2.1 f.2.2, s.raw f.1 f.2.1 f.2.2 0)
  let ms := (s.flash.magazines.map fun kv => kv.2.lifetimes.zipIdx.map fun x => (magPeriodKey kv.2.sn x.2, x.1)).flatten
  let away := s.obs.periodOff.filter fun kv => decide (2 ^ 40 ≤ kv.1)
  { s with obs := { s.obs with
      droops := [], slack := [], tempPeak := []
      periodOff := (fs ++ ms).foldl (fun (t : Table Int) (x : Nat × Nat) => tput t x.1 (-(x.2 : Int))) away } }

/-- Make a report and append it to the logbook (R442). -/
def makeDailies (trigger : Nat) (s : State) : State :=
  newPeriod (tickFree (logRecord 0x0050 uPackage (s.dailies trigger) s))

/-- The unit that DAILIES_RUN holds. -/
def dailiesTarget (_ : Cmd) (_ : State) : Nat := 2 ^ 22

/-- DAILIES_RUN needs a buffer of 1 024 bytes. -/
def dailiesCheck (c : Cmd) (_ : State) : Nat := if c.exactBuf 1024 then stOk else stInvalidField

/-- The end of DAILIES_RUN. -/
def dailiesDone (pcieOk : Bool) (l : LongOp) (s : State) : State :=
  let bs := s.dailies 1
  if pcieOk then
    finish l.pair l.cid stOk s.comingLsn
      (makeDailies 1 (emits ((layOut (hostBuffers l.entry []) bs).map fun p => .pcieWrite (s.dataVia l.pair) p.1 p.2) s))
  else refuse l.pair l.cid stDataAddress (makeDailies 1 s)

/-- DAILIES_RUN. -/
def execDailiesRun (pair cid : Nat) (pcieOk : Bool) (s : State) : Res :=
  live (runLong 0x0504 pair cid dailiesTarget dailiesCheck (dailiesDone pcieOk)) s

/-- DAILIES_PERIOD: the periodic report, announced by event 0x0008. -/
def dailiesPeriod (s : State) : State :=
  let lsn := s.comingLsn
  raiseEvent 0x0008 uPackage (lsn % 2 ^ 32) (makeDailies 0 s)

/-- DAILIES_PERIOD. -/
def execDailiesPeriod (s : State) : Res := live (whenB (decide (6 ≤ s.ken.bootStage)) dailiesPeriod) s

/-! ### The logbook -/

/-- The bytes of a record (R443). -/
def LogRec.bytes (r : LogRec) : Bytes :=
  let h := putLE 8 r.lsn ++ putLE 4 r.powerCycle ++ putLE 2 r.type ++ putLE 1 (ceilDiv r.body.length 32) ++ putLE 1 r.flags
    ++ putLE 8 r.tb ++ putLE 2 r.unit ++ zeros 2
  h ++ putLE 4 (crc32c (h ++ r.body)) ++ r.body

/-- Bytes that leave when the oldest records are erased until 64 KiB have gone: how many records, how many bytes. -/
def oldestSector : Nat → List Nat → Nat × Nat
  | _, [] => (0, 0)
  | gone, n :: t => if 65536 ≤ gone then (0, 0) else let r := oldestSector (gone + n) t; (r.1 + 1, r.2 + n)

/-- Erase the oldest sector of the rolling region (R443). -/
def eraseSector (s : State) : State :=
  let o := oldestSector 0 ((s.obs.log.filter fun r => bitOf r.flags 0).map LogRec.size)
  let first := ((s.obs.log.filter fun r => bitOf r.flags 0).take o.1).map LogRec.lsn
  { s with obs := { s.obs with
      log := s.obs.log.filter fun r => !decide (r.lsn ∈ first)
      rollBytes := s.obs.rollBytes - o.2 } }

/-- Append a record to its region with the next LSN (R443, R444): a permanent record goes to the rolling region, with FLAGS
[1], once its own is full. `void` adds FLAGS [2]. -/
def appendLog (void : Bool) (r : LogRec) (s : State) : State :=
  let perm := logPermanent r.type && decide (s.obs.permBytes + r.size ≤ permRegion)
  let s1 := if !perm && decide (rollRegion < s.obs.rollBytes + r.size) then eraseSector s else s
  let flags := (if perm then 0 else if logPermanent r.type then 3 else 1) + if void then 4 else 0
  { s1 with obs := { s1.obs with
      log := s1.obs.log ++ [{ r with lsn := s.obs.nextLsn, flags := flags, tb := s.tb }]
      nextLsn := s.obs.nextLsn + 1
      permBytes := if perm then s1.obs.permBytes + r.size else s1.obs.permBytes
      rollBytes := if perm then s1.obs.rollBytes else s1.obs.rollBytes + r.size } }

/-- Body of the record of discarded permanent records (R444 TYPE 0x0042). -/
def discardBody (n first last : Nat) : Bytes := fitTo 32 (putLE 8 n ++ putLE 8 first ++ putLE 8 last)

/-- LOGBOOK_WRITE: the record at the front of the queue is written; the overflow queue moves up; when permanent records were
discarded, one record says so (R443). -/
def logbookWrite (s : State) : State :=
  match s.obs.logQueue with
  | [] => s
  | r :: rest =>
    let s1 := appendLog false r
      { s with obs := { s.obs with logQueue := rest ++ s.obs.logOver.take 1, logOver := s.obs.logOver.drop 1 } }
    if s.obs.permDropped = 0 then s1
    else
      logRecord 0x0042 uPackage (discardBody s.obs.permDropped s.obs.permDropFirst s.obs.permDropLast)
        { s1 with obs := { s1.obs with permDropped := 0, permDropFirst := 0, permDropLast := 0 } }

/-- LOGBOOK_WRITE. -/
def execLogbookWrite (s : State) : Res := live logbookWrite s

/-- The unit that LOGBOOK_READ holds: the logbook. -/
def logbookTarget (_ : Cmd) (_ : State) : Nat := 2 ^ 22 + 1

/-- LOGBOOK_READ needs a buffer of at least 4 096 bytes. -/
def logbookCheck (c : Cmd) (_ : State) : Nat :=
  if c.minBuf 4096 && decide (c.p8 33 ≤ 1) then stOk else stInvalidField

/-- The records a read still has to write, from an LSN. -/
def State.logFrom (s : State) (e : Bytes) (lsn : Nat) : List LogRec :=
  s.obs.log.filter fun r => decide (lsn ≤ r.lsn) && (!bitOf (byteAt e 33) 0 || logPermanent r.type)

/-- The records that fit a room of `n` bytes, at most `k`. -/
def fitting : Nat → Nat → List LogRec → List LogRec
  | 0, _, _ => []
  | _, _, [] => []
  | k + 1, n, r :: t => if r.size ≤ n then r :: fitting k (n - r.size) t else []

/-- Offset in the buffer and next LSN of a read in progress: `progress` is 0 before the first record, else offset + 2^32 × (LSN
after the last record written). -/
def logProgress (l : LongOp) : Nat × Nat :=
  if l.progress = 0 then (0, field l.entry 40 8) else (l.progress % 2 ^ 32, l.progress / 2 ^ 32)

/-- Write at most `k` records into the buffer: the state, the operation, and is work left? -/
def logbookSome (k : Nat) (l : LongOp) (s : State) : State × LongOp × Bool :=
  let p := logProgress l
  let all := s.logFrom l.entry p.2
  let room := eDataLen l.entry - p.1
  let out := fitting k room all
  let n := (out.map LogRec.size).sum
  let next := (out.getLast?.map fun r => r.lsn + 1).getD p.2
  (if out.isEmpty then s else emit (.pcieWrite (s.dataVia l.pair) (eDataAddr l.entry + p.1) ((out.map LogRec.bytes).flatten)) s,
    { l with progress := if out.isEmpty then l.progress else p.1 + n + next * 2 ^ 32 },
    match all.drop out.length with
    | [] => false
    | r :: _ => decide (r.size ≤ room - n))

/-- Finish a read: RESULT is the LSN after the last record written. -/
def logbookEnd (l : LongOp) (s : State) : State :=
  if l.progress = 0 then finishPlain l.pair l.cid stOk s else finish l.pair l.cid stOk (l.progress / 2 ^ 32) s

/-- Run a read to its end. -/
def logbookDone (pcieOk : Bool) (l : LongOp) (s : State) : State :=
  if pcieOk then
    let r := logbookSome s.obs.log.length l s
    logbookEnd r.2.1 r.1
  else refuse l.pair l.cid stDataAddress s

/-- LOGBOOK_READ. -/
def execLogbookRead (pair cid : Nat) (pcieOk : Bool) (s : State) : Res :=
  live (runLong 0x0505 pair cid logbookTarget logbookCheck (logbookDone pcieOk)) s

end Sys2Proof.Machine
end

