-- ==== Sys2Proof/Machine/Power.lean ====
section
/-! DEFINITION. Power, temperature and clocks in service (R418, R450, R451, R454 to R457) and the I3C sideband (R470). Temperatures are
°C × 8; rail readings are tenths of a percent of the rail's nominal voltage, or of its set point on a core rail (R457). -/

namespace Sys2Proof.Machine

/-! ### Frequencies in effect -/

/-- Count THROTTLES and switch every domain of some clusters whose frequency in effect has changed (R456). -/
def throttled (ds : List (Nat × Nat)) (was s : State) : State :=
  ds.foldl (fun (t : State) (x : Nat × Nat) =>
    if t.freq x.1 x.2 = was.freq x.1 x.2 then t else bump 0x13 0 0x07 (switchIfChanged x.1 x.2 (was.freq x.1 x.2) t)) s

/-- The arithmetic domains of every cluster. -/
def arithDomains : List (Nat × Nat) := (List.range 16).map fun c => (c, 0)

/-- The power-cap frequency after an estimate: 25 MHz down while above the cap, 25 MHz up after 100 ms at least 20 W below it
(R456). It stays within the range of the operating points. -/
def capNext (f watts cap : Nat) (below : Bool) : Nat :=
  if cap < watts then max 400 (f - 25)
  else if below && decide (watts + 20 ≤ cap) then min 800 (f + 25)
  else f

/-- POWER_CAP_SAMPLE (R456). -/
def powerCapSample (watts : Nat) (below : Bool) (s : State) : State :=
  throttled arithDomains s { s with pow := { s.pow with
    watts := watts
    capFreq := capNext s.pow.capFreq watts (s.raw 0x13 0 0x05 760) below } }

/-- POWER_CAP_SAMPLE. -/
def execPowerCapSample (watts : Nat) (below100ms : Bool) (s : State) : Res := live (powerCapSample watts below100ms) s

/-! ### Temperature (R456, R441) -/

/-- A die's sensor reading. -/
def noteTemp (die : Nat) (temp : Int) (s : State) : State :=
  let peak := match tget s.obs.tempPeak die with
    | none => temp
    | some p => max p temp
  { s with
    pow := { s.pow with dieTemp := tput s.pow.dieTemp die temp }
    obs := { s.obs with tempPeak := tput s.obs.tempPeak die peak } }

/-- Event 0x0006 of a threshold, and the in-band interrupt on I3C (R456, R457, R470). -/
def thresholdEvent (unit kind set index : Nat) (s : State) : State :=
  let d := kind + set * 2 ^ 8 + index * 2 ^ 16
  emit (.sideband 0x10 d) (raiseEvent 0x0006 unit d s)

/-- 100 °C crossed: the event, once each way. -/
def hotEvent (die : Nat) (temp : Int) (s : State) : State :=
  if 800 ≤ temp ∧ die ∉ s.pow.dieHot then
    thresholdEvent (uDie die) 2 1 die { s with pow := { s.pow with dieHot := s.pow.dieHot ++ [die] } }
  else if temp < 800 ∧ die ∈ s.pow.dieHot then
    thresholdEvent (uDie die) 2 0 die { s with pow := { s.pow with dieHot := s.pow.dieHot.filter (· ≠ die) } }
  else s

/-- Above 105 °C a die lowers its frequencies; it stops lowering below 103 °C. -/
def lowering (die : Nat) (temp : Int) (s : State) : State :=
  let others := s.pow.throttling.filter (· ≠ die)
  { s with pow := { s.pow with
      throttling :=
        if 840 ≤ temp then others ++ [die] else if temp < 824 then others else s.pow.throttling } }

/-- A sensor reading against 100, 105 and 115 °C. -/
def readTemp (die : Nat) (temp : Int) (s : State) : State :=
  let s1 := lowering die temp (hotEvent die temp (noteTemp die temp s))
  if 920 ≤ temp then stopClocks (fatalStop die 0x0605 false s1) else s1

/-- THERMAL_THRESHOLD. -/
def execThermalThreshold (die : Nat) (temp : Int) (s : State) : Res := live (whenB (decide (die < 12)) (readTemp die temp)) s

/-- The domains of a C-die's clusters; none on another die. -/
def dieDomains (die : Nat) : List (Nat × Nat) :=
  if die < 2 then ((List.range 8).map fun k => [(die * 8 + k, 0), (die * 8 + k, 1)]).flatten else []

/-- One step of a domain's operating points (R455). -/
def freqStep (d : Nat) : Nat := if d = 0 then 25 else 50

/-- A thermal frequency one step lower, at least the lowest operating point; or one step higher, at most nominal. -/
def thermNext (down : Bool) (d f : Nat) : Nat :=
  if down then max (nominalFreq d / 2) (f - freqStep d) else min (nominalFreq d) (f + freqStep d)

/-- Set a domain's thermal frequency. -/
def setTherm (cluster d f : Nat) (s : State) : State :=
  { s with pow := if d = 0 then { s.pow with thermArith := tput s.pow.thermArith cluster f }
    else { s.pow with thermGrip := tput s.pow.thermGrip cluster f } }

/-- Move the thermal frequencies of a die one step. -/
def moveTherm (down : Bool) (die : Nat) (s : State) : State :=
  throttled (dieDomains die) s
    ((dieDomains die).foldl (fun (t : State) (x : Nat × Nat) =>
      setTherm x.1 x.2 (thermNext down x.2 (t.thermFreq x.1 x.2)) t) s)

/-- THERMAL_STEP: one millisecond on. -/
def thermalStep (die : Nat) (temp : Int) (s : State) : State :=
  let s1 := readTemp die temp s
  if die ∈ s1.pow.throttling then moveTherm true die s1
  else if temp < 784 then moveTherm false die s1
  else s1

/-- THERMAL_STEP. -/
def execThermalStep (die : Nat) (temp : Int) (s : State) : Res := live (whenB (decide (die < 12)) (thermalStep die temp)) s

/-! ### Voltage (R454, R451) -/

/-- Range of a voltage domain's set point, in mV (R481). -/
def mvRange (rail : Nat) : Nat × Nat := if rail < 2 then (600, 900) else (650, 850)

/-- A set point one 5 mV step toward 15 ps of slack. -/
def avsNext (rail mv : Nat) (slackPs : Int) : Nat :=
  if slackPs < 15 then min (mvRange rail).2 (mv + 5)
  else if 15 < slackPs then max (mvRange rail).1 (mv - 5)
  else mv

/-- Dies whose critical-path replica a voltage domain covers. -/
def railDies (rail : Nat) : List Nat := if rail = 4 then (List.range 8).map (4 + ·) else [rail]

/-- Keep a monitor's smallest slack. -/
def noteSlack (rail : Nat) (slackPs : Int) (s : State) : State :=
  let put (t : Table Int) (d : Nat) : Table Int :=
    tput t d (match tget t d with | none => slackPs | some v => min v slackPs)
  { s with obs := { s.obs with slack := (railDies rail).foldl put s.obs.slack } }

/-- AVS_ADJUST. The new set point goes out on PMBus, at 0x40 plus the rail index (R481). -/
def avsAdjust (rail : Nat) (slackPs : Int) (s : State) : State :=
  let mv := avsNext rail (s.setPoint rail) slackPs
  emit (.sideband (0x40 + rail) mv)
    (noteSlack rail slackPs { s with pow := { s.pow with setPoints := tput s.pow.setPoints rail mv } })

/-- AVS_ADJUST, from boot stage 4 on (R481). -/
def execAvsAdjust (rail : Nat) (slackPs : Int) (s : State) : Res :=
  live (whenB (decide (rail < 5) && decide (4 ≤ s.ken.bootStage)) (avsAdjust rail slackPs)) s

/-- The body of a droop record (R439 TYPE 6); how many cycles are stretched is the unit's own (R13). -/
def droopBody (cluster mv cycles : Nat) : Bytes := fitTo 32 (putLE 2 cluster ++ putLE 2 mv ++ putLE 4 cycles)

/-- Keep a droop monitor's events and lowest supply. -/
def noteDroop (cluster mv : Nat) (s : State) : State :=
  let new := match tget s.obs.droops cluster with
    | none => (1, mv)
    | some (n, v) => (n + 1, min v mv)
  { s with obs := { s.obs with droops := tput s.obs.droops cluster new } }

/-- DROOP_STRETCH: the supply of a cluster has fallen 40 mV or more below its set point. -/
def droopStretch (cluster mv : Nat) (s : State) : State :=
  if s.setPoint (railOf cluster) < mv + 40 ∨ cluster ∈ s.pow.stretched then s
  else
    traceRecord 6 (uCluster cluster) 0xFF 0 0 (droopBody cluster mv (Config.localCycles s.freeTick))
      (tickFree (noteDroop cluster mv { s with pow := { s.pow with stretched := s.pow.stretched ++ [cluster] } }))

/-- DROOP_STRETCH. -/
def execDroopStretch (cluster lowestMv : Nat) (s : State) : Res :=
  live (whenB (decide (cluster < 16)) (droopStretch cluster lowestMv)) s

/-- DROOP_RECOVER: the normal period returns. -/
def droopRecover (cluster : Nat) (s : State) : State :=
  { s with pow := { s.pow with stretched := s.pow.stretched.filter (· ≠ cluster) } }

/-- DROOP_RECOVER. -/
def execDroopRecover (cluster : Nat) (s : State) : Res := live (droopRecover cluster) s

/-- DOMAIN_SWITCH_GATE_END: the domain's 64 gated cycles are over. A domain whose clock has stopped stays so (R456). -/
def gateEnd (k : Nat) (s : State) : State :=
  if k < 16 then s else { s with pow := { s.pow with gated := s.pow.gated.filter (· ≠ k) } }

/-- DOMAIN_SWITCH_GATE_END. -/
def execDomainSwitchGateEnd (domain : Nat) (s : State) : Res := live (gateEnd domain) s

/-! ### I3C (R470) -/

/-- What a sideband request reads: 1 a die's temperature, 2 a rail, 3 package power, 4 the boot stage, 5 the halt cause, 6 FATAL_INFO
with bit 63 the fatal state. -/
def State.sensor (s : State) (kind arg : Nat) : Option Nat :=
  match kind with
  | 1 => some (twos 16 (tgetD s.pow.dieTemp arg 0))
  | 2 => some (s.pow.rails.getD arg 0)
  | 3 => some s.pow.watts
  | 4 => some s.ken.bootStage
  | 5 => some s.ken.haltCause
  | 6 => some (s.ken.fatalInfo.toNat + if s.ken.fatal then 2 ^ 63 else 0)
  | _ => none

/-- An I3C request: kind 0 assigns a dynamic address, 1 to 6 read a PLDM sensor; every other CCC, MCTP or PLDM request is answered as
its own standard says, which this manual does not repeat: a free value. -/
def i3cRequest (kind arg : Nat) (s : State) : State :=
  if kind = 0 then emit (.sideband 0 arg) { s with pow := { s.pow with i3cAddr := arg % 128 } }
  else
    match s.sensor kind arg with
    | some v => emit (.sideband kind v) s
    | none => tickFree (emit (.sideband kind (Config.freeNat s.freeTick)) s)

/-- I3C_REQUEST, from boot stage 1 on. -/
def execI3cRequest (kind arg : Nat) (s : State) : Res := live (whenB (decide (1 ≤ s.ken.bootStage)) (i3cRequest kind arg)) s

/-- The locate LED's ball. -/
def setLed (on : Bool) (s : State) : State :=
  emit (.pin "LOCATE_LED" (if on then 1 else 0)) { s with pow := { s.pow with led := on } }

/-- PLDM_LOCATE_LED. -/
def execPldmLocateLed (on : Bool) (s : State) : Res := live (whenB (decide (1 ≤ s.ken.bootStage)) (setLed on)) s

/-! ### The crystal (R418, R460) -/

/-- Do the clocks run from the crystal: from the end of boot stage 4 on, a halt after it included? -/
def State.onCrystal (s : State) : Bool :=
  if s.ken.bootStage = 15 then s.ken.haltCause == 4 || s.ken.haltCause == 5 || s.ken.haltCause == 6
  else decide (5 ≤ s.ken.bootStage)

/-- CRYSTAL_FAILURE: every clock of the package stops, and nothing reports it. -/
def crystalFailure (s : State) : State := { s with pow := { s.pow with clocks := false } }

/-- CRYSTAL_FAILURE. -/
def execCrystalFailure (s : State) : Res := live (whenB s.onCrystal crystalFailure) s

end Sys2Proof.Machine
end

