-- ==== Sys2Proof/Machine/Boot.lean ====
section
/-! DEFINITION. Resets and boot (R457 to R462, R466, R470): what a reset leaves, the boot stages, the watchdog, brown-out, PERST#. -/

namespace Sys2Proof.Machine

/-! ### What a reset leaves (R458, R459) -/

/-- The core slots that a boot can use in a cluster: neither retired nor REQUALIFYING (R18, R407, R408). -/
def FieldTest.usable (f : FieldTest) (cluster : Nat) : List Nat :=
  ((List.range 5).map fun k => cluster * 5 + k).filter fun i => !(tgetD f.slots i 0 == 3 || tgetD f.slots i 0 == 4)

/-- The slots and identities of one cluster at boot: four cores and a spare where all five serve, else the cores that serve. -/
def FieldTest.placeCores (f : FieldTest) (cluster : Nat) : FieldTest :=
  let us := f.usable cluster
  if us.length = 5 then f
  else
    { f with
      slots := us.foldl (fun (t : Table Nat) (i : Nat) => tput t i 0) f.slots
      logical := us.zipIdx.foldl (fun (t : Table Nat) (x : Nat × Nat) => tput t (cluster * 4 + x.2) x.1) f.logical }

/-- Field test at boot: retirements, requalification and lifetime counts are kept by the logbook; no test runs. -/
def FieldTest.atBoot (f : FieldTest) : FieldTest :=
  (List.range 16).foldl (fun (g : FieldTest) (c : Nat) => g.placeCores c)
    { FieldTest.atReset with
      slots := tfilter f.slots fun _ v => v == 3 || v == 4
      retired := f.retired
      completed := f.completed
      persistent := f.persistent
      passes := tmapv f.passes fun _ v => { v with count := 0 } }

/-- Units out of service at boot: retired ones, slots that requalify, clusters and logical cores left without a core, and every
magazine until it is ready (R18, R20, R408). -/
def FieldTest.goneAtBoot (f : FieldTest) : List Nat :=
  f.retired
    ++ ((f.slots.filter fun kv => kv.2 == 3).map fun kv => uSlot kv.1)
    ++ (((List.range 16).filter fun c => (f.usable c).isEmpty && (List.range 5).all fun k => tgetD f.slots (c * 5 + k) 0 == 4).map uCluster)
    ++ (((List.range 64).filter fun l => decide ((f.usable (l / 4)).length ≤ l % 4)).map uLogical)
    ++ (List.range 8).map uMagazine

/-- The flash after a reset: data, mapping, wear and volumes stay; each magazine waits for its insertion sequence (R307, R460). -/
def Flash.atBoot (f : Flash) : Flash :=
  let put (m : Magazine) : Magazine :=
    { m with state := 0, powered := false, ejecting := false, quiescing := false, ejectBy := none, hist := [] }
  { f with
    magazines := [], arriving := [], incoming := []
    away := f.away ++ (tvals f.magazines).map put
    copies := [], foldOn := [], gcOn := [], pwrWarn := false, railLow := false, inhibit := false }

/-- The logbook after a reset: what is written stays, what was queued in CP memory is gone. -/
def Observe.atBoot (o : Observe) : Observe :=
  { Observe.atReset with
    log := o.log, nextLsn := o.nextLsn, permBytes := o.permBytes, rollBytes := o.rollBytes, powerCycle := o.powerCycle }

/-- Clocks, rails and firmware after a reset: the boot flash keeps its banks, their marks and the certificate; pins keep their
levels. -/
def Power.atBoot (p : Power) : Power :=
  { Power.atReset with
    pwrgd := p.pwrgd, clocks := p.clocks, browned := p.browned, perst := p.perst, rails := p.rails
    bankBooted := p.bankBooted, banks := p.banks, bankOk := p.bankOk, wdBoots := p.wdBoots, modelCert := p.modelCert
    securityMax := p.securityMax }

/-- The WRITEs in flight leave each block old or new (R54, R307). -/
def tearAll (s : State) : State :=
  (s.ken.cmds.filter fun c => c.writing).foldl (fun (t : State) (c : Cmd) => tearWrite c t) s

/-- Every die in reset (R458): the error rings, the pool, the pipelines and all else are as at reset; the logbook, remap entries,
retirements, magazines and flash data stay. -/
def heldInReset (s0 : State) : State :=
  let s := tearAll s0
  let f := s.ftest.atBoot
  { State.reset with
    pending := s.pending
    tb := s.tb
    freeTick := s.freeTick
    out := s.out
    gone := f.goneAtBoot
    ken := { Kenlet.atReset with bifMode := s.ken.bifMode }
    cat := { CatalogState.atReset with reels := s.cat.reels }
    mem := { StackMem.atReset with remap := s.mem.remap }
    flash := s.flash.atBoot
    ftest := f
    clap := { Clapper.atReset with ballLow := s.clap.ballLow }
    obs := s.obs.atBoot
    pow := s.pow.atBoot }

/-- Boot starts at stage 1 with the timebase at 0 and POWER_CYCLE counted on; `cause` and `rail` as the boot record has them
(R458, R459). -/
def startBoot (cause rail : Nat) (s : State) : State :=
  { s with
    tb := 0
    ken := { s.ken with bootStage := 1 }
    obs := { s.obs with powerCycle := s.obs.powerCycle + 1 }
    pow := { s.pow with clocks := true, browned := none, bootCause := cause, bootRail := rail } }

/-- A warm reset (R458). -/
def warmReset (cause : Nat) (s : State) : State := startBoot cause 0 (heldInReset s)

/-- A loss of power may cut off the record that the CP is writing: it is void, and takes its LSN (R444). -/
def cutRecord (s : State) : State :=
  match s.obs.logQueue with
  | [] => s
  | r :: _ => if Config.freeBool s.freeTick then appendLog true r (tickFree s) else tickFree s

/-! ### Power-good, SYS_RST#, the service button, PLDM, activation -/

/-- POWER_ON_RESET: PWRGD rises; PCIE_BIF is sampled (R30). -/
def powerOn (pins : Nat) (s : State) : State :=
  let s1 := heldInReset s
  startBoot 0 0 { s1 with ken := { s1.ken with bifMode := pins % 4 }, pow := { s1.pow with pwrgd := true } }

/-- POWER_ON_RESET. -/
def execPowerOnReset (bifPins : Nat) (s : State) : Res := .next (if s.pow.pwrgd then s else powerOn bifPins s)

/-- PWRGD_FALL: every domain stops at once, and every die is held in reset. -/
def pwrgdFall (s : State) : State :=
  let s1 := heldInReset (cutRecord s)
  { s1 with pow := { s1.pow with pwrgd := false, browned := none, rails := [] } }

/-- PWRGD_FALL. -/
def execPwrgdFall (s : State) : Res := .next (if s.pow.pwrgd then pwrgdFall s else s)

/-- Does the part answer SYS_RST#? Powered and out of a brown-out; the boot after it runs on the internal oscillator. -/
def State.resettable (s : State) : Bool := s.pow.pwrgd && s.pow.browned.isNone

/-- WARM_RESET: SYS_RST# low for 1 µs. -/
def execWarmReset (s : State) : Res := .next (if s.resettable then warmReset 2 s else s)

/-- SERVICE_BUTTON: a press of 50 ms to 2 s toggles the locate LED; a hold of 8 s resets (R470). -/
def serviceButton (holdMs : Nat) (s : State) : State :=
  if 8000 ≤ holdMs then warmReset 3 s
  else if 50 ≤ holdMs ∧ holdMs ≤ 2000 then setLed (!s.pow.led) s
  else s

/-- SERVICE_BUTTON. -/
def execServiceButton (holdMs : Nat) (s : State) : Res := live (serviceButton holdMs) s

/-- PLDM_WARM_RESET. -/
def execPldmWarmReset (s : State) : Res := live (whenB (decide (1 ≤ s.ken.bootStage)) (warmReset 4)) s

/-- ACTIVATION_RESET: 10 ms after FIRMWARE_ACTIVATE; the next boot takes the bank just staged (R465). -/
def activationReset (s : State) : State :=
  let b := s.stageBank
  let s1 := warmReset 5 s
  { s1 with pow := { s1.pow with bankBooted := b, wdBoots := 0 } }

/-- ACTIVATION_RESET. -/
def execActivationReset (s : State) : Res := live (whenB s.pow.activating activationReset) s

/-! ### Supplies (R457) -/

/-- One rail's reading against 95 % and 96 %. -/
def railEvent (rail r : Nat) (s : State) : State :=
  if r < 950 ∧ rail ∉ s.pow.railLow then
    thresholdEvent uPackage 3 1 rail { s with pow := { s.pow with railLow := s.pow.railLow ++ [rail] } }
  else if 960 < r ∧ rail ∈ s.pow.railLow then
    thresholdEvent uPackage 3 0 rail { s with pow := { s.pow with railLow := s.pow.railLow.filter (· ≠ rail) } }
  else s

/-- One rail's consecutive readings below 88 %. -/
def railBrown (rail r : Nat) (s : State) : State :=
  let t := s.pow.brownCount
  let new := if r < 880 then tput t rail (tgetD t rail 0 + 1) else tdel t rail
  { s with pow := { s.pow with brownCount := new } }

/-- The rail whose ten consecutive readings are a brown-out. -/
def State.brownRail (s : State) : Option Nat := (s.pow.brownCount.find? fun kv => decide (10 ≤ kv.2)).map Prod.fst

/-- A brown-out holds the part in reset until every rail exceeds 96 %. -/
def brownOut (rail : Nat) (s : State) : State :=
  let s1 := heldInReset (cutRecord s)
  { s1 with pow := { s1.pow with browned := some rail } }

/-- SUPPLY_SAMPLE: every rail's reading, in the order of the rail indices. -/
def supplySample (rails : List Nat) (s : State) : State :=
  let s0 := { s with pow := { s.pow with rails := rails } }
  match s.pow.browned with
  | some rail => if rails.all (fun r => decide (960 < r)) then startBoot 1 rail s0 else s0
  | none =>
    let s1 := rails.zipIdx.foldl (fun (t : State) (x : Nat × Nat) => railBrown x.2 x.1 (railEvent x.2 x.1 t)) s0
    match s1.brownRail with
    | some rail => brownOut rail s1
    | none => s1

/-- SUPPLY_SAMPLE: the M-die samples while it is powered and clocked, through a brown-out too. -/
def execSupplySample (rails : List Nat) (s : State) : Res :=
  .next (if s.pow.pwrgd && s.pow.clocks then supplySample rails s else s)

/-! ### PERST# (R458, R461) -/

/-- PCIE_FUNDAMENTAL_RESET: the endpoint, its MSI-X table and read latches are reset, with a controller reset; all else goes on. -/
def fundamentalReset (s : State) : State :=
  let s1 := controllerReset s
  { s1 with
    ken := { s1.ken with fns := [], tbLatch := [], msixTable := [], msixPba := [] }
    pow := { s1.pow with perst := true, linkTraining := false } }

/-- PCIE_FUNDAMENTAL_RESET. -/
def execPcieFundamentalReset (s : State) : Res := live (whenB (!s.pow.perst) fundamentalReset) s

/-- PERST_DEASSERT: link training starts. -/
def perstDeassert (s : State) : State := { s with pow := { s.pow with perst := false, linkTraining := true } }

/-- PERST_DEASSERT. -/
def execPerstDeassert (s : State) : Res := live (whenB s.pow.perst perstDeassert) s

/-! ### The boot stages (R460, R462, R463, R464) -/

/-- The boot halts at stage 15 (R462): the LED blinks at 2 Hz and the sideband raises an interrupt. -/
def haltBoot (cause : Nat) (s : State) : State :=
  emits [.pin "LOCATE_LED" 2, .sideband 0x10 cause] { s with ken := { s.ken with bootStage := 15, haltCause := cause } }

/-- Halt causes a stage may find (R462). -/
def stageHalts (stage : Nat) : List Nat :=
  match stage with
  | 1 => [7]
  | 2 => [1, 7]
  | 3 => [2]
  | 4 => [3]
  | 5 => [4, 5, 7]
  | 6 => [6]
  | _ => []

/-- Is a bank accepted: signed, and no older in security than any bank activated (R463, R464)? -/
def State.bankGood (s : State) (b : Nat) : Bool :=
  Config.bundleVerifies (s.bank b) && decide (s.pow.securityMax ≤ Config.securityVersion (s.bank b))

/-- Has a bank reached stage 8 since its activation? Bank A has, from manufacture. -/
def State.bankReached (s : State) (b : Nat) : Bool := tgetD s.pow.bankOk b (if b = 0 then 1 else 0) == 1

/-- The next stage starts, and the time is noted. -/
def nextStage (s : State) : State :=
  { s with
    ken := { s.ken with bootStage := s.ken.bootStage + 1 }
    pow := { s.pow with stageEnds := s.pow.stageEnds ++ [s.tb] } }

/-- Stage 4: every domain switches to its PLL (R450). -/
def lockPlls (s : State) : State :=
  (((List.range 32).map fun k => 16 + k) ++ [66, 67, 68, 69, 70, 73]).foldl (fun (t : State) (k : Nat) => gate k t) s

/-- Stage 5: the active bank, or the other one, is verified and loaded. -/
def loadFirmware (s : State) : State :=
  let b := s.pow.bankBooted
  if s.bankGood b then nextStage s
  else if s.bankGood (1 - b) then nextStage { s with pow := { s.pow with bankBooted := 1 - b } }
  else haltBoot 4 s

/-- Stage 6: stacks that fail training leave service; the others hold the uninitialised pattern (R249, R256). -/
def trainStacks (failed : List Nat) (s : State) : State :=
  let s1 := (failed.filter fun k => decide (k < 8)).foldl (fun (t : State) (k : Nat) => retireStack k 0x020A t) s
  let s2 := { s1 with mem := { s1.mem with words := [] } }
  if s2.plainUnits 10 8 = 0 then haltBoot 6 s2 else nextStage s2

/-- Body of the boot record (R444 TYPE 0x0002, R459): cause, rail, firmware release, the ends of stages 1 to 7. -/
def State.bootBody (s : State) : Bytes :=
  fitTo 64 (putLE 1 s.pow.bootCause ++ putLE 1 s.pow.bootRail ++ zeros 2 ++ putLE 4 (Config.fwRelease s.firmware)
    ++ (s.pow.stageEnds.map (putLE 8)).flatten)

/-- Stage 8 is reached: the watchdog stops, the bank is marked, its SECURITY_VERSION counts, the boot record is written (R459,
R464, R466). -/
def reachStage8 (s : State) : State :=
  let s1 := nextStage s
  let s2 := { s1 with pow := { s1.pow with
    bankOk := tput s1.pow.bankOk s1.pow.bankBooted 1
    wdBoots := 0
    securityMax := max s1.pow.securityMax (Config.securityVersion s1.firmware) } }
  logRecord 0x0002 uPackage s2.bootBody s2

/-- STATUS.BOOTED is 1; Kenlet is served if CTRL.EN is 1 already (R36, R460). -/
def booted (s : State) : State :=
  let s1 := { s with ken := { s.ken with booted := true } }
  if s.ken.en then serveAdmin s1 else s1

/-- BOOT_STAGE_END. `ok`: the stage's work has succeeded; else the boot halts with a cause that the stage may find. -/
def bootStageEnd (ok : Bool) (cause : Nat) (failed : List Nat) (s : State) : State :=
  let n := s.ken.bootStage
  if n = 8 then (if s.ken.booted then s else booted s)
  else if n = 0 ∨ 8 < n then s
  else if !ok then (if cause ∈ stageHalts n then haltBoot cause s else s)
  else
    match n with
    | 4 => nextStage (lockPlls s)
    | 5 => loadFirmware s
    | 6 => trainStacks failed s
    | 7 => reachStage8 s
    | _ => nextStage s

/-- BOOT_STAGE_END. -/
def execBootStageEnd (ok : Bool) (haltCause : Nat) (failedStacks : List Nat) (s : State) : Res :=
  live (bootStageEnd ok haltCause failedStacks) s

/-- BOOT_WATCHDOG (R466): the other bank when this one never reached stage 8 and the other verifies; else the same bank, whose third
consecutive boot so ended halts the next one. -/
def bootWatchdog (s : State) : State :=
  let b := s.pow.bankBooted
  if !s.bankReached b && s.bankGood (1 - b) then
    let s1 := warmReset 6 s
    { s1 with pow := { s1.pow with bankBooted := 1 - b, wdBoots := 0 } }
  else
    let n := s.pow.wdBoots + 1
    let s1 := warmReset 7 s
    let s2 := { s1 with pow := { s1.pow with wdBoots := n } }
    if s.bankReached b && decide (3 ≤ n) then haltBoot 8 s2 else s2

/-- BOOT_WATCHDOG: it runs until stage 8 is reached or the boot halts. -/
def execBootWatchdog (s : State) : Res :=
  live (whenB (decide (1 ≤ s.ken.bootStage ∧ s.ken.bootStage < 8)) bootWatchdog) s

end Sys2Proof.Machine
end

