-- ==== Sys2Proof/Machine/Lockstep.lean ====
section
/-! DEFINITION. Lockstep pairs (R426 to R432): configuration, slot records and chains, digests and matches, the search for a
divergence, its freeze, and the loss of the partner. -/

namespace Sys2Proof.Machine

/-- Change the lockstep of a pipeline. -/
def modLock (pipe : Nat) (f : Lockstep → Lockstep) (s : State) : State := { s with lock := tmod s.lock pipe f }

/-! ### LOCKSTEP_CONFIG (R426) -/

/-- A lockstep as configured by a command. -/
def lockOf (c : Cmd) : Lockstep where
  role := c.p8 33
  partner := c.p16 34
  asNode := c.p16 36
  onLoss := c.p8 38
  drive := bitOf (c.p8 39) 0
  timeout := if c.p16 40 = 0 then 100 else c.p16 40
  lsState := if c.p8 33 = 0 then 0 else 1
  matched := 0
  lowest := 0
  slotRecs := []
  chains := []
  digests := []
  partnerCounts := []
  partnerRecs := []
  heldMsgs := []
  searching := none
  divBatch := 0
  divSlot := 0
  divStage := 0
  divOperator := 0
  divKind := 0

/-- LOCKSTEP_CONFIG. -/
def lockstepConfig (c : Cmd) (s : State) : State :=
  let pipe := c.p8 32
  match tget s.pipes pipe with
  | none => refuse c.pair c.cid stPrecondition s
  | some p =>
    if p.active then refuse c.pair c.cid stCfgBusy s
    else if (s.controlQp (c.p16 34)).isNone then refuse c.pair c.cid stPrecondition s
    else if 2 < c.p8 33 ∨ 1 < c.p8 38 ∨ 1 < c.p8 39 ∨ 10000 < c.p16 40 ∨ (c.p8 33 = 1 ∧ c.p16 36 ≠ s.fab.nodeId) then
      refuse c.pair c.cid stInvalidField s
    else finishPlain c.pair c.cid stOk { s with lock := tput s.lock pipe { lockOf c with lowest := p.cursor } }

/-- LOCKSTEP_CONFIG. -/
def execLockstepConfig (pair cid : Nat) (s : State) : Res := live (runCmd 0x0503 pair cid lockstepConfig) s

/-! ### Records and digests (R428, R429) -/

/-- A chain entry. -/
def chainEntry (e : Nat × Nat × Nat × Nat) : Bytes :=
  putLE 2 e.1 ++ putLE 2 e.2.1 ++ putLE 1 e.2.2.1 ++ zeros 3 ++ putLE 4 e.2.2.2

/-- CRC of a chain. -/
def chainCrc (ch : List (Nat × Nat × Nat × Nat)) : Nat := crc32c (ch.map chainEntry).flatten

/-- A slot record. -/
def recordBytes (r : Nat × Nat × Nat × Nat) : Bytes := putLE 4 r.1 ++ putLE 4 r.2.1 ++ putLE 4 r.2.2.1 ++ putLE 4 r.2.2.2

/-- Slot records in ascending SLOT. -/
def sortedRecs (rs : List (Nat × Nat × Nat × Nat)) : List (Nat × Nat × Nat × Nat) :=
  (rs.foldl (fun (t : Table (Nat × Nat × Nat)) (r : Nat × Nat × Nat × Nat) => tput t r.1 r.2) []).map fun kv => (kv.1, kv.2)

/-- The batch digest. -/
def batchDigest (pipe b : Nat) (rs : List (Nat × Nat × Nat × Nat)) : Bytes :=
  sha384 (putLE 1 pipe ++ zeros 3 ++ putLE 8 b ++ putLE 4 rs.length ++ ((sortedRecs rs).map recordBytes).flatten)

/-- Keep the records and chains of the 16 most recent batches. -/
def Lockstep.prune (k : Lockstep) : Lockstep :=
  let last := ((k.slotRecs.getLast?).map Prod.fst).getD 0
  { k with
    slotRecs := tfilter k.slotRecs fun b _ => decide (last < b + 16)
    chains := tfilter k.chains fun c _ => decide (last < c / 2 ^ 32 + 16) }

/-- Record a slot or piece that this member makes. -/
def Lockstep.record (k : Lockstep) (b slot payload md : Nat) (ch : List (Nat × Nat × Nat × Nat)) : Lockstep :=
  let r := (slot, payload, md, chainCrc ch)
  { k with
    slotRecs := tput k.slotRecs b ((tgetD k.slotRecs b []).filter (fun (x : Nat × Nat × Nat × Nat) => x.1 != slot) ++ [r])
    chains := tput k.chains (b * 2 ^ 32 + slot) ch }.prune

/-- Has the node made and recorded everything of a batch that it makes? -/
def State.batchMade (s : State) (pipe : Nat) (p : Pipeline) (k : Lockstep) (b : Nat) : Bool :=
  let n := s.domain p.decl
  if p.decl.ledger then
    let u := (b + 1) * p.decl.batch
    let known := match p.spanBelow (u - 1) with
      | some (_, _, base, some m) => decide (u ≤ base + m) || (s.batchesOf p).any fun x => decide (x ≤ b + 1)
      | _ => false
    known && s.eng.samples.all fun kv =>
      kv.2.pipeline != pipe || ((kv.2.slot.isNone || kv.2.batch != b)
        && kv.2.pieces.all fun y => y.2.1 / max 1 p.decl.batch != b || y.2.2.2.2.2)
  else
    let made := (tgetD k.slotRecs b []).map Prod.fst
    (List.range p.decl.batch).all fun sl =>
      let x := p.decl.slotPos n b sl
      !s.ownsPos pipe p.decl x.1 x.2 || decide (sl ∈ made)

/-- A lockstep message to the partner. -/
def lockMsg (kind pipe b value count : Nat) (body : Bytes) (k : Lockstep) (s : State) : State :=
  sendMessage k.partner (makeMessage kind pipe allConsumers s.fab.nodeId count b value body) s

/-! ### Matches (R430) -/

/-- The lowest batch not yet matched. -/
def lowestFrom (k : Lockstep) : Nat → Nat → Nat
  | 0, b => b
  | f + 1, b => if thas k.digests (matchKey b) then lowestFrom k f (b + 1) else b

/-- A batch has matched. -/
def Lockstep.match1 (k : Lockstep) (b : Nat) : Lockstep :=
  let d := tput (tdel (tdel k.digests (4 * b)) (4 * b + 1)) (matchKey b) []
  let low := lowestFrom { k with digests := d } (d.length + 1) k.lowest
  { k with
    matched := k.matched + 1
    lowest := low
    digests := tfilter d fun key _ => !(decide (key < 4 * low) && key % 4 == 2) }

/-- The longest wait for a partner's digest counts in the CP's own clock, whose readings are free (R446). -/
def noteWait (pipe : Nat) (s : State) : State :=
  tickFree (setRaw 0x11 pipe 0x0A (max (s.raw 0x11 pipe 0x0A 0) (Config.localCycles s.freeTick % 2 ^ 32)) s)

/-- Send the held notices that satisfy `p`, in order. -/
def releaseHeld (pipe : Nat) (p : Nat → Bool) (s : State) : State :=
  match tget s.lock pipe with
  | none => s
  | some k =>
    (k.heldMsgs.filter fun h => p h.2.1).foldl (fun (t : State) (h : Nat × Nat × Message) => deliverNotice h.1 h.2.2 t)
      (modLock pipe (fun k => { k with heldMsgs := k.heldMsgs.filter fun h => !p h.2.1 }) s)

/-- The primary compares the digests of a batch, once it has both: MATCH and the notices, or the search (R430). -/
def compareDigests (pipe b : Nat) (s : State) : State :=
  match tget s.lock pipe with
  | none => s
  | some k =>
    match tget k.digests (4 * b), tget k.digests (4 * b + 1) with
    | some own, some theirs =>
      if own = theirs then
        releaseHeld pipe (· == b) (lockMsg 0x41 pipe b 0 0 [] k (noteWait pipe (modLock pipe (fun k => k.match1 b) s)))
      else if k.searching.isNone then
        lockMsg 0x42 pipe b 0 0 [] k (modLock pipe (fun k => { k with searching := some (b, none), partnerRecs := [] }) s)
      else s
    | _, _ => s

/-- A member's digest of a batch is complete: the shadow sends it, the primary compares. -/
def digestReady (pipe b : Nat) (s : State) : State :=
  match tget s.lock pipe, tget s.pipes pipe with
  | some k, some p =>
    if k.lsState = 1 ∧ !thas k.digests (4 * b) ∧ !k.hasMatched b ∧ s.batchMade pipe p k b then
      let rs := tgetD k.slotRecs b []
      let d := batchDigest pipe b rs
      let s1 := modLock pipe (fun k => { k with digests := tput k.digests (4 * b) d }) s
      if k.role = 2 then lockMsg 0x40 pipe b rs.length 1 d k s1 else compareDigests pipe b s1
    else s
  | _, _ => s

/-- A slot or piece of a batch has been made: a paired member records it. -/
def lockRecord (pipe b slot payload md : Nat) (ch : List (Nat × Nat × Nat × Nat)) (s : State) : State :=
  match tget s.lock pipe with
  | some k =>
    if k.role ≠ 0 ∧ k.lsState = 1 then modLock pipe (fun k => k.record b slot payload md ch) s else s
  | none => s

/-- Does a lockstep message come whole from the partner, for a member of this role? -/
def State.lockAccepts (s : State) (m : Message) (kind role : Nat) : Bool :=
  s.going && m.kind == kind && m.crc == m.crcOf && ((tget s.pipes m.pipeline).map Pipeline.active).getD false
    && (tget s.lock m.pipeline).any fun k => k.role == role && k.partner == m.sender

/-- A received lockstep message: its receive slot is freed, and `f` acts on it. -/
def lockIn (kind role : Nat) (m : Message) (f : Lockstep → State → State) (s : State) : State :=
  let s1 := freeSlot m s
  match tget s1.lock m.pipeline with
  | some k => if s1.lockAccepts m kind role then f k s1 else s1
  | none => s1

/-- DIGEST at the primary. -/
def execDigest (m : Message) (s : State) : Res :=
  live (whenB s.going (lockIn 0x40 1 m fun k t =>
    if k.hasMatched m.index ∨ k.lsState ≠ 1 then t
    else compareDigests m.pipeline m.index (modLock m.pipeline (fun k =>
      { k with
        digests := tput k.digests (4 * m.index + 1) m.body
        partnerCounts := tput k.partnerCounts m.index m.value }) t))) s

/-- MATCH at the shadow. -/
def execMatch (m : Message) (s : State) : Res :=
  live (whenB s.going (lockIn 0x41 2 m fun k t =>
    if k.hasMatched m.index then t else noteWait m.pipeline (modLock m.pipeline (fun k => k.match1 m.index) t))) s

/-! ### The search (R430) -/

/-- Records that one message carries. -/
abbrev recordsPer : Nat := (packetData - 32) / 16

/-- The shadow's records of a batch, with the ordinal of each message's first. -/
def sendRecords (pipe b : Nat) (k : Lockstep) (s : State) : State :=
  let rs := sortedRecs (tgetD k.slotRecs b [])
  (List.range (max 1 (ceilDiv rs.length recordsPer))).foldl (fun (t : State) (i : Nat) =>
    let part := (rs.drop (i * recordsPer)).take recordsPer
    lockMsg 0x43 pipe b (i * recordsPer) part.length (part.map recordBytes).flatten k t) s

/-- RECORDS_REQUEST at the shadow. -/
def execRecordsRequest (m : Message) (s : State) : Res :=
  live (whenB s.going (lockIn 0x42 2 m fun k t => sendRecords m.pipeline m.index k t)) s

/-- CHAIN_REQUEST at the shadow. -/
def execChainRequest (m : Message) (s : State) : Res :=
  live (whenB s.going (lockIn 0x44 2 m fun k t =>
    let ch := tgetD k.chains (m.index * 2 ^ 32 + m.value) []
    lockMsg 0x45 m.pipeline m.index m.value ch.length (ch.map chainEntry).flatten k t)) s

/-- Body of a TYPE 8 record. -/
def Lockstep.divBody (k : Lockstep) : Bytes :=
  fitTo 32 (putLE 8 k.divBatch ++ putLE 4 k.divSlot ++ putLE 2 k.divStage ++ putLE 1 k.divKind ++ zeros 1 ++ putLE 4 k.divOperator)

/-- A member's divergence: fields, records, event 0x0007 and the freeze (R430). -/
def diverge (pipe b slot stage op kind : Nat) (s : State) : State :=
  let s1 := modLock pipe (fun k =>
    { k with lsState := 2, divBatch := b, divSlot := slot, divStage := stage, divOperator := op, divKind := kind, searching := none }) s
  let body := ((tget s1.lock pipe).map Lockstep.divBody).getD []
  let drive := ((tget s1.lock pipe).map Lockstep.drive).getD false
  let s2 := traceRecord 8 0 pipe stage (op % 2 ^ 16) body (logRecord 0x0051 0 body s1)
  let s3 := raiseEvent 0x0007 0 (slot % 2 ^ 20 + pipe * 2 ^ 20 + kind * 2 ^ 24) s2
  enterFreeze 3 drive { s3 with clap := { s3.clap with
    divergence := if pipe ∈ s3.clap.divergence then s3.clap.divergence else s3.clap.divergence ++ [pipe] } }

/-- The primary has found the divergence: it sends FREEZE, and freezes. -/
def primaryDiverges (pipe b slot stage op kind : Nat) (k : Lockstep) (s : State) : State :=
  diverge pipe b slot stage op kind (if (s.controlQp k.partner).isSome then lockMsg 0x46 pipe b kind 0 [] k s else s)

/-- DIV_OPERATOR of a difference in what is delivered: DELIVER, with its instance where it is listed (R430, R446). -/
def Decl.deliverOp (d : Decl) : Nat := 0x0702 + (d.instanceOf d.deliverStage 0x0702).getD 0xFFFF * 2 ^ 16

/-- The first slot field at which two sorted record lists differ, with what each holds there. -/
def firstDiff : List (Nat × Nat × Nat × Nat) → List (Nat × Nat × Nat × Nat) → Nat →
    Option (Nat × Option (Nat × Nat × Nat) × Option (Nat × Nat × Nat))
  | _, _, 0 => none
  | [], [], _ => none
  | [], y :: _, _ => some (y.1, none, some y.2)
  | x :: _, [], _ => some (x.1, some x.2, none)
  | x :: xs, y :: ys, f + 1 =>
    if x.1 < y.1 then some (x.1, some x.2, none)
    else if y.1 < x.1 then some (y.1, none, some y.2)
    else if x.2 = y.2 then firstDiff xs ys f
    else some (x.1, some x.2, some y.2)

/-- The primary looks at both record lists. -/
def searchRecords (pipe b : Nat) (k : Lockstep) (d : Decl) (s : State) : State :=
  let own := sortedRecs (tgetD k.slotRecs b [])
  let theirs := sortedRecs k.partnerRecs
  let dlv := d.deliverStage
  match firstDiff own theirs (own.length + theirs.length + 1) with
  | none => primaryDiverges pipe b 0 dlv d.deliverOp 1 k s
  | some (r, some x, some y) =>
    if x.2.2 ≠ y.2.2 then lockMsg 0x44 pipe b r 0 [] k (modLock pipe (fun k => { k with searching := some (b, some r) }) s)
    else if x.1 ≠ y.1 then primaryDiverges pipe b r dlv d.deliverOp 2 k s
    else primaryDiverges pipe b r dlv d.deliverOp 3 k s
  | some (r, _, _) => primaryDiverges pipe b r dlv d.deliverOp 1 k s

/-- A slot record from its bytes. -/
def recordOfBytes (b : Bytes) : Nat × Nat × Nat × Nat := (field b 0 4, field b 4 4, field b 8 4, field b 12 4)

/-- RECORDS at the primary: once all have come, it compares. -/
def execRecords (m : Message) (s : State) : Res :=
  live (whenB s.going (lockIn 0x43 1 m fun k t =>
    match k.searching, tget t.pipes m.pipeline with
    | some (b, none), some p =>
      if b ≠ m.index then t
      else
        let all := k.partnerRecs ++ (pieces 16 m.count m.body).map recordOfBytes
        let t1 := modLock m.pipeline (fun k => { k with partnerRecs := all }) t
        if tgetD k.partnerCounts b 0 ≤ all.length then searchRecords m.pipeline b { k with partnerRecs := all } p.decl t1 else t1
    | _, _ => t)) s

/-- Stage of a chain entry's operator. -/
def Decl.chainStage (d : Decl) (inst op : Nat) : Nat :=
  match d.ops[inst]? with
  | some o => o.stage
  | none => if op = 0x0702 then d.deliverStage else (d.stages.head?.map StageE.id).getD 0

/-- The first entry in which two chains differ. -/
def chainDiff : List (Nat × Nat × Nat × Nat) → List (Nat × Nat × Nat × Nat) → Option (Nat × Nat × Nat × Nat)
  | [], [] => none
  | [], y :: _ => some y
  | x :: _, [] => some x
  | x :: xs, y :: ys => if x = y then chainDiff xs ys else some x

/-- CHAIN at the primary: the diverging operator is found. -/
def execChain (m : Message) (s : State) : Res :=
  live (whenB s.going (lockIn 0x45 1 m fun k t =>
    match k.searching, tget t.pipes m.pipeline with
    | some (b, some r), some p =>
      if b ≠ m.index ∨ r ≠ m.value then t
      else
        let own := tgetD k.chains (b * 2 ^ 32 + r) []
        let theirs := (pieces 12 m.count m.body).map fun x => (field x 0 2, field x 2 2, byteAt x 4, field x 8 4)
        let e := (chainDiff own theirs).getD (0xFFFF, 0, 0, 0)
        primaryDiverges m.pipeline b r (p.decl.chainStage e.1 e.2.1) (e.2.1 + e.1 * 2 ^ 16) 4 k t
    | _, _ => t)) s

/-- FREEZE at the shadow: the message gives batch and kind; slot, stage and operator as this member reports them are free. -/
def execFreeze (m : Message) (s : State) : Res :=
  live (whenB s.going (lockIn 0x46 2 m fun _ t =>
    let n := t.freeTick
    diverge m.pipeline m.index (Config.freeNat n % 2 ^ 32) (Config.freeNat (n + 1) % 2 ^ 16) (Config.freeNat (n + 2) % 2 ^ 32)
      m.value (tickFree (tickFree (tickFree t))))) s

/-! ### FORWARD (R427) -/

/-- A message from its bytes (R231). -/
def parseMessage (b : Bytes) : Message where
  kind := byteAt b 0
  pipeline := byteAt b 1
  consumer := field b 2 2
  sender := field b 4 2
  count := field b 6 2
  index := field b 8 8
  value := field b 16 8
  body := b.drop 32
  crc := field b 28 4

/-- FORWARD at the shadow: it places its units by the SPAN_RESULT or PLACEMENT inside. -/
def execForward (m : Message) (s : State) : Res :=
  live (whenB s.going (lockIn 0x47 2 m fun _ t =>
    let x := parseMessage m.body
    if x.pipeline ≠ m.pipeline then t
    else if x.kind = 4 then spanResultTake x t
    else if x.kind = 5 then placementTake x t
    else t)) s

/-! ### Loss of the partner (R432) -/

/-- Does this member wait for its partner: its own digest of a batch is complete and unmatched, or no READY CONTROL QP leads to the
partner? -/
def State.partnerLate (s : State) (k : Lockstep) : Bool :=
  (s.controlQp k.partner).isNone
    || k.digests.any fun d => d.1 % 4 == 0 && (k.role == 2 || !thas k.digests (d.1 + 1))

/-- LOCKSTEP_TIMEOUT: the partner is lost. -/
def lockstepTimeout (pipe : Nat) (s : State) : State :=
  match tget s.lock pipe with
  | none => s
  | some k =>
    if k.lsState ≠ 1 ∨ k.role = 0 ∨ !s.partnerLate k ∨ !((tget s.pipes pipe).map Pipeline.active).getD false then s
    else
      let b := ((k.digests.find? fun d => d.1 % 4 == 0 && (k.role == 2 || !thas k.digests (d.1 + 1))).map fun d => d.1 / 4).getD k.lowest
      let stage := ((tget s.pipes pipe).map fun p => p.decl.deliverStage).getD 0
      let op := ((tget s.pipes pipe).map fun p => p.decl.deliverOp).getD 0
      if k.role = 1 ∧ k.onLoss = 1 then
        releaseHeld pipe (fun _ => true)
          (raiseEvent 0x0007 0 (0xFFFFF + pipe * 2 ^ 20 + 5 * 2 ^ 24) (modLock pipe (fun k => { k with lsState := 3 }) s))
      else if k.role = 1 then primaryDiverges pipe b 0xFFFFF stage op 5 k s
      else diverge pipe b 0xFFFFF stage op 5 s

/-- LOCKSTEP_TIMEOUT. -/
def execLockstepTimeout (pipeline : Nat) (s : State) : Res := live (whenB s.going (lockstepTimeout pipeline)) s

end Sys2Proof.Machine
end

