-- ==== Sys2Proof/Machine/Shots.lean ====
section
/-! DEFINITION. The shot parameters of a sample (R130 to R133): identity, template with its draws, or explicit record. -/

namespace Sys2Proof.Machine

/-- Draws of a sample (R107). -/
def Sample.draws (x : Sample) (d : Decl) : DrawKey := { seed := d.seed, dataset := x.dataset, index := x.index, epoch := x.epoch }

/-- Identity value of a parameter (R131). -/
def identityParam (j : Nat) : F32 := if j = 2 ∨ j = 3 ∨ j = 5 ∨ j = 8 ∨ j = 9 ∨ j = 10 then fOne else fZero

/-- A parameter of a template (R132): set, or drawn from word j of stream 0. A drawn flip is 1.0 or 0.0. -/
def templateParam (t : Shot) (k : DrawKey) (j : Nat) : F32 :=
  let lo := t.param.getD j fZero
  if !bitOf t.draw j then lo
  else if j = 6 ∨ j = 7 then (if fBernoulli (k.word 0 j) lo then fOne else fZero)
  else fAdd lo (fMul (fUniform (k.word 0 j)) (fSub (t.hi.getD j fZero) lo))

/-- Explicit record of a sample: the resident one, or the one it was made with where it is made again (R21, R134). -/
def Pipeline.shotRecord (p : Pipeline) (x : Sample) : Option Shot :=
  (tget p.shots (posKey x.epoch x.position)).orElse fun _ => x.shot

/-- Shot parameter j of a sample (R131 to R133). -/
def Pipeline.shotParam (p : Pipeline) (x : Sample) (j : Nat) : F32 :=
  match p.decl.shotMode with
  | 1 => match p.template with
    | some t => templateParam t (x.draws p.decl) j
    | none => identityParam j
  | 2 => match p.shotRecord x with
    | some r => r.param.getD j fZero
    | none => identityParam j
  | _ => identityParam j

/-- ARG j of a sample. -/
def Pipeline.shotArg (p : Pipeline) (x : Sample) (j : Nat) : F32 :=
  match p.decl.shotMode with
  | 1 => (p.template.map fun t => t.arg.getD j fZero).getD fZero
  | 2 => ((p.shotRecord x).map fun r => r.arg.getD j fZero).getD fZero
  | _ => fZero

end Sys2Proof.Machine
end

