-- ==== Sys2Proof/Machine/Tables.lean ====
section
/-! DEFINITION. Merge tables and grammar automata: their images (R173, R174, R185, R186) and TOKEN_TABLE_LOAD (R172). -/

namespace Sys2Proof.Machine

/-- Does a range lie in ascending order, each item before the next by `lt`? -/
def ascending {α : Type} (lt : α → α → Bool) : List α → Bool
  | a :: b :: t => lt a b && ascending lt (b :: t)
  | _ => true

/-- UTF-8 form of a character (RFC 3629). -/
def utf8Of (c : Nat) : Bytes :=
  let b (n : Nat) : Byte := BitVec.ofNat 8 n
  if c < 0x80 then [b c]
  else if c < 0x800 then [b (0xC0 + c / 64), b (0x80 + c % 64)]
  else if c < 0x10000 then [b (0xE0 + c / 4096), b (0x80 + c / 64 % 64), b (0x80 + c % 64)]
  else [b (0xF0 + c / 262144), b (0x80 + c / 4096 % 64), b (0x80 + c / 64 % 64), b (0x80 + c % 64)]

/-- Is a number a Unicode scalar value? -/
def isScalar (c : Nat) : Bool := decide (c < 0x110000) && !decide (0xD800 ≤ c ∧ c ≤ 0xDFFF)

/-! ### Merge tables (R173, R174) -/

/-- Header fields of a merge table, within the limits of R173 and R177. -/
def mergeHeaderOk (d : Bytes) : Bool :=
  let nb := field d 16 4
  let nm := field d 20 4
  field d 0 4 == 0x4B545A45 && field d 4 2 == 1 && byteAt d 6 == 0 && decide (byteAt d 7 ≤ 1)
    && decide (257 ≤ field d 8 4 ∧ field d 8 4 ≤ 1048576) && decide (nb ≤ 1048320) && (byteAt d 7 == 0 || nb == 0)
    && decide (nm ≤ 1048320) && decide (byteAt d 24 ≤ 3) && decide (byteAt d 25 ≤ 1) && zeroAt d 26 30
    && d.length == 64 + 8 * nb + 12 * nm

/-- The table of an image. -/
def mergeImage (d : Bytes) : MergeTable :=
  let nb := field d 16 4
  let nm := field d 20 4
  { byteMode := byteAt d 7 == 1, vocab := field d 8 4, byteBase := field d 12 4, digitGroup := byteAt d 24,
    spacePrefix := bitOf (byteAt d 25) 0,
    base := (pieces 8 nb (sub d 64 (8 * nb))).map fun b => (field b 0 4, field b 4 4),
    merges := (pieces 12 nm (d.drop (64 + 8 * nb))).map fun b => (field b 0 4, field b 4 4, field b 8 4),
    crc := field d 56 4 }

/-- The string of every assigned identifier. -/
def MergeTable.strings (t : MergeTable) : Table Bytes :=
  let bytes := (List.range 256).foldl (fun (m : Table Bytes) (i : Nat) => tput m (t.byteBase + i) [BitVec.ofNat 8 i]) []
  let base := t.base.foldl (fun (m : Table Bytes) (e : Nat × Nat) => tput m e.2 (utf8Of e.1)) bytes
  t.merges.foldl (fun (m : Table Bytes) (e : Nat × Nat × Nat) =>
    tput m e.2.2 (tgetD m e.1 [] ++ tgetD m e.2.1 [])) base

/-- Identifiers that byte tokens and base tokens assign. -/
def MergeTable.leaves (t : MergeTable) : List Nat := (List.range 256).map (t.byteBase + ·) ++ t.base.map Prod.snd

/-- Are the parts of every merge tokens that come before it? -/
def mergesKnown : List Nat → List (Nat × Nat × Nat) → Bool
  | _, [] => true
  | known, m :: ms => decide (m.1 ∈ known) && decide (m.2.1 ∈ known) && mergesKnown (m.2.2 :: known) ms

/-- The contents of a merge table (R174). -/
def MergeTable.ok (t : MergeTable) : Bool :=
  let ids := t.leaves ++ t.merges.map fun m => m.2.2
  ascending (fun (a b : Nat × Nat) => decide (a.1 < b.1)) t.base && t.base.all (fun b => isScalar b.1)
    && mergesKnown t.leaves t.merges && decide ((t.merges.map fun m => (m.1, m.2.1)).Nodup) && decide ids.Nodup
    && ids.all (fun i => decide (i < t.vocab)) && t.strings.all fun kv => decide (kv.2.length ≤ 256)

/-! ### Automata (R185, R186) -/

/-- Header fields of an automaton, within the limits of R185 and R177. -/
def automatonHeaderOk (d : Bytes) : Bool :=
  let ns := field d 8 4
  let ne := field d 12 4
  field d 0 4 == 0x41475A45 && field d 4 2 == 1 && byteAt d 6 == 1 && decide (byteAt d 7 ≤ 1)
    && decide (2 ≤ ns ∧ ns ≤ 65536) && decide (ne ≤ 4194304) && decide (1 ≤ field d 16 2 ∧ field d 16 2 ≤ ns - 1)
    && decide (byteAt d 18 ≤ 1) && zeroAt d 19 37 && d.length == 64 + 8 * ns + 16 * ne

/-- Edge entries of an image. -/
def imageEdges (d : Bytes) : List Bytes := pieces 16 (field d 12 4) (d.drop (64 + 8 * field d 8 4))

/-- State entries of an image. -/
def imageStates (d : Bytes) : List Bytes := pieces 8 (field d 8 4) (sub d 64 (8 * field d 8 4))

/-- An edge. -/
def edgeOf (b : Bytes) : Edge :=
  { lo := field b 0 4, hi := field b 4 4, next := field b 8 2, ret := field b 10 2, action := byteAt b 12 }

/-- Is an edge entry well formed, for a number of states (R185, R186)? -/
def edgeOk (n : Nat) (b : Bytes) : Bool :=
  let e := edgeOf b
  decide (e.lo ≤ e.hi ∧ e.hi < 2 ^ 21) && decide (e.action ≤ 2) && zeroAt b 13 3 && decide (e.next < n)
    && (e.action != 2 || e.next == 0)
    && (if e.action = 1 then decide (1 ≤ e.ret ∧ e.ret < n) else e.ret == 0)

/-- The states' edge ranges cover the edge table in order. -/
def edgesCover : Nat → Nat → List Bytes → Bool
  | next, total, [] => next == total
  | next, total, b :: t => field b 0 4 == next && edgesCover (next + field b 4 2) total t

/-- The automaton of an image. -/
def automatonImage (d : Bytes) : Automaton :=
  let es := (imageEdges d).map edgeOf
  { symbols := byteAt d 7, start := field d 16 2, finalEmpty := byteAt d 18 == 1,
    states := (imageStates d).map fun b => (bitOf (field b 6 2) 0, (es.drop (field b 0 4)).take (field b 4 2)),
    crc := field d 56 4 }

/-- The contents of an automaton (R186). -/
def automatonOk (d : Bytes) : Bool :=
  let a := automatonImage d
  let dead := a.states.headD (false, [])
  !dead.1 && dead.2.isEmpty && (imageEdges d).all (edgeOk (field d 8 4))
    && (imageStates d).all (fun b => decide (field b 6 2 ≤ 1)) && edgesCover 0 (field d 12 4) (imageStates d)
    && a.states.all fun st => ascending (fun (x y : Edge) => decide (x.hi < y.lo)) st.2

/-! ### TOKEN_TABLE_LOAD (R172) -/

/-- SLOT, KIND and UNLOAD of the command. -/
def tableSlot (c : Cmd) : Nat := c.p8 32
/-- KIND: 0 merge table, 1 automaton. -/
def tableKind (c : Cmd) : Nat := c.p8 33
/-- UNLOAD. -/
def tableUnload (c : Cmd) : Bool := bitOf (c.p8 34) 0

/-- The unit a load holds: its slot. -/
def tableTarget (c : Cmd) (_ : State) : Nat := 2 ^ 20 + tableKind c * 8 + tableSlot c

/-- Does a running pipeline name a slot of a kind? -/
def State.tableNamed (s : State) (kind slot : Nat) : Bool :=
  s.pipes.any fun kv => kv.2.active && (kv.2.decl.blockOf (if kind = 0 then 0x0501 else 0x0502)).any fun b =>
    byteAt b 0 == slot

/-- Is another load of the same slot started and not yet completed? -/
def State.loadOutstanding (s : State) (c : Cmd) (same : Cmd → Bool) : Bool :=
  s.ken.cmds.any fun x => x.opcode == c.opcode && x.ord != c.ord && x.phase != .waiting && same x

/-- The checks that come before the image. -/
def tableCheck (c : Cmd) (s : State) : Nat :=
  if 7 < tableSlot c ∨ 1 < tableKind c ∨ 1 < c.p8 34 ∨ !(if tableUnload c then c.noData else c.hasData) then stInvalidField
  else if s.tableNamed (tableKind c) (tableSlot c)
      ∨ s.loadOutstanding c (fun x => tableSlot x == tableSlot c && tableKind x == tableKind c) then stBusy
  else stOk

/-- Status of an image, by the order of R172. -/
def tableStatus (kind : Nat) (d : Bytes) : Nat :=
  if d.length < 64 then stInvalidField
  else if crc32c (d.take 60) ≠ field d 60 4 then stSignature
  else if !(if kind = 0 then mergeHeaderOk d else automatonHeaderOk d) then stInvalidField
  else if crc32c (d.drop 64) ≠ field d 56 4 then stSignature
  else if !(if kind = 0 then (mergeImage d).ok else automatonOk d) then stInvalidField
  else stOk

/-- Order number of the outstanding command of a long operation. -/
def State.ordOf (s : State) (pair cid : Nat) : Nat := ((s.findCmd pair cid).map Cmd.ord).getD 0

/-- UNLOAD of a slot. -/
def tableUnloadDone (l : LongOp) (s : State) : State :=
  let slot := tableSlot l.cmd
  if tableKind l.cmd = 0 then
    if thas s.slots.merges slot then
      finishPlain l.pair l.cid stOk { s with slots := { s.slots with merges := tdel s.slots.merges slot } }
    else refuse l.pair l.cid stPrecondition s
  else if thas s.slots.automata slot then
    finishPlain l.pair l.cid stOk { s with slots := { s.slots with automata := tdel s.slots.automata slot } }
  else refuse l.pair l.cid stPrecondition s

/-- The final slice: the image is checked, and waits for its completion to be written. -/
def tableDone (l : LongOp) (s : State) : State :=
  if tableUnload l.cmd then tableUnloadDone l s
  else
    let d := l.data
    let kind := tableKind l.cmd
    let st := tableStatus kind d
    let key := s.ordOf l.pair l.cid * 8 + tableSlot l.cmd
    if st ≠ stOk then refuse l.pair l.cid st s
    else
      finish l.pair l.cid stOk (field d 56 4 + field d 8 4 * 2 ^ 32) (storeObject (if kind = 0 then 17 else 18) key d
        (if kind = 0 then
          { s with slots := { s.slots with pendMerges := tput s.slots.pendMerges key (mergeImage d) } }
        else { s with slots := { s.slots with pendAutomata := tput s.slots.pendAutomata key (automatonImage d) } }))

/-- TOKEN_TABLE_LOAD. -/
def execTokenTableLoad (pair cid : Nat) (s : State) : Res := live (runLong 0x0206 pair cid tableTarget tableCheck tableDone) s

/-- A slice that leaves image bytes unchecked, one at least: RESULT is the bytes checked so far (R172, R212). -/
def bytesSlice (units : Nat) (l : LongOp) (s : State) : State × LongOp × Nat :=
  let n := min (l.progress + units) (l.data.length - 1)
  (s, { l with progress := n }, n)

end Sys2Proof.Machine
end

