-- ==== Sys2Proof/Machine/UniClass.lean ====
section
/-! DEFINITION. The pre-tokenization classes above U+007F by General_Category of the Unicode Character Database 15.1.0 (R178): where
each run of characters of one class begins. The spec names the database and does not print it: the runs are PRESUMED, taken from
the database itself. -/

namespace Sys2Proof.Machine

/-- Runs from U+0080 on. -/
def classRuns0 : List (Nat × Nat) :=
  [(0x80, 5), (0xA1, 4), (0xAA, 0), (0xAB, 4), (0xAD, 5), (0xAE, 4), (0xB2, 1), (0xB4, 4), (0xB5, 0), (0xB6, 4),
   (0xB9, 1), (0xBA, 0), (0xBB, 4), (0xBC, 1), (0xBF, 4), (0xC0, 0), (0xD7, 4), (0xD8, 0), (0xF7, 4), (0xF8, 0),
   (0x2C2, 4), (0x2C6, 0), (0x2D2, 4), (0x2E0, 0), (0x2E5, 4), (0x2EC, 0), (0x2ED, 4), (0x2EE, 0), (0x2EF, 4),
   (0x300, 6), (0x370, 0), (0x375, 4), (0x376, 0), (0x378, 5), (0x37A, 0), (0x37E, 4), (0x37F, 0), (0x380, 5),
   (0x384, 4), (0x386, 0), (0x387, 4), (0x388, 0), (0x38B, 5), (0x38C, 0), (0x38D, 5), (0x38E, 0), (0x3A2, 5),
   (0x3A3, 0), (0x3F6, 4), (0x3F7, 0), (0x482, 4), (0x483, 6), (0x48A, 0), (0x530, 5), (0x531, 0), (0x557, 5),
   (0x559, 0), (0x55A, 4), (0x560, 0), (0x589, 4), (0x58B, 5), (0x58D, 4), (0x590, 5), (0x591, 6), (0x5BE, 4),
   (0x5BF, 6), (0x5C0, 4), (0x5C1, 6), (0x5C3, 4), (0x5C4, 6), (0x5C6, 4), (0x5C7, 6), (0x5C8, 5), (0x5D0, 0),
   (0x5EB, 5), (0x5EF, 0), (0x5F3, 4), (0x5F5, 5), (0x606, 4), (0x610, 6)]

/-- Runs from U+061B on. -/
def classRuns1 : List (Nat × Nat) :=
  [(0x61B, 4), (0x61C, 5), (0x61D, 4), (0x620, 0), (0x64B, 6), (0x660, 1), (0x66A, 4), (0x66E, 0), (0x670, 6),
   (0x671, 0), (0x6D4, 4), (0x6D5, 0), (0x6D6, 6), (0x6DD, 5), (0x6DE, 4), (0x6DF, 6), (0x6E5, 0), (0x6E7, 6),
   (0x6E9, 4), (0x6EA, 6), (0x6EE, 0), (0x6F0, 1), (0x6FA, 0), (0x6FD, 4), (0x6FF, 0), (0x700, 4), (0x70E, 5),
   (0x710, 0), (0x711, 6), (0x712, 0), (0x730, 6), (0x74B, 5), (0x74D, 0), (0x7A6, 6), (0x7B1, 0), (0x7B2, 5),
   (0x7C0, 1), (0x7CA, 0), (0x7EB, 6), (0x7F4, 0), (0x7F6, 4), (0x7FA, 0), (0x7FB, 5), (0x7FD, 6), (0x7FE, 4),
   (0x800, 0), (0x816, 6), (0x81A, 0), (0x81B, 6), (0x824, 0), (0x825, 6), (0x828, 0), (0x829, 6), (0x82E, 5),
   (0x830, 4), (0x83F, 5), (0x840, 0), (0x859, 6), (0x85C, 5), (0x85E, 4), (0x85F, 5), (0x860, 0), (0x86B, 5),
   (0x870, 0), (0x888, 4), (0x889, 0), (0x88F, 5), (0x898, 6), (0x8A0, 0), (0x8CA, 6), (0x8E2, 5), (0x8E3, 6),
   (0x904, 0), (0x93A, 6), (0x93D, 0), (0x93E, 6), (0x950, 0), (0x951, 6), (0x958, 0), (0x962, 6)]

/-- Runs from U+0964 on. -/
def classRuns2 : List (Nat × Nat) :=
  [(0x964, 4), (0x966, 1), (0x970, 4), (0x971, 0), (0x981, 6), (0x984, 5), (0x985, 0), (0x98D, 5), (0x98F, 0),
   (0x991, 5), (0x993, 0), (0x9A9, 5), (0x9AA, 0), (0x9B1, 5), (0x9B2, 0), (0x9B3, 5), (0x9B6, 0), (0x9BA, 5),
   (0x9BC, 6), (0x9BD, 0), (0x9BE, 6), (0x9C5, 5), (0x9C7, 6), (0x9C9, 5), (0x9CB, 6), (0x9CE, 0), (0x9CF, 5),
   (0x9D7, 6), (0x9D8, 5), (0x9DC, 0), (0x9DE, 5), (0x9DF, 0), (0x9E2, 6), (0x9E4, 5), (0x9E6, 1), (0x9F0, 0),
   (0x9F2, 4), (0x9F4, 1), (0x9FA, 4), (0x9FC, 0), (0x9FD, 4), (0x9FE, 6), (0x9FF, 5), (0xA01, 6), (0xA04, 5),
   (0xA05, 0), (0xA0B, 5), (0xA0F, 0), (0xA11, 5), (0xA13, 0), (0xA29, 5), (0xA2A, 0), (0xA31, 5), (0xA32, 0),
   (0xA34, 5), (0xA35, 0), (0xA37, 5), (0xA38, 0), (0xA3A, 5), (0xA3C, 6), (0xA3D, 5), (0xA3E, 6), (0xA43, 5),
   (0xA47, 6), (0xA49, 5), (0xA4B, 6), (0xA4E, 5), (0xA51, 6), (0xA52, 5), (0xA59, 0), (0xA5D, 5), (0xA5E, 0),
   (0xA5F, 5), (0xA66, 1), (0xA70, 6), (0xA72, 0), (0xA75, 6), (0xA76, 4), (0xA77, 5), (0xA81, 6)]

/-- Runs from U+0A84 on. -/
def classRuns3 : List (Nat × Nat) :=
  [(0xA84, 5), (0xA85, 0), (0xA8E, 5), (0xA8F, 0), (0xA92, 5), (0xA93, 0), (0xAA9, 5), (0xAAA, 0), (0xAB1, 5),
   (0xAB2, 0), (0xAB4, 5), (0xAB5, 0), (0xABA, 5), (0xABC, 6), (0xABD, 0), (0xABE, 6), (0xAC6, 5), (0xAC7, 6),
   (0xACA, 5), (0xACB, 6), (0xACE, 5), (0xAD0, 0), (0xAD1, 5), (0xAE0, 0), (0xAE2, 6), (0xAE4, 5), (0xAE6, 1),
   (0xAF0, 4), (0xAF2, 5), (0xAF9, 0), (0xAFA, 6), (0xB00, 5), (0xB01, 6), (0xB04, 5), (0xB05, 0), (0xB0D, 5),
   (0xB0F, 0), (0xB11, 5), (0xB13, 0), (0xB29, 5), (0xB2A, 0), (0xB31, 5), (0xB32, 0), (0xB34, 5), (0xB35, 0),
   (0xB3A, 5), (0xB3C, 6), (0xB3D, 0), (0xB3E, 6), (0xB45, 5), (0xB47, 6), (0xB49, 5), (0xB4B, 6), (0xB4E, 5),
   (0xB55, 6), (0xB58, 5), (0xB5C, 0), (0xB5E, 5), (0xB5F, 0), (0xB62, 6), (0xB64, 5), (0xB66, 1), (0xB70, 4),
   (0xB71, 0), (0xB72, 1), (0xB78, 5), (0xB82, 6), (0xB83, 0), (0xB84, 5), (0xB85, 0), (0xB8B, 5), (0xB8E, 0),
   (0xB91, 5), (0xB92, 0), (0xB96, 5), (0xB99, 0), (0xB9B, 5), (0xB9C, 0), (0xB9D, 5), (0xB9E, 0)]

/-- Runs from U+0BA0 on. -/
def classRuns4 : List (Nat × Nat) :=
  [(0xBA0, 5), (0xBA3, 0), (0xBA5, 5), (0xBA8, 0), (0xBAB, 5), (0xBAE, 0), (0xBBA, 5), (0xBBE, 6), (0xBC3, 5),
   (0xBC6, 6), (0xBC9, 5), (0xBCA, 6), (0xBCE, 5), (0xBD0, 0), (0xBD1, 5), (0xBD7, 6), (0xBD8, 5), (0xBE6, 1),
   (0xBF3, 4), (0xBFB, 5), (0xC00, 6), (0xC05, 0), (0xC0D, 5), (0xC0E, 0), (0xC11, 5), (0xC12, 0), (0xC29, 5),
   (0xC2A, 0), (0xC3A, 5), (0xC3C, 6), (0xC3D, 0), (0xC3E, 6), (0xC45, 5), (0xC46, 6), (0xC49, 5), (0xC4A, 6),
   (0xC4E, 5), (0xC55, 6), (0xC57, 5), (0xC58, 0), (0xC5B, 5), (0xC5D, 0), (0xC5E, 5), (0xC60, 0), (0xC62, 6),
   (0xC64, 5), (0xC66, 1), (0xC70, 5), (0xC77, 4), (0xC78, 1), (0xC7F, 4), (0xC80, 0), (0xC81, 6), (0xC84, 4),
   (0xC85, 0), (0xC8D, 5), (0xC8E, 0), (0xC91, 5), (0xC92, 0), (0xCA9, 5), (0xCAA, 0), (0xCB4, 5), (0xCB5, 0),
   (0xCBA, 5), (0xCBC, 6), (0xCBD, 0), (0xCBE, 6), (0xCC5, 5), (0xCC6, 6), (0xCC9, 5), (0xCCA, 6), (0xCCE, 5),
   (0xCD5, 6), (0xCD7, 5), (0xCDD, 0), (0xCDF, 5), (0xCE0, 0), (0xCE2, 6), (0xCE4, 5), (0xCE6, 1)]

/-- Runs from U+0CF0 on. -/
def classRuns5 : List (Nat × Nat) :=
  [(0xCF0, 5), (0xCF1, 0), (0xCF3, 6), (0xCF4, 5), (0xD00, 6), (0xD04, 0), (0xD0D, 5), (0xD0E, 0), (0xD11, 5),
   (0xD12, 0), (0xD3B, 6), (0xD3D, 0), (0xD3E, 6), (0xD45, 5), (0xD46, 6), (0xD49, 5), (0xD4A, 6), (0xD4E, 0),
   (0xD4F, 4), (0xD50, 5), (0xD54, 0), (0xD57, 6), (0xD58, 1), (0xD5F, 0), (0xD62, 6), (0xD64, 5), (0xD66, 1),
   (0xD79, 4), (0xD7A, 0), (0xD80, 5), (0xD81, 6), (0xD84, 5), (0xD85, 0), (0xD97, 5), (0xD9A, 0), (0xDB2, 5),
   (0xDB3, 0), (0xDBC, 5), (0xDBD, 0), (0xDBE, 5), (0xDC0, 0), (0xDC7, 5), (0xDCA, 6), (0xDCB, 5), (0xDCF, 6),
   (0xDD5, 5), (0xDD6, 6), (0xDD7, 5), (0xDD8, 6), (0xDE0, 5), (0xDE6, 1), (0xDF0, 5), (0xDF2, 6), (0xDF4, 4),
   (0xDF5, 5), (0xE01, 0), (0xE31, 6), (0xE32, 0), (0xE34, 6), (0xE3B, 5), (0xE3F, 4), (0xE40, 0), (0xE47, 6),
   (0xE4F, 4), (0xE50, 1), (0xE5A, 4), (0xE5C, 5), (0xE81, 0), (0xE83, 5), (0xE84, 0), (0xE85, 5), (0xE86, 0),
   (0xE8B, 5), (0xE8C, 0), (0xEA4, 5), (0xEA5, 0), (0xEA6, 5), (0xEA7, 0), (0xEB1, 6), (0xEB2, 0)]

/-- Runs from U+0EB4 on. -/
def classRuns6 : List (Nat × Nat) :=
  [(0xEB4, 6), (0xEBD, 0), (0xEBE, 5), (0xEC0, 0), (0xEC5, 5), (0xEC6, 0), (0xEC7, 5), (0xEC8, 6), (0xECF, 5),
   (0xED0, 1), (0xEDA, 5), (0xEDC, 0), (0xEE0, 5), (0xF00, 0), (0xF01, 4), (0xF18, 6), (0xF1A, 4), (0xF20, 1),
   (0xF34, 4), (0xF35, 6), (0xF36, 4), (0xF37, 6), (0xF38, 4), (0xF39, 6), (0xF3A, 4), (0xF3E, 6), (0xF40, 0),
   (0xF48, 5), (0xF49, 0), (0xF6D, 5), (0xF71, 6), (0xF85, 4), (0xF86, 6), (0xF88, 0), (0xF8D, 6), (0xF98, 5),
   (0xF99, 6), (0xFBD, 5), (0xFBE, 4), (0xFC6, 6), (0xFC7, 4), (0xFCD, 5), (0xFCE, 4), (0xFDB, 5), (0x1000, 0),
   (0x102B, 6), (0x103F, 0), (0x1040, 1), (0x104A, 4), (0x1050, 0), (0x1056, 6), (0x105A, 0), (0x105E, 6), (0x1061, 0),
   (0x1062, 6), (0x1065, 0), (0x1067, 6), (0x106E, 0), (0x1071, 6), (0x1075, 0), (0x1082, 6), (0x108E, 0), (0x108F, 6),
   (0x1090, 1), (0x109A, 6), (0x109E, 4), (0x10A0, 0), (0x10C6, 5), (0x10C7, 0), (0x10C8, 5), (0x10CD, 0), (0x10CE, 5),
   (0x10D0, 0), (0x10FB, 4), (0x10FC, 0), (0x1249, 5), (0x124A, 0), (0x124E, 5), (0x1250, 0), (0x1257, 5)]

/-- Runs from U+1258 on. -/
def classRuns7 : List (Nat × Nat) :=
  [(0x1258, 0), (0x1259, 5), (0x125A, 0), (0x125E, 5), (0x1260, 0), (0x1289, 5), (0x128A, 0), (0x128E, 5), (0x1290, 0),
   (0x12B1, 5), (0x12B2, 0), (0x12B6, 5), (0x12B8, 0), (0x12BF, 5), (0x12C0, 0), (0x12C1, 5), (0x12C2, 0), (0x12C6, 5),
   (0x12C8, 0), (0x12D7, 5), (0x12D8, 0), (0x1311, 5), (0x1312, 0), (0x1316, 5), (0x1318, 0), (0x135B, 5), (0x135D, 6),
   (0x1360, 4), (0x1369, 1), (0x137D, 5), (0x1380, 0), (0x1390, 4), (0x139A, 5), (0x13A0, 0), (0x13F6, 5), (0x13F8, 0),
   (0x13FE, 5), (0x1400, 4), (0x1401, 0), (0x166D, 4), (0x166F, 0), (0x1680, 5), (0x1681, 0), (0x169B, 4), (0x169D, 5),
   (0x16A0, 0), (0x16EB, 4), (0x16EE, 1), (0x16F1, 0), (0x16F9, 5), (0x1700, 0), (0x1712, 6), (0x1716, 5), (0x171F, 0),
   (0x1732, 6), (0x1735, 4), (0x1737, 5), (0x1740, 0), (0x1752, 6), (0x1754, 5), (0x1760, 0), (0x176D, 5), (0x176E, 0),
   (0x1771, 5), (0x1772, 6), (0x1774, 5), (0x1780, 0), (0x17B4, 6), (0x17D4, 4), (0x17D7, 0), (0x17D8, 4), (0x17DC, 0),
   (0x17DD, 6), (0x17DE, 5), (0x17E0, 1), (0x17EA, 5), (0x17F0, 1), (0x17FA, 5), (0x1800, 4), (0x180B, 6)]

/-- Runs from U+180E on. -/
def classRuns8 : List (Nat × Nat) :=
  [(0x180E, 5), (0x180F, 6), (0x1810, 1), (0x181A, 5), (0x1820, 0), (0x1879, 5), (0x1880, 0), (0x1885, 6), (0x1887, 0),
   (0x18A9, 6), (0x18AA, 0), (0x18AB, 5), (0x18B0, 0), (0x18F6, 5), (0x1900, 0), (0x191F, 5), (0x1920, 6), (0x192C, 5),
   (0x1930, 6), (0x193C, 5), (0x1940, 4), (0x1941, 5), (0x1944, 4), (0x1946, 1), (0x1950, 0), (0x196E, 5), (0x1970, 0),
   (0x1975, 5), (0x1980, 0), (0x19AC, 5), (0x19B0, 0), (0x19CA, 5), (0x19D0, 1), (0x19DB, 5), (0x19DE, 4), (0x1A00, 0),
   (0x1A17, 6), (0x1A1C, 5), (0x1A1E, 4), (0x1A20, 0), (0x1A55, 6), (0x1A5F, 5), (0x1A60, 6), (0x1A7D, 5), (0x1A7F, 6),
   (0x1A80, 1), (0x1A8A, 5), (0x1A90, 1), (0x1A9A, 5), (0x1AA0, 4), (0x1AA7, 0), (0x1AA8, 4), (0x1AAE, 5), (0x1AB0, 6),
   (0x1ACF, 5), (0x1B00, 6), (0x1B05, 0), (0x1B34, 6), (0x1B45, 0), (0x1B4D, 5), (0x1B50, 1), (0x1B5A, 4), (0x1B6B, 6),
   (0x1B74, 4), (0x1B7F, 5), (0x1B80, 6), (0x1B83, 0), (0x1BA1, 6), (0x1BAE, 0), (0x1BB0, 1), (0x1BBA, 0), (0x1BE6, 6),
   (0x1BF4, 5), (0x1BFC, 4), (0x1C00, 0), (0x1C24, 6), (0x1C38, 5), (0x1C3B, 4), (0x1C40, 1), (0x1C4A, 5)]

/-- Runs from U+1C4D on. -/
def classRuns9 : List (Nat × Nat) :=
  [(0x1C4D, 0), (0x1C50, 1), (0x1C5A, 0), (0x1C7E, 4), (0x1C80, 0), (0x1C89, 5), (0x1C90, 0), (0x1CBB, 5), (0x1CBD, 0),
   (0x1CC0, 4), (0x1CC8, 5), (0x1CD0, 6), (0x1CD3, 4), (0x1CD4, 6), (0x1CE9, 0), (0x1CED, 6), (0x1CEE, 0), (0x1CF4, 6),
   (0x1CF5, 0), (0x1CF7, 6), (0x1CFA, 0), (0x1CFB, 5), (0x1D00, 0), (0x1DC0, 6), (0x1E00, 0), (0x1F16, 5), (0x1F18, 0),
   (0x1F1E, 5), (0x1F20, 0), (0x1F46, 5), (0x1F48, 0), (0x1F4E, 5), (0x1F50, 0), (0x1F58, 5), (0x1F59, 0), (0x1F5A, 5),
   (0x1F5B, 0), (0x1F5C, 5), (0x1F5D, 0), (0x1F5E, 5), (0x1F5F, 0), (0x1F7E, 5), (0x1F80, 0), (0x1FB5, 5), (0x1FB6, 0),
   (0x1FBD, 4), (0x1FBE, 0), (0x1FBF, 4), (0x1FC2, 0), (0x1FC5, 5), (0x1FC6, 0), (0x1FCD, 4), (0x1FD0, 0), (0x1FD4, 5),
   (0x1FD6, 0), (0x1FDC, 5), (0x1FDD, 4), (0x1FE0, 0), (0x1FED, 4), (0x1FF0, 5), (0x1FF2, 0), (0x1FF5, 5), (0x1FF6, 0),
   (0x1FFD, 4), (0x1FFF, 5), (0x2010, 4), (0x2028, 5), (0x2030, 4), (0x205F, 5), (0x2070, 1), (0x2071, 0), (0x2072, 5),
   (0x2074, 1), (0x207A, 4), (0x207F, 0), (0x2080, 1), (0x208A, 4), (0x208F, 5), (0x2090, 0), (0x209D, 5)]

/-- Runs from U+20A0 on. -/
def classRuns10 : List (Nat × Nat) :=
  [(0x20A0, 4), (0x20C1, 5), (0x20D0, 6), (0x20F1, 5), (0x2100, 4), (0x2102, 0), (0x2103, 4), (0x2107, 0), (0x2108, 4),
   (0x210A, 0), (0x2114, 4), (0x2115, 0), (0x2116, 4), (0x2119, 0), (0x211E, 4), (0x2124, 0), (0x2125, 4), (0x2126, 0),
   (0x2127, 4), (0x2128, 0), (0x2129, 4), (0x212A, 0), (0x212E, 4), (0x212F, 0), (0x213A, 4), (0x213C, 0), (0x2140, 4),
   (0x2145, 0), (0x214A, 4), (0x214E, 0), (0x214F, 4), (0x2150, 1), (0x2183, 0), (0x2185, 1), (0x218A, 4), (0x218C, 5),
   (0x2190, 4), (0x2427, 5), (0x2440, 4), (0x244B, 5), (0x2460, 1), (0x249C, 4), (0x24EA, 1), (0x2500, 4), (0x2776, 1),
   (0x2794, 4), (0x2B74, 5), (0x2B76, 4), (0x2B96, 5), (0x2B97, 4), (0x2C00, 0), (0x2CE5, 4), (0x2CEB, 0), (0x2CEF, 6),
   (0x2CF2, 0), (0x2CF4, 5), (0x2CF9, 4), (0x2CFD, 1), (0x2CFE, 4), (0x2D00, 0), (0x2D26, 5), (0x2D27, 0), (0x2D28, 5),
   (0x2D2D, 0), (0x2D2E, 5), (0x2D30, 0), (0x2D68, 5), (0x2D6F, 0), (0x2D70, 4), (0x2D71, 5), (0x2D7F, 6), (0x2D80, 0),
   (0x2D97, 5), (0x2DA0, 0), (0x2DA7, 5), (0x2DA8, 0), (0x2DAF, 5), (0x2DB0, 0), (0x2DB7, 5), (0x2DB8, 0)]

/-- Runs from U+2DBF on. -/
def classRuns11 : List (Nat × Nat) :=
  [(0x2DBF, 5), (0x2DC0, 0), (0x2DC7, 5), (0x2DC8, 0), (0x2DCF, 5), (0x2DD0, 0), (0x2DD7, 5), (0x2DD8, 0), (0x2DDF, 5),
   (0x2DE0, 6), (0x2E00, 4), (0x2E2F, 0), (0x2E30, 4), (0x2E5E, 5), (0x2E80, 4), (0x2E9A, 5), (0x2E9B, 4), (0x2EF4, 5),
   (0x2F00, 4), (0x2FD6, 5), (0x2FF0, 4), (0x3000, 5), (0x3001, 4), (0x3005, 0), (0x3007, 1), (0x3008, 4), (0x3021, 1),
   (0x302A, 6), (0x3030, 4), (0x3031, 0), (0x3036, 4), (0x3038, 1), (0x303B, 0), (0x303D, 4), (0x3040, 5), (0x3041, 0),
   (0x3097, 5), (0x3099, 6), (0x309B, 4), (0x309D, 0), (0x30A0, 4), (0x30A1, 0), (0x30FB, 4), (0x30FC, 0), (0x3100, 5),
   (0x3105, 0), (0x3130, 5), (0x3131, 0), (0x318F, 5), (0x3190, 4), (0x3192, 1), (0x3196, 4), (0x31A0, 0), (0x31C0, 4),
   (0x31E4, 5), (0x31EF, 4), (0x31F0, 0), (0x3200, 4), (0x321F, 5), (0x3220, 1), (0x322A, 4), (0x3248, 1), (0x3250, 4),
   (0x3251, 1), (0x3260, 4), (0x3280, 1), (0x328A, 4), (0x32B1, 1), (0x32C0, 4), (0x3400, 0), (0x4DC0, 4), (0x4E00, 0),
   (0xA48D, 5), (0xA490, 4), (0xA4C7, 5), (0xA4D0, 0), (0xA4FE, 4), (0xA500, 0), (0xA60D, 4), (0xA610, 0)]

/-- Runs from U+A620 on. -/
def classRuns12 : List (Nat × Nat) :=
  [(0xA620, 1), (0xA62A, 0), (0xA62C, 5), (0xA640, 0), (0xA66F, 6), (0xA673, 4), (0xA674, 6), (0xA67E, 4), (0xA67F, 0),
   (0xA69E, 6), (0xA6A0, 0), (0xA6E6, 1), (0xA6F0, 6), (0xA6F2, 4), (0xA6F8, 5), (0xA700, 4), (0xA717, 0), (0xA720, 4),
   (0xA722, 0), (0xA789, 4), (0xA78B, 0), (0xA7CB, 5), (0xA7D0, 0), (0xA7D2, 5), (0xA7D3, 0), (0xA7D4, 5), (0xA7D5, 0),
   (0xA7DA, 5), (0xA7F2, 0), (0xA802, 6), (0xA803, 0), (0xA806, 6), (0xA807, 0), (0xA80B, 6), (0xA80C, 0), (0xA823, 6),
   (0xA828, 4), (0xA82C, 6), (0xA82D, 5), (0xA830, 1), (0xA836, 4), (0xA83A, 5), (0xA840, 0), (0xA874, 4), (0xA878, 5),
   (0xA880, 6), (0xA882, 0), (0xA8B4, 6), (0xA8C6, 5), (0xA8CE, 4), (0xA8D0, 1), (0xA8DA, 5), (0xA8E0, 6), (0xA8F2, 0),
   (0xA8F8, 4), (0xA8FB, 0), (0xA8FC, 4), (0xA8FD, 0), (0xA8FF, 6), (0xA900, 1), (0xA90A, 0), (0xA926, 6), (0xA92E, 4),
   (0xA930, 0), (0xA947, 6), (0xA954, 5), (0xA95F, 4), (0xA960, 0), (0xA97D, 5), (0xA980, 6), (0xA984, 0), (0xA9B3, 6),
   (0xA9C1, 4), (0xA9CE, 5), (0xA9CF, 0), (0xA9D0, 1), (0xA9DA, 5), (0xA9DE, 4), (0xA9E0, 0), (0xA9E5, 6)]

/-- Runs from U+A9E6 on. -/
def classRuns13 : List (Nat × Nat) :=
  [(0xA9E6, 0), (0xA9F0, 1), (0xA9FA, 0), (0xA9FF, 5), (0xAA00, 0), (0xAA29, 6), (0xAA37, 5), (0xAA40, 0), (0xAA43, 6),
   (0xAA44, 0), (0xAA4C, 6), (0xAA4E, 5), (0xAA50, 1), (0xAA5A, 5), (0xAA5C, 4), (0xAA60, 0), (0xAA77, 4), (0xAA7A, 0),
   (0xAA7B, 6), (0xAA7E, 0), (0xAAB0, 6), (0xAAB1, 0), (0xAAB2, 6), (0xAAB5, 0), (0xAAB7, 6), (0xAAB9, 0), (0xAABE, 6),
   (0xAAC0, 0), (0xAAC1, 6), (0xAAC2, 0), (0xAAC3, 5), (0xAADB, 0), (0xAADE, 4), (0xAAE0, 0), (0xAAEB, 6), (0xAAF0, 4),
   (0xAAF2, 0), (0xAAF5, 6), (0xAAF7, 5), (0xAB01, 0), (0xAB07, 5), (0xAB09, 0), (0xAB0F, 5), (0xAB11, 0), (0xAB17, 5),
   (0xAB20, 0), (0xAB27, 5), (0xAB28, 0), (0xAB2F, 5), (0xAB30, 0), (0xAB5B, 4), (0xAB5C, 0), (0xAB6A, 4), (0xAB6C, 5),
   (0xAB70, 0), (0xABE3, 6), (0xABEB, 4), (0xABEC, 6), (0xABEE, 5), (0xABF0, 1), (0xABFA, 5), (0xAC00, 0), (0xD7A4, 5),
   (0xD7B0, 0), (0xD7C7, 5), (0xD7CB, 0), (0xD7FC, 5), (0xF900, 0), (0xFA6E, 5), (0xFA70, 0), (0xFADA, 5), (0xFB00, 0),
   (0xFB07, 5), (0xFB13, 0), (0xFB18, 5), (0xFB1D, 0), (0xFB1E, 6), (0xFB1F, 0), (0xFB29, 4), (0xFB2A, 0)]

/-- Runs from U+FB37 on. -/
def classRuns14 : List (Nat × Nat) :=
  [(0xFB37, 5), (0xFB38, 0), (0xFB3D, 5), (0xFB3E, 0), (0xFB3F, 5), (0xFB40, 0), (0xFB42, 5), (0xFB43, 0), (0xFB45, 5),
   (0xFB46, 0), (0xFBB2, 4), (0xFBC3, 5), (0xFBD3, 0), (0xFD3E, 4), (0xFD50, 0), (0xFD90, 5), (0xFD92, 0), (0xFDC8, 5),
   (0xFDCF, 4), (0xFDD0, 5), (0xFDF0, 0), (0xFDFC, 4), (0xFE00, 6), (0xFE10, 4), (0xFE1A, 5), (0xFE20, 6), (0xFE30, 4),
   (0xFE53, 5), (0xFE54, 4), (0xFE67, 5), (0xFE68, 4), (0xFE6C, 5), (0xFE70, 0), (0xFE75, 5), (0xFE76, 0), (0xFEFD, 5),
   (0xFF01, 4), (0xFF10, 1), (0xFF1A, 4), (0xFF21, 0), (0xFF3B, 4), (0xFF41, 0), (0xFF5B, 4), (0xFF66, 0), (0xFFBF, 5),
   (0xFFC2, 0), (0xFFC8, 5), (0xFFCA, 0), (0xFFD0, 5), (0xFFD2, 0), (0xFFD8, 5), (0xFFDA, 0), (0xFFDD, 5), (0xFFE0, 4),
   (0xFFE7, 5), (0xFFE8, 4), (0xFFEF, 5), (0xFFFC, 4), (0xFFFE, 5), (0x10000, 0), (0x1000C, 5), (0x1000D, 0),
   (0x10027, 5), (0x10028, 0), (0x1003B, 5), (0x1003C, 0), (0x1003E, 5), (0x1003F, 0), (0x1004E, 5), (0x10050, 0),
   (0x1005E, 5), (0x10080, 0), (0x100FB, 5), (0x10100, 4), (0x10103, 5), (0x10107, 1), (0x10134, 5), (0x10137, 4),
   (0x10140, 1), (0x10179, 4)]

/-- Runs from U+1018A on. -/
def classRuns15 : List (Nat × Nat) :=
  [(0x1018A, 1), (0x1018C, 4), (0x1018F, 5), (0x10190, 4), (0x1019D, 5), (0x101A0, 4), (0x101A1, 5), (0x101D0, 4),
   (0x101FD, 6), (0x101FE, 5), (0x10280, 0), (0x1029D, 5), (0x102A0, 0), (0x102D1, 5), (0x102E0, 6), (0x102E1, 1),
   (0x102FC, 5), (0x10300, 0), (0x10320, 1), (0x10324, 5), (0x1032D, 0), (0x10341, 1), (0x10342, 0), (0x1034A, 1),
   (0x1034B, 5), (0x10350, 0), (0x10376, 6), (0x1037B, 5), (0x10380, 0), (0x1039E, 5), (0x1039F, 4), (0x103A0, 0),
   (0x103C4, 5), (0x103C8, 0), (0x103D0, 4), (0x103D1, 1), (0x103D6, 5), (0x10400, 0), (0x1049E, 5), (0x104A0, 1),
   (0x104AA, 5), (0x104B0, 0), (0x104D4, 5), (0x104D8, 0), (0x104FC, 5), (0x10500, 0), (0x10528, 5), (0x10530, 0),
   (0x10564, 5), (0x1056F, 4), (0x10570, 0), (0x1057B, 5), (0x1057C, 0), (0x1058B, 5), (0x1058C, 0), (0x10593, 5),
   (0x10594, 0), (0x10596, 5), (0x10597, 0), (0x105A2, 5), (0x105A3, 0), (0x105B2, 5), (0x105B3, 0), (0x105BA, 5),
   (0x105BB, 0), (0x105BD, 5), (0x10600, 0), (0x10737, 5), (0x10740, 0), (0x10756, 5), (0x10760, 0), (0x10768, 5),
   (0x10780, 0), (0x10786, 5), (0x10787, 0), (0x107B1, 5), (0x107B2, 0), (0x107BB, 5), (0x10800, 0), (0x10806, 5)]

/-- Runs from U+10808 on. -/
def classRuns16 : List (Nat × Nat) :=
  [(0x10808, 0), (0x10809, 5), (0x1080A, 0), (0x10836, 5), (0x10837, 0), (0x10839, 5), (0x1083C, 0), (0x1083D, 5),
   (0x1083F, 0), (0x10856, 5), (0x10857, 4), (0x10858, 1), (0x10860, 0), (0x10877, 4), (0x10879, 1), (0x10880, 0),
   (0x1089F, 5), (0x108A7, 1), (0x108B0, 5), (0x108E0, 0), (0x108F3, 5), (0x108F4, 0), (0x108F6, 5), (0x108FB, 1),
   (0x10900, 0), (0x10916, 1), (0x1091C, 5), (0x1091F, 4), (0x10920, 0), (0x1093A, 5), (0x1093F, 4), (0x10940, 5),
   (0x10980, 0), (0x109B8, 5), (0x109BC, 1), (0x109BE, 0), (0x109C0, 1), (0x109D0, 5), (0x109D2, 1), (0x10A00, 0),
   (0x10A01, 6), (0x10A04, 5), (0x10A05, 6), (0x10A07, 5), (0x10A0C, 6), (0x10A10, 0), (0x10A14, 5), (0x10A15, 0),
   (0x10A18, 5), (0x10A19, 0), (0x10A36, 5), (0x10A38, 6), (0x10A3B, 5), (0x10A3F, 6), (0x10A40, 1), (0x10A49, 5),
   (0x10A50, 4), (0x10A59, 5), (0x10A60, 0), (0x10A7D, 1), (0x10A7F, 4), (0x10A80, 0), (0x10A9D, 1), (0x10AA0, 5),
   (0x10AC0, 0), (0x10AC8, 4), (0x10AC9, 0), (0x10AE5, 6), (0x10AE7, 5), (0x10AEB, 1), (0x10AF0, 4), (0x10AF7, 5),
   (0x10B00, 0), (0x10B36, 5), (0x10B39, 4), (0x10B40, 0), (0x10B56, 5), (0x10B58, 1), (0x10B60, 0), (0x10B73, 5)]

/-- Runs from U+10B78 on. -/
def classRuns17 : List (Nat × Nat) :=
  [(0x10B78, 1), (0x10B80, 0), (0x10B92, 5), (0x10B99, 4), (0x10B9D, 5), (0x10BA9, 1), (0x10BB0, 5), (0x10C00, 0),
   (0x10C49, 5), (0x10C80, 0), (0x10CB3, 5), (0x10CC0, 0), (0x10CF3, 5), (0x10CFA, 1), (0x10D00, 0), (0x10D24, 6),
   (0x10D28, 5), (0x10D30, 1), (0x10D3A, 5), (0x10E60, 1), (0x10E7F, 5), (0x10E80, 0), (0x10EAA, 5), (0x10EAB, 6),
   (0x10EAD, 4), (0x10EAE, 5), (0x10EB0, 0), (0x10EB2, 5), (0x10EFD, 6), (0x10F00, 0), (0x10F1D, 1), (0x10F27, 0),
   (0x10F28, 5), (0x10F30, 0), (0x10F46, 6), (0x10F51, 1), (0x10F55, 4), (0x10F5A, 5), (0x10F70, 0), (0x10F82, 6),
   (0x10F86, 4), (0x10F8A, 5), (0x10FB0, 0), (0x10FC5, 1), (0x10FCC, 5), (0x10FE0, 0), (0x10FF7, 5), (0x11000, 6),
   (0x11003, 0), (0x11038, 6), (0x11047, 4), (0x1104E, 5), (0x11052, 1), (0x11070, 6), (0x11071, 0), (0x11073, 6),
   (0x11075, 0), (0x11076, 5), (0x1107F, 6), (0x11083, 0), (0x110B0, 6), (0x110BB, 4), (0x110BD, 5), (0x110BE, 4),
   (0x110C2, 6), (0x110C3, 5), (0x110D0, 0), (0x110E9, 5), (0x110F0, 1), (0x110FA, 5), (0x11100, 6), (0x11103, 0),
   (0x11127, 6), (0x11135, 5), (0x11136, 1), (0x11140, 4), (0x11144, 0), (0x11145, 6), (0x11147, 0), (0x11148, 5)]

/-- Runs from U+11150 on. -/
def classRuns18 : List (Nat × Nat) :=
  [(0x11150, 0), (0x11173, 6), (0x11174, 4), (0x11176, 0), (0x11177, 5), (0x11180, 6), (0x11183, 0), (0x111B3, 6),
   (0x111C1, 0), (0x111C5, 4), (0x111C9, 6), (0x111CD, 4), (0x111CE, 6), (0x111D0, 1), (0x111DA, 0), (0x111DB, 4),
   (0x111DC, 0), (0x111DD, 4), (0x111E0, 5), (0x111E1, 1), (0x111F5, 5), (0x11200, 0), (0x11212, 5), (0x11213, 0),
   (0x1122C, 6), (0x11238, 4), (0x1123E, 6), (0x1123F, 0), (0x11241, 6), (0x11242, 5), (0x11280, 0), (0x11287, 5),
   (0x11288, 0), (0x11289, 5), (0x1128A, 0), (0x1128E, 5), (0x1128F, 0), (0x1129E, 5), (0x1129F, 0), (0x112A9, 4),
   (0x112AA, 5), (0x112B0, 0), (0x112DF, 6), (0x112EB, 5), (0x112F0, 1), (0x112FA, 5), (0x11300, 6), (0x11304, 5),
   (0x11305, 0), (0x1130D, 5), (0x1130F, 0), (0x11311, 5), (0x11313, 0), (0x11329, 5), (0x1132A, 0), (0x11331, 5),
   (0x11332, 0), (0x11334, 5), (0x11335, 0), (0x1133A, 5), (0x1133B, 6), (0x1133D, 0), (0x1133E, 6), (0x11345, 5),
   (0x11347, 6), (0x11349, 5), (0x1134B, 6), (0x1134E, 5), (0x11350, 0), (0x11351, 5), (0x11357, 6), (0x11358, 5),
   (0x1135D, 0), (0x11362, 6), (0x11364, 5), (0x11366, 6), (0x1136D, 5), (0x11370, 6), (0x11375, 5), (0x11400, 0)]

/-- Runs from U+11435 on. -/
def classRuns19 : List (Nat × Nat) :=
  [(0x11435, 6), (0x11447, 0), (0x1144B, 4), (0x11450, 1), (0x1145A, 4), (0x1145C, 5), (0x1145D, 4), (0x1145E, 6),
   (0x1145F, 0), (0x11462, 5), (0x11480, 0), (0x114B0, 6), (0x114C4, 0), (0x114C6, 4), (0x114C7, 0), (0x114C8, 5),
   (0x114D0, 1), (0x114DA, 5), (0x11580, 0), (0x115AF, 6), (0x115B6, 5), (0x115B8, 6), (0x115C1, 4), (0x115D8, 0),
   (0x115DC, 6), (0x115DE, 5), (0x11600, 0), (0x11630, 6), (0x11641, 4), (0x11644, 0), (0x11645, 5), (0x11650, 1),
   (0x1165A, 5), (0x11660, 4), (0x1166D, 5), (0x11680, 0), (0x116AB, 6), (0x116B8, 0), (0x116B9, 4), (0x116BA, 5),
   (0x116C0, 1), (0x116CA, 5), (0x11700, 0), (0x1171B, 5), (0x1171D, 6), (0x1172C, 5), (0x11730, 1), (0x1173C, 4),
   (0x11740, 0), (0x11747, 5), (0x11800, 0), (0x1182C, 6), (0x1183B, 4), (0x1183C, 5), (0x118A0, 0), (0x118E0, 1),
   (0x118F3, 5), (0x118FF, 0), (0x11907, 5), (0x11909, 0), (0x1190A, 5), (0x1190C, 0), (0x11914, 5), (0x11915, 0),
   (0x11917, 5), (0x11918, 0), (0x11930, 6), (0x11936, 5), (0x11937, 6), (0x11939, 5), (0x1193B, 6), (0x1193F, 0),
   (0x11940, 6), (0x11941, 0), (0x11942, 6), (0x11944, 4), (0x11947, 5), (0x11950, 1), (0x1195A, 5), (0x119A0, 0)]

/-- Runs from U+119A8 on. -/
def classRuns20 : List (Nat × Nat) :=
  [(0x119A8, 5), (0x119AA, 0), (0x119D1, 6), (0x119D8, 5), (0x119DA, 6), (0x119E1, 0), (0x119E2, 4), (0x119E3, 0),
   (0x119E4, 6), (0x119E5, 5), (0x11A00, 0), (0x11A01, 6), (0x11A0B, 0), (0x11A33, 6), (0x11A3A, 0), (0x11A3B, 6),
   (0x11A3F, 4), (0x11A47, 6), (0x11A48, 5), (0x11A50, 0), (0x11A51, 6), (0x11A5C, 0), (0x11A8A, 6), (0x11A9A, 4),
   (0x11A9D, 0), (0x11A9E, 4), (0x11AA3, 5), (0x11AB0, 0), (0x11AF9, 5), (0x11B00, 4), (0x11B0A, 5), (0x11C00, 0),
   (0x11C09, 5), (0x11C0A, 0), (0x11C2F, 6), (0x11C37, 5), (0x11C38, 6), (0x11C40, 0), (0x11C41, 4), (0x11C46, 5),
   (0x11C50, 1), (0x11C6D, 5), (0x11C70, 4), (0x11C72, 0), (0x11C90, 5), (0x11C92, 6), (0x11CA8, 5), (0x11CA9, 6),
   (0x11CB7, 5), (0x11D00, 0), (0x11D07, 5), (0x11D08, 0), (0x11D0A, 5), (0x11D0B, 0), (0x11D31, 6), (0x11D37, 5),
   (0x11D3A, 6), (0x11D3B, 5), (0x11D3C, 6), (0x11D3E, 5), (0x11D3F, 6), (0x11D46, 0), (0x11D47, 6), (0x11D48, 5),
   (0x11D50, 1), (0x11D5A, 5), (0x11D60, 0), (0x11D66, 5), (0x11D67, 0), (0x11D69, 5), (0x11D6A, 0), (0x11D8A, 6),
   (0x11D8F, 5), (0x11D90, 6), (0x11D92, 5), (0x11D93, 6), (0x11D98, 0), (0x11D99, 5), (0x11DA0, 1), (0x11DAA, 5)]

/-- Runs from U+11EE0 on. -/
def classRuns21 : List (Nat × Nat) :=
  [(0x11EE0, 0), (0x11EF3, 6), (0x11EF7, 4), (0x11EF9, 5), (0x11F00, 6), (0x11F02, 0), (0x11F03, 6), (0x11F04, 0),
   (0x11F11, 5), (0x11F12, 0), (0x11F34, 6), (0x11F3B, 5), (0x11F3E, 6), (0x11F43, 4), (0x11F50, 1), (0x11F5A, 5),
   (0x11FB0, 0), (0x11FB1, 5), (0x11FC0, 1), (0x11FD5, 4), (0x11FF2, 5), (0x11FFF, 4), (0x12000, 0), (0x1239A, 5),
   (0x12400, 1), (0x1246F, 5), (0x12470, 4), (0x12475, 5), (0x12480, 0), (0x12544, 5), (0x12F90, 0), (0x12FF1, 4),
   (0x12FF3, 5), (0x13000, 0), (0x13430, 5), (0x13440, 6), (0x13441, 0), (0x13447, 6), (0x13456, 5), (0x14400, 0),
   (0x14647, 5), (0x16800, 0), (0x16A39, 5), (0x16A40, 0), (0x16A5F, 5), (0x16A60, 1), (0x16A6A, 5), (0x16A6E, 4),
   (0x16A70, 0), (0x16ABF, 5), (0x16AC0, 1), (0x16ACA, 5), (0x16AD0, 0), (0x16AEE, 5), (0x16AF0, 6), (0x16AF5, 4),
   (0x16AF6, 5), (0x16B00, 0), (0x16B30, 6), (0x16B37, 4), (0x16B40, 0), (0x16B44, 4), (0x16B46, 5), (0x16B50, 1),
   (0x16B5A, 5), (0x16B5B, 1), (0x16B62, 5), (0x16B63, 0), (0x16B78, 5), (0x16B7D, 0), (0x16B90, 5), (0x16E40, 0),
   (0x16E80, 1), (0x16E97, 4), (0x16E9B, 5), (0x16F00, 0), (0x16F4B, 5), (0x16F4F, 6), (0x16F50, 0), (0x16F51, 6)]

/-- Runs from U+16F88 on. -/
def classRuns22 : List (Nat × Nat) :=
  [(0x16F88, 5), (0x16F8F, 6), (0x16F93, 0), (0x16FA0, 5), (0x16FE0, 0), (0x16FE2, 4), (0x16FE3, 0), (0x16FE4, 6),
   (0x16FE5, 5), (0x16FF0, 6), (0x16FF2, 5), (0x17000, 0), (0x187F8, 5), (0x18800, 0), (0x18CD6, 5), (0x18D00, 0),
   (0x18D09, 5), (0x1AFF0, 0), (0x1AFF4, 5), (0x1AFF5, 0), (0x1AFFC, 5), (0x1AFFD, 0), (0x1AFFF, 5), (0x1B000, 0),
   (0x1B123, 5), (0x1B132, 0), (0x1B133, 5), (0x1B150, 0), (0x1B153, 5), (0x1B155, 0), (0x1B156, 5), (0x1B164, 0),
   (0x1B168, 5), (0x1B170, 0), (0x1B2FC, 5), (0x1BC00, 0), (0x1BC6B, 5), (0x1BC70, 0), (0x1BC7D, 5), (0x1BC80, 0),
   (0x1BC89, 5), (0x1BC90, 0), (0x1BC9A, 5), (0x1BC9C, 4), (0x1BC9D, 6), (0x1BC9F, 4), (0x1BCA0, 5), (0x1CF00, 6),
   (0x1CF2E, 5), (0x1CF30, 6), (0x1CF47, 5), (0x1CF50, 4), (0x1CFC4, 5), (0x1D000, 4), (0x1D0F6, 5), (0x1D100, 4),
   (0x1D127, 5), (0x1D129, 4), (0x1D165, 6), (0x1D16A, 4), (0x1D16D, 6), (0x1D173, 5), (0x1D17B, 6), (0x1D183, 4),
   (0x1D185, 6), (0x1D18C, 4), (0x1D1AA, 6), (0x1D1AE, 4), (0x1D1EB, 5), (0x1D200, 4), (0x1D242, 6), (0x1D245, 4),
   (0x1D246, 5), (0x1D2C0, 1), (0x1D2D4, 5), (0x1D2E0, 1), (0x1D2F4, 5), (0x1D300, 4), (0x1D357, 5), (0x1D360, 1)]

/-- Runs from U+1D379 on. -/
def classRuns23 : List (Nat × Nat) :=
  [(0x1D379, 5), (0x1D400, 0), (0x1D455, 5), (0x1D456, 0), (0x1D49D, 5), (0x1D49E, 0), (0x1D4A0, 5), (0x1D4A2, 0),
   (0x1D4A3, 5), (0x1D4A5, 0), (0x1D4A7, 5), (0x1D4A9, 0), (0x1D4AD, 5), (0x1D4AE, 0), (0x1D4BA, 5), (0x1D4BB, 0),
   (0x1D4BC, 5), (0x1D4BD, 0), (0x1D4C4, 5), (0x1D4C5, 0), (0x1D506, 5), (0x1D507, 0), (0x1D50B, 5), (0x1D50D, 0),
   (0x1D515, 5), (0x1D516, 0), (0x1D51D, 5), (0x1D51E, 0), (0x1D53A, 5), (0x1D53B, 0), (0x1D53F, 5), (0x1D540, 0),
   (0x1D545, 5), (0x1D546, 0), (0x1D547, 5), (0x1D54A, 0), (0x1D551, 5), (0x1D552, 0), (0x1D6A6, 5), (0x1D6A8, 0),
   (0x1D6C1, 4), (0x1D6C2, 0), (0x1D6DB, 4), (0x1D6DC, 0), (0x1D6FB, 4), (0x1D6FC, 0), (0x1D715, 4), (0x1D716, 0),
   (0x1D735, 4), (0x1D736, 0), (0x1D74F, 4), (0x1D750, 0), (0x1D76F, 4), (0x1D770, 0), (0x1D789, 4), (0x1D78A, 0),
   (0x1D7A9, 4), (0x1D7AA, 0), (0x1D7C3, 4), (0x1D7C4, 0), (0x1D7CC, 5), (0x1D7CE, 1), (0x1D800, 4), (0x1DA00, 6),
   (0x1DA37, 4), (0x1DA3B, 6), (0x1DA6D, 4), (0x1DA75, 6), (0x1DA76, 4), (0x1DA84, 6), (0x1DA85, 4), (0x1DA8C, 5),
   (0x1DA9B, 6), (0x1DAA0, 5), (0x1DAA1, 6), (0x1DAB0, 5), (0x1DF00, 0), (0x1DF1F, 5), (0x1DF25, 0), (0x1DF2B, 5)]

/-- Runs from U+1E000 on. -/
def classRuns24 : List (Nat × Nat) :=
  [(0x1E000, 6), (0x1E007, 5), (0x1E008, 6), (0x1E019, 5), (0x1E01B, 6), (0x1E022, 5), (0x1E023, 6), (0x1E025, 5),
   (0x1E026, 6), (0x1E02B, 5), (0x1E030, 0), (0x1E06E, 5), (0x1E08F, 6), (0x1E090, 5), (0x1E100, 0), (0x1E12D, 5),
   (0x1E130, 6), (0x1E137, 0), (0x1E13E, 5), (0x1E140, 1), (0x1E14A, 5), (0x1E14E, 0), (0x1E14F, 4), (0x1E150, 5),
   (0x1E290, 0), (0x1E2AE, 6), (0x1E2AF, 5), (0x1E2C0, 0), (0x1E2EC, 6), (0x1E2F0, 1), (0x1E2FA, 5), (0x1E2FF, 4),
   (0x1E300, 5), (0x1E4D0, 0), (0x1E4EC, 6), (0x1E4F0, 1), (0x1E4FA, 5), (0x1E7E0, 0), (0x1E7E7, 5), (0x1E7E8, 0),
   (0x1E7EC, 5), (0x1E7ED, 0), (0x1E7EF, 5), (0x1E7F0, 0), (0x1E7FF, 5), (0x1E800, 0), (0x1E8C5, 5), (0x1E8C7, 1),
   (0x1E8D0, 6), (0x1E8D7, 5), (0x1E900, 0), (0x1E944, 6), (0x1E94B, 0), (0x1E94C, 5), (0x1E950, 1), (0x1E95A, 5),
   (0x1E95E, 4), (0x1E960, 5), (0x1EC71, 1), (0x1ECAC, 4), (0x1ECAD, 1), (0x1ECB0, 4), (0x1ECB1, 1), (0x1ECB5, 5),
   (0x1ED01, 1), (0x1ED2E, 4), (0x1ED2F, 1), (0x1ED3E, 5), (0x1EE00, 0), (0x1EE04, 5), (0x1EE05, 0), (0x1EE20, 5),
   (0x1EE21, 0), (0x1EE23, 5), (0x1EE24, 0), (0x1EE25, 5), (0x1EE27, 0), (0x1EE28, 5), (0x1EE29, 0), (0x1EE33, 5)]

/-- Runs from U+1EE34 on. -/
def classRuns25 : List (Nat × Nat) :=
  [(0x1EE34, 0), (0x1EE38, 5), (0x1EE39, 0), (0x1EE3A, 5), (0x1EE3B, 0), (0x1EE3C, 5), (0x1EE42, 0), (0x1EE43, 5),
   (0x1EE47, 0), (0x1EE48, 5), (0x1EE49, 0), (0x1EE4A, 5), (0x1EE4B, 0), (0x1EE4C, 5), (0x1EE4D, 0), (0x1EE50, 5),
   (0x1EE51, 0), (0x1EE53, 5), (0x1EE54, 0), (0x1EE55, 5), (0x1EE57, 0), (0x1EE58, 5), (0x1EE59, 0), (0x1EE5A, 5),
   (0x1EE5B, 0), (0x1EE5C, 5), (0x1EE5D, 0), (0x1EE5E, 5), (0x1EE5F, 0), (0x1EE60, 5), (0x1EE61, 0), (0x1EE63, 5),
   (0x1EE64, 0), (0x1EE65, 5), (0x1EE67, 0), (0x1EE6B, 5), (0x1EE6C, 0), (0x1EE73, 5), (0x1EE74, 0), (0x1EE78, 5),
   (0x1EE79, 0), (0x1EE7D, 5), (0x1EE7E, 0), (0x1EE7F, 5), (0x1EE80, 0), (0x1EE8A, 5), (0x1EE8B, 0), (0x1EE9C, 5),
   (0x1EEA1, 0), (0x1EEA4, 5), (0x1EEA5, 0), (0x1EEAA, 5), (0x1EEAB, 0), (0x1EEBC, 5), (0x1EEF0, 4), (0x1EEF2, 5),
   (0x1F000, 4), (0x1F02C, 5), (0x1F030, 4), (0x1F094, 5), (0x1F0A0, 4), (0x1F0AF, 5), (0x1F0B1, 4), (0x1F0C0, 5),
   (0x1F0C1, 4), (0x1F0D0, 5), (0x1F0D1, 4), (0x1F0F6, 5), (0x1F100, 1), (0x1F10D, 4), (0x1F1AE, 5), (0x1F1E6, 4),
   (0x1F203, 5), (0x1F210, 4), (0x1F23C, 5), (0x1F240, 4), (0x1F249, 5), (0x1F250, 4), (0x1F252, 5), (0x1F260, 4)]

/-- Runs from U+1F266 on. -/
def classRuns26 : List (Nat × Nat) :=
  [(0x1F266, 5), (0x1F300, 4), (0x1F6D8, 5), (0x1F6DC, 4), (0x1F6ED, 5), (0x1F6F0, 4), (0x1F6FD, 5), (0x1F700, 4),
   (0x1F777, 5), (0x1F77B, 4), (0x1F7DA, 5), (0x1F7E0, 4), (0x1F7EC, 5), (0x1F7F0, 4), (0x1F7F1, 5), (0x1F800, 4),
   (0x1F80C, 5), (0x1F810, 4), (0x1F848, 5), (0x1F850, 4), (0x1F85A, 5), (0x1F860, 4), (0x1F888, 5), (0x1F890, 4),
   (0x1F8AE, 5), (0x1F8B0, 4), (0x1F8B2, 5), (0x1F900, 4), (0x1FA54, 5), (0x1FA60, 4), (0x1FA6E, 5), (0x1FA70, 4),
   (0x1FA7D, 5), (0x1FA80, 4), (0x1FA89, 5), (0x1FA90, 4), (0x1FABE, 5), (0x1FABF, 4), (0x1FAC6, 5), (0x1FACE, 4),
   (0x1FADC, 5), (0x1FAE0, 4), (0x1FAE9, 5), (0x1FAF0, 4), (0x1FAF9, 5), (0x1FB00, 4), (0x1FB93, 5), (0x1FB94, 4),
   (0x1FBCB, 5), (0x1FBF0, 1), (0x1FBFA, 5), (0x20000, 0), (0x2A6E0, 5), (0x2A700, 0), (0x2B73A, 5), (0x2B740, 0),
   (0x2B81E, 5), (0x2B820, 0), (0x2CEA2, 5), (0x2CEB0, 0), (0x2EBE1, 5), (0x2EBF0, 0), (0x2EE5E, 5), (0x2F800, 0),
   (0x2FA1E, 5), (0x30000, 0), (0x3134B, 5), (0x31350, 0), (0x323B0, 5), (0xE0100, 6), (0xE01F0, 5)]

/-- The runs: first character and class (0 L, 1 N, 4 P, 5 O, 6 a mark: Mn, Mc, Me), ascending. -/
def classRuns : List (Nat × Nat) :=
  classRuns0 ++ classRuns1 ++ classRuns2 ++ classRuns3 ++ classRuns4 ++ classRuns5 ++ classRuns6 ++ classRuns7 ++
    classRuns8 ++ classRuns9 ++ classRuns10 ++ classRuns11 ++ classRuns12 ++ classRuns13 ++ classRuns14 ++
    classRuns15 ++ classRuns16 ++ classRuns17 ++ classRuns18 ++ classRuns19 ++ classRuns20 ++ classRuns21 ++
    classRuns22 ++ classRuns23 ++ classRuns24 ++ classRuns25 ++ classRuns26

/-- The class of the run that holds a character; `k` before the first run. -/
def classFrom (c : Nat) : Nat → List (Nat × Nat) → Nat
  | k, [] => k
  | k, r :: t => if c < r.1 then k else classFrom c r.2 t

/-- Class of a character above U+007F, the White_Space and line characters apart (R178). -/
def charClass (c : Nat) : Nat := classFrom c 5 classRuns

end Sys2Proof.Machine
end

