-- ==== Sys2Proof/Machine/Token.lean ====
section
/-! DEFINITION. The token engine (R170, R171, R175 to R184, R187 to R190): TOKENIZE, GRAMMAR and TOKEN_MASK. -/

namespace Sys2Proof.Machine

/-! ### Text as characters (R175, R176) -/

/-- Continuation bytes of a UTF-8 lead byte and the range of the first of them; none where the byte leads nothing. -/
def utf8Lead (b : Nat) : Option (Nat × Nat × Nat) :=
  if 0xC2 ≤ b ∧ b ≤ 0xDF then some (1, 0x80, 0xBF)
  else if b = 0xE0 then some (2, 0xA0, 0xBF)
  else if b = 0xED then some (2, 0x80, 0x9F)
  else if 0xE1 ≤ b ∧ b ≤ 0xEF then some (2, 0x80, 0xBF)
  else if b = 0xF0 then some (3, 0x90, 0xBF)
  else if 0xF1 ≤ b ∧ b ≤ 0xF3 then some (3, 0x80, 0xBF)
  else if b = 0xF4 then some (3, 0x80, 0x8F)
  else none

/-- Continuation bytes at the start of a run, at most `n`: the first within [lo, hi], the others 80 to BF. -/
def contRun (bs : Bytes) (lo hi : Nat) : Nat → Nat
  | 0 => 0
  | n + 1 =>
    match bs with
    | [] => 0
    | b :: t => if lo ≤ b.toNat ∧ b.toNat ≤ hi then 1 + contRun t 0x80 0xBF n else 0

/-- Value of a well-formed sequence. -/
def utf8Value : Bytes → Nat
  | [a] => a.toNat
  | [a, b] => a.toNat % 32 * 64 + b.toNat % 64
  | [a, b, c] => a.toNat % 16 * 4096 + b.toNat % 64 * 64 + c.toNat % 64
  | [a, b, c, d] => a.toNat % 8 * 262144 + b.toNat % 64 * 4096 + c.toNat % 64 * 64 + d.toNat % 64
  | _ => 0

/-- The next piece of a run: its character, none for an ill-formed maximal subpart, and its length in bytes. -/
def utf8Next : Bytes → Option Nat × Nat
  | [] => (none, 0)
  | b :: t =>
    if b.toNat < 0x80 then (some b.toNat, 1)
    else match utf8Lead b.toNat with
      | none => (none, 1)
      | some (n, lo, hi) =>
        let k := contRun t lo hi n
        if k = n then (some (utf8Value ((b :: t).take (n + 1))), n + 1) else (none, 1 + k)

/-- All pieces of a run: offset, character or none, length. -/
def utf8Scan : Nat → Nat → Bytes → List (Nat × Option Nat × Nat)
  | 0, _, _ => []
  | fuel + 1, off, bs =>
    if bs.isEmpty then []
    else
      let p := utf8Next bs
      (off, p.1, p.2) :: utf8Scan fuel (off + p.2) (bs.drop p.2)

/-! ### Classes (R178): 0 L, 1 N, 2 E, 3 W, 4 P, 5 O -/

/-- Class of an ASCII character that is neither white space nor a line end. -/
def asciiClass (c : Nat) : Nat :=
  if (0x41 ≤ c ∧ c ≤ 0x5A) ∨ (0x61 ≤ c ∧ c ≤ 0x7A) then 0
  else if 0x30 ≤ c ∧ c ≤ 0x39 then 1
  else if c < 0x20 ∨ c = 0x7F then 5
  else 4

/-- White_Space characters that are not line ends. -/
def isWhite (c : Nat) : Bool :=
  c == 0x09 || c == 0x0B || c == 0x0C || c == 0x20 || c == 0xA0 || c == 0x1680 || decide (0x2000 ≤ c ∧ c ≤ 0x200A)
    || c == 0x202F || c == 0x205F || c == 0x3000

/-- Class of a character after one of class `prev`; none at the start. U+FFFD is of class P. -/
def textClass (c : Nat) (prev : Option Nat) : Nat :=
  if c = 0x0A ∨ c = 0x0D ∨ c = 0x85 ∨ c = 0x2028 ∨ c = 0x2029 then 2
  else if isWhite c then 3
  else if c < 0x80 then asciiClass c
  else if c = 0xFFFD then 4
  else match charClass c with
    | 0 => 0
    | 1 => 1
    | 4 => 4
    | 6 => prev.getD 0
    | _ => 5

/-- A character of the text, or a byte of byte fallback (no code point): class, string, source offset, and whether its
bytes are the source's own. -/
structure TextItem where
  cls : Nat
  cp : Option Nat
  bytes : Bytes
  off : Nat
  own : Bool
  deriving DecidableEq, Repr

/-- The text as items under a UTF8_MODE of 0 or 1 (R176); in mode 2 an ill-formed subpart gives nothing. -/
def textItems (mode : Nat) (bs : Bytes) : Option Nat → List (Nat × Option Nat × Nat) → List TextItem
  | _, [] => []
  | prev, (off, some c, n) :: t =>
    let k := textClass c prev
    { cls := k, cp := some c, bytes := sub bs off n, off := off, own := true } :: textItems mode bs (some k) t
  | prev, (off, none, n) :: t =>
    if mode = 0 then
      ((List.range n).map fun i => ({ cls := 5, cp := none, bytes := sub bs (off + i) 1, off := off + i, own := true } : TextItem))
        ++ textItems mode bs (some 5) t
    else if mode = 1 then
      { cls := 4, cp := some 0xFFFD, bytes := utf8Of 0xFFFD, off := off, own := false } :: textItems mode bs (some 4) t
    else textItems mode bs prev t

/-! ### Pretokens (R179) -/

/-- Rules 1 and 2: maximal runs of one class, each O alone. -/
def runsOf : List TextItem → List (List TextItem)
  | [] => []
  | a :: t =>
    match runsOf t with
    | (b :: r) :: rest => if a.cls = b.cls ∧ a.cls ≠ 5 then (a :: b :: r) :: rest else [a] :: (b :: r) :: rest
    | _ => [[a]]

/-- Cut a list into pieces of g. -/
def chunksOf {α : Type} (g : Nat) : Nat → List α → List (List α)
  | 0, _ => []
  | f + 1, l => if l.isEmpty then [] else l.take g :: chunksOf g f (l.drop g)

/-- Class of a pretoken. -/
def runClass (r : List TextItem) : Nat := (r.head?.map TextItem.cls).getD 5

/-- Rule 3: digits in groups from the start. -/
def digitGroups (g : Nat) (rs : List (List TextItem)) : List (List TextItem) :=
  if g = 0 then rs else (rs.map fun r => if runClass r = 1 then chunksOf g r.length r else [r]).flatten

/-- Rule 4: a space before L, N or P goes to the following pretoken. -/
def spacePrefix : List (List TextItem) → List (List TextItem)
  | [] => []
  | r :: t =>
    match spacePrefix t, r.getLast? with
    | n :: rest, some sp =>
      let k := (t.head?.map runClass).getD 5
      if runClass r = 3 ∧ sp.cp = some 0x20 ∧ (k = 0 ∨ k = 1 ∨ k = 4) then
        (if r.dropLast.isEmpty then [] else [r.dropLast]) ++ (sp :: n) :: rest
      else r :: n :: rest
    | rest, _ => r :: rest

/-- Rule 5: pieces of at most 256 bytes, cut at character boundaries. -/
def cutLong : Nat → List TextItem → List TextItem → List (List TextItem)
  | _, cur, [] => if cur.isEmpty then [] else [cur.reverse]
  | n, cur, a :: t =>
    if cur.isEmpty ∨ n + a.bytes.length ≤ 256 then cutLong (n + a.bytes.length) (a :: cur) t
    else cur.reverse :: cutLong a.bytes.length [a] t

/-- The pretokens of a text, and whether rule 5 cut one. -/
def pretokens (t : MergeTable) (items : List TextItem) : List (List TextItem) × Bool :=
  let r3 := digitGroups t.digitGroup (runsOf items)
  let r4 := if t.spacePrefix then spacePrefix r3 else r3
  let r5 := (r4.map (cutLong 0 [])).flatten
  (r5, r5.length != r4.length)

/-! ### Merging (R180) -/

/-- A symbol: identifier, source offset, and a skip mark on the pair with the next one. -/
abbrev TokSym := Nat × Nat × Bool

/-- The symbols a pretoken starts as. -/
def startSyms (t : MergeTable) (items : List TextItem) : List TokSym :=
  (items.map fun a =>
    match a.cp.bind fun c => if t.byteMode then none else t.base.find? fun b => b.1 == c with
    | some b => [(b.2, a.off, false)]
    | none => a.bytes.zipIdx.map fun v => (t.byteBase + v.1.toNat, if a.own then a.off + v.2 else a.off, false)).flatten

/-- Rank and result of a merge. -/
def MergeTable.mergeOf (t : MergeTable) (l r : Nat) : Option (Nat × Nat) :=
  (t.merges.findIdx? fun m => m.1 == l && m.2.1 == r).bind fun i => (t.merges[i]?).map fun m => (i, m.2.2)

/-- The pair to merge next: rank, position and result; lowest rank, then leftmost. -/
def bestPair (t : MergeTable) : Nat → List TokSym → Option (Nat × Nat × Nat)
  | i, a :: b :: r =>
    let rest := bestPair t (i + 1) (b :: r)
    if a.2.2 then rest
    else match t.mergeOf a.1 b.1, rest with
      | some m, some q => if q.1 < m.1 then some q else some (m.1, i, m.2)
      | some m, none => some (m.1, i, m.2)
      | none, q => q
  | _, _ => none

/-- Mark the pair at a position skipped. -/
def markSkip (i : Nat) (l : List TokSym) : List TokSym :=
  l.zipIdx.map fun v => if v.2 = i then (v.1.1, v.1.2.1, true) else v.1

/-- Replace the pair at a position by its result; marks of both instances disappear. -/
def mergeAt (i res : Nat) (l : List TokSym) : List TokSym :=
  ((l.take i).zipIdx.map fun v => if v.2 + 1 = i then (v.1.1, v.1.2.1, false) else v.1)
    ++ (match l[i]? with
      | some a => [(res, a.2.1, false)]
      | none => [])
    ++ l.drop (i + 2)

/-- The merge loop, with the draw counter. -/
def mergeLoop (t : MergeTable) (dropout : F32) (k : DrawKey) : Nat → Nat → List TokSym → Nat × List TokSym
  | 0, c, l => (c, l)
  | fuel + 1, c, l =>
    match bestPair t 0 l with
    | none => (c, l)
    | some (_, i, res) =>
      if fLt fZero dropout then
        if fBernoulli (k.word 2 c) dropout then mergeLoop t dropout k fuel (c + 1) (markSkip i l)
        else mergeLoop t dropout k fuel (c + 1) (mergeAt i res l)
      else mergeLoop t dropout k fuel c (mergeAt i res l)

/-- Tokens of every pretoken, in text order, with their source offsets. -/
def mergeAll (t : MergeTable) (dropout : F32) (k : DrawKey) : Nat → List (List TextItem) → List (Nat × Nat)
  | _, [] => []
  | c, r :: rs =>
    let s := startSyms t r
    let m := mergeLoop t dropout k (3 * s.length + 3) c s
    m.2.map (fun a => (a.1, a.2.1)) ++ mergeAll t dropout k m.1 rs

/-! ### The token descriptor (R171) -/

/-- Bytes of token identifiers. -/
def tokenBytes (ts : List Nat) : Bytes := (ts.map (putLE 4)).flatten

/-- Put a field into a descriptor. -/
def setField (off n v : Nat) (d : Bytes) : Bytes := patch d off (putLE n v)

/-- A descriptor with its data's length and CRC. -/
def sealDesc (data d : Bytes) : Bytes := setField 20 4 data.length (setField 24 4 (crc32c data) d)

/-- DATA_BYTES of any TOKEN-stage output at most (R177). -/
abbrev tokenDataMax : Nat := 268435456

/-- Token identifiers of a sample. -/
def Sample.tokens (x : Sample) : List Nat := (Machine.pieces 4 (field x.desc 4 4) x.data).map leVal

/-- Mask rows of a sample. -/
def Sample.rows (x : Sample) : Bytes := x.data.drop (4 * field x.desc 4 4)

/-! ### TOKENIZE (R175, R176, R181) -/

/-- The token output of a text, or in mode 2 of its part before the first ill-formed byte, at `stop` (R176, R181). -/
def tokenizeOut (b : Bytes) (t : MergeTable) (x : Sample) (mode work : Nat) (scan : List (Nat × Option Nat × Nat)) (stop : Option Nat)
    (d : Decl) : Completion :=
  let bad := match stop with
    | some off => [(off, none, 1)]
    | none => scan.filter fun p => p.2.1.isNone
  let pre := pretokens t (textItems mode x.data none scan)
  let body := mergeAll t (f32At b 12) (x.draws d) 0 pre.1
  let bos := field b 4 4
  let eos := field b 8 4
  let toks := (if bos = noId then [] else [(bos, 0)]) ++ body ++ (if eos = noId ∨ stop.isSome then [] else [(eos, x.data.length)])
  let flags := (if bad.isEmpty then 0 else if mode = 0 then 6 else if mode = 1 then 5 else 4) + (if pre.2 then 32 else 0)
  let data := tokenBytes (toks.map Prod.fst)
  let desc := sealDesc data (fitTo 64 (putLE 1 2 ++ putLE 1 1 ++ putLE 1 5 ++ zeros 1 ++ putLE 4 toks.length ++ putLE 4 0
    ++ putLE 4 (stop.getD x.data.length) ++ putLE 4 0 ++ putLE 4 0 ++ putLE 4 0 ++ putLE 4 work
    ++ putLE 4 ((bad.head?.map Prod.fst).getD noOffset) ++ putLE 4 bad.length ++ putLE 4 noOffset ++ putLE 4 noOffset
    ++ putLE 2 0 ++ putLE 1 0 ++ zeros 1 ++ putLE 4 0 ++ putLE 2 flags))
  if tokenDataMax < data.length then oversizeC work 8 noOffset
  else
    let c := { writeC work desc data with offsets := toks.map Prod.snd }
    if mode = 1 ∧ !bad.isEmpty then
      { c with code := 2, cause := 9, errOff := (bad.head?.map Prod.fst).getD noOffset }
    else c

/-- CORRUPT for ill-formed text: its descriptor stays in the output buffer, which no operator reads (R176). -/
def ill (c : Completion) (first : Nat) : Completion :=
  if c.code = 1 then c else { corruptC c.workUsed 9 0 first with desc := c.desc }

/-- TOKENIZE on a sample. It stops at the first ill-formed byte in mode 2 (R176), and where the tokens so far pass DATA_BYTES (R181). -/
def tokenizeOp (e : Entry) (p : Pipeline) (x : Sample) (s : State) : Completion :=
  let b := p.decl.paramsAt e.instance_
  let len := x.data.length
  let mode := if p.decl.corrupt = 1 ∧ byteAt b 1 = 1 then 2 else byteAt b 1
  let start := if bitOf (byteAt b 2) 0 && x.data.take 3 == [0xEF, 0xBB, 0xBF] then 3 else 0
  let scan := utf8Scan len start (x.data.drop start)
  let bad := scan.filter fun q => q.2.1.isNone
  let first := (bad.head?.map Prod.fst).getD noOffset
  let replaced := (bad.map fun q => q.2.2).sum
  if x.cls ≠ 2 ∨ byteAt x.slate 9 ≠ 1 then corruptC 0 6 6 noOffset
  else match tget s.slots.merges (byteAt b 0) with
    | none => corruptC 0 19 0 noOffset
    | some t =>
      if mode = 2 ∧ !bad.isEmpty then
        let work := ceilDiv (first + 1) 64
        e.within work (ill (tokenizeOut b t x 2 work (scan.takeWhile fun q => q.2.1.isSome) (some first) p.decl) first)
      else
        let work := ceilDiv len 64
        let c := tokenizeOut b t x mode work scan none p.decl
        e.within work (if mode = 1 ∧ field b 16 2 * len < replaced * 1000 then ill c first else c)

/-- TOKENIZE. -/
def execTokenize (queue : Nat) (s : State) : Res := live (runPure 0x0501 queue tokenizeOp) s

/-! ### The automaton (R187) -/

/-- A configuration: state and stack. -/
structure GConf where
  state : Nat
  stack : List Nat
  deriving DecidableEq, Repr

/-- Edges of a state. -/
def Automaton.edges (a : Automaton) (st : Nat) : List Edge := ((a.states[st]?).map Prod.snd).getD []

/-- What an edge makes of a configuration: the next one, or the dead-state code. -/
def takeEdge (limit : Nat) (c : GConf) (e : Edge) : GConf ⊕ Nat :=
  if e.action = 2 then
    match c.stack with
    | [] => .inr 2
    | p :: r => .inl { state := p, stack := r }
  else if e.next = 0 then .inr 1
  else if e.action = 1 then
    if limit ≤ c.stack.length then .inr 3 else .inl { state := e.next, stack := e.ret :: c.stack }
  else .inl { state := e.next, stack := c.stack }

/-- One symbol. -/
def Automaton.feed (a : Automaton) (limit : Nat) (c : GConf) (x : Nat) : GConf ⊕ Nat :=
  match (a.edges c.state).find? fun e => decide (e.lo ≤ x ∧ x ≤ e.hi) with
  | none => .inr 1
  | some e => takeEdge limit c e

/-- Is a configuration accepting? -/
def Automaton.accepts (a : Automaton) (c : GConf) : Bool :=
  ((a.states[c.state]?).map Prod.fst).getD false && (!a.finalEmpty || c.stack.isEmpty)

/-- The start configuration. -/
def Automaton.begin (a : Automaton) : GConf := { state := a.start, stack := [] }

/-! ### Detokenization (R188) -/

/-- A symbol fed to the automaton: its value, the token that owns it, its source offset, and the token after its last
byte. -/
structure GSym where
  val : Nat
  tok : Nat
  off : Nat
  stop : Nat
  deriving DecidableEq, Repr

/-- The bytes of the tokens with their token and source offset; special identifiers have none. -/
def detokBytes (strs : Table Bytes) (specials : List Nat) (ts : List (Nat × Nat)) : List (Byte × Nat × Nat) :=
  (ts.zipIdx.map fun v =>
    if v.1.1 ∈ specials then []
    else (tgetD strs v.1.1 []).zipIdx.map fun b => (b.1, v.2, v.1.2 + b.2)).flatten

/-- Characters of the detokenized bytes; every ill-formed maximal subpart is one U+FFFD. -/
def charSyms (bs : List (Byte × Nat × Nat)) : List GSym :=
  (utf8Scan bs.length 0 (bs.map Prod.fst)).map fun p =>
    let f := bs.getD p.1 (0, 0, 0)
    let l := bs.getD (p.1 + p.2.2 - 1) (0, 0, 0)
    { val := p.2.1.getD 0xFFFD, tok := f.2.1, off := f.2.2, stop := l.2.1 + 1 }

/-- Token identifiers as symbols. -/
def tokenSyms (specials : List Nat) (ts : List (Nat × Nat)) : List GSym :=
  (ts.zipIdx.filter fun v => !decide (v.1.1 ∈ specials)).map fun v => { val := v.1.1, tok := v.2, off := v.1.2, stop := v.2 + 1 }

/-! ### A run (R189) -/

/-- A run of the automaton: the configuration before each symbol consumed, newest first, the current one, and the
offending symbol with its code. -/
structure GRun where
  trail : List (GSym × GConf)
  conf : GConf
  bad : Option (GSym × Nat)
  deriving DecidableEq, Repr

/-- Feed symbols until one enters the dead state. -/
def Automaton.run (a : Automaton) (limit : Nat) : List GSym → GRun → GRun
  | [], r => r
  | x :: xs, r =>
    match a.feed limit r.conf x.val with
    | .inl c => a.run limit xs { r with trail := (x, r.conf) :: r.trail, conf := c }
    | .inr code => { r with bad := some (x, code) }

/-- The configuration before token t: that before the first consumed symbol of a token at or after t, else the last. -/
def GRun.before (r : GRun) (t : Nat) : GConf :=
  ((r.trail.reverse.find? fun v => decide (t ≤ v.1.tok)).map Prod.snd).getD r.conf

/-- Does a consumed character straddle the boundary before token t? -/
def GRun.straddles (r : GRun) (t : Nat) : Bool := r.trail.any fun v => decide (v.1.tok < t ∧ t < v.1.stop)

/-- The cut of a truncation (R189): at GRAMMAR_TOKEN, moved back to where no character straddles it and, with FINAL_CHECK,
the configuration is accepting; token 0 where there is none. -/
def GRun.cut (r : GRun) (a : Automaton) (final : Bool) : Nat → Nat
  | 0 => 0
  | t + 1 => if !r.straddles (t + 1) && (!final || a.accepts (r.before (t + 1))) then t + 1 else r.cut a final t

/-- A mask row for a configuration (R190). -/
def maskRow (a : Automaton) (limit vocab : Nat) (specials : List Nat) (c : GConf) : Bytes :=
  let bit (i : Nat) : Bool := decide (i ∈ specials)
    || (match (a.edges c.state).find? fun e => decide (e.lo ≤ i ∧ i ≤ e.hi) with
      | none => false
      | some e => match takeEdge limit c e with
        | .inl _ => decide (i < vocab)
        | .inr _ => false)
  (List.range (ceilDiv vocab 64 * 8)).map fun j =>
    BitVec.ofNat 8 (((List.range 8).map fun k => if bit (8 * j + k) then 2 ^ k else 0).sum)

/-- The offending point: token, byte, state and code. -/
structure GPoint where
  tok : Nat
  byte : Nat
  state : Nat
  code : Nat
  deriving DecidableEq, Repr

/-- The first offending point of a run, if any. -/
def GRun.point (r : GRun) (a : Automaton) (final : Bool) (tokens length : Nat) : Option GPoint :=
  match r.bad with
  | some (x, code) => some { tok := x.tok, byte := x.off, state := r.conf.state, code := code }
  | none =>
    if final && !a.accepts r.conf then some { tok := tokens, byte := length, state := r.conf.state, code := 4 } else none

/-- What GRAMMAR leaves: tokens with their offsets, and for each its row's configuration, none for a row of ones. -/
structure GOut where
  toks : List (Nat × Nat)
  confs : List (Option GConf)
  flags : Nat
  truncated : Nat
  deriving DecidableEq, Repr

/-- Tokens and rows after a run (R189, R190); `eos` is the EOS that TOKENIZE wrote. -/
def grammarOut (a : Automaton) (r : GRun) (pt : Option GPoint) (mode : Nat) (final : Bool) (eos length : Nat)
    (ts : List (Nat × Nat)) : GOut :=
  let conf (t : Nat) : Option GConf := some (r.before t)
  let plain : GOut :=
    { toks := ts, confs := (List.range ts.length).map conf, flags := 0, truncated := 0 }
  match pt with
  | none => plain
  | some g =>
    if mode = 1 then
      let cut := r.cut a final g.tok
      let tail : List (Nat × Nat) := if eos = noId then [] else [(eos, length)]
      { toks := ts.take cut ++ tail, confs := (List.range cut).map conf ++ tail.map (fun _ => conf cut), flags := 16,
        truncated := ts.length }
    else
      { plain with
        confs := (List.range ts.length).map fun t => if t < g.tok then conf t else none
        flags := 8 }

/-- The descriptor GRAMMAR writes: its own fields over TOKENIZE's (R171). -/
def grammarDesc (x : Sample) (pt : Option GPoint) (o : GOut) (rowBytes work : Nat) (data : Bytes) : Bytes :=
  let d1 := setField 4 4 o.toks.length (setField 8 4 rowBytes (setField 16 4 o.truncated x.desc))
  let d2 := setField 28 4 (field x.desc 28 4 + work) (setField 56 2 (field x.desc 56 2 ||| o.flags) d1)
  sealDesc data (match pt with
    | none => d2
    | some g => setField 40 4 g.tok (setField 44 4 g.byte (setField 48 2 g.state (setField 50 1 g.code d2))))

/-- The Waiquel grammar record of an offending point (R189, R439). -/
def grammarTrace (k : Nat) (e : Entry) (x : Sample) (mode : Nat) (pt : Option GPoint) (s : State) : State :=
  match pt with
  | none => s
  | some g =>
    traceRecord 2 (s.queueUnit k) e.pipeline e.stage e.op
      (putLE 8 (sampleScope x.dataset x.index) ++ putLE 8 (x.position % 2 ^ 47 + x.epoch % 2 ^ 16 * 2 ^ 47) ++ putLE 4 g.tok
        ++ putLE 4 g.byte ++ putLE 2 g.state ++ putLE 1 g.code ++ putLE 1 mode ++ zeros 4) s

/-- GRAMMAR's completion once its tables are at hand. -/
def grammarWork (e : Entry) (d : Decl) (b : Bytes) (a : Automaton) (t : MergeTable) (x : Sample) : Completion × Option GPoint :=
  let mode := byteAt b 1
  let masks := byteAt b 2 == 1
  let final := byteAt b 3 == 1
  let limit := orElse0 (field b 4 2) 1024
  let specials := d.specials
  let ts := x.tokens.zip x.offsets
  let length := field x.slate 20 4
  let syms := if a.symbols = 0 then tokenSyms specials ts else charSyms (detokBytes t.strings specials ts)
  let r := a.run limit syms { trail := [], conf := a.begin, bad := none }
  let used := r.trail.length + (if r.bad.isSome then 1 else 0)
  let w := ceilDiv used 16
  let pt := r.point a final ts.length length
  if e.budget ≠ 0 ∧ e.budget < w then (oversizeC e.budget 9 noOffset, none)
  else
    let o := grammarOut a r pt mode final (field ((d.blockOf 0x0501).getD []) 8 4) length ts
    let g := pt.getD { tok := 0, byte := noOffset, state := 0, code := 0 }
    let drop : Completion := { dropC w 3 with errCode := g.code, errOff := g.byte }
    if pt.isSome ∧ mode = 0 then (drop, pt)
    else if pt.isSome ∧ mode = 1 ∧ o.toks.all (fun v => decide (v.1 ∈ specials)) then (drop, pt)
    else
      let rowBytes := if masks then t.rowBytes else 0
      if tokenDataMax < o.toks.length * (4 + rowBytes) then (oversizeC w 8 noOffset, pt)
      else
        let rows := if masks then
            (o.confs.map fun c => match c with
              | some c => maskRow a limit t.vocab specials c
              | none => List.replicate rowBytes 0xFF).flatten
          else []
        let work := w + ceilDiv rows.length 1024
        let data := tokenBytes (o.toks.map Prod.fst) ++ rows
        let c := { writeC work (grammarDesc x pt o rowBytes work data) data with offsets := o.toks.map Prod.snd }
        (e.within work c, pt)
where
  /-- A field that is 0 for its largest value. -/
  orElse0 (v m : Nat) : Nat := if v = 0 then m else v

/-- GRAMMAR on a sample. -/
def grammarOp (k : Nat) (e : Entry) (p : Pipeline) (x : Sample) (s : State) : Completion × State :=
  let b := p.decl.paramsAt e.instance_
  match tget s.slots.automata (byteAt b 0), s.mergeTable p.decl with
  | some a, some t =>
    let r := grammarWork e p.decl b a t x
    (r.1, grammarTrace k e x (byteAt b 1) r.2 s)
  | _, _ => (corruptC 0 19 0 noOffset, s)

/-- GRAMMAR. -/
def execGrammar (queue : Nat) (s : State) : Res := live (whenB s.going (runEntry 0x0502 queue (grammarOp queue))) s

/-! ### TOKEN_MASK (R183) -/

/-- TOKEN_MASK on a sample. -/
def tokenMaskOp (e : Entry) (p : Pipeline) (x : Sample) (_ : State) : Completion :=
  let b := p.decl.paramsAt e.instance_
  let q := p.shotParam x 13
  let specials := p.decl.specials
  let k := x.draws p.decl
  let hit (v : Nat × Nat) : Bool :=
    !fIsZero q && !decide (v.1 ∈ specials) && fBernoulli (k.word 2 (2 ^ 35 + v.2)) q
  let ts := x.tokens
  let work := ceilDiv ts.length 64
  let out := ts.zipIdx.map fun v => if hit v then field b 0 4 else v.1
  let data := tokenBytes out ++ x.rows
  let desc := setField 52 4 (field x.desc 52 4 + (ts.zipIdx.filter hit).length)
    (setField 28 4 (field x.desc 28 4 + work) x.desc)
  e.within work { writeC work (sealDesc data desc) data with offsets := x.offsets }

/-- TOKEN_MASK. -/
def execTokenMask (queue : Nat) (s : State) : Res := live (runPure 0x0503 queue tokenMaskOp) s

end Sys2Proof.Machine
end

