-- ==== Sys2Proof/Machine/Delivery.lean ====
section
/-! DEFINITION. Delivery: the slot metadata (R218), the writing of slots, pieces and sequences (R28, R217, R229, R230), and the
notices that follow their flush (R232). -/

namespace Sys2Proof.Machine

/-! ### Metadata (R218) -/

/-- SHIFT of a slot that holds a position of an epoch: both positions are counted within their epochs. -/
def State.slotShift (s : State) (d : Decl) (b sl pos : Nat) : Nat :=
  if d.ledger then (2 ^ 48 + pos - (d.slotPos (s.domain d) b sl).2) % 2 ^ 48 else 0

/-- Does a descriptor describe tokens? -/
def isTokens (desc : Bytes) : Bool := byteAt desc 2 == 5

/-- ERROR_CODE and ERROR_OFFSET of a delivered sample, from its descriptor. -/
def descError (desc : Bytes) : Nat × Nat :=
  if isTokens desc then
    if field desc 32 4 ≠ noOffset then (0, field desc 32 4) else (byteAt desc 50, field desc 44 4)
  else if desc.isEmpty then (0, noOffset)
  else (byteAt desc 44, field desc 36 4)

/-- Bytes 32 to 63 of a record. -/
def metaMiddle (state cause layout skipCause skipped width height frames first flags : Nat) (err : Nat × Nat) : Bytes :=
  putLE 1 state ++ putLE 1 cause ++ putLE 1 layout ++ putLE 1 skipCause ++ putLE 4 skipped ++ putLE 4 width
    ++ putLE 4 height ++ putLE 4 frames ++ putLE 4 first ++ putLE 2 flags ++ putLE 1 err.1 ++ zeros 1 ++ putLE 4 err.2

/-- Bytes 72 to 103: ATTR, ATTR_WIDE, LABEL, QUALITY and SOURCE of the slate. -/
def metaSlate (slate : Bytes) : Bytes :=
  fitTo 16 (sub slate 28 16) ++ fitTo 4 (sub slate 44 4) ++ fitTo 4 (sub slate 56 4) ++ fitTo 8 (sub slate 48 8)

/-- The payload that a slot receives of a sample; none of an empty one. -/
def Sample.slotBytes (x : Sample) : Bytes := if x.status = 2 then [] else x.payload

/-- The record of a slot that holds one sample, or that its sample has left empty. -/
def State.sampleMeta (s : State) (d : Decl) (x : Sample) (b sl : Nat) : Bytes :=
  let empty := decide (x.status = 2)
  let desc := if empty then [] else x.desc
  let text := isTokens desc
  let pay := x.slotBytes
  let models := !empty && !x.models.isEmpty
  let off := if models then roundUp x.data.length 64 else 0
  let err := if empty then (x.errCode, x.errOff) else descError desc
  fitTo 128 (putLE 8 (sampleScope x.dataset x.index) ++ putLE 8 (x.position % 2 ^ 47 + x.epoch % 2 ^ 16 * 2 ^ 47)
    ++ putLE 8 (s.slotShift d b sl x.position) ++ putLE 4 pay.length ++ putLE 4 (crc32c pay)
    ++ metaMiddle x.status (if x.status = 0 then 0 else x.cause) (byteAt desc 2) x.skipCause x.skipped (field desc 4 4) (field desc 8 4)
        (if text then 0 else field desc 12 4) (if text then 0 else field desc 16 4)
        (if text then field desc 56 2 else field desc 46 2) err
    ++ putLE 4 off ++ putLE 4 (if models then pay.length - off else 0) ++ metaSlate x.slate)

/-! ### Admission of a write (R28, R236, R239, R427) -/

/-- Is a slot's batch within the window and writable, on this node? A shadow writes nothing, and runs ahead of its match only. -/
def State.mayWrite (s : State) (pipe : Nat) (p : Pipeline) (c b : Nat) : Bool :=
  (p.state == 3 || p.state == 4) && decide (p.cursor ≤ b) && p.inStop b &&
    match s.shadowLow pipe, tget p.runs c with
    | some low, _ => decide (b < low + 8)
    | none, some r => !r.stopped && decide (b < r.oldest + 8) && decide (b < r.writable)
    | none, none => false

/-- In drop mode a ledger batch is whole only once the epoch's units reach its end: until then its units may belong to no batch
(R223). -/
def Pipeline.wholeBatch (p : Pipeline) (b : Nat) : Bool :=
  p.decl.tail == 0 || !p.decl.ledger ||
    match p.spanBelow ((b + 1) * p.decl.batch - 1) with
    | some (_, _, base, some m) => decide ((b + 1) * p.decl.batch ≤ base + m)
    | _ => false

/-- Will a unit of an epoch never be delivered: its batch is released already (R242), or the epoch has ended below the batch's end,
in drop mode (R223)? -/
def State.neverDelivered (s : State) (p : Pipeline) (epoch b : Nat) : Bool :=
  decide (b < p.cursor) || p.decl.ledger && p.decl.tail == 1 &&
    match (p.span epoch (spansIn (s.domain p.decl) - 1)).unitBase, (p.span epoch (spansIn (s.domain p.decl) - 1)).units with
    | some base, some m => decide ((base + m) / max 1 p.decl.batch ≤ b)
    | _, _ => false

/-! ### Writing a sample (R217, R218, R232) -/

/-- Post a slot's bytes to its consumer; a shadow discards them (R427). -/
def postBytes (pipe : Nat) (k : Consumer) (addr : Nat) (bs : Bytes) (b : Nat) (s : State) : State :=
  if bs.isEmpty ∨ s.isShadow pipe then s else consumerWrite k k.bufKey addr bs b s

/-- Post the flush that covers what was written of a batch. -/
def postFlush (pipe : Nat) (k : Consumer) (b : Nat) (s : State) : State :=
  if s.isShadow pipe then s else postWork k.qp 5 0 0 [] 0 b s

/-- A written slot waits for its flush. -/
def holdSlot (pipe c b sl state : Nat) (s : State) : State :=
  modRun pipe c (fun r => { r with held := tput r.held b (tgetD r.held b [] ++ [(sl, state)]) }) s

/-- Write a sample into its slot. -/
def writeSample (pipe : Nat) (p : Pipeline) (c : Nat) (k : Consumer) (x : Sample) (b sl : Nat) (s : State) : State :=
  let pay := x.slotBytes
  let md := s.sampleMeta p.decl x b sl
  let s1 := postFlush pipe k b (postBytes pipe k (k.metaAddr b sl) md b (postBytes pipe k (k.slotAddr b sl) pay b s))
  digestReady pipe b (lockRecord pipe b sl (crc32c pay) (crc32c md) x.chain
    (holdSlot pipe c b sl x.status (dropSample x.key (freeBufs x s1))))

/-! ### Writing a document's pieces (R229, R230) -/

/-- The bytes of a piece: tokens, segment identifiers, mask rows. -/
def Sample.pieceBytes (x : Sample) (seqLen piece seg tokens : Nat) : Bytes × Bytes × Bytes :=
  let row := field x.desc 8 4
  let n := field x.desc 4 4
  let first := piece * seqLen
  (sub x.data (4 * first) (4 * tokens), (List.replicate tokens (putLE 2 seg)).flatten,
    sub x.data (4 * n + row * first) (row * tokens))

/-- Write one placed piece, where its batch is writable. One that is never delivered counts as written. -/
def writePiece (pipe key : Nat) (y : Nat × Nat × Nat × Nat × Nat × Bool) (s : State) : State :=
  match tget s.pipes pipe, tget s.eng.samples key with
  | some p, some x =>
    let (piece, unit, seg, start, tokens, written) := y
    let b := unit / max 1 p.decl.batch
    let sl := unit % max 1 p.decl.batch
    match p.consumerOf sl with
    | some (c, k) =>
      if !written && s.neverDelivered p x.epoch b then
        modSample key (fun x => { x with pieces := x.pieces.map fun w =>
          if w.1 = piece then (w.1, w.2.1, w.2.2.1, w.2.2.2.1, w.2.2.2.2.1, true) else w }) s
      else if !written && s.mayWrite pipe p c b && p.wholeBatch b then
        let blk := (p.decl.blockOf 0x0701).getD []
        let l := field blk 0 4
        let z := x.pieceBytes l piece seg tokens
        let crc := crc32c (z.1 ++ z.2.1 ++ z.2.2)
        let a := k.slotAddr b sl
        let s1 := postBytes pipe k (a + 4 * start) z.1 b s
        let s2 := postBytes pipe k (a + 4 * l + 2 * start) z.2.1 b s1
        let s3 := postBytes pipe k (a + rowOff l (field blk 8 2) + start * field x.desc 8 4) z.2.2 b s2
        let note : PieceNote :=
          { span := spanKey x.epoch (spanOf x.position), off := x.position % 65536, piece := piece, start := start,
            tokens := tokens, crc := crc }
        let s4 := modRun pipe c (fun r =>
          { r with heldPieces := tput r.heldPieces b (tgetD r.heldPieces b [] ++ [note]) }) (postFlush pipe k b s3)
        let s5 := modSample key (fun x => { x with pieces := x.pieces.map fun w =>
          if w.1 = piece then (w.1, w.2.1, w.2.2.1, w.2.2.2.1, w.2.2.2.2.1, true) else w }) s4
        digestReady pipe b (lockRecord pipe b (sl + piece * 2 ^ 20) crc 0 x.chain s5)
      else s
    | none => s
  | _, _ => s

/-- Is a document finished: every piece written and noticed, and no sequence of this node's still to write holds it? -/
def State.docFinished (s : State) (p : Pipeline) (x : Sample) : Bool :=
  let blk := (p.decl.blockOf 0x0701).getD []
  let off := x.position % 65536
  let sk := spanKey x.epoch (spanOf x.position)
  decide (x.pieces.length = (docPieces (field blk 0 4) (byteAt blk 10) off (field x.desc 4 4)).length)
    && x.pieces.all (fun y => y.2.2.2.2.2)
    && (p.runs.all fun r => (r.2.heldPieces ++ r.2.readyPieces).all fun h => h.2.all fun n => n.span != sk || n.off != off)
    && (s.isShadow x.pipeline || p.seqs.all fun q => q.2.written || spanKey q.2.epoch q.2.span != sk || q.2.parts.all fun y => y.1 != off)

/-- Finished documents leave, and their buffers with them. -/
def retireDocs (pipe : Nat) (s : State) : State :=
  match tget s.pipes pipe with
  | none => s
  | some p =>
    (s.eng.samples.filter fun kv => kv.2.pipeline == pipe && !kv.2.pieces.isEmpty && s.docFinished p kv.2).foldl
      (fun (t : State) (kv : Nat × Sample) => dropSample kv.1 (freeBufs kv.2 t)) s

/-! ### Writing a sequence (R218, R229, R230) -/

/-- The document at an offset of a span, where it is this node's. -/
def State.ownDoc (s : State) (pipe epoch span off : Nat) : Option Sample :=
  tget s.eng.samples (sampleKey pipe epoch (span * 65536 + off))

/-- FLAGS of the document at an offset: its descriptor's. Those of another node's document reach this one by no message (R231): a
free value for the document. -/
def State.docFlags (s : State) (pipe epoch span off : Nat) : Nat :=
  match s.ownDoc pipe epoch span off with
  | some x => field x.desc 56 2
  | none => Config.remoteFlags pipe epoch (span * 65536 + off) % 2 ^ 16

/-- SAMPLE and POSITION of a position, as the metadata gives them. -/
def State.posBytes (s : State) (d : Decl) (epoch pos : Nat) : Bytes :=
  let hi := s.sampleAt d epoch pos
  putLE 8 (sampleScope hi.1 hi.2) ++ putLE 8 (pos % 2 ^ 47 + epoch % 2 ^ 16 * 2 ^ 47)

/-- The document table of a sequence. -/
def State.docTable (s : State) (pipe : Nat) (d : Decl) (q : SeqRec) (maxSeg : Nat) : Bytes :=
  fitTo (32 * maxSeg) (q.parts.map fun y =>
    s.posBytes d q.epoch (q.span * 65536 + y.1) ++ putLE 4 y.2.2.2.1 ++ putLE 4 y.2.2.2.2 ++ putLE 2 y.2.1
      ++ putLE 2 (s.docFlags pipe q.epoch q.span y.1) ++ zeros 4).flatten

/-- Bytes of the mask rows of one token in a pipeline's sequences; 0 without rows. -/
def State.seqRow (s : State) (d : Decl) : Nat := if d.masks then ((s.mergeTable d).map MergeTable.rowBytes).getD 0 else 0

/-- The bytes of a sequence's part: the document's own, or those another node wrote, known here by the CRC it reported (R230). -/
def State.partBytes (s : State) (pipe : Nat) (d : Decl) (q : SeqRec) (y : Nat × Nat × Nat × Nat × Nat) : Bytes × Bytes × Bytes :=
  match s.ownDoc pipe q.epoch q.span y.1 with
  | some x => x.pieceBytes (field ((d.blockOf 0x0701).getD []) 0 4) y.2.1 y.2.2.1 y.2.2.2.2
  | none =>
    let crc := ((q.got.find? fun g => g.1 == y.1 && g.2.1 == y.2.1).map fun g => g.2.2).getD 0
    let z := Config.remotePiece pipe q.epoch (q.span * 65536 + y.1) y.2.1 crc
    (fitTo (4 * y.2.2.2.2) z.1, (List.replicate y.2.2.2.2 (putLE 2 y.2.2.1)).flatten, fitTo (s.seqRow d * y.2.2.2.2) z.2)

/-- The whole payload of a sequence (R229). -/
def State.seqPayload (s : State) (pipe : Nat) (d : Decl) (q : SeqRec) : Bytes :=
  let blk := (d.blockOf 0x0701).getD []
  let l := field blk 0 4
  let z := q.parts.map (s.partBytes pipe d q)
  let pad := l - usedOf q.parts
  fitTo (roundUp (6 * l) 64) ((z.map fun v => v.1).flatten ++ (List.replicate pad (putLE 4 (field blk 4 4))).flatten
      ++ (z.map fun v => v.2.1).flatten ++ zeros (2 * pad))
    ++ s.docTable pipe d q (field blk 8 2) ++ fitTo (l * s.seqRow d) (z.map fun v => v.2.2).flatten

/-- The metadata of a sequence. DATA_CRC is that of the payload as written (R230). Its slate fields are not stated: free values of
the unit. -/
def State.seqMeta (s : State) (pipe : Nat) (d : Decl) (q : SeqRec) : Bytes :=
  let blk := (d.blockOf 0x0701).getD []
  let l := field blk 0 4
  let pos := q.span * 65536 + seqFirst q.parts
  let bytes := rowOff l (field blk 8 2) + l * s.seqRow d
  let flags := q.parts.foldl (fun (a : Nat) (y : Nat × Nat × Nat × Nat × Nat) => a ||| s.docFlags pipe q.epoch q.span y.1) 0
  fitTo 128 (s.posBytes d q.epoch pos ++ putLE 8 (s.slotShift d q.batch q.slot pos) ++ putLE 4 bytes
    ++ putLE 4 (crc32c (s.seqPayload pipe d q))
    ++ metaMiddle 3 0 5 q.skipCause q.skipped l q.parts.length 0 0 flags (0, noOffset) ++ zeros 8
    ++ fitTo 32 (Config.sequenceSlate pipe (q.batch * d.batch + q.slot)))

/-- The metadata of a slot beyond the last unit (R223). No position fills it: SAMPLE, POSITION, SHIFT and the slate fields are free
values of the unit. -/
def fillerMeta (pipe unit : Nat) : Bytes :=
  let z := Config.fillerBytes pipe unit
  fitTo 128 (fitTo 24 z ++ zeros 8 ++ metaMiddle 2 21 0 0 0 0 0 0 0 0 (0, noOffset) ++ zeros 8 ++ fitTo 32 (z.drop 24))

/-- The ledger node's own bytes of a sequence: padding, document table, padding rows. -/
def postSequence (pipe : Nat) (p : Pipeline) (k : Consumer) (q : SeqRec) (s : State) : State :=
  let blk := (p.decl.blockOf 0x0701).getD []
  let l := field blk 0 4
  let used := usedOf q.parts
  let pad := l - used
  let row := s.seqRow p.decl
  let a := k.slotAddr q.batch q.slot
  let gap := roundUp (6 * l) 64 - 6 * l
  let s1 := postBytes pipe k (a + 4 * used) (List.replicate pad (putLE 4 (field blk 4 4))).flatten q.batch s
  let s2 := postBytes pipe k (a + 4 * l + 2 * used) (zeros (2 * pad + gap)) q.batch s1
  let s3 := postBytes pipe k (a + roundUp (6 * l) 64) (s.docTable pipe p.decl q (field blk 8 2)) q.batch s2
  postBytes pipe k (a + rowOff l (field blk 8 2) + used * row) (zeros (pad * row)) q.batch s3

/-- Has every piece of a sequence been reported as written? -/
def SeqRec.complete (q : SeqRec) : Bool := q.parts.all fun y => q.got.any fun g => g.1 == y.1 && g.2.1 == y.2.1

/-- The ledger node writes a sequence, or a slot beyond the last unit. One that is never delivered counts as written. -/
def writeSequence (pipe unit : Nat) (s : State) : State :=
  match tget s.pipes pipe with
  | none => s
  | some p =>
    match tget p.seqs unit, p.consumerOf (unit % max 1 p.decl.batch) with
    | some q, some (c, k) =>
      if !q.written && s.neverDelivered p q.epoch q.batch then
        retireDocs pipe (modPipe pipe (fun p => { p with seqs := tmod p.seqs unit fun q => { q with written := true } }) s)
      else if !q.written && q.complete && s.mayWrite pipe p c q.batch && p.wholeBatch q.batch then
        let filler := decide (q.cause = 21)
        let md := if filler then fillerMeta pipe unit else s.seqMeta pipe p.decl q
        let s1 := if filler then s else postSequence pipe p k q s
        let s2 := postFlush pipe k q.batch (postBytes pipe k (k.metaAddr q.batch q.slot) md q.batch s1)
        let s3 := modPipe pipe (fun p => { p with seqs := tmod p.seqs unit fun q => { q with written := true } }) s2
        retireDocs pipe (holdSlot pipe c q.batch q.slot (if filler then 2 else 3) s3)
      else s
    | _, _ => s

/-! ### SLOT_WRITE -/

/-- Unit and pipeline of a sequence's key. -/
abbrev seqBase : Nat := 2 ^ 68

/-- SLOT_WRITE. Keys from 2^68 name this node's sequences, others its samples. -/
def slotWrite (key : Nat) (s : State) : State :=
  if seqBase ≤ key then writeSequence ((key - seqBase) / 2 ^ 63) ((key - seqBase) % 2 ^ 63) s
  else match tget s.eng.samples key with
    | none => s
    | some x =>
      match tget s.pipes x.pipeline with
      | none => s
      | some p =>
        if x.phase ≠ .done then s
        else if p.decl.packs x.cls && x.status != 2 then
          x.pieces.foldl (fun (t : State) (y : Nat × Nat × Nat × Nat × Nat × Bool) => writePiece x.pipeline key y t) s
        else match x.slot with
          | none => s
          | some sl =>
            if s.neverDelivered p x.epoch x.batch then dropSample key (freeBufs x s)
            else match p.consumerOf sl with
              | none => s
              | some (c, k) =>
                if s.mayWrite x.pipeline p c x.batch && p.wholeBatch x.batch then
                  writeSample x.pipeline p c k x x.batch sl s
                else s

/-- SLOT_WRITE. -/
def execSlotWrite (sample : Nat) (s : State) : Res := live (whenB s.going (slotWrite sample)) s

/-! ### Notices (R232) -/

/-- Body of a SLOT_NOTICE. -/
def slotBody (l : List (Nat × Nat)) : Bytes := (l.map fun e => putLE 4 (e.1 % 2 ^ 20 + e.2 * 2 ^ 20)).flatten

/-- Body of a PIECE_NOTICE. -/
def pieceBody (l : List PieceNote) : Bytes :=
  (l.map fun n => putLE 2 n.off ++ putLE 2 n.piece ++ putLE 4 n.start ++ putLE 4 n.tokens ++ putLE 4 n.crc).flatten

/-- Has every flush of a batch posted on a consumer's queue pair completed, on a queue pair that is READY? -/
def State.flushed (s : State) (k : Consumer) (b : Nat) : Bool :=
  (tget s.rdma.qps k.qp).any fun q => q.state == 1 && q.wrs.all fun w => w.kind != 5 || w.batch != b

/-- Send notices of flushed slots and pieces of a consumer's batch, at most 64 entries each: slots to the assembler, pieces to the
span's ledger node. -/
def sendNotices (pipe c b : Nat) (slots : List (Nat × Nat)) (notes : List PieceNote) (s : State) : State :=
  match tget s.pipes pipe with
  | none => s
  | some p =>
    match tget p.consumers c with
    | none => s
    | some k =>
      let s1 := (chunksOf 64 (slots.length + 1) slots).foldl (fun (t : State) (l : List (Nat × Nat)) =>
        sendNotice k.assembler b (makeMessage 1 pipe c s.fab.nodeId l.length b 0 (slotBody l)) t) s
      let spans := (notes.map PieceNote.span).eraseDups
      let s2 := spans.foldl (fun (t : State) (sk : Nat) =>
        (chunksOf 64 (notes.length + 1) (notes.filter fun (n : PieceNote) => n.span == sk)).foldl
          (fun (u : State) (l : List PieceNote) =>
            sendNotice (p.ledgerNode (sk % 2 ^ 32)) b
              (makeMessage 6 pipe allConsumers s.fab.nodeId l.length (spanIndex (sk / 2 ^ 32) (sk % 2 ^ 32)) 0 (pieceBody l)) u) t) s1
      let done1 (q : SeqRec) : SeqRec :=
        if q.written && q.batch == b && slots.any (fun e => e.1 == q.slot) then { q with flushed := true } else q
      retireDocs pipe (modPipe pipe (fun p => { p with seqs := tmapv p.seqs fun _ q => done1 q }) s2)

/-- Send what is flushed of a consumer's batch: all of it once the coalescing time is over, else whole groups of 64. -/
def sendReady (all : Bool) (pipe c b : Nat) (s : State) : State :=
  match (tget s.pipes pipe).bind fun p => tget p.runs c with
  | none => s
  | some r =>
    let slots := tgetD r.ready b []
    let notes := tgetD r.readyPieces b []
    let n := if all then slots.length else slots.length / 64 * 64
    let m := if all then notes.length else notes.length / 64 * 64
    let keep {α : Type} (l : List α) (t : Table (List α)) : Table (List α) := if l.isEmpty then tdel t b else tput t b l
    sendNotices pipe c b (slots.take n) (notes.take m)
      (modRun pipe c (fun r =>
        { r with ready := keep (slots.drop n) r.ready, readyPieces := keep (notes.drop m) r.readyPieces }) s)

/-- What is held of a batch is flushed: it becomes ready for its notice (R232). -/
def markReady (pipe c b : Nat) (s : State) : State :=
  modRun pipe c (fun r =>
    { r with
      ready := tput r.ready b (tgetD r.ready b [] ++ tgetD r.held b [])
      readyPieces := tput r.readyPieces b (tgetD r.readyPieces b [] ++ tgetD r.heldPieces b [])
      held := tdel r.held b
      heldPieces := tdel r.heldPieces b }) s

/-- SLOT_NOTICE_SEND: a flush has completed. Notices follow only ST_FLUSHED, once 64 entries have gathered or the coalescing time
is over; after another status the slots stay without one (R232, R239). -/
def slotNoticeSend (pipe c b status : Nat) (s : State) : State :=
  match (tget s.pipes pipe).bind fun p => tget p.consumers c with
  | none => s
  | some k =>
    if status = stFlushed then (if s.flushed k b then sendReady false pipe c b (markReady pipe c b s) else s)
    else modRun pipe c (fun r => { r with held := tdel r.held b, heldPieces := tdel r.heldPieces b }) s

/-- SLOT_NOTICE_SEND. -/
def execSlotNoticeSend (pipeline consumer batch flushStatus : Nat) (s : State) : Res :=
  live (whenB s.going (slotNoticeSend pipeline consumer batch flushStatus)) s

/-- NOTICE_COALESCE_TIMER: what is flushed and not yet noticed goes. -/
def execNoticeCoalesceTimer (pipeline consumer batch : Nat) (s : State) : Res :=
  live (whenB s.going (sendReady true pipeline consumer batch)) s

/-! ### DELIVER (R217) -/

/-- DELIVER gathers the finished sample's payload and metadata; SLOT_WRITE posts them. -/
def execDeliver (queue : Nat) (s : State) : Res :=
  live (runPure 0x0702 queue fun e _ _ _ => e.within (Config.plainWork 0x0702) (doneC (Config.plainWork 0x0702))) s

end Sys2Proof.Machine
end

