-- ==== Sys2Proof/Machine/Errors.lean ====
section
/-! DEFINITION. Reading the error rings (R381, R385), and the failures that stop the package (R383, R417). -/

namespace Sys2Proof.Machine

/-! ### ERROR_RING_READ (R385) -/

/-- Does a record come before another in a read of all dies: by TB_FIRST, die code, SEQ? -/
def ErrRec.before (a b : ErrRec) : Bool :=
  decide (a.tbFirst < b.tbFirst) || (a.tbFirst == b.tbFirst && (decide (a.die < b.die) || (a.die == b.die && decide (a.seq < b.seq))))

/-- Place a record in a sorted list. -/
def insertRec (r : ErrRec) : List ErrRec → List ErrRec
  | [] => [r]
  | x :: t => if r.before x then r :: x :: t else x :: insertRec r t

/-- The dies a read selects. -/
def diesOf (die : Nat) : List Nat := if die = 0xFF then List.range 12 else [die]

/-- The records of the selected dies, in the order in which they are written. -/
def State.ringRecords (s : State) (die : Nat) : List ErrRec :=
  if die = 0xFF then (((diesOf die).map fun d => (s.ringOf d).recs).flatten).foldr insertRec [] else (s.ringOf die).recs

/-- A record as read out: one with an uncorrectable word keeps only its SEQ (R381). -/
def ErrRec.readOut (r : ErrRec) (bad : List Nat) : Bytes :=
  if r.fullSeq ∈ bad then
    zeros 16 ++ putLE 4 r.fullSeq ++ zeros 8 ++ putLE 2 0x0601 ++ zeros 2 ++ putLE 1 clsContained ++ putLE 1 1 ++ zeros 30
  else r.bytes

/-- Take the records written out of a ring, reset its discard count and arm event 0x0003 again. -/
def emptyOut (gone : List ErrRec) (die : Nat) (s : State) : State :=
  let r := s.ringOf die
  { s with errs := tput s.errs die { r with
      recs := r.recs.filter fun x => !decide (x ∈ gone)
      discards := 0
      armed := true } }

/-- ERROR_RING_READ. `bad` names, by SEQ, the records that hold an uncorrectable word. -/
def errorRingRead (pcieOk : Bool) (bad : List Nat) (c : Cmd) (s : State) : State :=
  let die := c.p8 32
  let max := c.p16 34
  if (11 < die ∧ die ≠ 0xFF) ∨ max = 0 ∨ 768 < max ∨ 1 < c.p8 33 ∨ !c.minBuf (64 * max) then refuse c.pair c.cid stInvalidField s
  else
    let peek := bitOf (c.p8 33) 0
    let out := (s.ringRecords die).take max
    let all := ((diesOf die).map fun d => (s.ringOf d).recs.length).sum
    let left := if peek then all else all - out.length
    let discards := ((diesOf die).map fun d => (s.ringOf d).discards).sum
    replyData c pcieOk ((out.map fun r => r.readOut bad).flatten)
      (out.length + Nat.min left 0xFFFF * 2 ^ 16 + Nat.min discards 0xFFFF * 2 ^ 32)
      (fun t => if peek then t else (diesOf die).foldl (fun (u : State) (d : Nat) => emptyOut out d u) t) s

/-- ERROR_RING_READ. -/
def execErrorRingRead (pair cid : Nat) (pcieOk : Bool) (badWords : List Nat) (s : State) : Res :=
  live (runCmd 0x0500 pair cid (errorRingRead pcieOk badWords)) s

/-! ### PACKAGE_FATAL_ERROR (R383, R417) -/

/-- A spine, L-die or CP failure, found by a die: record, STATUS.FATAL, every port DISABLED. -/
def execPackageFatalError (die cause : Nat) (linkUp : Bool) (s : State) : Res :=
  live (whenB (cause == 0x0602 || cause == 0x0603 || cause == 0x0604) (fatalStop die cause linkUp)) s

end Sys2Proof.Machine
end

