-- ==== Sys2Proof/Machine/Media.lean ====
section
/-! DEFINITION. Media decode (R145, R152 to R167): IMAGE_DECODE, VIDEO_DECODE and AUDIO_DECODE. Headers are read
here, and RIFF WAVE as a whole; the coded data is what its standard says (Config). Which features, profiles and channels are
supported, how data begins, reconstruction, colour, clip choice, conversion, budgets, limits, and which damage is concealed where
are the manual's. -/

namespace Sys2Proof.Machine

/-! ### Common rules -/

/-- An error as a decode meets it: its code, whether it is concealable, its byte, its work unit (`noOffset` before the first), and
the work units spent when it is met. -/
structure Found where
  code : Nat
  concealable : Bool
  off : Nat
  unit : Nat
  work : Nat
  deriving DecidableEq, Repr

/-- The error code of a kind of damage (R164). -/
def DecodeFault.code : DecodeFault → Nat
  | .ended => 1
  | .malformed => 2
  | .entropy => 3
  | .checksum => 4
  | .missing => 5

/-- Damage in work unit `unit` of a sample of `length` bytes; `kinds` can be concealed, except in a header (R165). -/
def Damage.found (kinds : List DecodeFault) (length unit : Nat) (d : Damage) : Found where
  code := d.kind.code
  concealable := kinds.contains d.kind && !d.header
  off := min d.off length
  unit := unit
  work := unit + 1

/-- A big-endian field. -/
def fieldBE (bs : Bytes) (off n : Nat) : Nat := field (sub bs off n).reverse 0 n

/-- A decoder stops for an error that is not concealable: OVERSIZE for the limits and the output size, CORRUPT otherwise
(R157, R163, R164, R166). -/
def stopDecode (work code off : Nat) : Completion :=
  if code = 7 ∨ code = 8 then oversizeC work code off else corruptC work 6 code off

/-- DATA_BYTES beyond 268 435 456, or beyond 1 024 times LENGTH (R163). -/
def outputTooLarge (n length : Nat) : Bool := decide (268435456 < n) || decide (1024 * length < n)

/-- The 64-byte decode descriptor (R152), with the errors found and the work units concealed. `flags` without the concealed flag. -/
def decodeDesc (cls format layout matrix width height frames first flags units : Nat) (fs : List Found) (concealed : Nat)
    (data : Bytes) : Bytes :=
  fitTo 64 (putLE 1 cls ++ putLE 1 format ++ putLE 1 layout ++ putLE 1 matrix ++ putLE 4 width ++ putLE 4 height
    ++ putLE 4 frames ++ putLE 4 first ++ putLE 4 data.length ++ putLE 4 (crc32c data) ++ putLE 4 units ++ putLE 4 concealed
    ++ putLE 4 ((fs.head?.map Found.off).getD noOffset) ++ putLE 4 ((fs.head?.map Found.unit).getD noOffset)
    ++ putLE 1 ((fs.head?.map Found.code).getD 0) ++ putLE 1 (min fs.length 255) ++ putLE 2 (flags + if fs.isEmpty then 0 else 1))

/-- The error at which a decode stops (R166): under CORRUPT_MODE 1 the first, else the first that is not concealable. -/
def stopsAt (corrupt : Nat) (fs : List Found) : Option Found := fs.find? fun f => corrupt == 1 || !f.concealable

/-- How a decode ends that meets the errors `fs` in order (R162, R166): the budget, unless an error stops the decode within it; an
error that stops it, with the first error's code and byte, or, for OVERSIZE, its own; then CONCEAL_MAX. -/
def endDecode (e : Entry) (corrupt concealMax units : Nat) (fs : List Found) (concealed : Nat) (desc data : Bytes) : Completion :=
  match stopsAt corrupt fs with
  | some f =>
    let g := if f.code = 7 then f else fs.headD f
    e.within f.work (stopDecode f.work g.code g.off)
  | none =>
    e.within units (match fs with
      | [] => writeC units desc data
      | g :: _ =>
        if concealMax * units < concealed * 1000 then corruptC units 6 g.code g.off
        else { writeC units desc data with code := 2, cause := 6, errCode := g.code, errOff := g.off })

/-- A byte. -/
def byteOf (n : Nat) : Byte := BitVec.ofNat 8 n

/-- An integer clamped to 0 to 255. -/
def clampByte (n : Int) : Nat := if n < 0 then 0 else min n.toNat 255

/-! ### JPEG reconstruction (R154) -/

/-- K[x][u], the FP32 nearest to 0.5 × C(u) × cos((2x + 1)uπ / 16). -/
def idctK (x u : Nat) : F32 :=
  if u = 0 then fSqrtQ (Q.frac 1 8)
  else fConst (fxQ (fxCos (((2 * x + 1) * u % 32 : Nat) * fxPi / 16) / 2))

/-- Σ over 8 terms: each product rounded, each sum rounded, from 0.0 in ascending index. -/
def sum8 (f : Nat → F32) (g : Nat → F32) : F32 :=
  (List.range 8).foldl (fun (a : F32) (i : Nat) => fAdd a (fMul (f i) (g i))) fZero

/-- The 64 output samples of a block, row by row: two passes, then + 128.0, rounded to even and clamped. -/
def idct (coefs : List Int) : List Nat :=
  let fm (u v : Nat) : F32 := fOfInt (coefs.getD (8 * v + u) 0)
  let g : List F32 := (List.range 64).map fun i => sum8 (idctK (i / 8)) (fun u => fm u (i % 8))
  (List.range 64).map fun i =>
    let x := i % 8
    let y := i / 8
    (fClampInt Q.roundEven 0 255 (fAdd (sum8 (idctK y) (fun v => g.getD (8 * x + v) fZero)) (fOfNat 128))).toNat

/-- The frame header of a JPEG: its marker code, precision, lines, samples per line, and per component its sampling factors. -/
structure JpegFrame where
  sof : Nat
  precision : Nat
  lines : Nat
  width : Nat
  factors : List (Nat × Nat)
  deriving DecidableEq, Repr

/-- Find the frame header, from a byte offset on: its offset, or the error code and byte where the markers end. -/
def jpegSof (bs : Bytes) : Nat → Nat → Except (Nat × Nat) Nat
  | 0, _ => .error (1, bs.length)
  | fuel + 1, off =>
    let m := byteAt bs (off + 1)
    let len := fieldBE bs (off + 2) 2
    if bs.length < off + 4 then .error (1, bs.length)
    else if byteAt bs off ≠ 0xFF then .error (2, off)
    else if m = 0xFF then jpegSof bs fuel (off + 1)
    else if 0xC0 ≤ m ∧ m ≤ 0xCF ∧ m ≠ 0xC4 ∧ m ≠ 0xC8 ∧ m ≠ 0xCC then .ok off
    else if m < 0xC0 ∨ (0xD0 ≤ m ∧ m ≤ 0xDA) ∨ len < 2 then .error (2, off)
    else jpegSof bs fuel (off + 2 + len)

/-- Read the frame header (R145, R153): SOI, then markers up to it. Refused (code 6): every process but baseline, extended
sequential and progressive Huffman, a precision other than 8, components other than 1 or 3, sampling factors beyond 1 to 2. -/
def jpegFrame (bs : Bytes) : Except (Nat × Nat) JpegFrame :=
  if sub bs 0 2 ≠ [0xFF, 0xD8] then .error (2, 0)
  else match jpegSof bs bs.length 2 with
    | .error x => .error x
    | .ok off =>
      let n := byteAt bs (off + 9)
      let f : JpegFrame := {
        sof := byteAt bs (off + 1), precision := byteAt bs (off + 4), lines := fieldBE bs (off + 5) 2,
        width := fieldBE bs (off + 7) 2,
        factors := (List.range n).map fun i => (byteAt bs (off + 11 + 3 * i) / 16, byteAt bs (off + 11 + 3 * i) % 16) }
      if bs.length < off + 10 + 3 * n then .error (1, bs.length)
      else if 0xC2 < f.sof ∨ f.precision ≠ 8 ∨ (n ≠ 1 ∧ n ≠ 3) ∨ f.factors.any (fun p => 2 < p.1 || 2 < p.2) then
        .error (6, noOffset)
      else if f.width = 0 ∨ fieldBE bs (off + 2) 2 ≠ 8 + 3 * n ∨ f.factors.any (fun p => p.1 == 0 || p.2 == 0) then
        .error (2, off + 2)
      else .ok f

/-- A JPEG: its frame size and components, each with its sampling factors, and its scans. -/
structure Jpeg where
  width : Nat
  height : Nat
  comps : List (Nat × Nat × JpegComp)
  scans : JpegScan
  deriving DecidableEq, Repr

/-- A JPEG of a frame header and its scans; 0 lines are those of a DNL segment. -/
def jpegOf (f : JpegFrame) (j : JpegScan) : Jpeg where
  width := f.width
  height := if f.lines = 0 then j.lines else f.lines
  comps := f.factors.zipIdx.map fun p => (p.1.1, p.1.2, j.comps.getD p.2 { quant := [], blocks := [] })
  scans := j

/-- Largest sampling factors of a JPEG's components. -/
def Jpeg.maxH (j : Jpeg) : Nat := (j.comps.map fun c => c.1).foldl max 1
/-- The same, vertical. -/
def Jpeg.maxV (j : Jpeg) : Nat := (j.comps.map fun c => c.2.1).foldl max 1

/-- Samples of a component across, by its horizontal factor: its share of the width. -/
def Jpeg.compW (j : Jpeg) (h : Nat) : Nat := ceilDiv (j.width * h) j.maxH
/-- The same, down. -/
def Jpeg.compH (j : Jpeg) (v : Nat) : Nat := ceilDiv (j.height * v) j.maxV

/-- Work units of a JPEG: 64 samples of one component each, before upsampling. -/
def Jpeg.units (j : Jpeg) : Nat := (j.comps.map fun c => ceilDiv (j.compW c.1 * j.compH c.2.1) 64).sum

/-- MCUs of an interleaved scan across. -/
def Jpeg.mcusAcross (j : Jpeg) : Nat := ceilDiv j.width (8 * j.maxH)

/-- The MCU of a scan that a pixel lies in; in a scan of one component an MCU is one block. -/
def Jpeg.mcuAt (j : Jpeg) (scan : List Nat) (px py : Nat) : Nat :=
  match scan with
  | [c] =>
    let f := j.comps.getD c (1, 1, { quant := [], blocks := [] })
    py * f.2.1 / j.maxV / 8 * ceilDiv (j.compW f.1) 8 + px * f.1 / j.maxH / 8
  | _ => py / (8 * j.maxV) * j.mcusAcross + px / (8 * j.maxH)

/-- Damage inside a scan (R165). -/
abbrev jpegKinds : List DecodeFault := [.ended, .malformed, .entropy]

/-- Does an error make a pixel grey (R165)? From its MCU to the next restart marker, or to the end of the image. -/
def Jpeg.grey (j : Jpeg) (px py : Nat) : Bool :=
  j.scans.damage.any fun d =>
    let m := j.mcuAt d.scan px py
    decide (d.mcu ≤ m) && match d.restart with
      | some k => decide (m < k * j.scans.restart)
      | none => true

/-- The work unit of an error: the first of the MCU, counted in interleaved order, where it lies. -/
def Jpeg.unitOf (j : Jpeg) (d : JpegDamage) : Nat :=
  let per := (j.comps.map fun c => c.1 * c.2.1).sum
  let m := match d.scan, j.comps with
    | [_], [_] => d.mcu
    | [c], _ =>
      let f := j.comps.getD c (1, 1, { quant := [], blocks := [] })
      let w := max 1 (ceilDiv (j.compW f.1) 8)
      (d.mcu / w / max 1 f.2.1 * j.mcusAcross + d.mcu % w / max 1 f.1) * per
    | _, _ => d.mcu * per
  min m (j.units - 1)

/-- Work units of which damage took the output away: the grey samples of each component, by 64. -/
def Jpeg.concealed (j : Jpeg) : Nat :=
  (j.comps.map fun c =>
    let w := j.compW c.1
    ceilDiv ((List.range (w * j.compH c.2.1)).countP fun i => j.grey (i % w * j.maxH / c.1) (i / w * j.maxV / c.2.1)) 64).sum

/-- Multiply the decoded integers of a block by the quantization table. -/
def dequantize (quant : List Nat) (block : List Int) : List Int :=
  block.zipIdx.map fun p => p.1 * (quant.getD p.2 0 : Nat)

/-- The components' reconstructed blocks, with the blocks across. -/
def Jpeg.planes (j : Jpeg) : List (Nat × Nat × Nat × List (List Nat)) :=
  j.comps.map fun c => (ceilDiv (j.compW c.1) 8, c.1, c.2.1, c.2.2.blocks.map fun b => idct (dequantize c.2.2.quant b))

/-- The component samples of a pixel, chroma replicated over its luma area. -/
def Jpeg.pixel (j : Jpeg) (planes : List (Nat × Nat × Nat × List (List Nat))) (px py : Nat) : List Nat :=
  planes.map fun p =>
    let x := px * p.2.1 / j.maxH
    let y := py * p.2.2.1 / j.maxV
    (p.2.2.2.getD (y / 8 * p.1 + x / 8) []).getD (y % 8 * 8 + x % 8) 0

/-! ### Colour (R155) -/

/-- JPEG YCbCr to RGB. -/
def ycbcrRgb (y cb cr : Int) : List Nat :=
  [clampByte (y + (91881 * (cr - 128) + 32768).fdiv 65536),
    clampByte (y + (-22554 * (cb - 128) - 46802 * (cr - 128) + 32768).fdiv 65536),
    clampByte (y + (116130 * (cb - 128) + 32768).fdiv 65536)]

/-- WebP limited-range YUV to RGB. -/
def webpRgb (y u v : Int) : List Nat :=
  [clampByte ((76309 * (y - 16) + 104597 * (v - 128) + 32768).fdiv 65536),
    clampByte ((76309 * (y - 16) - 25624 * (u - 128) - 53279 * (v - 128) + 32768).fdiv 65536),
    clampByte ((76309 * (y - 16) + 132201 * (u - 128) + 32768).fdiv 65536)]

/-- GRAY8 of an RGB pixel. -/
def grayOf (rgb : List Nat) : Nat :=
  (19595 * rgb.getD 0 0 + 38470 * rgb.getD 1 0 + 7471 * rgb.getD 2 0 + 32768) / 65536

/-- A pixel in the output layout: RGB8, RGBA8 or GRAY8. -/
def layPixel (out : Nat) (rgb : List Nat) (alpha : Nat) : List Nat :=
  if out = 0 then rgb else if out = 1 then rgb ++ [alpha] else [grayOf rgb]

/-- Mean grey in the output layout (R165). -/
def greyPixel (out : Nat) : List Nat := if out = 0 then [128, 128, 128] else if out = 1 then [128, 128, 128, 255] else [128]

/-- Channels of an output layout. -/
def layoutChannels (out : Nat) : Nat := if out = 0 then 3 else if out = 1 then 4 else 1

/-- A PNG sample in 8 bits. -/
def pngByte (depth v : Nat) : Nat :=
  if depth = 16 then (v * 255 + 32767) / 65535 else if depth < 8 then v * (255 / (2 ^ depth - 1)) else v

/-! ### PNG headers (R153) -/

/-- The IHDR of a PNG: sample depth, colour type and interlace method. -/
structure PngHead where
  width : Nat
  height : Nat
  depth : Nat
  colour : Nat
  adam7 : Bool
  deriving DecidableEq, Repr

/-- Samples of a pixel by colour type; 0 for none. -/
def pngChannels (colour : Nat) : Nat := [1, 0, 3, 1, 2, 0, 4].getD colour 0

/-- Depths of a colour type. -/
def pngDepths (colour : Nat) : List Nat :=
  if colour = 0 then [1, 2, 4, 8, 16] else if colour = 3 then [1, 2, 4, 8] else if pngChannels colour = 0 then [] else [8, 16]

/-- Read the signature and the IHDR (R145). -/
def pngHead (bs : Bytes) : Except (Nat × Nat) PngHead :=
  let h : PngHead := {
    width := fieldBE bs 16 4, height := fieldBE bs 20 4, depth := byteAt bs 24, colour := byteAt bs 25, adam7 := byteAt bs 28 == 1 }
  if sub bs 0 8 ≠ [0x89, 0x50, 0x4E, 0x47, 0x0D, 0x0A, 0x1A, 0x0A] then .error (2, 0)
  else if bs.length < 33 then .error (1, bs.length)
  else if fieldBE bs 8 4 ≠ 13 ∨ sub bs 12 4 ≠ ascii "IHDR" then .error (2, 8)
  else if fieldBE bs 29 4 ≠ crc32 (sub bs 12 17) then .error (4, 29)
  else if h.width = 0 ∨ h.height = 0 ∨ !(pngDepths h.colour).contains h.depth ∨ byteAt bs 26 ≠ 0 ∨ byteAt bs 27 ≠ 0
      ∨ 1 < byteAt bs 28 then .error (2, 16)
  else .ok h

/-- The passes of a PNG: first column and row, and steps. -/
def PngHead.passes (h : PngHead) : List (Nat × Nat × Nat × Nat) :=
  if h.adam7 then [(0, 0, 8, 8), (4, 0, 8, 8), (0, 4, 4, 8), (2, 0, 4, 4), (0, 2, 2, 4), (1, 0, 2, 2), (0, 1, 1, 2)]
  else [(0, 0, 1, 1)]

/-- Rows of a pass. -/
def PngHead.rows (h : PngHead) (p : Nat × Nat × Nat × Nat) : Nat := ceilDiv (h.height - p.2.1) p.2.2.2

/-- Bytes of an unfiltered row of a pass. -/
def PngHead.rowBytes (h : PngHead) (p : Nat × Nat × Nat × Nat) : Nat :=
  ceilDiv (ceilDiv (h.width - p.1) p.2.2.1 * h.depth * pngChannels h.colour) 8

/-- Work units of a PNG: 64 bytes of unfiltered row data, per pass. -/
def PngHead.units (h : PngHead) : Nat := (h.passes.map fun p => ceilDiv (h.rows p * h.rowBytes p) 64).sum

/-- The first image row that damage feeds: its own, or the first of a later pass. -/
def PngHead.rowOf (h : PngHead) (d : PngDamage) : Nat :=
  let p := h.passes.getD d.pass (0, 0, 1, 1)
  (((h.passes.drop (d.pass + 1)).filter fun q => decide (q.1 < h.width)).map fun q => q.2.1).foldl min (p.2.1 + d.row * p.2.2.2)

/-- The work unit of an error. -/
def PngHead.unitOf (h : PngHead) (d : PngDamage) : Nat :=
  min (((h.passes.take d.pass).map fun p => ceilDiv (h.rows p * h.rowBytes p) 64).sum
    + d.row * h.rowBytes (h.passes.getD d.pass (0, 0, 1, 1)) / 64) (h.units - 1)

/-- Work units of the rows from `r` on, in every pass. -/
def PngHead.concealed (h : PngHead) (r : Nat) : Nat :=
  (h.passes.map fun p =>
    ceilDiv (((List.range (h.rows p)).countP fun i => decide (r ≤ p.2.1 + i * p.2.2.2)) * h.rowBytes p) 64).sum

/-- A PNG pixel in RGB and its alpha. -/
def pngPixel (h : PngHead) (p : PngScan) (c : List Nat) : List Nat × Nat :=
  if h.colour = 3 then
    let i := c.headD 0
    let e := p.palette.getD i (0, 0, 0)
    ([e.1, e.2.1, e.2.2], (p.trns.getD []).getD i 255)
  else
    let b := c.map (pngByte h.depth)
    let grey := h.colour == 0 || h.colour == 4
    (if grey then [b.headD 0, b.headD 0, b.headD 0] else b.take 3,
      if 4 ≤ h.colour then b.getLastD 255 else if p.trns = some c then 0 else 255)

/-! ### WebP headers (R153) -/

/-- Where a RIFF chunk's data begins and how many bytes it claims: the first of a name, from a byte offset on. -/
def riffChunk (name : String) (bs : Bytes) : Nat → Nat → Option (Nat × Nat)
  | 0, _ => none
  | fuel + 1, off =>
    if bs.length < off + 8 then none
    else if sub bs off 4 = ascii name then some (off + 8, field bs (off + 4) 4)
    else riffChunk name bs fuel (off + 8 + roundUp (field bs (off + 4) 4) 2)

/-- Read a WebP's headers (R145): width, height, and whether it has an ALPH chunk. VP8L and animation are refused. -/
def webpHead (bs : Bytes) : Except (Nat × Nat) (Nat × Nat × Bool) :=
  let chunk (name : String) := riffChunk name bs bs.length 12
  if sub bs 0 4 ≠ ascii "RIFF" ∨ sub bs 8 4 ≠ ascii "WEBP" then .error (2, 0)
  else if (chunk "VP8L").isSome ∨ (chunk "ANIM").isSome ∨ (chunk "ANMF").isSome then .error (6, noOffset)
  else match chunk "VP8 " with
    | none => .error (2, 12)
    | some (o, _) =>
      if bs.length < o + 10 then .error (1, bs.length)
      else if bitOf (byteAt bs o) 0 ∨ sub bs (o + 3) 3 ≠ [0x9D, 0x01, 0x2A] ∨ field bs (o + 6) 2 % 2 ^ 14 = 0
          ∨ field bs (o + 8) 2 % 2 ^ 14 = 0 then .error (2, o)
      else .ok (field bs (o + 6) 2 % 2 ^ 14, field bs (o + 8) 2 % 2 ^ 14, (chunk "ALPH").isSome)

/-! ### IMAGE_DECODE -/

/-- What an image decoder makes of a sample: the error that its headers end with (code and byte), size, work units, errors in
order, work units concealed, whether the image had alpha, whether its depth was reduced, whether its data holds more than the
image, and its pixels in the output layout, none where concealed. -/
structure Picture where
  bad : Option (Nat × Nat)
  width : Nat
  height : Nat
  units : Nat
  found : List Found
  concealed : Nat
  alpha : Bool
  reduced : Bool
  tooMany : Bool
  pixel : List (Option (List Nat))
  deriving DecidableEq, Repr

/-- A picture that ends with its headers. -/
def badPicture (x : Nat × Nat) : Picture where
  bad := some x
  width := 0
  height := 0
  units := 0
  found := []
  concealed := 0
  alpha := false
  reduced := false
  tooMany := false
  pixel := []

/-- The pixels of an image of `w` across and `h` down. -/
def pixelsOf (w h : Nat) (f : Nat → Nat → Option (List Nat)) : List (Option (List Nat)) :=
  (List.range (w * h)).map fun i => f (i % w) (i / w)

/-- A JPEG as a picture; one decoded to GRAY8 takes its Y samples. -/
def jpegPicture (out : Nat) (bs : Bytes) : Picture :=
  match jpegFrame bs with
  | .error x => badPicture x
  | .ok f =>
    let j := jpegOf f (Config.jpegScan bs)
    let ps := j.planes
    let pix (px py : Nat) : Option (List Nat) :=
      if j.grey px py then none
      else
        let c := j.pixel ps px py
        let rgb := match c with
          | [y, cb, cr] => ycbcrRgb y cb cr
          | _ => [c.headD 0, c.headD 0, c.headD 0]
        some (if out = 2 then [c.headD 0] else layPixel out rgb 255)
    { bad := none, width := j.width, height := j.height, units := j.units,
      found := j.scans.damage.map fun d => d.err.found jpegKinds bs.length (j.unitOf d),
      concealed := j.concealed, alpha := false, reduced := false, tooMany := false, pixel := pixelsOf j.width j.height pix }

/-- A PNG as a picture: damage takes every row from the first that it feeds on. -/
def pngPicture (out : Nat) (bs : Bytes) : Picture :=
  match pngHead bs with
  | .error x => badPicture x
  | .ok h =>
    let p := Config.pngScan bs
    let from_ := (p.damage.map h.rowOf).foldl min h.height
    let pix (px py : Nat) : Option (List Nat) :=
      if from_ ≤ py then none
      else
        let c := pngPixel h p (p.pixels.getD (py * h.width + px) [])
        some (layPixel out c.1 c.2)
    { bad := none, width := h.width, height := h.height, units := h.units,
      found := p.damage.map fun d => d.err.found [.ended, .malformed, .entropy, .checksum] bs.length (h.unitOf d),
      concealed := h.concealed from_, alpha := decide (4 ≤ h.colour) || p.trns.isSome, reduced := h.depth == 16,
      tooMany := decide (h.width * h.height < p.pixels.length), pixel := pixelsOf h.width h.height pix }

/-- A WebP as a picture: its 4:2:0 planes count its work units. Damage in a partition takes every macroblock from its own on; damage
to the alpha makes the image opaque. -/
def webpPicture (out : Nat) (bs : Bytes) : Picture :=
  match webpHead bs with
  | .error x => badPicture x
  | .ok (w, h, alpha) =>
    let v := Config.webpScan bs
    let across := ceilDiv w 16
    let chroma := ceilDiv w 2 * ceilDiv h 2
    let units := ceilDiv (w * h) 64 + 2 * ceilDiv chroma 64
    let from_ := ((v.damage.filter fun d => !d.alpha).map WebpDamage.block).foldl min (across * ceilDiv h 16)
    let lost (px py : Nat) : Bool := decide (from_ ≤ py / 16 * across + px / 16)
    let opaque_ := !alpha || v.damage.any WebpDamage.alpha
    let pix (px py : Nat) : Option (List Nat) :=
      if lost px py then none
      else
        let c := v.pixels.getD (py * w + px) (0, 0, 0)
        some (layPixel out (webpRgb c.1 c.2.1 c.2.2) (if opaque_ then 255 else v.alphas.getD (py * w + px) 255))
    let luma := (List.range (w * h)).countP fun i => lost (i % w) (i / w)
    let cw := ceilDiv w 2
    let chromaLost := (List.range chroma).countP fun i => lost (2 * (i % cw)) (2 * (i / cw))
    { bad := none, width := w, height := h, units := units,
      found := v.damage.map fun d =>
        d.err.found (if d.alpha then [.ended, .malformed, .entropy, .checksum] else [.ended, .entropy]) bs.length
          (if d.alpha then 0 else min (6 * d.block) (units - 1)),
      concealed := ceilDiv luma 64 + 2 * ceilDiv chromaLost 64, alpha := alpha, reduced := false,
      tooMany := decide (w * h < v.pixels.length), pixel := pixelsOf w h pix }

/-- A field that is 0 for its largest value. -/
def orMax (v m : Nat) : Nat := if v = 0 then m else v

/-- IMAGE_DECODE on a sample (R145, R153, R156, R163). -/
def imageDecode (e : Entry) (p : Pipeline) (x : Sample) (_ : State) : Completion :=
  let b := p.decl.paramsAt e.instance_
  let out := if b.isEmpty then 0 else byteAt b 0
  let concealMax := if b.isEmpty then 1000 else field b 2 2
  let format := byteAt x.slate 9
  if x.cls ≠ 1 ∨ format = 0 ∨ 3 < format then corruptC 0 6 6 noOffset
  else
    let g := if format = 1 then jpegPicture out x.data
      else if format = 2 then pngPicture out x.data else webpPicture out x.data
    match g.bad with
    | some (code, off) => stopDecode 0 code off
    | none =>
      if orMax (field b 4 2) 16384 < g.width ∨ orMax (field b 6 2) 16384 < g.height then oversizeC 0 7 noOffset
      else if outputTooLarge (g.width * g.height * layoutChannels out) x.data.length then oversizeC 0 8 noOffset
      else
        let data := (g.pixel.map fun o => (o.getD (greyPixel out)).map byteOf).flatten
        let flags := (if g.alpha && out != 1 then 4 else 0) + (if g.reduced then 8 else 0)
        let more : List Found :=
          if g.tooMany then [{ code := 7, concealable := false, off := noOffset, unit := g.units, work := g.units }] else []
        endDecode e p.decl.corrupt concealMax g.units (g.found ++ more) g.concealed
          (decodeDesc 1 format out 0 g.width g.height 1 0 flags g.units g.found g.concealed data) data

/-- IMAGE_DECODE. -/
def execImageDecode (queue : Nat) (s : State) : Res := live (runPure 0x0201 queue imageDecode) s

/-! ### VIDEO_DECODE -/

/-- The first index of a clip or segment of `span` among `n` (R158, R161), with word 0 of draw stream 4. -/
def startIndex (mode n span : Nat) (x : Sample) (d : Decl) : Nat :=
  if n < span then 0
  else match mode with
    | 0 => drawBelow (DrawKey.word { seed := d.seed, dataset := x.dataset, index := x.index, epoch := x.epoch } 4 0)
        (n - span + 1)
    | 1 => 0
    | _ => (n - span) / 2

/-- An 8-bit sample of a stream's depth (R157). -/
def videoByte (depth v : Nat) : Nat := if depth = 10 then min ((v + 2) / 4) 255 else v

/-- Bytes of one output frame (R152). -/
def frameBytes (w h : Nat) : Nat := w * h + 2 * (ceilDiv w 2 * ceilDiv h 2)

/-- Does a video sample begin as its FORMAT requires (R145)? A start code; a temporal delimiter with its size. -/
def videoBegins (format : Nat) (bs : Bytes) : Bool :=
  if format = 3 then sub bs 0 2 == [0x12, 0x00]
  else decide (2 ≤ (bs.takeWhile fun b => b == 0).length) && (bs.dropWhile fun b => b == 0).headD 0 == 1

/-- The profile table of R157: frame coding, 4:2:0, a listed profile at a listed depth, and level 5.1 or below. -/
def VideoHead.supported (format : Nat) (h : VideoHead) : Bool :=
  let eight := h.depth == 8
  let ten := h.depth == 10
  !h.field && h.chroma == 1 && decide (h.level ≤ 51) &&
    (if format = 1 then [.constrainedBaseline, .main, .high].contains h.profile && eight
     else if format = 2 then (h.profile == .main && eight) || (h.profile == .main10 && (eight || ten))
     else h.profile == .main && (eight || ten))

/-- MATRIX (R152) of a stream's colour description. -/
def VideoHead.matrix (h : VideoHead) : Nat :=
  (if h.coeffs = 5 ∨ h.coeffs = 6 then 1 else if h.coeffs = 1 then 2 else if h.coeffs = 9 then 3 else 0)
    + (if h.full then 128 else 0)

/-- Frames in display order (R158). -/
def VideoHead.frames (h : VideoHead) : Nat := h.order.countP fun f => f.display.isSome

/-- Where decoding begins for a first display index (R158): the last random access point at or before it, in decoding order. -/
def VideoHead.accessPoint (h : VideoHead) (first : Nat) : Option Nat :=
  ((h.order.zipIdx.filter fun p => p.1.random && (match p.1.display with
    | some d => decide (d ≤ first)
    | none => false)).map Prod.snd).getLast?

/-- Where decoding ends: after the frames of display indexes `first` to `last`. -/
def VideoHead.decodeEnd (h : VideoHead) (first last : Nat) : Nat :=
  ((h.order.zipIdx.filter fun p => match p.1.display with
    | some d => decide (first ≤ d) && decide (d ≤ last)
    | none => false).map fun p => p.2 + 1).foldl max 0

/-- Does damage of a frame make a luma sample grey (R165)? From the error to the end of the slice or tile. -/
def VideoPicture.grey (block : Nat) (v : VideoPicture) (x y : Nat) : Bool :=
  let b := y / max 1 block * ceilDiv v.width (max 1 block) + x / max 1 block
  v.damage.any fun d => (d.area.drop d.place).contains b

/-- The bytes of a frame: Y, Cb and Cr planes, damage filled mean grey. -/
def VideoPicture.bytes (block depth : Nat) (v : VideoPicture) : Bytes :=
  let cw := ceilDiv v.width 2
  let luma := v.width * v.height
  let chroma := cw * ceilDiv v.height 2
  (List.range (luma + 2 * chroma)).map fun i =>
    let j := (i - luma) % max 1 chroma
    let lost := if i < luma then v.grey block (i % v.width) (i / v.width) else v.grey block (2 * (j % cw)) (2 * (j / cw))
    byteOf (if lost then 128 else videoByte depth (v.samples.getD i 0))

/-- Work units of a frame of which damage took the output away: its grey luma samples, by 256. -/
def VideoPicture.concealed (block : Nat) (v : VideoPicture) : Nat :=
  ceilDiv ((List.range (v.width * v.height)).countP fun i => v.grey block (i % v.width) (i / v.width)) 256

/-- The errors of the frames that a clip decodes, in decoding order: a frame of another size stops the decode with code 7 (R163),
else the damage of its slices or tiles. -/
def videoFound (h : VideoHead) (length : Nat) (vs : List VideoPicture) : List Found :=
  let per := ceilDiv (h.width * h.height) 256
  (vs.zipIdx.map fun p =>
    let v := p.1
    let base := h.units + p.2 * per
    if v.width ≠ h.width ∨ v.height ≠ h.height then
      [{ code := 7, concealable := false, off := noOffset, unit := base, work := base }]
    else v.damage.map fun d =>
      d.err.found [.ended, .malformed, .entropy] length (base + min (d.area.getD d.place 0 * (h.block * h.block) / 256) (per - 1))).flatten

/-- VIDEO_DECODE on a sample (R145, R157, R158, R163). The parse that counts the frames comes before the decode, and its units
count. -/
def videoDecode (e : Entry) (p : Pipeline) (x : Sample) (_ : State) : Completion :=
  let b := p.decl.paramsAt e.instance_
  let clip := byteAt b 0
  let step := byteAt b 1
  let format := byteAt x.slate 9
  let h := Config.videoHead format x.data
  if x.cls ≠ 4 ∨ format = 0 ∨ 3 < format then corruptC 0 6 6 noOffset
  else if !videoBegins format x.data then corruptC 0 6 2 0
  else match h.bad with
    | some d => e.within h.units (corruptC h.units 6 d.kind.code (min d.off x.data.length))
    | none =>
      if !h.supported format then corruptC 0 6 6 noOffset
      else if 8912896 < h.width * h.height ∨ 8192 < h.width ∨ 8192 < h.height then oversizeC 0 7 noOffset
      else if e.budget ≠ 0 ∧ e.budget < h.units then oversizeC e.budget 9 noOffset
      else if outputTooLarge (clip * frameBytes h.width h.height) x.data.length then oversizeC h.units 8 noOffset
      else if h.frames = 0 then corruptC h.units 6 1 x.data.length
      else
        let span := (clip - 1) * step + 1
        let first := startIndex (byteAt b 2) h.frames span x p.decl
        let last := min (first + span - 1) (h.frames - 1)
        match h.accessPoint first with
        | none => corruptC h.units 6 5 (Config.limitOffset 0x0202 5 b (x.slate ++ x.data) % 2 ^ 32)
        | some from_ =>
          let n := h.decodeEnd first last - from_
          let vs := (Config.videoPictures format x.data from_ n).take n
          let units := h.units + ceilDiv (h.width * h.height) 256 * n
          let fs := videoFound h x.data.length vs
          let concealed := (vs.map (VideoPicture.concealed h.block)).sum
          let pic (i : Nat) : Bytes :=
            match (((h.order.drop from_).zip vs).find? fun v => v.1.display == some (min (first + i * step) last)) with
            | some v => v.2.bytes h.block h.depth
            | none => []
          let data := ((List.range clip).map pic).flatten
          let flags := (if h.frames < span then 2 else 0) + (if h.depth = 10 then 8 else 0)
          endDecode e p.decl.corrupt (field b 4 2) units fs concealed
            (decodeDesc 4 format 3 h.matrix h.width h.height clip first flags units fs concealed data) data

/-- VIDEO_DECODE. -/
def execVideoDecode (queue : Nat) (s : State) : Res := live (runPure 0x0202 queue videoDecode) s

/-! ### RIFF WAVE (R159) -/

/-- Bytes 2 to 15 of the sub-format identifiers that stand for a format tag. -/
def waveGuid : Bytes := [0x00, 0x00, 0x00, 0x00, 0x10, 0x00, 0x80, 0x00, 0x00, 0xAA, 0x00, 0x38, 0x9B, 0x71]

/-- An audio stream: the error that its headers end with (code and byte), rate, channels, per sample frame its channels' FP32
values, and errors. -/
structure Pcm where
  bad : Option (Nat × Nat)
  rate : Nat
  channels : Nat
  frames : List (List F32)
  damage : List AudioDamage
  deriving DecidableEq, Repr

/-- An audio stream that stops at its header. -/
def badPcm (code off : Nat) : Pcm := { bad := some (code, off), rate := 0, channels := 0, frames := [], damage := [] }

/-- An integer sample of b bits as FP32: v × 2^−(b − 1) (R160). -/
def pcmF32 (bits : Nat) (v : Int) : F32 := fConst ⟨v, 2 ^ (bits - 1)⟩

/-- A WAVE file. Data that ends early is completed with silence (R165). -/
def wavePcm (bs : Bytes) : Pcm :=
  if sub bs 0 4 ≠ ascii "RIFF" ∨ sub bs 8 4 ≠ ascii "WAVE" then badPcm 2 0
  else match riffChunk "fmt " bs bs.length 12, riffChunk "data" bs bs.length 12 with
    | some f, some d =>
      let ext := field bs f.1 2 == 0xFFFE
      let tag := if ext && sub bs (f.1 + 26) 14 == waveGuid then field bs (f.1 + 24) 2 else field bs f.1 2
      let ch := field bs (f.1 + 2) 2
      let bits := field bs (f.1 + 14) 2
      let w := bits / 8
      if f.2 < 16 ∨ (ext && decide (f.2 < 40)) then badPcm 2 f.1
      else if !((tag == 1 && (bits == 16 || bits == 24 || bits == 32)) || (tag == 3 && bits == 32)) ∨ ch = 0 ∨ 8 < ch then
        badPcm 6 noOffset
      else
        let total := d.2 / (ch * w)
        let got := min total ((bs.length - d.1) / (ch * w))
        let one (i j : Nat) : F32 :=
          let o := d.1 + (i * ch + j) * w
          if tag = 3 then f32At bs o else pcmF32 bits (signedOf bits (field bs o w))
        { bad := none, rate := field bs (f.1 + 4) 4, channels := ch,
          frames := ((List.range got).map fun i => (List.range ch).map (one i)) ++ List.replicate (total - got) [],
          damage := if got < total then
              [{ err := { kind := .ended, header := false, off := bs.length }, first := got, count := total - got }]
            else [] }
    | none, _ => badPcm 2 12
    | _, none => badPcm 2 12

/-- A FLAC stream (R159, R160): rate, channels and sample size of its STREAMINFO. -/
def flacPcm (bs : Bytes) : Pcm :=
  let v := fieldBE bs 18 4
  let bits := v / 2 ^ 4 % 2 ^ 5 + 1
  let a := Config.flacScan bs
  if sub bs 0 4 ≠ ascii "fLaC" then badPcm 2 0
  else if bs.length < 42 then badPcm 1 bs.length
  else if byteAt bs 4 % 128 ≠ 0 ∨ fieldBE bs 5 3 ≠ 34 ∨ bits < 4 ∨ v / 2 ^ 12 = 0 then badPcm 2 4
  else { bad := none, rate := v / 2 ^ 12, channels := v / 2 ^ 9 % 8 + 1, damage := a.damage,
         frames := a.frames.map fun c => c.map (pcmF32 bits) }

/-- An Opus stream in Ogg (R159, R160): mapping family 0, mono or stereo, each output sample v × 2^−15. -/
def opusPcm (rate : Nat) (bs : Bytes) : Pcm :=
  let o := 27 + byteAt bs 26
  let ch := byteAt bs (o + 9)
  let a := Config.opusScan rate bs
  if sub bs 0 4 ≠ ascii "OggS" then badPcm 2 0
  else if bs.length < o + 19 then badPcm 1 bs.length
  else if sub bs o 8 ≠ ascii "OpusHead" then badPcm 2 o
  else if byteAt bs (o + 18) ≠ 0 ∨ ch = 0 ∨ 2 < ch then badPcm 6 noOffset
  else { bad := none, rate := rate, channels := ch, damage := a.damage, frames := a.frames.map fun c => c.map (pcmF32 16) }

/-- Is a sample frame in damaged data? -/
def silentAt (ds : List AudioDamage) (i : Nat) : Bool := ds.any fun d => decide (d.first ≤ i) && decide (i < d.first + d.count)

/-- Work units, of those decoded up to sample frame `n`, that hold damage. -/
def audioConcealed (ds : List AudioDamage) (n : Nat) : Nat :=
  (List.range (ceilDiv n 1024)).countP fun k =>
    ds.any fun d => decide (d.first < min n (1024 * (k + 1))) && decide (1024 * k < d.first + d.count) && decide (0 < d.count)

/-! ### AUDIO_DECODE -/

/-- Channels of the output (R160): the mix of all, a duplicate, or the stereo pair. -/
def mixFrame (channels : Nat) (c : List F32) : List F32 :=
  if channels = 1 then [fDiv (c.tail.foldl fAdd (c.headD fZero)) (fOfNat c.length)]
  else match c with
    | [m] => [m, m]
    | _ => c

/-- Output rates of the Opus decoder (R160). -/
def opusRate (r : Nat) : Bool := r == 8000 || r == 12000 || r == 16000 || r == 24000 || r == 48000

/-- AUDIO_DECODE on a sample (R159 to R163): from the start of the stream through the last frame of the segment. -/
def audioDecode (e : Entry) (p : Pipeline) (x : Sample) (_ : State) : Completion :=
  let b := p.decl.paramsAt e.instance_
  let rate := field b 0 4
  let seg := field b 4 4
  let ch := byteAt b 8
  let format := byteAt x.slate 9
  if x.cls ≠ 3 ∨ format = 0 ∨ 3 < format ∨ (format = 3 ∧ !opusRate rate) then corruptC 0 6 6 noOffset
  else
    let a := if format = 1 then wavePcm x.data else if format = 2 then flacPcm x.data else opusPcm rate x.data
    match a.bad with
    | some (code, off) => stopDecode 0 code off
    | none =>
      if (format ≠ 3 ∧ a.rate ≠ rate) ∨ (ch = 2 ∧ 3 ≤ a.channels) then corruptC 0 6 6 noOffset
      else if outputTooLarge (seg * ch * 4) x.data.length then oversizeC 0 8 noOffset
      else
        let total := a.frames.length
        let first := startIndex (byteAt b 9) total seg x p.decl
        let upto := min (first + seg) total
        let units := ceilDiv upto 1024
        let ds := a.damage.filter fun d => decide (d.first < upto)
        let fs := ds.map fun d => d.err.found [.ended, .malformed, .entropy, .checksum] x.data.length (d.first / 1024)
        let concealed := audioConcealed ds upto
        let one (i : Nat) : List F32 :=
          if total ≤ first + i ∨ silentAt ds (first + i) then List.replicate ch fZero
          else mixFrame ch (a.frames.getD (first + i) [])
        let data := f32Bytes ((List.range seg).map one).flatten
        endDecode e p.decl.corrupt (field b 10 2) units fs concealed
          (decodeDesc 3 format 4 0 ch rate seg first (if total < seg then 2 else 0) units fs concealed data) data

/-- AUDIO_DECODE. -/
def execAudioDecode (queue : Nat) (s : State) : Res := live (runPure 0x0203 queue audioDecode) s

end Sys2Proof.Machine
end

