-- ==== Sys2Proof/Machine/StageFetch.lean ====
section
/-! DEFINITION. The stack engines' operators: the FETCH stage (R89, R90, R124 to R126, R146, R149), MINHASH and its sink ring
(R262, R263), and SAMPLE_DIGEST (R437, R438). -/

namespace Sys2Proof.Machine

/-! ### The slate (R67, R89, R90) -/

/-- The run of a sample and its slate's number in that run's reel: as its slate was read, or by the runs in effect (R89). -/
def State.runOfSample (s : State) (x : Sample) : Option (Run × Nat) :=
  x.home.orElse fun _ =>
    (runOf (s.runsFor x.pipeline x.dataset) x.index).map fun r => (r, r.slateBase + (x.index - r.first))

/-- Where a sample lies: its run, its reel, and its slate's number. -/
def State.locateSlate (s : State) (x : Sample) : Option (Run × Reel × Nat) :=
  match s.runOfSample x with
  | none => none
  | some (r, no) => (tget s.cat.reels (reelKey r.volume r.reel)).map fun k => (r, k, no)

/-- Slot cause of a read of flash that its magazine cannot serve; 0 where it can: media removed (R310), media error (R298). -/
def State.mediaCause (s : State) (volume off n : Nat) : Nat :=
  match (tget s.flash.volumes volume).bind s.volMag with
  | none => 17
  | some bm =>
    if !bm.2.takesCommands then 17
    else if (s.lostIn volume (off / 4096) (ceilDiv (off % 4096 + n) 4096)).isEmpty then 0 else 18

/-- Does a sample's batch still take a magazine as gone that has come back (R311)? -/
def State.stillGone (s : State) (x : Sample) (volume : Nat) : Bool :=
  match tget s.pipes x.pipeline, tget s.flash.volumes volume with
  | some p, some v => (tget p.back v.sn).any fun b => decide (x.batch < b)
  | _, _ => false

/-- STATE of a reel's header, as the node has read it (R66, R90): read once, and kept while any run refers to the reel. A header that
does not read as one has no STATE. -/
def State.headerState (s : State) (r : Run) (reel : Reel) : Nat :=
  match tget s.cat.headers (reelKey r.volume r.reel) with
  | some st => st
  | none =>
    let h := s.readBytes r.volume (reel.start * 4096) 4096
    if field h 0 4 = 0x4C525A45 ∧ crc32c (h.take 4092) = field h 4092 4 then byteAt h 38 else 0

/-- Slot cause of a header that has still to be read and cannot be. -/
def State.headerCause (s : State) (r : Run) (reel : Reel) : Nat :=
  if thas s.cat.headers (reelKey r.volume r.reel) then 0 else s.mediaCause r.volume (reel.start * 4096) 4096

/-- Keep a reel's header as read, where it can be. -/
def keepHeader (r : Run) (reel : Reel) (s : State) : State :=
  if s.headerCause r reel ≠ 0 then s
  else { s with cat := { s.cat with headers := tput s.cat.headers (reelKey r.volume r.reel) (s.headerState r reel) } }

/-- Byte offset, in its volume, of slate `no` of a reel (R89). -/
def slateOff (r : Reel) (no : Nat) : Nat := r.start * 4096 + 4096 + 64 * no

/-- Why a slate sends its sample down the corrupt-sample path (R90); 0 where it does not. -/
def slateCause (x : Sample) (header : Nat) (b : Bytes) : Nat :=
  if crc32c (b.take 60) ≠ field b 60 4 then 4
  else if field b 0 8 ≠ sampleScope x.dataset x.index then 4
  else if byteAt b 8 = 0 then 10
  else if header ≠ 2 then 11
  else 0

/-- Fetch the slate of a sample: the slot cause that stops it (0: none), and the sample with what was read. A sample no run covers is
unmapped (R87); a reel that its volume's table does not hold shows no header. A slate that is read and is the sample's own stays with
it though its sample takes the corrupt-sample path: the empty slot's record shows its fields (R90, R218). -/
def State.fetchSlate (s : State) (x : Sample) : Nat × Sample :=
  match s.runOfSample x, s.locateSlate x with
  | none, _ => (12, x)
  | some _, none => (11, x)
  | some rn, some (run, reel, no) =>
    let off := slateOff reel no
    let m := if s.stillGone x run.volume then 17 else s.mediaCause run.volume off 64
    let h := s.headerCause run reel
    if m ≠ 0 then (m, x)
    else if h ≠ 0 then (h, x)
    else
      let b := s.readBytes run.volume off 64
      let c := slateCause x (s.headerState run reel) b
      (c, if c = 4 then x else { x with slate := b, home := some rn })

/-- Run `f` with the sample's slate, which is read and checked first where it is not yet held (R90). -/
def withSlate (x : Sample) (f : Sample → State → Completion × State) (s : State) : Completion × State :=
  if x.slate.isEmpty then
    let r := s.fetchSlate x
    let t := match s.locateSlate x with
      | some (run, reel, no) =>
        let header := if thas s.cat.headers (reelKey run.volume run.reel) then [] else [blockKey run.volume reel.start]
        flashReads (header ++ [blockKey run.volume (slateOff reel no / 4096)]) (keepHeader run reel s)
      | none => s
    let u := modSample x.key (fun y => { y with slate := r.2.slate, home := r.2.home }) t
    if r.1 ≠ 0 then (corruptC 0 r.1 0 noOffset, u) else f r.2 u
  else f x s

/-! ### SLATE_PREDICATE (R124 to R126) -/

/-- A slate field of a predicate term: its value and its width in bits. -/
def slateField (b : Bytes) (f : Nat) : Nat × Nat :=
  match f with
  | 0 => (byteAt b 8, 8)
  | 1 => (byteAt b 9, 8)
  | 2 => (field b 20 4, 32)
  | 3 => (field b 28 2, 16)
  | 4 => (field b 30 2, 16)
  | 5 => (field b 32 2, 16)
  | 6 => (field b 34 2, 16)
  | 7 => (field b 36 4, 32)
  | 8 => (field b 40 4, 32)
  | 9 => (field b 44 4, 32)
  | 10 => (field b 48 8, 64)
  | _ => (field b 56 4, 32)

/-- A comparison of unsigned integers (R124). -/
def compareInt (op v a b : Nat) : Bool :=
  match op with
  | 0 => v == a
  | 1 => v != a
  | 2 => decide (v < a)
  | 3 => decide (v ≤ a)
  | 4 => decide (a ≤ v)
  | 5 => decide (a < v)
  | 6 => decide (a ≤ v ∧ v ≤ b)
  | 7 => v &&& a != 0
  | _ => v &&& a == a

/-- A comparison of FP32 values; with a NaN only NE is true (R125). -/
def compareF32 (op : Nat) (v a b : F32) : Bool :=
  match op with
  | 0 => fEq v a
  | 1 => !fEq v a
  | 2 => fLt v a
  | 3 => fLe v a
  | 4 => fLe a v
  | 5 => fLt a v
  | _ => fLe a v && fLe v b

/-- One predicate term on a slate. -/
def termHolds (b t : Bytes) : Bool :=
  let f := byteAt t 0
  let op := byteAt t 1
  let r :=
    if f = 11 then compareF32 op (f32At b 56) (f32At t 8) (f32At t 16)
    else
      let v := slateField b f
      compareInt op v.1 (field t 8 8 % 2 ^ v.2) (field t 16 8 % 2 ^ v.2)
  if bitOf (byteAt t 3) 0 then !r else r

/-- Does a predicate keep a slate: some group that holds a term has all of its terms true (R126)? -/
def predicateKeeps (terms : List Bytes) (b : Bytes) : Bool :=
  (List.range 8).any fun g =>
    let ts := terms.filter fun t => byteAt t 2 == g
    !ts.isEmpty && ts.all (termHolds b)

/-- Does an operator's stage list the sample's class (R115)? The operators that every sample passes, listed or not, do not ask. -/
def Decl.takes (d : Decl) (e : Entry) (cls : Nat) : Bool := d.stages.any fun st => st.id == e.stage && st.has cls

/-- SLATE_PREDICATE. A sample of a class that the stage does not list passes it by. -/
def slatePredicate (e : Entry) (p : Pipeline) (x : Sample) (s : State) : Completion × State :=
  withSlate x (fun y t =>
    (if !p.decl.takes e y.cls || predicateKeeps (pieces 24 32 (p.decl.paramsAt e.instance_)) y.slate then doneC 0 else dropC 0 1, t)) s

/-- SLATE_PREDICATE. -/
def execSlatePredicate (queue : Nat) (s : State) : Res := live (whenB s.going (runEntry 0x0103 queue slatePredicate)) s

/-! ### BLOCK_DECOMPRESS and CRC_VERIFY (R146) -/

/-- A block directory entry of a reel. -/
def State.dirEntry (s : State) (run : Run) (r : Reel) (k : Nat) : Bytes :=
  s.readBytes run.volume ((r.start + r.dirOffset) * 4096 + 16 * k) 16

/-- One block's original bytes, or the slot cause that stops it: media, codec, or crc. -/
def State.fetchBlock (s : State) (run : Run) (r : Reel) (k : Nat) : Except Nat Bytes :=
  let d := s.mediaCause run.volume ((r.start + r.dirOffset) * 4096 + 16 * k) 16
  let b := s.dirEntry run r k
  let off := (r.start + field b 0 4) * 4096
  let len := field b 4 4 % 2 ^ 17
  let n := field b 8 2 + 1
  let m := s.mediaCause run.volume off len
  if d ≠ 0 then .error d
  else if m ≠ 0 then .error m
  else
    let stored := s.readBytes run.volume off len
    let o := if bitOf (byteAt b 11) 0 then (if stored.length = n then some stored else none)
      else decodeBlock (byteAt b 10) stored n
    match o with
    | none => .error 5
    | some bs => if crc32c bs = field b 12 4 then .ok bs else .error 4

/-- The original bytes of the blocks from `k` on that hold `need` more bytes, with the work units; or the slot cause, the directory
index of the failing block, and the units up to it. -/
def State.fetchBlocks (s : State) (run : Run) (r : Reel) : Nat → Nat → Nat → Bytes × Nat →
    Except (Nat × Nat × Nat) (Bytes × Nat)
  | 0, _, _, acc => .ok acc
  | fuel + 1, k, need, acc =>
    if need = 0 then .ok acc
    else match s.fetchBlock run r k with
      | .error c => .error (c, k, acc.2)
      | .ok bs => s.fetchBlocks run r fuel (k + 1) (need - bs.length) (acc.1 ++ bs, acc.2 + ceilDiv bs.length 1024)

/-- The volume blocks that hold directory entries from `k` on and the payload blocks they name, for `need` original bytes. -/
def State.fetchKeys (s : State) (run : Run) (r : Reel) : Nat → Nat → Nat → List Nat
  | 0, _, _ => []
  | fuel + 1, k, need =>
    if need = 0 then []
    else
      let b := s.dirEntry run r k
      let payload := (List.range (ceilDiv (field b 4 4 % 2 ^ 17) 4096)).map fun i => blockKey run.volume (r.start + field b 0 4 + i)
      blockKey run.volume (r.start + r.dirOffset + k / 256) :: payload ++ s.fetchKeys run r fuel (k + 1) (need - (field b 8 2 + 1))

/-- BLOCK_DECOMPRESS: every block that the sample touches is decompressed and checked against ORIG_CRC. -/
def blockDecompress (e : Entry) (_ : Pipeline) (x : Sample) (s : State) : Completion × State :=
  withSlate x (fun y t =>
    match t.locateSlate y with
    | none => (corruptC 0 12 0 noOffset, t)
    | some (run, reel, _) =>
      let need := field y.slate 16 2 + field y.slate 20 4
      let u := flashReads (t.fetchKeys run reel (need + 1) (field y.slate 12 4) need) t
      if t.stillGone y run.volume then (corruptC 0 17 0 (field y.slate 12 4), t)
      else match t.fetchBlocks run reel (need + 1) (field y.slate 12 4) need ([], 0) with
      | .error c => (e.within c.2.2 (corruptC c.2.2 c.1 0 c.2.1), u)
      | .ok r => (e.within r.2 (writeC r.2 [] r.1), u)) s

/-- BLOCK_DECOMPRESS. -/
def execBlockDecompress (queue : Nat) (s : State) : Res := live (whenB s.going (runEntry 0x0101 queue blockDecompress)) s

/-- CRC_VERIFY: the sample's own bytes, against SAMPLE_CRC. They are the fetch stage's output (R150). -/
def crcVerify (e : Entry) (_ : Pipeline) (x : Sample) (_ : State) : Completion :=
  let bs := sub x.data (field x.slate 16 2) (field x.slate 20 4)
  let work := ceilDiv bs.length 1024
  e.within work
    (if crc32c bs = field x.slate 24 4 then writeC work [] bs else corruptC work 4 0 (field x.slate 12 4))

/-- CRC_VERIFY. -/
def execCrcVerify (queue : Nat) (s : State) : Res := live (runPure 0x0102 queue crcVerify) s

/-- FETCH_REPEAT (R149): the sample's blocks are read again, on a different stack engine, once. -/
def fetchRepeat (key k : Nat) (s : State) : State :=
  match tget s.eng.samples key with
  | none => s
  | some x =>
    match tget s.pipes x.pipeline with
    | none => s
    | some p =>
      let i := p.decl.fetchSites.findIdx fun t => t.op == 0x0101
      match p.decl.fetchSites[i]?, s.spareBuf x.pipeline with
      | some t, some b =>
        if x.phase ≠ .completed ∨ k / 1024 ≠ 1 ∨ 32 ≤ k % 1024 ∨ !s.engineServes 1 (k % 1024)
            ∨ queueRoom 1 ≤ (s.queue k).entries.length ∨ s.queueUnit k = x.failUnit then s
        else
          let y := { x with
            opIdx := i
            fetches := 1
            data := []
            inBuf := none
            outBuf := none }
          placeEntry p y t k (some b) (modSample key (fun _ => y) (freeBufs x s))
      | _, _ => s

/-- FETCH_REPEAT. -/
def execFetchRepeat (sample queue : Nat) (s : State) : Res := live (whenB s.going (fetchRepeat sample queue)) s

/-! ### Sink rings (R263, R438) -/

/-- Key of an instance's sink ring. -/
def sinkKey (pipe inst : Nat) : Nat := pipe * 256 + inst

/-- A sink's base address and depth, from its operator's parameter block. -/
def sinkAddr (b : Bytes) : Nat := field b 8 8

/-- Depth of a sink ring. -/
def sinkDepth (b : Bytes) : Nat := 2 ^ byteAt b 16

/-- Write an entry, then TAIL (R263). -/
def writeSink (key : Nat) (b entry : Bytes) (s : State) : State :=
  let th := tgetD s.eng.sinks key (0, 0)
  emits [.pcieWrite plainVia (sinkAddr b + 64 + entry.length * (th.1 % sinkDepth b)) entry,
      .pcieWrite tailVia (sinkAddr b) (putLE 8 (th.1 + 1))]
    { s with eng := { s.eng with sinks := tput s.eng.sinks key (th.1 + 1, th.2) } }

/-- Is a sink ring full, as far as its last known HEAD says? -/
def State.sinkFull (s : State) (key : Nat) (b : Bytes) : Bool :=
  let th := tgetD s.eng.sinks key (0, 0)
  decide (sinkDepth b ≤ th.1 - th.2)

/-- The record of a sink's PCIe error: scope the operator instance (R263, R379 kind 11). -/
def sinkFault (e : Entry) (unit key : Nat) (s : State) : State :=
  recordErr { plainErr unit 0x0407 clsUnitFatal 11 (e.pipeline + e.stage * 2 ^ 16 + e.op * 2 ^ 32) 0 0 with
    pipeline := e.pipeline
    stage := e.stage
    operator := e.op } { s with eng := { s.eng with sinkFailed := s.eng.sinkFailed ++ [key] } }

/-- Is a queue's current entry one of a sink's? -/
def State.sinksTo (s : State) (k key : Nat) : Bool :=
  (s.current k).any fun e => sinkKey e.pipeline e.instance_ == key

/-- The entries that wait for room in a failed sink complete with CORRUPT, cause "output size" (R263), with the work that `work`
counts. -/
def failWaits (key : Nat) (work : Entry → Pipeline → Sample → Nat) (s : State) : State :=
  let ks := ((s.eng.sinkWait.map Prod.fst).filter fun k => s.sinksTo k key).eraseDups
  ks.foldl (fun (t : State) (k : Nat) => match t.current k with
    | some e =>
      let w := match t.sampleFor k e, tget t.pipes e.pipeline with
        | some x, some p => work e p x
        | _, _ => 0
      completeEntry k e (corruptC w 13 0 noOffset) t
    | none => t) { s with eng := { s.eng with sinkWait := s.eng.sinkWait.filter fun w => !decide (w.1 ∈ ks) } }

/-- Run the current entry of a queue as an operator with a sink: `entries` are the sink entries it writes, `c` its
completion. A full ring holds the entry until HEAD moves; a PCIe error fails the instance. -/
def runSink (op k : Nat) (pcieOk : Bool) (f : Entry → Pipeline → Sample → List Bytes × Completion) (s : State) : State :=
  match s.current k with
  | none => s
  | some e =>
    if e.op ≠ op ∨ e.isMemory ∨ s.eng.sinkWait.any (fun w => w.1 == k) then s
    else match s.sampleFor k e, tget s.pipes e.pipeline with
      | some x, some p =>
        let r := f e p x
        let b := p.decl.paramsAt e.instance_
        let key := sinkKey e.pipeline e.instance_
        if key ∈ s.eng.sinkFailed then completeEntry k e (corruptC r.2.workUsed 13 0 noOffset) s
        else if r.1.isEmpty ∨ r.2.code ≠ 0 then completeEntry k e r.2 s
        else if !pcieOk then
          failWaits key (fun e p x => (f e p x).2.workUsed) (completeEntry k e (corruptC r.2.workUsed 13 0 noOffset) (sinkFault e (s.entryUnit k e) key s))
        else
          let t := r.1.foldl (fun (t : State) (w : Bytes) =>
            if t.sinkFull key b ∨ t.eng.sinkWait.any (fun q => q.1 == k) then
              { t with eng := { t.eng with sinkWait := t.eng.sinkWait ++ [(k, w)] } }
            else writeSink key b w t) s
          if t.eng.sinkWait.any (fun q => q.1 == k) then t else completeEntry k e r.2 t
      | _, _ => completeEntry k e (doneC 0) s

/-- Write what waits for a sink ring while it has room; an entry whose last one is written completes, with the work that
`work` counts. -/
def drainSink (key : Nat) (b : Bytes) (work : Entry → Pipeline → Sample → Nat) : List (Nat × Bytes) → State → State
  | [], s => s
  | w :: ws, s =>
    if s.sinksTo w.1 key && !s.sinkFull key b then
      let t := writeSink key b w.2 { s with eng := { s.eng with sinkWait := s.eng.sinkWait.erase w } }
      let t1 := if t.eng.sinkWait.any (fun q => q.1 == w.1) then t
        else match t.current w.1 with
          | none => t
          | some e =>
            match t.sampleFor w.1 e, tget t.pipes e.pipeline with
            | some x, some p => completeEntry w.1 e (doneC (work e p x)) t
            | _, _ => completeEntry w.1 e (doneC 0) t
      drainSink key b work ws t1
    else drainSink key b work ws s

/-! ### MINHASH (R262) -/

/-- 2^61 − 1. -/
abbrev mersenne : Nat := 2 ^ 61 - 1

/-- The shingles of a sample. -/
def shingles (n : Nat) (bs : Bytes) : List Bytes :=
  if bs.length < n then [bs] else (List.range (bs.length - n + 1)).map fun i => sub bs i n

/-- The signature words. -/
def minhashWords (b bs : Bytes) : List Nat :=
  let xs := (shingles (byteAt b 0) bs).map crc32c
  (List.range (field b 2 2)).map fun j =>
    let a := field b (32 + 16 * j) 8
    let c := field b (40 + 16 * j) 8
    (xs.map fun x => (a * x + c) % mersenne).foldl min mersenne

/-- Work units: 64 shingles for 16 hash functions, rounded up in each. -/
def minhashWork (b bs : Bytes) : Nat := ceilDiv (shingles (byteAt b 0) bs).length 64 * ceilDiv (field b 2 2) 16

/-- SAMPLE of a slot's metadata (R218). -/
def sampleWord (x : Sample) : Bytes := putLE 8 (sampleScope x.dataset x.index)

/-- POSITION of a slot's metadata (R218). -/
def positionWord (epoch pos : Nat) : Bytes := putLE 8 (pos % 2 ^ 47 + epoch % 2 ^ 16 * 2 ^ 47)

/-- A signature entry (R263). -/
def minhashEntry (b : Bytes) (x : Sample) : Bytes :=
  let ws := ((minhashWords b x.data).map (putLE 8)).flatten
  fitTo (roundUp (32 + ws.length) 64)
    (sampleWord x ++ positionWord x.epoch x.position ++ putLE 2 (field b 2 2) ++ putLE 2 x.pipeline ++ zeros 8
      ++ putLE 4 (crc32c ws) ++ ws)

/-- Does the instance hash samples of this class? -/
def minhashTakes (b : Bytes) (x : Sample) : Bool := bitOf (byteAt b 1) x.cls

/-- MINHASH: other classes pass without work. -/
def minhashOp (e : Entry) (p : Pipeline) (x : Sample) : List Bytes × Completion :=
  let b := p.decl.paramsAt e.instance_
  if p.decl.takes e x.cls && minhashTakes b x then
    let w := minhashWork b x.data
    ([minhashEntry b x], e.within w (doneC w))
  else ([], doneC 0)

/-- MINHASH. -/
def execMinhash (queue : Nat) (pcieOk : Bool) (s : State) : Res :=
  live (whenB s.going (runSink 0x0104 queue pcieOk minhashOp)) s

/-! ### SAMPLE_DIGEST (R437, R438) -/

/-- Elements of a payload by LAYOUT: integers, and floats as FP32. -/
def elements (layout : Nat) (bs : Bytes) : List Nat ⊕ List F32 :=
  if layout ≤ 3 then .inl (bs.map BitVec.toNat)
  else if layout = 5 then .inl ((pieces 4 (bs.length / 4) bs).map leVal)
  else if layout = 4 ∨ layout = 6 then .inr (f32sOf bs)
  else
    let f := if layout = 7 then bf16 else if layout = 8 then fp16 else if layout = 9 then e4m3 else e5m2
    let w := if layout = 7 ∨ layout = 8 then 2 else 1
    .inr ((pieces w (bs.length / w) bs).map fun b => f.toF32 (leVal b))

/-- COUNT, NANS, INFS, MIN, MAX, SUM and SUMSQ of the elements. -/
def statistics (l : List Nat ⊕ List F32) : Bytes :=
  match l with
  | .inl xs =>
    putLE 8 xs.length ++ putLE 4 0 ++ putLE 4 0 ++ putLE 4 (xs.foldl min (xs.headD 0)) ++ putLE 4 (xs.foldl max 0)
      ++ putLE 8 xs.sum ++ putLE 8 ((xs.map fun x => x * x).sum % 2 ^ 64)
  | .inr xs =>
    let ys := xs.filter fFinite
    putLE 8 xs.length ++ putLE 4 (xs.filter fIsNan).length ++ putLE 4 (xs.filter fIsInf).length
      ++ putLE 4 (ys.foldl fMin (ys.headD fZero)).toNat ++ putLE 4 (ys.foldl fMax (ys.headD fZero)).toNat
      ++ putLE 8 (fixedSum ys).toNat ++ putLE 8 (fixedSum (ys.map fun y => fMul y y)).toNat

/-- A digest entry for data of a sample at (batch, slot), piece `piece`. -/
def digestEntry (b : Bytes) (x : Sample) (batch slot piece : Nat) (layout : Nat) (data : Bytes) (crc : Nat) : Bytes :=
  let mode := byteAt b 0
  let st := if bitOf mode 1 then statistics (elements layout data) else zeros 40
  let dg := if bitOf mode 0 then sha384 data else zeros 48
  let body := fitTo 188 (sampleWord x ++ positionWord x.epoch x.position ++ putLE 8 batch ++ putLE 4 slot
    ++ putLE 2 piece ++ putLE 1 layout ++ putLE 1 mode ++ putLE 4 data.length ++ putLE 4 crc ++ st ++ dg)
  body ++ putLE 4 (crc32c body)

/-- LAYOUT of a sample's finished data: that of its last descriptor. Bytes that no decoder described (text and opaque samples
delivered unchanged) have none; they are read as UINT8. -/
def Sample.layout (x : Sample) : Nat := if x.desc.isEmpty then 0 else byteAt x.desc 2

/-- Identifiers of one piece of a document. -/
def pieceData (d : Decl) (x : Sample) (piece : Nat) : Bytes :=
  let b := (d.blockOf 0x0701).getD []
  sub (x.data.take (4 * field x.desc 4 4)) (4 * (piece * field b 0 4)) (4 * field b 0 4)

/-- The entries of a sample: one for its slot, or one for each of its pieces in a packed class. The carried CRC of a piece
is that of its own bytes. -/
def digestEntries (b : Bytes) (d : Decl) (x : Sample) : List Bytes :=
  if d.packs x.cls then
    x.pieces.map fun y =>
      let data := pieceData d x y.1
      digestEntry b x (y.2.1 / max 1 d.batch) (y.2.1 % max 1 d.batch) y.1 x.layout data (crc32c data)
  else [digestEntry b x x.batch (x.slot.getD 0) 0 x.layout x.data x.crc]

/-- Work units of SAMPLE_DIGEST: 1 KiB each. -/
def digestWork (x : Sample) : Nat := ceilDiv x.data.length 1024

/-- SAMPLE_DIGEST: every EVERY-th position. -/
def digestOp (e : Entry) (p : Pipeline) (x : Sample) : List Bytes × Completion :=
  let b := p.decl.paramsAt e.instance_
  let every := if field b 2 2 = 0 then 1 else field b 2 2
  if p.decl.takes e x.cls && x.position % every == 0 then (digestEntries b p.decl x, e.within (digestWork x) (doneC (digestWork x)))
  else ([], doneC 0)

/-- SAMPLE_DIGEST. -/
def execSampleDigest (queue : Nat) (pcieOk : Bool) (s : State) : Res :=
  live (whenB s.going (runSink 0x0703 queue pcieOk digestOp)) s

/-- Work of the entry that waits for a sink. -/
def sinkWork (e : Entry) (p : Pipeline) (x : Sample) : Nat :=
  if e.op = 0x0104 then minhashWork (p.decl.paramsAt e.instance_) x.data else digestWork x

/-- SINK_HEAD_POLL (R263): HEAD is read while the ring is full; waiting entries are written once room appears. A PCIe error on such a
write fails the instance. -/
def sinkHeadPoll (pipe inst head : Nat) (pcieOk : Bool) (s : State) : State :=
  match tget s.pipes pipe with
  | none => s
  | some p =>
    let key := sinkKey pipe inst
    let b := p.decl.paramsAt inst
    let th := tgetD s.eng.sinks key (0, 0)
    if s.sinkFull key b then
      let t := emit (.pcieRead 0 (sinkAddr b + 8) 8) { s with eng := { s.eng with sinks := tput s.eng.sinks key (th.1, head) } }
      match t.eng.sinkWait.find? fun w => t.sinksTo w.1 key with
      | none => t
      | some w =>
        if pcieOk || t.sinkFull key b then drainSink key b sinkWork t.eng.sinkWait t
        else match t.current w.1 with
          | some e => failWaits key sinkWork (sinkFault e (t.entryUnit w.1 e) key t)
          | none => t
    else s

/-- SINK_HEAD_POLL. -/
def execSinkHeadPoll (pipeline instance_ head : Nat) (pcieOk : Bool) (s : State) : Res :=
  live (whenB s.going (sinkHeadPoll pipeline instance_ head pcieOk)) s

end Sys2Proof.Machine
end

