-- ==== Sys2Proof/Machine/MemCmd.lean ====
section
/-! DEFINITION. The stack engines' memory commands (R260, R261): byte access to stack memory, and one meaning for each operation. -/

namespace Sys2Proof.Machine

/-! ### Stack addresses (R243, R244) -/

/-- Stack of an address. -/
def addrStack (a : Nat) : Nat := a / 2 ^ 36 % 8

/-- Byte offset of an address in its stack. -/
def addrOff (a : Nat) : Nat := a % 2 ^ 36

/-- Area of a byte offset. -/
def offArea (o : Nat) : Nat := wordArea (o / 64)

/-- Does a range lie within one area of one stack, which serves or whose words the other half copies (R245)? -/
def State.rangeOk (s : State) (a n : Nat) : Bool :=
  decide (a < 2 ^ 39) && decide (addrOff a + n ≤ 2 ^ 36) && offArea (addrOff a) == offArea (addrOff a + (n - 1))
    && (s.inService (uStack (addrStack a)) || (offArea (addrOff a) == 0 && s.inService (uStack (otherHalf (addrStack a)))))

/-- The code words of a range: index, offset and bytes in each. -/
def wordsOf (off n : Nat) : List (Nat × Nat × Nat) :=
  if n = 0 then []
  else (List.range ((off + n - 1) / 64 + 1 - off / 64)).map fun i =>
    let w := off / 64 + i
    let lo := max off (w * 64)
    let hi := min (off + n) (w * 64 + 64)
    (w, lo - w * 64, hi - lo)

/-- What an access has come to: the state, the bytes read or still to be written, and the key of a word that was not returned. -/
structure Access where
  state : State
  bytes : Bytes
  failed : Option Nat
  deriving DecidableEq, Repr

/-- Read a range of stack memory; `fs` are the errors that its words meet. -/
def readStack (a n : Nat) (fs : List (Nat × WordFault)) (rd : Reader) (s : State) : Access :=
  (wordsOf (addrOff a) n).foldl (fun (r : Access) (w : Nat × Nat × Nat) =>
    if r.failed.isSome then r
    else
      let stack := s.servingStack (addrStack a) w.1
      let x := readWord stack w.1 fs rd r.state
      match x.2 with
      | some bs => { state := x.1, bytes := r.bytes ++ sub bs w.2.1 w.2.2, failed := none }
      | none => { state := x.1, bytes := r.bytes, failed := some (wordKey stack w.1) })
    { state := s, bytes := [], failed := none }

/-- Write a range of stack memory, word by word, up to a word that stays poisoned under a narrow write. In the pool area the last
word of a block is written whole, 0 in its tail (R254); `narrow` is set where a word is written in place. -/
def writeStack (narrow : Bool) (a : Nat) (bs : Bytes) (fs : List (Nat × WordFault)) (rd : Reader) (s : State) : Access :=
  (wordsOf (addrOff a) bs.length).foldl (fun (r : Access) (w : Nat × Nat × Nat) =>
    if r.failed.isSome then r
    else
      let stack := s.servingStack (addrStack a) w.1
      let part := r.bytes.take w.2.2
      let data := if !narrow && w.2.1 = 0 && wordArea w.1 = 2 then fitTo 64 part else part
      let x := writeWord stack w.1 w.2.1 data (faultAt fs stack w.1) rd r.state
      { state := x.1, bytes := r.bytes.drop w.2.2, failed := if x.2 then none else some (wordKey stack w.1) })
    { state := s, bytes := bs, failed := none }

/-! ### The command (R260) -/

/-- SRC of a command. -/
def mSrc (c : Bytes) : Nat := field c 8 8
/-- DST. -/
def mDst (c : Bytes) : Nat := field c 16 8
/-- LEN. -/
def mLen (c : Bytes) : Nat := field c 24 4
/-- AUX. -/
def mAux (c : Bytes) : Nat := field c 28 4
/-- ARG0. -/
def mArg0 (c : Bytes) : Nat := field c 32 8
/-- ARG1. -/
def mArg1 (c : Bytes) : Nat := field c 40 8

/-- Address of the result word, in the stack of DST; none asked for where RESULT is 0. -/
def mResult (c : Bytes) : Option Nat :=
  if field c 52 4 = 0 then none else some (mDst c / 2 ^ 36 * 2 ^ 36 + field c 52 4)

/-- What an operation did: the state, how it ended, the bytes read and written, its result word, the key of a word that was not
returned, and whether it met an address outside its area. -/
structure MemRun where
  state : State
  code : Nat
  cause : Nat
  readBytes : Nat
  written : Bytes
  result : Option Nat
  lost : Option Nat
  outside : Bool
  deriving DecidableEq, Repr

/-- An operation that could not be performed: CORRUPT. -/
def memBad (s : State) (n : Nat) : MemRun :=
  { state := s, code := 3, cause := 0, readBytes := n, written := [], result := none, lost := none, outside := false }

/-- An address outside its area: CORRUPT, and a CONTAINED record "command" of the engine (R261, R264). -/
def memOutside (s : State) (n : Nat) : MemRun := { memBad s n with outside := true }

/-- A word that was not returned: POISON. -/
def memPoison (s : State) (key n : Nat) : MemRun :=
  { memBad s n with code := 6, cause := if wordArea (key % 2 ^ 30) = 0 then 19 else 0, lost := some key }

/-- An operation that was performed. -/
def memDone (s : State) (n : Nat) (written : Bytes) (result : Option Nat) : MemRun :=
  { memBad s n with code := 0, written := written, result := result }

/-- What a read works with: the errors that its words meet, and the reader. -/
structure MemArgs where
  faults : List (Nat × WordFault)
  reader : Reader
  deriving DecidableEq, Repr

/-- Read a source after `pre` other bytes, then go on with its bytes; CHECK_IN compares their CRC with IN_CRC. -/
def withSource (c : Bytes) (a n pre : Nat) (m : MemArgs) (check : Bool) (f : Bytes → State → MemRun) (s : State) : MemRun :=
  if !s.rangeOk a n then memOutside s pre
  else
    let r := readStack a n m.faults m.reader s
    match r.failed with
    | some i => memPoison r.state i (pre + r.bytes.length)
    | none =>
      if check && bitOf (byteAt c 7) 0 && crc32c r.bytes != field c 48 4 then memBad r.state (pre + n)
      else f r.bytes r.state

/-- Write a destination and end; `total` bytes have been read. -/
def toDest (narrow : Bool) (a : Nat) (bs : Bytes) (total : Nat) (result : Option Nat) (m : MemArgs) (s : State) : MemRun :=
  if !s.rangeOk a bs.length then memOutside s total
  else
    let w := writeStack narrow a bs m.faults m.reader s
    match w.failed with
    | some i => memPoison w.state i total
    | none => memDone w.state total bs result

/-- The result word (R260): RESULT takes the result, with the CRC-32C of the bytes written above it where CRC_OUT is set; it is written
where the command was performed and has one of them. -/
def withResultWord (c : Bytes) (m : MemArgs) (r : MemRun) : MemRun :=
  let crcOut := bitOf (byteAt c 7) 1
  match mResult c with
  | none => r
  | some a =>
    if r.code ≠ 0 ∨ (!crcOut ∧ r.result.isNone) then r
    else
      let word := (r.result.getD (Config.freeNat r.state.freeTick)) % 2 ^ 64
      let value := if crcOut then word % 2 ^ 32 + crc32c r.written * 2 ^ 32 else word
      { toDest true a (putLE 8 value) r.readBytes r.result m r.state with written := r.written }

/-- The extents of a list: (address, length). A length that is no multiple of 64, or more than 4 096 entries, is no list. -/
def memExtents (bs : Bytes) : Option (List (Nat × Nat)) :=
  let es := (pieces 16 4097 bs).map fun e => (field e 0 8, field e 8 4)
  if es.length ≤ 4096 ∧ es.all (fun e => decide (e.2 % 64 = 0)) then some es else none

/-- The record of an address outside its area. -/
def outsideRecord (e : Entry) (rd : Reader) (s : State) : State :=
  recordErr { plainErr rd.unit 0x0209 clsContained 2 rd.unit e.seq e.attempts with
    pipeline := rd.pipeline
    stage := rd.stage
    operator := rd.op } s

/-- Run a memory command of a queue: it takes its place in SEQ order, and is executed once it is the oldest (R122, R260). A
command that waits its turn is executed by a later row that names it. -/
def runMemory (mop k : Nat) (cmd : Bytes) (faults : List (Nat × WordFault)) (f : Bytes → MemArgs → State → MemRun)
    (s0 : State) : State :=
  let q := s0.queue k
  let waits : Bool := (q.entries.drop q.completions.length).any fun e => e.isMemory && e.raw.take 56 == (fitTo 64 cmd).take 56
  let fresh : Entry :=
    { op := field cmd 0 2, stage := field cmd 2 2, pipeline := byteAt cmd 4, engine := 1, sample := 0, instance_ := 0xFFFF,
      budget := 0, seq := q.nextSeq, attempts := 0, fault := 0, first := 0, tb := s0.tb,
      raw := patch (fitTo 64 cmd) 56 (putLE 4 q.nextSeq), runOn := none }
  if k / 1024 ≠ 1 ∨ 32 ≤ k % 1024 ∨ !s0.engineServes 1 (k % 1024) ∨ byteAt cmd 5 ≠ 0x81 ∨ byteAt cmd 6 ≠ mop then s0
  else
    let s := if waits || decide (queueRoom 1 ≤ q.entries.length) then s0
      else modQueue k (fun q => { q with nextSeq := (q.nextSeq + 1) % 2 ^ 32, entries := q.entries ++ [fresh] }) s0
    match s.current k with
    | none => s
    | some e =>
      if e.isMemory && e.raw.take 56 == (fitTo 64 cmd).take 56 then
        let m : MemArgs := { faults := faults, reader := s.readerOf k }
        let r := withResultWord e.raw m (f e.raw m s)
        let s1 := if r.outside then outsideRecord e m.reader r.state else r.state
        completeEntry k e { doneC (ceilDiv r.readBytes 1024) with code := r.code, cause := r.cause, lostWord := r.lost } (tickFree s1)
      else s

/-! ### The operations (R261) -/

/-- COPY. -/
def memCopy (c : Bytes) (m : MemArgs) (s : State) : MemRun :=
  withSource c (mSrc c) (mLen c) 0 m true (fun bs t => toDest false (mDst c) bs (mLen c) none m t) s

/-- COPY. -/
def execCopy (queue : Nat) (cmd : Bytes) (faults : List (Nat × WordFault)) (s : State) : Res :=
  live (whenB s.going (runMemory 0x01 queue cmd faults memCopy)) s

/-- LEN bytes of a repeated 8-byte pattern. -/
def repeated (n pattern : Nat) : Bytes := ((List.replicate (n / 8 + 1) (putLE 8 pattern)).flatten).take n

/-- FILL. -/
def memFill (c : Bytes) (m : MemArgs) (s : State) : MemRun :=
  toDest false (mDst c) (repeated (mLen c) (mArg0 c)) 0 none m s

/-- FILL. -/
def execFill (queue : Nat) (cmd : Bytes) (faults : List (Nat × WordFault)) (s : State) : Res :=
  live (whenB s.going (runMemory 0x02 queue cmd faults memFill)) s

/-- The bytes of extents, in list order, after `pre` other bytes read. -/
def gatherExtents (m : MemArgs) (pre : Nat) : List (Nat × Nat) → State → Bytes → Except MemRun (Bytes × State)
  | [], s, acc => .ok (acc, s)
  | (a, n) :: t, s, acc =>
    if !s.rangeOk a n then .error (memOutside s (pre + acc.length))
    else
      let r := readStack a n m.faults m.reader s
      match r.failed with
      | some i => .error (memPoison r.state i (pre + acc.length + r.bytes.length))
      | none => gatherExtents m pre t r.state (acc ++ r.bytes)

/-- GATHER. -/
def memGather (c : Bytes) (m : MemArgs) (s : State) : MemRun :=
  withSource c (mSrc c) (16 * mLen c) 0 m false (fun l t =>
    match memExtents l with
    | none => memOutside t l.length
    | some es =>
      match gatherExtents m l.length es t [] with
      | .error r => r
      | .ok (bs, u) =>
        if bitOf (byteAt c 7) 0 ∧ crc32c bs ≠ field c 48 4 then memBad u (l.length + bs.length)
        else toDest false (mDst c) bs (l.length + bs.length) none m u) s

/-- GATHER. -/
def execGather (queue : Nat) (cmd : Bytes) (faults : List (Nat × WordFault)) (s : State) : Res :=
  live (whenB s.going (runMemory 0x03 queue cmd faults memGather)) s

/-- Write bytes to extents, in list order; each extent takes its length. -/
def scatterExtents (m : MemArgs) (total : Nat) : List (Nat × Nat) → Bytes → Bytes → State → MemRun
  | [], _, out, s => memDone s total out none
  | (a, n) :: t, bs, out, s =>
    let part := bs.take n
    if !s.rangeOk a n then memOutside s total
    else
      let w := writeStack false a part m.faults m.reader s
      match w.failed with
      | some i => memPoison w.state i total
      | none => scatterExtents m total t (bs.drop n) (out ++ part) w.state

/-- SCATTER. -/
def memScatter (c : Bytes) (m : MemArgs) (s : State) : MemRun :=
  withSource c (mSrc c) (mLen c) 0 m true (fun bs t =>
    withSource c (mDst c) (16 * mAux c) bs.length m false (fun l u =>
      match memExtents l with
      | none => memOutside u (bs.length + l.length)
      | some es => scatterExtents m (bs.length + l.length) es bs [] u) t) s

/-- SCATTER. -/
def execScatter (queue : Nat) (cmd : Bytes) (faults : List (Nat × WordFault)) (s : State) : Res :=
  live (whenB s.going (runMemory 0x04 queue cmd faults memScatter)) s

/-- CRC-32C from an initial value: that of bytes whose CRC so far is `init`. -/
def crcFrom (init : Nat) (bs : Bytes) : Nat :=
  ((bs.foldl (fun (c : BitVec 32) (b : Byte) => crcByte 32 0x82F63B78#32 c b) (BitVec.ofNat 32 init ^^^ 0xFFFFFFFF#32))
    ^^^ 0xFFFFFFFF#32).toNat

/-- SHA-384: FIRST starts, LAST gives the digest, and between them the context lies at DST. -/
def memSha (c bs : Bytes) (m : MemArgs) (s : State) : MemRun :=
  let first := bitOf (mAux c) 4
  let last := bitOf (mAux c) 5
  let close (msg : Bytes) (old : Option Bytes) (total : Nat) (t : State) : MemRun :=
    let kept := match old with
      | some x => t.mem.hashes.erase x
      | none => t.mem.hashes
    let u := { t with mem := { t.mem with hashes := if last then kept else kept ++ [msg] } }
    toDest false (mDst c) (if last then sha384 msg else fitTo 208 (Config.shaContext msg)) total none m u
  if first then close bs none bs.length s
  else withSource c (mDst c) 208 bs.length m false (fun ctx t =>
    match t.mem.hashes.find? fun x => fitTo 208 (Config.shaContext x) == ctx with
    | some x => close (x ++ bs) (some x) (bs.length + 208) t
    | none => toDest false (mDst c) (fitTo (if last then 48 else 208) (Config.shaOther ctx bs last)) (bs.length + 208) none m t) s

/-- HASH. A CRC-32C is the result word's low half. -/
def memHash (c : Bytes) (m : MemArgs) (s : State) : MemRun :=
  withSource c (mSrc c) (mLen c) 0 m true (fun bs t =>
    if mAux c % 16 = 0 then memDone t bs.length [] (some (crcFrom (mArg0 c % 2 ^ 32) bs))
    else if mAux c % 16 = 1 then memSha c bs m t
    else memOutside t bs.length) s

/-- HASH. -/
def execHash (queue : Nat) (cmd : Bytes) (faults : List (Nat × WordFault)) (s : State) : Res :=
  live (whenB s.going (runMemory 0x05 queue cmd faults memHash)) s

/-- ATOMIC: ADD32 or CAS64 under the word lock; the old value is the result. -/
def memAtomic (c : Bytes) (m : MemArgs) (s : State) : MemRun :=
  withSource c (mDst c) 8 0 m false (fun bs t =>
    let old := leVal bs
    let new := if mAux c = 0 then (old % 2 ^ 32 + mArg0 c) % 2 ^ 32 + old / 2 ^ 32 * 2 ^ 32
      else if old = mArg0 c then mArg1 c else old
    if mAux c ≤ 1 then toDest true (mDst c) (putLE 8 new) 8 (some old) m t else memOutside t 8) s

/-- ATOMIC. -/
def execAtomic (queue : Nat) (cmd : Bytes) (faults : List (Nat × WordFault)) (s : State) : Res :=
  live (whenB s.going (runMemory 0x06 queue cmd faults memAtomic)) s

/-- Bytes of a bitmap, bit i first in its byte's low bit. -/
def bitmapOf (l : List Bool) : Bytes := bytesOfBits (ceilDiv l.length 8) (l ++ List.replicate 7 false)

/-- PREDICATE_SCAN. -/
def memScan (c : Bytes) (m : MemArgs) (s : State) : MemRun :=
  if mAux c = 0 ∨ 32 < mAux c then memOutside s 0
  else withSource c (mSrc c) (24 * mAux c) 0 m true (fun terms t =>
    withSource c (mArg0 c) (64 * mLen c) terms.length m false (fun slates u =>
      toDest false (mDst c) (bitmapOf ((pieces 64 (mLen c) slates).map (predicateKeeps (pieces 24 32 terms))))
        (terms.length + slates.length) none m u) t) s

/-- PREDICATE_SCAN. -/
def execPredicateScan (queue : Nat) (cmd : Bytes) (faults : List (Nat × WordFault)) (s : State) : Res :=
  live (whenB s.going (runMemory 0x07 queue cmd faults memScan)) s

/-- COMPRESS. -/
def memCompress (c : Bytes) (m : MemArgs) (s : State) : MemRun :=
  withSource c (mSrc c) (mLen c) 0 m true (fun bs t =>
    let z := storeBlock (mAux c % 256) (mAux c / 256 % 256) (Config.fwRelease t.firmware) bs
    toDest false (mDst c) z.1 bs.length (some (Config.compressResult z.1.length z.2)) m t) s

/-- COMPRESS. -/
def execCompress (queue : Nat) (cmd : Bytes) (faults : List (Nat × WordFault)) (s : State) : Res :=
  live (whenB s.going (runMemory 0x08 queue cmd faults memCompress)) s

/-- DECOMPRESS. -/
def memDecompress (c : Bytes) (m : MemArgs) (s : State) : MemRun :=
  withSource c (mSrc c) (mLen c) 0 m true (fun bs t =>
    match decodeBlock (mAux c) bs (mArg0 c) with
    | none => memBad t bs.length
    | some o => toDest false (mDst c) o bs.length none m t) s

/-- DECOMPRESS. -/
def execDecompress (queue : Nat) (cmd : Bytes) (faults : List (Nat × WordFault)) (s : State) : Res :=
  live (whenB s.going (runMemory 0x09 queue cmd faults memDecompress)) s

end Sys2Proof.Machine
end

