-- ==== Sys2Proof/Machine/Transform.lean ====
section
/-! DEFINITION. The transform operators (R199 to R208): geometry, colour, normalisation, conversion, expression programs and
gain, each result to the bit. -/

namespace Sys2Proof.Machine

/-! ### Tensors (R191, R199) -/

/-- A sample as FP32 with channels interleaved, frames first, rows top to bottom. -/
structure Tensor where
  frames : Nat
  h : Nat
  w : Nat
  c : Nat
  data : List F32
  deriving DecidableEq, Repr

/-- Elements of a tensor. -/
def Tensor.elems (t : Tensor) : Nat := t.frames * t.h * t.w * t.c

/-- Element at frame, row, column and channel. -/
def Tensor.at_ (t : Tensor) (f y x ch : Nat) : F32 := t.data.getD (((f * t.h + y) * t.w + x) * t.c + ch) fZero

/-- A coordinate clamped to 0 to n − 1. -/
def clampIdx (n : Nat) (i : Int) : Nat := if i < 0 then 0 else min i.toNat (n - 1)

/-- Element at a place that is clamped to the tensor. -/
def Tensor.clamped (t : Tensor) (f : Nat) (y x : Int) (ch : Nat) : F32 := t.at_ f (clampIdx t.h y) (clampIdx t.w x) ch

/-- A tensor built place by place. -/
def Tensor.build (frames h w c : Nat) (g : Nat → Nat → Nat → Nat → F32) : Tensor where
  frames := frames
  h := h
  w := w
  c := c
  data := (List.range (frames * h * w * c)).map fun i => g (i / (h * w * c)) (i / (w * c) % h) (i / c % w) (i % c)

/-- A tensor changed pixel by pixel: `g` maps the channels of a pixel. -/
def Tensor.pixels (t : Tensor) (c : Nat) (g : List F32 → List F32) : Tensor where
  frames := t.frames
  h := t.h
  w := t.w
  c := c
  data := ((List.range (t.frames * t.h * t.w)).map fun i => g ((t.data.drop (i * t.c)).take t.c)).flatten

/-- A byte as FP32, exact. -/
def f32OfByte (b : Byte) : F32 := fOfNat b.toNat

/-! ### YUV (R200) -/

/-- Kr and Kb of a MATRIX: BT.601, BT.2020, otherwise BT.709. -/
def yuvK (m : Nat) : Q × Q :=
  if m = 1 then (Q.frac 299 1000, Q.frac 114 1000)
  else if m = 3 then (Q.frac 2627 10000, Q.frac 593 10000)
  else (Q.frac 2126 10000, Q.frac 722 10000)

/-- A value clamped to [0, 255]. -/
def clamp255 (v : F32) : F32 := fMin (fMax v fZero) (fOfNat 255)

/-- One pixel to RGB. -/
def yuvPixel (matrix : Nat) (y cb cr : Nat) : List F32 :=
  let full := bitOf matrix 7
  let k := yuvK (matrix % 8)
  let one := Q.ofInt 1
  let two := Q.ofInt 2
  let kg := (one.sub k.1).sub k.2
  let side (q : Q) : F32 := fConst (((two.mul q).mul (one.sub q)).div kg)
  let luma := if full then fOfNat y else fMul (fSub (fOfNat y) (fOfNat 16)) (fConst (Q.frac 255 219))
  let diff (c : Nat) : F32 :=
    let d := fSub (fOfNat c) (fOfNat 128)
    if full then d else fMul d (fConst (Q.frac 255 224))
  let r := fAdd luma (fMul (fConst (two.sub (two.mul k.1))) (diff cr))
  let b := fAdd luma (fMul (fConst (two.sub (two.mul k.2))) (diff cb))
  let g := fSub (fSub luma (fMul (side k.2) (diff cb))) (fMul (side k.1) (diff cr))
  [clamp255 r, clamp255 g, clamp255 b]

/-- The frames of a YUV 4:2:0 buffer as RGB. -/
def yuvTensor (matrix frames h w : Nat) (bs : Bytes) : Tensor :=
  let cw := ceilDiv w 2
  let plane := cw * ceilDiv h 2
  let size := w * h + 2 * plane
  let px (i : Nat) : List F32 :=
    let o := i / (w * h) * size
    let y := i / w % h
    let x := i % w
    let q := o + w * h + y / 2 * cw + x / 2
    yuvPixel matrix (byteAt bs (o + y * w + x)) (byteAt bs q) (byteAt bs (q + plane))
  { frames := frames, h := h, w := w, c := 3, data := ((List.range (frames * h * w)).map px).flatten }

/-! ### Reading and writing buffers (R199) -/

/-- Bytes of an element of an interleaved layout, with its format: UINT8, FP32 or a narrow one. -/
def elemBytes (layout : Nat) : Nat :=
  if layout ≤ 2 then 1 else if layout = 4 ∨ layout = 6 then 4 else if layout = 7 ∨ layout = 8 then 2 else 1

/-- One element of a layout as FP32. -/
def elemF32 (layout v : Nat) : F32 :=
  if layout ≤ 2 then fOfNat v
  else match layout with
    | 7 => bf16.toF32 v
    | 8 => fp16.toF32 v
    | 9 => e4m3.toF32 v
    | 10 => e5m2.toF32 v
    | _ => BitVec.ofNat 32 v

/-- The tensor of a sample, where its buffer carries the decode descriptor. An audio sample counts one pixel for each sample
frame, its WIDTH channels wide. -/
def Sample.tensor (x : Sample) : Option Tensor :=
  let layout := byteAt x.desc 2
  let w := field x.desc 4 4
  let h := field x.desc 8 4
  let fr := field x.desc 12 4
  let size := elemBytes layout
  if x.desc.isEmpty ∨ layout = 5 ∨ 10 < layout then none
  else if layout = 3 then some (yuvTensor (byteAt x.desc 3) fr h w x.data)
  else
    let n := x.data.length / size
    let vals : List F32 := (Machine.pieces size n x.data).map fun b => elemF32 layout (leVal b)
    if byteAt x.desc 0 = 3 then some { frames := fr, h := 1, w := 1, c := w, data := vals }
    else some { frames := fr, h := h, w := w, c := n / max 1 (fr * h * w), data := vals }

/-- The descriptor of a transform output: the input's, with the new geometry and layout. An audio sample keeps its sample
rate, and its WIDTH counts the values of a sample frame. -/
def tensorDesc (d : Bytes) (layout : Nat) (t : Tensor) (data : Bytes) : Bytes :=
  let audio := byteAt d 0 == 3
  sealDesc data (setField 2 1 layout (setField 4 4 (if audio then t.h * t.w * t.c else t.w)
    (setField 8 4 (if audio then field d 8 4 else t.h) (setField 12 4 t.frames d))))

/-- The NaN rule of R214: an output NaN that no input NaN or infinity explains. -/
def nanFails (i o : List F32) : Bool := o.any fIsNan && !(i.any fun v => fIsNan v || fIsInf v)

/-- A transform output, with the NaN rule. -/
def teDone (work : Nat) (x : Sample) (i o : List F32) (layout : Nat) (t : Tensor) (data : Bytes) : Completion :=
  let c := writeC work (tensorDesc x.desc layout t data) data
  if nanFails i o then { c with code := 5 } else c

/-- An FP32 output. -/
def teOut (work : Nat) (x : Sample) (i t : Tensor) : Completion := teDone work x i.data t.data 6 t (f32Bytes t.data)

/-- The cause "geometry", where a buffer holds no tensor the operator can read. -/
def noTensor : Completion := corruptC 0 15 0 noOffset

/-- Run a transform operator: `f` maps the tensor; none where its channels do not suit the operator. -/
def teRun (op : Nat) (e : Entry) (p : Pipeline) (x : Sample) (f : Bytes → Tensor → Option Tensor) : Completion :=
  let b := p.decl.paramsAt e.instance_
  match x.tensor with
  | none => noTensor
  | some t =>
    match f b t with
    | none => noTensor
    | some o =>
      let work := Config.teUnits op o.elems b
      e.within work (teOut work x t o)

/-! ### CROP_RESAMPLE (R201) -/

/-- An FP32 coordinate as an integer by `g`; an infinite one lies beyond every image. -/
def fIndex (g : Q → Int) (a : F32) : Int := if fIsNan a then Config.nanIndex else fClampInt g (-(2 ^ 40)) (2 ^ 40) a

/-- Keys kernel with a = −0.5 at a distance. -/
def keysAt (d : Q) : Q :=
  let a := d.abs
  let a2 := a.mul a
  let a3 := a2.mul a
  let half := Q.frac 1 2
  if a.le (Q.ofInt 1) then (((Q.frac 3 2).mul a3).sub ((Q.frac 5 2).mul a2)).add (Q.ofInt 1)
  else if a.lt (Q.ofInt 2) then
    (((Q.frac 5 2).mul a2).sub (half.mul a3)).add ((Q.ofInt 2).sub ((Q.ofInt 4).mul a))
  else Q.ofInt 0

/-- sin(πt) / (πt), t not an integer, in units of 2^-300. -/
def fxSinc (t : Q) : Int :=
  let x := t.num * fxPi / (t.den : Int)
  fxSin x * fxOne / x

/-- Lanczos-3 kernel at a distance that is a multiple of 1/64. -/
def lanczosAt (d : Q) : Q :=
  if d.num = 0 then Q.ofInt 1
  else if d.num % (d.den : Int) = 0 ∨ (Q.ofInt 3).le d.abs then Q.ofInt 0
  else ⟨fxSinc d * fxSinc (d.div (Q.ofInt 3)) / fxOne, 2 ^ 300⟩

/-- The taps of a coordinate with their weights, in ascending order; nearest has one tap and no weight. -/
def taps (kernel : Nat) (s : F32) : List (Int × F32) :=
  if kernel = 0 then [(fIndex Q.floor (fAdd s (fConst (Q.frac 1 2))), fOne)]
  else
    let i := fIndex Q.floor s
    let f := fSub s (fFloor s)
    if kernel = 1 then [(i, fSub fOne f), (i + 1, f)]
    else
      let q := fIndex Q.roundEven (fMul f (fOfNat 64))
      let i1 := if q = 64 then i + 1 else i
      let q1 := if q = 64 then 0 else q
      let lo : Int := if kernel = 2 then -1 else -2
      let n := if kernel = 2 then 4 else 6
      let at_ (k : Nat) : Q :=
        let d := (Q.ofInt (lo + (k : Int))).sub ⟨q1, 64⟩
        if kernel = 2 then keysAt d else lanczosAt d
      let sum := (List.range n).foldl (fun (a : Q) (k : Nat) => a.add (at_ k)) (Q.ofInt 0)
      (List.range n).map fun (k : Nat) => (i1 + lo + (k : Int), fConst ((at_ k).div sum))

/-- The weighted sum over taps, in ascending order from the first product; one tap passes its value unchanged. -/
def tapSum (ts : List (Int × F32)) (v : Int → F32) : F32 :=
  match ts with
  | [] => fZero
  | [a] => v a.1
  | a :: r => r.foldl (fun (acc : F32) (b : Int × F32) => fAdd acc (fMul b.2 (v b.1))) (fMul a.2 (v a.1))

/-- A value half. -/
def fHalf : F32 := 0x3F000000#32

/-- Source coordinate of output column or row `o`. -/
def cropCoord (lo size : F32) (dim out o : Nat) : F32 :=
  let c := fMul lo (fOfNat dim)
  let step := fDiv (fMul size (fOfNat dim)) (fOfNat out)
  fSub (fAdd c (fMul (fAdd (fOfNat o) fHalf) step)) fHalf

/-- Resample a tensor: horizontally into rows, then vertically. -/
def cropTensor (b : Bytes) (par : Nat → F32) (t : Tensor) : Tensor :=
  let ow := field b 0 2
  let oh := field b 2 2
  let k := byteAt b 4
  let tx := (List.range ow).map fun x => taps k (cropCoord (par 0) (par 2) t.w ow x)
  let ty := (List.range oh).map fun y => taps k (cropCoord (par 1) (par 3) t.h oh y)
  let rows := Tensor.build t.frames t.h ow t.c fun f y x ch => tapSum (tx.getD x []) fun i => t.clamped f y i ch
  Tensor.build t.frames oh ow t.c fun f y x ch => tapSum (ty.getD y []) fun i => rows.clamped f i x ch

/-- CROP_RESAMPLE on a sample. -/
def cropOp (e : Entry) (p : Pipeline) (x : Sample) (_ : State) : Completion :=
  teRun 0x0301 e p x fun b t => some (cropTensor b (p.shotParam x) t)

/-- CROP_RESAMPLE. -/
def execCropResample (queue : Nat) (s : State) : Res := live (runPure 0x0301 queue cropOp) s

/-! ### FLIP (R203) -/

/-- FLIP on a sample. -/
def flipOp (e : Entry) (p : Pipeline) (x : Sample) (_ : State) : Completion :=
  let fx := !fIsZero (p.shotParam x 6)
  let fy := !fIsZero (p.shotParam x 7)
  teRun 0x0302 e p x fun _ t => some (Tensor.build t.frames t.h t.w t.c fun f y c ch =>
    t.at_ f (if fy then t.h - 1 - y else y) (if fx then t.w - 1 - c else c) ch)

/-- FLIP. -/
def execFlip (queue : Nat) (s : State) : Res := live (runPure 0x0302 queue flipOp) s

/-! ### AFFINE_WARP (R202) -/

/-- A tap of a warp: inside the image, or FILL. -/
def Tensor.filled (t : Tensor) (fill : F32) (f : Nat) (y x : Int) (ch : Nat) : F32 :=
  if 0 ≤ y ∧ y < t.h ∧ 0 ≤ x ∧ x < t.w then t.at_ f y.toNat x.toNat ch else fill

/-- A sample at FP32 coordinates: horizontally first, then vertically. -/
def sampleAtXY (kernel : Nat) (v : Int → Int → F32) (sx sy : F32) : F32 :=
  tapSum (taps kernel sy) fun y => tapSum (taps kernel sx) fun x => v y x

/-- The warped tensor. -/
def warpTensor (b : Bytes) (theta sigma : F32) (t : Tensor) : Tensor :=
  let c := fCosDeg theta
  let s := fSinDeg theta
  let cx := fDiv (fOfNat t.w) (fOfNat 2)
  let cy := fDiv (fOfNat t.h) (fOfNat 2)
  Tensor.build t.frames t.h t.w t.c fun f y x ch =>
    let dx := fSub (fAdd (fOfNat x) fHalf) cx
    let dy := fSub (fAdd (fOfNat y) fHalf) cy
    let sx := fSub (fAdd (fDiv (fAdd (fMul c dx) (fMul s dy)) sigma) cx) fHalf
    let sy := fSub (fAdd (fDiv (fSub (fMul c dy) (fMul s dx)) sigma) cy) fHalf
    sampleAtXY (byteAt b 0) (fun yy xx => t.filled (f32At b 4) f yy xx ch) sx sy

/-- AFFINE_WARP on a sample. -/
def warpOp (e : Entry) (p : Pipeline) (x : Sample) (_ : State) : Completion :=
  let sigma := p.shotParam x 5
  if fLe sigma fZero then corruptC 0 14 0 noOffset
  else teRun 0x0303 e p x fun b t => some (warpTensor b (p.shotParam x 4) sigma t)

/-- AFFINE_WARP. -/
def execAffineWarp (queue : Nat) (s : State) : Res := live (runPure 0x0303 queue warpOp) s

/-! ### COLOUR_JITTER (R204) -/

/-- (0.299 a + 0.587 b) + 0.114 c. -/
def lumaOf (a b c : F32) : F32 :=
  fAdd (fAdd (fMul (fConst (Q.frac 299 1000)) a) (fMul (fConst (Q.frac 587 1000)) b)) (fMul (fConst (Q.frac 114 1000)) c)

/-- Luma of a pixel; a grey pixel is its own. -/
def pixelLuma (px : List F32) : F32 :=
  match px with
  | r :: g :: b :: _ => lumaOf r g b
  | [v] => v
  | _ => fZero

/-- Channels that carry colour: the first three, or the grey one. An alpha channel passes unchanged. -/
def mapColour (f : F32 → F32) (px : List F32) : List F32 := (px.take 3).map f ++ px.drop 3

/-- A hue shift through HSV. -/
def hueShift (shift : F32) (px : List F32) : List F32 :=
  match px with
  | r :: g :: b :: rest =>
    let mx := fMax (fMax r g) b
    let mn := fMin (fMin r g) b
    let d := fSub mx mn
    if fEq d fZero then px
    else
      let h0 := if fEq mx r then fDiv (fSub g b) d
        else if fEq mx g then fAdd (fDiv (fSub b r) d) (fOfNat 2)
        else fAdd (fDiv (fSub r g) d) (fOfNat 4)
      let h1 := fAdd h0 (fDiv shift (fOfNat 60))
      let h := fSub h1 (fMul (fOfNat 6) (fFloor (fDiv h1 (fOfNat 6))))
      let i := fIndex Q.floor h
      let f := fSub h (fFloor h)
      let q := fSub mx (fMul d f)
      let t := fAdd mn (fMul d f)
      let sextant : Nat := if 0 ≤ i ∧ i < 6 then i.toNat else Config.hueSextant h % 6
      (match sextant with
        | 0 => [mx, t, mn]
        | 1 => [q, mx, mn]
        | 2 => [mn, mx, t]
        | 3 => [mn, q, mx]
        | 4 => [t, mn, mx]
        | _ => [mx, mn, q]) ++ rest
  | _ => px

/-- The mean luma of every pixel: the fixed-order sum divided by the count. -/
def Tensor.meanLuma (t : Tensor) : F32 :=
  let n := t.frames * t.h * t.w
  fDiv (fixedSum ((List.range n).map fun i => pixelLuma ((t.data.drop (i * t.c)).take t.c))) (fOfNat n)

/-- The jittered tensor: RGB, RGBA or grey. -/
def jitterTensor (par : Nat → F32) (t : Tensor) : Option Tensor :=
  if t.c ≠ 1 ∧ t.c ≠ 3 ∧ t.c ≠ 4 then none
  else
    let a := t.pixels t.c (mapColour fun v => fMul v (par 8))
    let mu := a.meanLuma
    let b := a.pixels t.c (mapColour fun v => fAdd (fMul (fSub v mu) (par 9)) mu)
    let sat (px : List F32) : List F32 :=
      let l := pixelLuma px
      mapColour (fun v => fAdd l (fMul (fSub v l) (par 10))) px
    let c := if t.c = 1 then b else (b.pixels t.c sat).pixels t.c (hueShift (par 11))
    some (c.pixels t.c (mapColour clamp255))

/-- COLOUR_JITTER on a sample. -/
def jitterOp (e : Entry) (p : Pipeline) (x : Sample) (_ : State) : Completion :=
  teRun 0x0304 e p x fun _ t => jitterTensor (p.shotParam x) t

/-- COLOUR_JITTER. -/
def execColourJitter (queue : Nat) (s : State) : Res := live (runPure 0x0304 queue jitterOp) s

/-! ### NORMALIZE and AUDIO_GAIN (R205) -/

/-- NORMALIZE on a sample; its parameters name 8 channels. -/
def normalizeOp (e : Entry) (p : Pipeline) (x : Sample) (_ : State) : Completion :=
  teRun 0x0305 e p x fun b t =>
    if 8 < t.c then none
    else some (t.pixels t.c fun px =>
      px.zipIdx.map fun v => fMul (fSub v.1 (f32At b (4 * v.2))) (f32At b (32 + 4 * v.2)))

/-- NORMALIZE. -/
def execNormalize (queue : Nat) (s : State) : Res := live (runPure 0x0305 queue normalizeOp) s

/-- AUDIO_GAIN on a sample. -/
def gainOp (e : Entry) (p : Pipeline) (x : Sample) (_ : State) : Completion :=
  let k := fDecibel (p.shotParam x 12)
  teRun 0x0308 e p x fun b t =>
    let cut (v : F32) : F32 := if bitOf (byteAt b 0) 0 then fMin (fMax v 0xBF800000#32) fOne else v
    some { t with data := t.data.map fun v => cut (fMul v k) }

/-- AUDIO_GAIN. -/
def execAudioGain (queue : Nat) (s : State) : Res := live (runPure 0x0308 queue gainOp) s

/-! ### CONVERT (R206) -/

/-- A tensor in one channel from luma. -/
def Tensor.grey (t : Tensor) : Tensor := t.pixels 1 fun px => [pixelLuma px]

/-- LAYOUT of a converted tensor; none where the table has none. -/
def convertLayout (fmt c : Nat) : Option Nat :=
  match fmt with
  | 0 => some 6
  | 1 => some 7
  | 2 => some 8
  | 3 => some 9
  | 4 => some 10
  | _ => if c = 3 then some 0 else if c = 4 then some 1 else if c = 1 then some 2 else none

/-- One element in the final format: its code. `sr` is the draw word of a rounding site. -/
def convertElem (fmt flags : Nat) (sr : Option Nat) (v : F32) : Nat :=
  if fmt = 12 then toUint8 (if bitOf flags 2 && decide (fp32.magOf v.toNat < 2 ^ 23) && !fIsNan v then fZeroOf (fNegative v) else v)
  else if fmt = 0 then
    (if bitOf flags 2 && decide (fp32.magOf v.toNat < 2 ^ 23) then fZeroOf (fNegative v) else v).toNat
  else match fmtOf fmt with
    | some f => f.ofF32 (bitOf flags 1) (bitOf flags 2) sr v
    | none => 0

/-- CONVERT on a sample. -/
def convertOp (e : Entry) (p : Pipeline) (x : Sample) (_ : State) : Completion :=
  let b := p.decl.paramsAt e.instance_
  let fmt := byteAt b 0
  let flags := byteAt b 1
  let site := p.decl.firstSite e.instance_
  match x.tensor with
  | none => noTensor
  | some i =>
    let t := if fmt = 12 ∧ bitOf flags 3 = true ∧ (i.c = 3 ∨ i.c = 4) then i.grey else i
    match convertLayout fmt t.c with
    | none => noTensor
    | some layout =>
      if bitOf flags 0 = true ∧ i.elems ≠ field b 4 4 then corruptC 0 15 0 noOffset
      else
        let k := x.draws p.decl
        let word (n : Nat) : Option Nat := if bitOf flags 0 then some (k.word 7 (site * 2 ^ 24 + n)) else none
        let codes : List Nat := t.data.zipIdx.map fun v => convertElem fmt flags (word v.2) v.1
        let out : List F32 := codes.map (elemF32 layout)
        let work := Config.teUnits 0x0306 t.elems b
        e.within work (teDone work x i.data out layout t ((codes.map (putLE (elemBytes layout))).flatten))

/-- CONVERT. -/
def execConvert (queue : Nat) (s : State) : Res := live (runPure 0x0306 queue convertOp) s

/-! ### EXPRESSION (R207, R208) -/

/-- What a run of a program reads beside its registers. -/
structure ExEnv where
  inp : Tensor
  frame : Nat
  y : Nat
  x : Nat
  oh : Nat
  ow : Nat
  oc : Nat
  arg : Nat → F32
  par : Nat → F32
  rand : Nat → Nat → F32

/-- Registers and output channels of a run. -/
structure ExRun where
  regs : List F32
  outs : List F32

/-- A truth value. -/
def fTruth (b : Bool) : F32 := if b then fOne else fZero

/-- Is a value other than 0.0? A NaN is. -/
def fNonzero (a : F32) : Bool := !fEq a fZero

/-- Value an instruction puts into register d: `k` numbers the RAND instructions in program order. -/
def exValue (env : ExEnv) (k op imm : Nat) (a b c : F32) : F32 :=
  let opn : F32 := Config.exprOpen op imm
  let frame : Nat := clampIdx env.inp.frames (fIndex Q.roundEven c)
  let ch : Nat := min (imm % 8) (env.inp.c - 1)
  match op with
  | 0x01 => a
  | 0x02 => BitVec.ofNat 32 imm
  | 0x03 => fAdd a b
  | 0x04 => fSub a b
  | 0x05 => fMul a b
  | 0x06 => fDiv a b
  | 0x07 => fFma a b c
  | 0x08 => fNeg a
  | 0x09 => fAbs a
  | 0x0A => fMin a b
  | 0x0B => fMax a b
  | 0x0C => fSqrt a
  | 0x0D => fDiv fOne a
  | 0x0E => fRsqrt a
  | 0x0F => fExp a
  | 0x10 => fExp (fMul a 0x3F317218#32)
  | 0x11 => fTanh a
  | 0x12 => fSigmoid a
  | 0x13 => fFloor a
  | 0x14 => fCeil a
  | 0x15 => fRoundEven a
  | 0x16 => fTrunc a
  | 0x17 => fSub a (fFloor a)
  | 0x18 => fMod a b
  | 0x19 => fCopysign a b
  | 0x1A => fMin (fMax a b) c
  | 0x1B => fAdd a (fMul (fSub b a) c)
  | 0x1C => if fNonzero c then a else b
  | 0x1D => fTruth (fEq a b)
  | 0x1E => fTruth (fLt a b)
  | 0x1F => fTruth (fLe a b)
  | 0x20 => fTruth (fIsNan a)
  | 0x21 => fTruth (fNonzero a && fNonzero b)
  | 0x22 => fTruth (fNonzero a || fNonzero b)
  | 0x23 => fTruth (fEq a fZero)
  | 0x25 => env.inp.clamped frame (fIndex Q.roundEven b) (fIndex Q.roundEven a) ch
  | 0x26 => sampleAtXY 1 (fun y x => env.inp.clamped frame y x ch) a b
  | 0x28 => if imm = 0 then fOfNat env.x else if imm = 1 then fOfNat env.y else if imm = 2 then fOfNat env.frame else opn
  | 0x29 => match imm with
    | 0 => fOfNat env.inp.w
    | 1 => fOfNat env.inp.h
    | 2 => fOfNat env.inp.frames
    | 3 => fOfNat env.inp.c
    | 4 => fOfNat env.ow
    | 5 => fOfNat env.oh
    | 6 => fOfNat env.inp.frames
    | 7 => fOfNat env.oc
    | _ => opn
  | 0x2A => if imm < 8 then env.arg imm else opn
  | 0x2B => if imm < 16 then env.par imm else opn
  | 0x2C => env.rand imm k
  | 0x2D => lumaOf a b c
  | 0x2E => if 1 ≤ imm ∧ imm ≤ 4 then
      (match fmtOf imm with
        | some f => f.toF32 (f.ofF32 false false none a)
        | none => opn)
    else opn
  | _ => opn

/-- Does an opcode write register d? -/
def exWrites (op : Nat) : Bool := !(op == 0x00 || op == 0x24 || op == 0x27 || op == 0x2F)

/-- One run: `skip` instructions are still to be skipped, `k` RAND instructions have gone by. -/
def exRun (env : ExEnv) : List Nat → Nat → Nat → ExRun → ExRun
  | [], _, _, r => r
  | w :: ws, skip, k, r =>
    let op := exOp w
    let k1 := if op = 0x2C then k + 1 else k
    let a := r.regs.getD (bits w 52 48) fZero
    match skip with
    | n + 1 => exRun env ws n k1 r
    | 0 =>
      if op = 0x2F then r
      else if op = 0x24 then exRun env ws (if fEq a fZero then exImm w else 0) k1 r
      else if op = 0x27 then
        exRun env ws 0 k1 { r with outs := if exImm w % 8 < env.oc then r.outs.set (exImm w % 8) a else r.outs }
      else if exWrites op then
        let v := exValue env k op (exImm w) a (r.regs.getD (bits w 47 43) fZero) (r.regs.getD (bits w 42 38) fZero)
        exRun env ws 0 k1 { r with regs := r.regs.set (bits w 57 53) v }
      else exRun env ws 0 k1 r

/-- A size of the header; 0 stands for the input's. -/
def asInput (v d : Nat) : Nat := if v = 0 then d else v

/-- A uniform FP32 of a RAND instruction (R208). -/
def exRand (d : Decl) (x : Sample) (inst e total imm k : Nat) : F32 :=
  let j := e * total + k
  let key := x.draws d
  if imm = 0 then fUniform (key.word 1 (d.exOrdinal inst * 2 ^ 32 + j % 2 ^ 32))
  else fUniform (key.word (((d.ops[inst]?).map OpE.stream).getD 0) j)

/-- The output tensor of a program. -/
def exTensor (p : Pipeline) (x : Sample) (inst : Nat) (b : Bytes) (t : Tensor) : Tensor :=
  let code := exCode b
  let total := (exRands b).length
  let ow := asInput (field b 2 2) t.w
  let oh := asInput (field b 4 2) t.h
  let oc := asInput (byteAt b 6) t.c
  let one (e : Nat) : List F32 :=
    let env : ExEnv :=
      { inp := t, frame := e / (oh * ow), y := e / ow % oh, x := e % ow, oh := oh, ow := ow, oc := oc,
        arg := p.shotArg x, par := p.shotParam x, rand := exRand p.decl x inst e total }
    (exRun env code 0 0 { regs := List.replicate 32 fZero, outs := List.replicate oc fZero }).outs
  { frames := t.frames, h := oh, w := ow, c := oc, data := ((List.range (t.frames * oh * ow)).map one).flatten }

/-- EXPRESSION on a sample. -/
def expressionOp (e : Entry) (p : Pipeline) (x : Sample) (_ : State) : Completion :=
  let b := p.decl.paramsAt e.instance_
  match x.tensor with
  | none => noTensor
  | some t =>
    let positions := t.frames * asInput (field b 4 2) t.h * asInput (field b 2 2) t.w
    let work := ceilDiv positions 256 * field b 0 2
    e.within work (teOut work x t (exTensor p x e.instance_ b t))

/-- EXPRESSION. -/
def execExpression (queue : Nat) (s : State) : Res := live (runPure 0x0307 queue expressionOp) s

end Sys2Proof.Machine
end

