-- ==== Sys2Proof/Machine/Model.lean ====
section
/-! DEFINITION. Model packages: their load (R209, R212), the matrix engine's products with their checks (R194, R195, R214), the
layers (R210, R211) and the operators SCORE_MODEL, EMBED_MODEL and SCORE_FILTER (R127, R128, R213). -/

namespace Sys2Proof.Machine

/-! ### Package images (R209) -/

/-- A layer entry. -/
def layerOf (b : Bytes) : Layer where
  type := byteAt b 0
  flags := byteAt b 1
  outFmt := byteAt b 2
  wFmt := byteAt b 3
  actFmt := byteAt b 4
  inp := field b 6 2
  res := field b 8 2
  rows := field b 12 4
  k := field b 16 4
  n := field b 20 4
  p0 := field b 24 4
  p1 := field b 28 4
  p2 := field b 32 4
  actScale := f32At b 36
  rangeMax := f32At b 40
  wOff := field b 48 8
  wBytes := field b 56 8

/-- Layer entries of an image. -/
def imageLayers (d : Bytes) : List Bytes := pieces 64 (field d 6 2) ((d.drop 128).take (64 * field d 6 2))

/-- The weights of an image. -/
def imageWeights (d : Bytes) : Bytes := sub d (128 + 64 * field d 6 2) (field d 32 8)

/-- The package of an image. -/
def packageOf (d : Bytes) : Package where
  kind := byteAt d 8
  inputKind := byteAt d 9
  inH := field d 12 4
  inW := field d 16 4
  inC := field d 20 4
  outElems := field d 24 4
  packageId := field d 40 8
  layers := (imageLayers d).map layerOf
  weights := imageWeights d

/-- FLAGS of a layer. -/
def Layer.sr (l : Layer) : Bool := bitOf l.flags 0
/-- FLUSH. -/
def Layer.flush (l : Layer) : Bool := bitOf l.flags 1
/-- SAT. -/
def Layer.sat (l : Layer) : Bool := bitOf l.flags 2
/-- BIAS. -/
def Layer.bias (l : Layer) : Bool := bitOf l.flags 3
/-- CAUSAL. -/
def Layer.causal (l : Layer) : Bool := bitOf l.flags 4
/-- RESIDUAL. -/
def Layer.residual (l : Layer) : Bool := bitOf l.flags 5

/-- Elements of a layer's output. -/
def Layer.elems (l : Layer) : Nat := l.rows * l.n

/-- Does the layer run on the ME? -/
def Layer.isMe (l : Layer) : Bool := l.type == 1 || l.type == 2 || l.type == 3 || l.type == 8

/-- The largest K of the layer's products: an ATTENTION multiplies over its head width and over its rows. -/
def Layer.longestK (l : Layer) : Nat := if l.type = 3 then max l.p1 l.rows else l.k

/-- Does the layer multiply by weights of its own? -/
def Layer.weighs (l : Layer) : Bool := l.type == 1 || l.type == 8

/-- An integer format. -/
def isIntFmt (f : Nat) : Bool := f == 5 || f == 6

/-- Bits of an element of a format. -/
def fmtBits (f : Nat) : Nat :=
  if f = 0 then 32 else if f = 1 ∨ f = 2 then 16 else if f = 6 ∨ f = 11 then 4 else if f = 9 ∨ f = 10 then 6 else 8

/-- Does a format carry MX scales? -/
def isMx (f : Nat) : Bool := decide (7 ≤ f ∧ f ≤ 11)

/-- Bytes of a layer's K × N elements. -/
def Layer.elemBytes (l : Layer) : Nat := ceilDiv (l.k * l.n * fmtBits l.wFmt) 8

/-- Bytes of a layer's scales: MX scales, or column scales of an integer format. -/
def Layer.scaleBytes (l : Layer) : Nat :=
  if isMx l.wFmt then ceilDiv l.k 32 * l.n else if isIntFmt l.wFmt then 4 * l.n else 0

/-- Bytes of the biases. -/
def Layer.biasBytes (l : Layer) : Nat := if l.bias then 4 * l.n else 0

/-- W_BYTES by R210: weights and scales, the norms' γ, or the embedding table, then the biases. -/
def Layer.needBytes (l : Layer) : Nat :=
  (if l.weighs then l.elemBytes + l.scaleBytes
    else if l.type = 4 ∨ l.type = 5 then 4 * l.n
    else if l.type = 10 then 4 * l.p0 * l.n
    else 0) + l.biasBytes

/-- Window fields of CONV2D and POOL: kernel height and width, and stride. -/
def Layer.kh (l : Layer) : Nat := l.p2 % 256
/-- Kernel width. -/
def Layer.kw (l : Layer) : Nat := l.p2 / 2 ^ 8 % 256
/-- Stride. -/
def Layer.stride (l : Layer) : Nat := l.p2 / 2 ^ 16 % 256
/-- POOL mode. -/
def Layer.mode (l : Layer) : Nat := l.p2 / 2 ^ 24 % 4
/-- Image height. -/
def Layer.imgH (l : Layer) : Nat := l.p0 % 2 ^ 16
/-- Image width. -/
def Layer.imgW (l : Layer) : Nat := l.p0 / 2 ^ 16

/-- Window positions along a side, without padding. -/
def windows (size k stride : Nat) : Nat := if k = 0 ∨ stride = 0 ∨ size < k then 0 else (size - k) / stride + 1

/-- Output rows of a window layer. -/
def Layer.windowRows (l : Layer) : Nat := windows l.imgH l.kh l.stride * windows l.imgW l.kw l.stride

/-- Does an input of `n` elements chain with the layer's own dimensions? `other` is layer P0 of a MATMUL. -/
def Layer.chains (l : Layer) (n : Nat) (other : Option Layer) : Bool :=
  match l.type with
  | 1 => n == l.rows * l.k
  | 2 => match other with
    | none => false
    | some o =>
      decide (1 ≤ l.p1) && n == l.rows * l.k * l.p1 && l.n % l.p1 == 0
        && (if l.p2 = 1 then o.n == l.k * l.p1 && o.rows * l.p1 == l.n else o.rows == l.k && o.n == l.n)
  | 3 => decide (1 ≤ l.p0 ∧ 1 ≤ l.p1) && n == l.rows * 3 * l.p0 * l.p1 && l.n == l.p0 * l.p1
  | 8 => n == l.imgH * l.imgW * l.p1 && l.k == l.kh * l.kw * l.p1 && l.rows == l.windowRows && decide (1 ≤ l.rows)
  | 9 =>
    if l.mode = 2 then l.rows == 1 && decide (1 ≤ l.n) && n % max 1 l.n == 0 && decide (l.n ≤ n)
    else decide (l.mode < 2) && n == l.imgH * l.imgW * l.p1 && l.n == l.p1 && l.rows == l.windowRows && decide (1 ≤ l.rows)
  | _ => n == l.rows * l.n

/-- One layer entry by R195, R197, R209, R210 and R212; `before` are the layers before it, in order. -/
def layerOk (p : Package) (before : List Layer) (b : Bytes) : Bool :=
  let l := layerOf b
  let other := before[l.p0]?
  let tokens := p.inputKind == 1
  let n : Option Nat := if l.inp = 0xFFFF then
      (if tokens then none else some (p.inH * p.inW * p.inC)) else (before[l.inp]?).map Layer.elems
  decide (1 ≤ l.type ∧ l.type ≤ 10) && decide (l.flags < 64) && decide (l.outFmt ≤ 4) && byteAt b 5 == 0 && zeroAt b 10 2
    && zeroAt b 44 4 && decide (1 ≤ l.rows ∧ 1 ≤ l.n)
    && (if l.isMe then decide (1 ≤ l.actFmt ∧ l.actFmt ≤ 6) else l.actFmt == 0)
    && (if l.weighs then decide (1 ≤ l.wFmt ∧ l.wFmt ≤ 11) && isIntFmt l.wFmt == isIntFmt l.actFmt else l.wFmt == 0)
    && (if l.type = 10 then l.inp == 0xFFFF && tokens && l.rows == p.inH
        else match n with
          | none => false
          | some n => l.chains n other)
    && (!l.residual || (before[l.res]?).any fun o => o.rows == l.rows && o.n == l.n)
    && l.wOff % 64 == 0 && l.wBytes == l.needBytes && decide (l.wOff + l.wBytes ≤ p.weights.length)
    && !(l.isMe && isIntFmt l.actFmt && decide (65536 < l.longestK))
    && !(l.sr && (decide (16777216 < l.elems) || l.outFmt == 0))

/-- Every layer, each against those before it. -/
def layersOk (p : Package) : List Layer → List Bytes → Bool
  | _, [] => true
  | before, b :: t => layerOk p before b && layersOk p (before ++ [layerOf b]) t

/-- Everything of an image that ST_INVALID_FIELD covers. -/
def packageOk (d : Bytes) : Bool :=
  let p := packageOf d
  let tokens := p.inputKind == 1
  field d 0 4 == 0x4D505A45 && field d 4 2 == 1 && decide (1 ≤ field d 6 2 ∧ field d 6 2 ≤ 48) && decide (p.kind ≤ 1)
    && decide (p.inputKind ≤ 1) && zeroAt d 10 2 && zeroAt d 28 4 && zeroAt d 96 28
    && (if tokens then decide (1 ≤ p.inH ∧ p.inH ≤ 65536) && p.inW == 0 && p.inC == 0
        else decide (1 ≤ p.inH ∧ 1 ≤ p.inW ∧ 1 ≤ p.inC ∧ p.inC ≤ 8))
    && decide (1 ≤ p.outElems ∧ p.outElems ≤ if p.kind = 0 then 16 else 4096) && decide (field d 32 8 ≤ 2 ^ 36)
    && d.length == 128 + 64 * field d 6 2 + field d 32 8 + 96
    && layersOk p [] (imageLayers d)
    && p.layers.getLast?.any fun l => l.elems == p.outElems && l.outFmt == 0

/-- Do the header's CRC, the weights' digest and the signature verify (R209, R465)? -/
def packageSigned (cert d : Bytes) : Bool :=
  crc32c (d.take 124) == field d 124 4 && sha384 (imageWeights d) == sub d 48 48 && !cert.isEmpty
    && Config.ecdsaVerifies cert (d.take (d.length - 96)) (d.drop (d.length - 96))

/-! ### MODEL_PACKAGE_LOAD (R212) -/

/-- SLOT of the command. -/
def modelSlot (c : Cmd) : Nat := c.p8 32
/-- UNLOAD. -/
def modelUnload (c : Cmd) : Bool := bitOf (c.p8 33) 0

/-- The unit a load holds. -/
def modelTarget (c : Cmd) (_ : State) : Nat := 2 ^ 21 + modelSlot c

/-- Does a running pipeline name a model slot? -/
def State.modelNamed (s : State) (slot : Nat) : Bool :=
  s.pipes.any fun kv => kv.2.active && kv.2.decl.ops.any fun o => (o.op == 0x0401 || o.op == 0x0402) && o.slot == slot

/-- The checks that come before the image. -/
def modelCheck (c : Cmd) (s : State) : Nat :=
  if 7 < modelSlot c ∨ 1 < c.p8 33 ∨ !(if modelUnload c then c.noData else c.hasData) then stInvalidField
  else if s.modelNamed (modelSlot c) ∨ s.loadOutstanding c (fun x => modelSlot x == modelSlot c) then stBusy
  else stOk

/-- Weights of the packages loaded in the other slots. -/
def State.otherWeights (s : State) (slot : Nat) : Nat :=
  ((s.slots.models.filter fun kv => kv.1 != slot).map fun kv => kv.2.weights.length).sum

/-- The final slice: UNLOAD answers the PACKAGE_ID it removes; an image is verified, and waits for its completion to be written. -/
def modelDone (l : LongOp) (s : State) : State :=
  let d := l.data
  let slot := modelSlot l.cmd
  if modelUnload l.cmd then
    if thas s.slots.models slot then
      finish l.pair l.cid stOk (((tget s.slots.models slot).map Package.packageId).getD 0)
        { s with slots := { s.slots with models := tdel s.slots.models slot } }
    else refuse l.pair l.cid stPrecondition s
  else if !packageOk d then refuse l.pair l.cid stInvalidField s
  else if !packageSigned s.pow.modelCert d then refuse l.pair l.cid stSignature s
  else if 2 ^ 36 < s.otherWeights slot + field d 32 8 then refuse l.pair l.cid stNoResources s
  else
    let key := s.ordOf l.pair l.cid * 8 + slot
    finish l.pair l.cid stOk (field d 40 8) (storeObject 16 key d
      { s with slots := { s.slots with pendModels := tput s.slots.pendModels key (packageOf d) } })

/-- MODEL_PACKAGE_LOAD. -/
def execModelPackageLoad (pair cid : Nat) (s : State) : Res := live (runLong 0x0204 pair cid modelTarget modelCheck modelDone) s

/-! ### Matrix engine products (R194, R195) -/

/-- A matrix, row by row. -/
abbrev Mat := List (List F32)

/-- Columns of a matrix of width n. -/
def columns (n : Nat) (m : Mat) : Mat := (List.range n).map fun j => m.map fun r => r.getD j fZero

/-- Rows of k elements of a flat run. -/
def rowsOf (rows k : Nat) (xs : List F32) : Mat := (List.range rows).map fun i => (xs.drop (i * k)).take k

/-- An ME operand element: a value of its format, and the exponent of its MX scale, none for the NaN scale. -/
structure MeElem where
  v : F32
  scale : Option Int
  deriving DecidableEq, Repr

/-- A value without a scale. -/
def plainElem (v : F32) : MeElem := { v := v, scale := some 0 }

/-- The value of an element as FP32. -/
def MeElem.value (e : MeElem) : F32 :=
  match e.scale with
  | none => fNan
  | some k => fScale e.v k

/-- The product of two elements, formed exactly with both scales and rounded once. -/
def meMul (a b : MeElem) : F32 :=
  match a.scale, b.scale with
  | some i, some j =>
    if fFinite a.v && fFinite b.v then
      fRound (fNegative a.v != fNegative b.v) (((fVal a.v).mul (fVal b.v)).mul (Q.pow2 (i + j)))
    else fMul a.v b.v
  | _, _ => fNan

/-- One dot product: the fixed-order sum of the products. -/
def meDot (a b : List MeElem) : F32 := fixedSum (List.zipWith meMul a b)

/-- An operand of a product: rows of A, or columns of B, in a floating-point or MX format, or in integers with the scale of
each column. -/
inductive MeSide where
  | float (m : List (List MeElem))
  | ints (m : List (List Int)) (scales : List F32)
  deriving DecidableEq, Repr

/-- An integer dot product, exact. -/
def intDot (a b : List Int) : Int := (List.zipWith (· * ·) a b).foldl (· + ·) 0

/-- What a product gives: the result before bias, and whether its checks hold. -/
structure MeOut where
  c : Mat
  ok : Bool
  deriving DecidableEq, Repr

/-! ### Plausibility checks (R214) -/

/-- The bound of a check. -/
def checkBound (m k : Nat) (u : F32) : F32 :=
  fAdd (fMul (fMul (fConst (Q.pow2 (-16))) (fOfNat (ceilDiv k 32 + ceilDiv m 32 + 10))) u) (fConst (Q.pow2 (-126)))

/-- One column of C against the column sums of A and the column of B. -/
def sumHolds (m k : Nat) (ccol bcol asum aabs : List F32) : Bool :=
  let s := fixedSum ccol
  let t := fixedSum (List.zipWith fMul asum bcol)
  let u := fixedSum (List.zipWith fMul aabs (bcol.map fAbs))
  !(fFinite u && fLt (checkBound m k u) (fAbs (fSub s t)))

/-- The column check of a product: A is m × k, B k × n given by columns. -/
def columnsHold (m k n : Nat) (a : Mat) (bcols : Mat) (c : Mat) : Bool :=
  let acols := columns k a
  let asum := acols.map fixedSum
  let aabs := acols.map fun x => fixedSum (x.map fAbs)
  (List.zip bcols (columns n c)).all fun p => sumHolds m k p.2 p.1 asum aabs

/-- The checks on a floating-point product: columns, rows and the NaN rule. -/
def productHolds (m k n : Nat) (a bcols c : Mat) : Bool :=
  columnsHold m k n a bcols c && columnsHold n k m bcols a (columns n c)
    && !nanFails (a ++ bcols).flatten c.flatten

/-- A product of A, of m rows, and B, of n columns: FP32 results with the scales of integer operands applied. -/
def meProduct (m k n : Nat) (actScale : F32) (a b : MeSide) : MeOut :=
  match a, b with
  | .float ra, .float cb =>
    let c : Mat := ra.map fun r => cb.map fun col => meDot r col
    { c := c, ok := productHolds m k n (ra.map (·.map MeElem.value)) (cb.map (·.map MeElem.value)) c }
  | .ints ra _, .ints cb scales =>
    let c : Mat := ra.map fun r => (List.zip cb scales).map fun q => fMul (fMul (fOfInt (intDot r q.1)) actScale) q.2
    { c := c, ok := true }
  | _, _ => { c := [], ok := true }

/-! ### Layer operands -/

/-- An activation in a floating-point ACT_FMT. -/
def actElem (l : Layer) (x : F32) : MeElem :=
  match fmtOf l.actFmt with
  | some f => plainElem (f.toF32 (f.ofF32 l.sat l.flush none x))
  | none => plainElem x

/-- An activation in an integer ACT_FMT: divided by ACT_SCALE, rounded, saturated. -/
def actInt (l : Layer) (x : F32) : Int := toIntN (if l.actFmt = 6 then 4 else 8) (fDiv x l.actScale)

/-- Activations as an operand. Columns of a second activation operand carry ACT_SCALE as their scale. -/
def actSide (l : Layer) (m : Mat) : MeSide :=
  if isIntFmt l.actFmt then .ints (m.map (·.map (actInt l))) (m.map fun _ => l.actScale) else .float (m.map (·.map (actElem l)))

/-- Element i of packed weights in a format, as its code. -/
def packedCode (fmt : Nat) (bs : Bytes) (i : Nat) : Nat :=
  let n := fmtBits fmt
  bits (field bs (i * n / 8) 4) (i * n % 8 + n - 1) (i * n % 8)

/-- The weights of a layer, without its own start. -/
def Layer.bytesOf (l : Layer) (w : Bytes) : Bytes := sub w l.wOff l.wBytes

/-- The exponent of an E8M0 scale. -/
def e8m0 (code : Nat) : Option Int := if code = 255 then none else some ((code : Int) - 127)

/-- The weights as an operand, by columns. -/
def weightSide (l : Layer) (w : Bytes) : MeSide :=
  let bs := l.bytesOf w
  let at_ (kk j : Nat) : Nat := packedCode l.wFmt bs (kk * l.n + j)
  if isIntFmt l.wFmt then
    .ints ((List.range l.n).map fun j => (List.range l.k).map fun kk => signedOf (fmtBits l.wFmt) (at_ kk j))
      ((List.range l.n).map fun j => f32At bs (l.elemBytes + 4 * j))
  else
    let f := (fmtOf l.wFmt).getD bf16
    let scale (kk j : Nat) : Option Int := if isMx l.wFmt then e8m0 (byteAt bs (l.elemBytes + kk / 32 * l.n + j)) else some 0
    .float ((List.range l.n).map fun j => (List.range l.k).map fun kk => { v := f.toF32 (at_ kk j), scale := scale kk j })

/-- Bias j of a layer; its biases end its weights. -/
def Layer.biasAt (l : Layer) (w : Bytes) (j : Nat) : F32 := f32At (l.bytesOf w) (l.wBytes - l.biasBytes + 4 * j)

/-! ### Layers (R210) -/

/-- What a layer reads beside its input: the package's weights, the outputs so far, the sample's token identifiers (the first IN_H
of them), its special identifiers, and whether positions beyond its tokens are masked. -/
structure ModelEnv where
  weights : Bytes
  outs : List (List F32)
  tokens : List Nat
  specials : List Nat
  masked : Bool

/-- Is position j beyond the sample's token count? -/
def ModelEnv.beyond (v : ModelEnv) (j : Nat) : Bool := v.masked && decide (v.tokens.length ≤ j)

/-- The im2col rows of a window layer: columns ordered (ky, kx, c). -/
def Layer.im2col (l : Layer) (xs : List F32) : Mat :=
  let ow := windows l.imgW l.kw l.stride
  (List.range l.windowRows).map fun i =>
    (List.range (l.kh * l.kw * l.p1)).map fun q =>
      let y := i / max 1 ow * l.stride + q / (l.kw * l.p1)
      let x := i % max 1 ow * l.stride + q / l.p1 % l.kw
      xs.getD ((y * l.imgW + x) * l.p1 + q % l.p1) fZero

/-- Columns h·w to (h + 1)·w of a matrix. -/
def headCols (m : Mat) (h w : Nat) : Mat := m.map fun r => (r.drop (h * w)).take w

/-- Heads side by side. -/
def joinHeads (rows : Nat) (hs : List Mat) : Mat := (List.range rows).map fun i => (hs.map fun m => m.getD i []).flatten

/-- Several products of one layer. -/
def joinOuts (rows : Nat) (os : List MeOut) : MeOut := { c := joinHeads rows (os.map MeOut.c), ok := os.all MeOut.ok }

/-- Softmax of a row; a row of −Inf gives 0.0. -/
def softmax (r : List F32) : List F32 :=
  if r.all (fun x => x == fNegInf) then r.map fun _ => fZero
  else
    let mx := r.tail.foldl fMax (r.headD fNegInf)
    let es := r.map fun x => fExp (fSub x mx)
    let sum := fixedSum es
    es.map fun x => fDiv x sum

/-- One head of ATTENTION: scores, mask, softmax and the product with V. -/
def attentionHead (v : ModelEnv) (l : Layer) (q k w : Mat) : MeOut :=
  let n := l.rows
  let s := meProduct n l.p1 n l.actScale (actSide l q) (actSide l k)
  let c := fSqrtQ (Q.frac 1 l.p1)
  let masked : Mat := s.c.zipIdx.map fun r => r.1.zipIdx.map fun x =>
    if (l.causal && decide (r.2 < x.2)) || v.beyond x.2 then fNegInf else fMul x.1 c
  let p := masked.map softmax
  let o := meProduct n n l.p1 l.actScale (actSide l p) (actSide l (columns l.p1 w))
  { c := o.c, ok := s.ok && o.ok }

/-- The windows of a pool, channel by channel: the terms in (ky, kx) order. -/
def poolTerms (l : Layer) (xs : List F32) : List (List F32) :=
  (l.im2col xs).flatMap fun r => (List.range l.p1).map fun c => (List.range (l.kh * l.kw)).map fun q => r.getD (q * l.p1 + c) fZero

/-- A mean by the fixed order. -/
def meanOf (xs : List F32) : F32 := fDiv (fixedSum xs) (fOfNat xs.length)

/-- LAYERNORM of a row, its β apart. -/
def layerNorm (eps : F32) (g : Nat → F32) (r : List F32) : List F32 :=
  let mu := meanOf r
  let d := r.map fun x => fSub x mu
  let inv := fRsqrt (fAdd (meanOf (d.map fun x => fMul x x)) eps)
  d.zipIdx.map fun x => fMul (fMul x.1 inv) (g x.2)

/-- RMSNORM of a row. -/
def rmsNorm (eps : F32) (g : Nat → F32) (r : List F32) : List F32 :=
  let inv := fRsqrt (fAdd (meanOf (r.map fun x => fMul x x)) eps)
  r.zipIdx.map fun x => fMul (fMul x.1 inv) (g x.2)

/-- A TE layer's result: the NaN rule is its check. -/
def teLayer (i : List F32) (m : Mat) : MeOut := { c := m, ok := !nanFails i m.flatten }

/-- A layer before bias and residual. -/
def layerRaw (v : ModelEnv) (l : Layer) (xs : List F32) : MeOut :=
  let rows := rowsOf l.rows l.n xs
  let g (j : Nat) : F32 := f32At (l.bytesOf v.weights) (4 * j)
  match l.type with
  | 1 => meProduct l.rows l.k l.n l.actScale (actSide l (rowsOf l.rows l.k xs)) (weightSide l v.weights)
  | 2 =>
    let a := rowsOf l.rows (l.k * l.p1) xs
    let n := l.n / max 1 l.p1
    let o := v.outs.getD l.p0 []
    let bcols (h : Nat) : Mat :=
      if l.p2 = 1 then headCols (rowsOf n (l.k * l.p1) o) h l.k else columns n (headCols (rowsOf l.k l.n o) h n)
    joinOuts l.rows ((List.range l.p1).map fun h =>
      meProduct l.rows l.k n l.actScale (actSide l (headCols a h l.k)) (actSide l (bcols h)))
  | 3 =>
    let m := rowsOf l.rows (3 * l.p0 * l.p1) xs
    joinOuts l.rows ((List.range l.p0).map fun h =>
      attentionHead v l (headCols m h l.p1) (headCols m (l.p0 + h) l.p1) (headCols m (2 * l.p0 + h) l.p1))
  | 4 => teLayer xs (rows.map (layerNorm (BitVec.ofNat 32 l.p0) g))
  | 5 => teLayer xs (rows.map (rmsNorm (BitVec.ofNat 32 l.p0) g))
  | 6 => teLayer xs (rows.map (·.map fGelu))
  | 7 => teLayer xs (rows.map (·.map fSilu))
  | 8 => meProduct l.rows l.k l.n l.actScale (actSide l (l.im2col xs)) (weightSide l v.weights)
  | 9 =>
    if l.mode = 2 then teLayer xs [(columns l.n (rowsOf (xs.length / max 1 l.n) l.n xs)).map meanOf]
    else
      let one (t : List F32) : F32 := if l.mode = 1 then t.tail.foldl fMax (t.headD fZero) else meanOf t
      teLayer xs (rowsOf l.rows l.n ((poolTerms l xs).map one))
  | _ =>
    let row (i : Nat) : List F32 := match v.tokens[i]? with
      | none => List.replicate l.n fZero
      | some t =>
        if l.p0 ≤ t ∨ t ∈ v.specials then List.replicate l.n fZero
        else (List.range l.n).map fun j => f32At (l.bytesOf v.weights) (4 * (t * l.n + j))
    { c := (List.range l.rows).map row, ok := true }

/-- Convert an element to OUT_FMT and read it back; `sr` is the draw word of a rounding site. -/
def outElem (l : Layer) (sr : Option Nat) (x : F32) : F32 :=
  if l.outFmt = 0 then x
  else match fmtOf l.outFmt with
    | some f => f.toF32 (f.ofF32 l.sat l.flush sr x)
    | none => x

/-- A layer: its result, bias, residual and conversion, and whether its checks hold. `word` gives the draw words of its site. -/
def layerRun (v : ModelEnv) (l : Layer) (xs : List F32) (word : Nat → Nat) : List F32 × Bool :=
  let o := layerRaw v l xs
  let flat := o.c.flatten
  let biased := if l.bias then flat.zipIdx.map fun e => fAdd e.1 (l.biasAt v.weights (e.2 % max 1 l.n)) else flat
  let r := if l.residual then List.zipWith fAdd biased (v.outs.getD l.res []) else biased
  let out := r.zipIdx.map fun e => outElem l (if l.sr then some (word e.2) else none) e.1
  let ranged := fIsZero l.rangeMax || out.all fun x => !fLt l.rangeMax (fAbs x)
  (out, o.ok && ranged)

/-- The layers in order; `site` counts the SR layers. -/
def layersRun (v : ModelEnv) (input : List F32) (word : Nat → Nat → Nat) : List Layer → Nat → Bool → List (List F32) × Bool
  | [], _, ok => (v.outs, ok)
  | l :: ls, site, ok =>
    let r := layerRun v l (if l.inp = 0xFFFF then input else v.outs.getD l.inp []) (word site)
    layersRun { v with outs := v.outs ++ [r.1] } input word ls (if l.sr then site + 1 else site) (ok && r.2)

/-! ### Cost (R196, R211) -/

/-- Elements of a format that the ME takes per cycle along K (R191). -/
def kPerCycle (f : Nat) : Nat := if f = 1 ∨ f = 2 then 1 else if f = 6 ∨ f = 11 then 4 else 2

/-- Cycles of a product. -/
def productCycles (m k n per : Nat) : Nat := ceilDiv m 64 * ceilDiv n 64 * ceilDiv k per

/-- ME cycles of a layer. -/
def Layer.cycles (l : Layer) : Nat :=
  let act := kPerCycle l.actFmt
  match l.type with
  | 1 => productCycles l.rows l.k l.n (min act (kPerCycle l.wFmt))
  | 8 => productCycles l.rows l.k l.n (min act (kPerCycle l.wFmt))
  | 2 => l.p1 * productCycles l.rows l.k (l.n / max 1 l.p1) act
  | 3 => l.p0 * (productCycles l.rows l.p1 l.rows act + productCycles l.rows l.rows l.p1 act)
  | _ => 0

/-! ### SCORE_MODEL and EMBED_MODEL (R211, R213) -/

/-- The model input of a sample: FP32 elements and token identifiers; none where its geometry is another. -/
def modelInput (k : Package) (x : Sample) : Option (List F32 × List Nat) :=
  if k.inputKind = 1 then
    (if byteAt x.desc 2 = 5 ∧ x.desc ≠ [] then some ([], x.tokens.take k.inH) else none)
  else match x.tensor with
    | none => none
    | some t =>
      let rows := if byteAt x.desc 0 = 3 then t.frames * t.h else t.h
      let frames := if byteAt x.desc 0 = 3 then 1 else t.frames
      if frames = 1 ∧ rows = k.inH ∧ t.w = k.inW ∧ t.c = k.inC then some (t.data, []) else none

/-- A model operator on a sample. A slot whose package is gone is a check PIPELINE_START made (R139); its outputs are then
absent. -/
def modelOp (e : Entry) (p : Pipeline) (x : Sample) (s : State) : Completion :=
  match tget s.slots.models (((p.decl.ops[e.instance_]?).map OpE.slot).getD 0) with
  | none => corruptC 0 16 0 noOffset
  | some k =>
    match modelInput k x with
    | none => corruptC 0 16 0 noOffset
    | some (xs, toks) =>
      let key := x.draws p.decl
      let first := p.decl.firstSite e.instance_
      let word (site i : Nat) : Nat := key.word 7 ((first + site) * 2 ^ 24 + i)
      let env : ModelEnv :=
        { weights := k.weights, outs := [], tokens := toks, specials := p.decl.specials, masked := k.inputKind == 1 }
      let r := layersRun env xs word k.layers 0 true
      let work := Config.modelUnits k.packageId ((k.layers.map Layer.cycles).sum)
      let c : Completion := { doneC work with models := r.1.getLastD [] }
      e.within work (if r.2 then c else { c with code := 5 })

/-- SCORE_MODEL. -/
def execScoreModel (queue : Nat) (s : State) : Res := live (runPure 0x0401 queue modelOp) s

/-- EMBED_MODEL. -/
def execEmbedModel (queue : Nat) (s : State) : Res := live (runPure 0x0402 queue modelOp) s

/-! ### SCORE_FILTER (R127, R128) -/

/-- The filter's decision on a score. -/
def filterKeeps (b : Bytes) (word : Nat) (v : F32) : Bool :=
  let lo := f32At b 12
  let hi := f32At b 16
  if fIsNan v then false
  else if byteAt b 8 = 0 then fLe lo v
  else fBernoulli word (fMin (fMax (fDiv (fSub v lo) (fSub hi lo)) fZero) fOne)

/-- SCORE_FILTER on a sample. A sample whose class did not pass the model has no score, and the manual does not say what the
filter then does. -/
def filterOp (e : Entry) (p : Pipeline) (x : Sample) (s : State) : Completion × State :=
  let b := p.decl.paramsAt e.instance_
  let word := (x.draws p.decl).word 3 (p.decl.filterOrdinal e.instance_)
  let work := Config.plainWork 0x0601
  match (p.decl.instanceOf (field b 0 2) (field b 2 2)).bind (tget x.models) with
  | some m => (e.within work (if filterKeeps b word (m.getD (field b 4 4) fNan) then doneC work else dropC work 2), s)
  | none => (e.within work (if Config.freeBool s.freeTick then doneC work else dropC work 2), tickFree s)

/-- SCORE_FILTER. -/
def execScoreFilter (queue : Nat) (s : State) : Res := live (whenB s.going (runEntry 0x0601 queue filterOp)) s

end Sys2Proof.Machine
end

