-- ==== Sys2Proof/Machine/WorkSlice.lean ====
section
/-! DEFINITION. The end of a work slice that leaves work undone (R57 to R59): the operation pauses with a new handle, and the command
of the slice completes with ST_PENDING_SLICE and the operation's progress. -/

namespace Sys2Proof.Machine

/-- The unit that a sliced operation holds (R58). -/
def sliceTarget (op : Nat) (c : Cmd) (s : State) : Nat :=
  match op with
  | 0x0007 => stageTarget c s
  | 0x0100 => catalogTarget c s
  | 0x0204 => modelTarget c s
  | 0x0206 => tableTarget c s
  | 0x0308 => rebuildTarget c s
  | 0x0504 => dailiesTarget c s
  | 0x0505 => logbookTarget c s
  | 0x0508 => stacksTarget c s
  | 0x0509 => stacksTarget c s
  | 0x0601 => testTarget c s
  | _ => magTarget c s

/-- The check that a new sliced operation passes before it starts. -/
def sliceCheck (op : Nat) (c : Cmd) (s : State) : Nat :=
  match op with
  | 0x0007 => stageCheck c s
  | 0x0100 => catalogCheck c s
  | 0x0204 => modelCheck c s
  | 0x0206 => tableCheck c s
  | 0x0306 => formatCheck c s
  | 0x0307 => foldCheck c s
  | 0x0308 => rebuildCheck c s
  | 0x0504 => dailiesCheck c s
  | 0x0505 => logbookCheck c s
  | 0x0508 => scrubCheck c s
  | 0x0509 => fillCheck c s
  | 0x0601 => testCheck c s
  | _ => stOk

/-- Pause with what a slice did. -/
def pauseWith (r : State × LongOp × Nat) : State := pauseLong r.2.1 r.2.2 r.1

/-- A slice of FIRMWARE_STAGE: RESULT is the bytes staged so far (R465). -/
def stageSlice (n : Nat) (l : LongOp) (s : State) : State :=
  match stageSome (min n (l.data.length - l.progress - 1)) l s with
  | none => refuseStaged l stInvalidField s
  | some (l1, s1) => pauseLong l1 (s1.stagedImage (byteAt l.entry 32)).length s1

/-- A slice of CATALOG_LOAD: RESULT is the runs staged so far (R82). -/
def catalogSlice (n : Nat) (l : LongOp) (s : State) : State :=
  let r := loadSome l n s
  if r.1 ≠ stOk then refuse l.pair l.cid r.1 r.2.2
  else pauseLong r.2.1 (((tget r.2.2.cat.staged (field l.entry 32 2)).map fun g => g.runs.length).getD 0) r.2.2

/-- A slice on a magazine, which may have gone (R309, R310); while the program-inhibit condition holds its progress is
unchanged (R305). -/
def magSlice (l : LongOp) (m : Option Magazine) (same : Nat) (f : State → State) (s : State) : State :=
  match m with
  | none => refuse l.pair l.cid stMediaRemoved s
  | some _ =>
    if l.removed then refuse l.pair l.cid stMediaRemoved s
    else if s.flash.inhibit then pauseLong l same s
    else f s

/-- A slice of MAGAZINE_FORMAT: RESULT is the blocks erased so far (R300). -/
def formatSlice (n : Nat) (l : LongOp) (s : State) : State :=
  magSlice l (s.magAt (byteAt l.entry 32)) l.progress
    (fun t =>
      let done := min (l.progress + n) ((((t.magAt (byteAt l.entry 32)).map fun m =>
        8 * m.diesPerChannel * m.geo.dieBlocks - m.retired).getD 0) - 1)
      pauseLong { l with progress := done } done t) s

/-- A slice of FOLD: RESULT is the SLC blocks still occupied (R293). -/
def foldSlice (n : Nat) (l : LongOp) (s : State) : State :=
  magSlice l (s.magAt (byteAt l.entry 32)) (s.foldResult l)
    (fun t =>
      let u := match t.magAt (byteAt l.entry 32) with
        | some m => wearCheck m.sn t (foldSome l n t)
        | none => t
      pauseLong l (u.foldResult l) u) s

/-- A slice of REBUILD, which relocates the blocks of `weak` that it meets; a full buffer ends it (R299). -/
def rebuildSlice (n : Nat) (weak : List Nat) (l : LongOp) (s : State) : State :=
  let m := ((tget s.flash.volumes (field l.entry 32 2)).bind s.volMag).map Prod.snd
  magSlice l m l.progress (fun t =>
    let r := rebuildScan l true weak (min n (t.rebuildCount l.entry - l.progress % 2 ^ 40 - 1)) t
    if r.2.2 then pauseLong r.2.1 r.2.1.progress r.1
    else finish l.pair l.cid stNoResources r.2.1.progress r.1) s

/-- A slice of LOGBOOK_READ: RESULT is the LSN after the last record written (R445). -/
def logbookSlice (n : Nat) (l : LongOp) (s : State) : State :=
  let r := logbookSome (min n ((s.logFrom l.entry (logProgress l).2).length - 1)) l s
  pauseLong r.2.1 (r.2.1.progress / 2 ^ 32) r.1

/-- One slice of an operation: `n` units of its work, with work left; `faults` are the errors a scrub
meets, or of a REBUILD the blocks that are read with difficulty. -/
def oneSlice (n : Nat) (faults : List (Nat × WordFault)) (l : LongOp) (s : State) : State :=
  match l.opcode with
  | 0x0007 => stageSlice n l s
  | 0x0100 => catalogSlice n l s
  | 0x0204 => pauseWith (bytesSlice n l s)
  | 0x0206 => pauseWith (bytesSlice n l s)
  | 0x0306 => formatSlice n l s
  | 0x0307 => foldSlice n l s
  | 0x0308 => rebuildSlice n (faults.map Prod.fst) l s
  | 0x0504 => pauseLong l 0 s
  | 0x0505 => logbookSlice n l s
  | 0x0508 => pauseWith (scrubSlice faults n l s)
  | 0x0509 => pauseWith (fillSlice n l s)
  | _ => pauseWith (testSlice n l s)

/-- WORK_SLICE_END: the command named has its slice, and leaves work undone; its handle is used (R58). A FOLD or REBUILD, which reads
flash, waits for a landing buffer (R24). `faults` are the errors that a scrub slice meets, or the
blocks that a REBUILD slice reads with difficulty. -/
def workSliceEnd (pair cid n : Nat) (faults : List (Nat × WordFault)) (s : State) : State :=
  match s.findCmd pair cid with
  | none => s
  | some c0 =>
    if !sliced c0.opcode then s
    else
      runCmd c0.opcode pair cid (fun c t =>
        match t.longEnter c (sliceTarget c.opcode c t) (sliceCheck c.opcode c t) with
        | .error st => refuse pair cid st t
        | .ok l =>
          if (c.opcode == 0x0307 || c.opcode == 0x0308) && !t.landing then t else oneSlice n faults l (dropLong l.handle t)) s

/-- WORK_SLICE_END. -/
def execWorkSliceEnd (pair cid units : Nat) (faults : List (Nat × WordFault)) (s : State) : Res :=
  live (workSliceEnd pair cid units faults) s

end Sys2Proof.Machine
end

