-- ==== Sys2Proof/Machine/Dispatch.lean ====
section
/-! DEFINITION. One arm for each command: its meaning. -/

namespace Sys2Proof.Machine

def exec (i : Instr) (s : State) : Host.Outcome State Fault Refusal :=
  match i with
  | .ctrlEnable sub => Sys2Proof.Machine.execCtrlEnable sub s
  | .controllerReset sub => Sys2Proof.Machine.execControllerReset sub s
  | .admDepthWrite sub v => Sys2Proof.Machine.execAdmDepthWrite sub v s
  | .registerWrite sub off size v => Sys2Proof.Machine.execRegisterWrite sub off size v s
  | .sqTailDoorbell sub pair v => Sys2Proof.Machine.execSqTailDoorbell sub pair v s
  | .cqHeadDoorbell sub pair v => Sys2Proof.Machine.execCqHeadDoorbell sub pair v s
  | .eventStatusWrite sub v => Sys2Proof.Machine.execEventStatusWrite sub v s
  | .eventMaskWrite sub v => Sys2Proof.Machine.execEventMaskWrite sub v s
  | .refusalRead sub => Sys2Proof.Machine.execRefusalRead sub s
  | .ringErrorRead sub => Sys2Proof.Machine.execRingErrorRead sub s
  | .timebaseRead sub off size => Sys2Proof.Machine.execTimebaseRead sub off size s
  | .commandFetch pair entry list data => Sys2Proof.Machine.execCommandFetch pair entry list data s
  | .completionWrite pair cid pcieOk => Sys2Proof.Machine.execCompletionWrite pair cid pcieOk s
  | .coalesceTimer pair => Sys2Proof.Machine.execCoalesceTimer pair s
  | .workSliceEnd pair cid units faults => Sys2Proof.Machine.execWorkSliceEnd pair cid units faults s
  | .identify pair cid pcieOk => Sys2Proof.Machine.execIdentify pair cid pcieOk s
  | .createRingPair pair cid => Sys2Proof.Machine.execCreateRingPair pair cid s
  | .deleteRingPair pair cid => Sys2Proof.Machine.execDeleteRingPair pair cid s
  | .resetRingPair pair cid lost => Sys2Proof.Machine.execResetRingPair pair cid lost s
  | .getEvent pair cid => Sys2Proof.Machine.execGetEvent pair cid s
  | .getField pair cid pcieOk => Sys2Proof.Machine.execGetField pair cid pcieOk s
  | .setField pair cid => Sys2Proof.Machine.execSetField pair cid s
  | .firmwareStage pair cid => Sys2Proof.Machine.execFirmwareStage pair cid s
  | .firmwareActivate pair cid => Sys2Proof.Machine.execFirmwareActivate pair cid s
  | .activationReset => Sys2Proof.Machine.execActivationReset s
  | .catalogLoad pair cid => Sys2Proof.Machine.execCatalogLoad pair cid s
  | .catalogUnload pair cid => Sys2Proof.Machine.execCatalogUnload pair cid s
  | .catalogLookup pair cid pcieOk => Sys2Proof.Machine.execCatalogLookup pair cid pcieOk s
  | .routingSummaryLoad pair cid => Sys2Proof.Machine.execRoutingSummaryLoad pair cid s
  | .pipelineDeclare pair cid => Sys2Proof.Machine.execPipelineDeclare pair cid s
  | .pipelineStart pair cid => Sys2Proof.Machine.execPipelineStart pair cid s
  | .pipelineStop pair cid => Sys2Proof.Machine.execPipelineStop pair cid s
  | .pipelineDelete pair cid => Sys2Proof.Machine.execPipelineDelete pair cid s
  | .modelPackageLoad pair cid => Sys2Proof.Machine.execModelPackageLoad pair cid s
  | .shotRecordsLoad pair cid => Sys2Proof.Machine.execShotRecordsLoad pair cid s
  | .tokenTableLoad pair cid => Sys2Proof.Machine.execTokenTableLoad pair cid s
  | .consumerAttach pair cid => Sys2Proof.Machine.execConsumerAttach pair cid s
  | .pipelineCheckpoint pair cid pcieOk => Sys2Proof.Machine.execPipelineCheckpoint pair cid pcieOk s
  | .pipelineRestore pair cid => Sys2Proof.Machine.execPipelineRestore pair cid s
  | .read pair cid pcieOk => Sys2Proof.Machine.execRead pair cid pcieOk s
  | .write pair cid => Sys2Proof.Machine.execWrite pair cid s
  | .flush pair cid => Sys2Proof.Machine.execFlush pair cid s
  | .trim pair cid => Sys2Proof.Machine.execTrim pair cid s
  | .volumeCreate pair cid => Sys2Proof.Machine.execVolumeCreate pair cid s
  | .volumeDelete pair cid => Sys2Proof.Machine.execVolumeDelete pair cid s
  | .magazineFormat pair cid => Sys2Proof.Machine.execMagazineFormat pair cid s
  | .fold pair cid => Sys2Proof.Machine.execFold pair cid s
  | .rebuild pair cid pcieOk weak => Sys2Proof.Machine.execRebuild pair cid pcieOk weak s
  | .magazineEject pair cid => Sys2Proof.Machine.execMagazineEject pair cid s
  | .reelOpen pair cid => Sys2Proof.Machine.execReelOpen pair cid s
  | .reelSamples pair cid => Sys2Proof.Machine.execReelSamples pair cid s
  | .reelSeal pair cid pcieOk => Sys2Proof.Machine.execReelSeal pair cid pcieOk s
  | .wearReport pair cid pcieOk => Sys2Proof.Machine.execWearReport pair cid pcieOk s
  | .topologyLoad pair cid => Sys2Proof.Machine.execTopologyLoad pair cid s
  | .peerIdentityLoad pair cid => Sys2Proof.Machine.execPeerIdentityLoad pair cid s
  | .regionRegister pair cid => Sys2Proof.Machine.execRegionRegister pair cid s
  | .regionRevoke pair cid => Sys2Proof.Machine.execRegionRevoke pair cid s
  | .revokeDrainComplete index => Sys2Proof.Machine.execRevokeDrainComplete index s
  | .qpCreate pair cid => Sys2Proof.Machine.execQpCreate pair cid s
  | .qpModifyReady pair cid => Sys2Proof.Machine.execQpModifyReady pair cid s
  | .qpModifyReset pair cid => Sys2Proof.Machine.execQpModifyReset pair cid s
  | .qpModifyError pair cid => Sys2Proof.Machine.execQpModifyError pair cid s
  | .qpModifyQuery pair cid pcieOk => Sys2Proof.Machine.execQpModifyQuery pair cid pcieOk s
  | .qpDestroy pair cid => Sys2Proof.Machine.execQpDestroy pair cid s
  | .callSheetLoad pair cid => Sys2Proof.Machine.execCallSheetLoad pair cid s
  | .shaperFlowSet pair cid => Sys2Proof.Machine.execShaperFlowSet pair cid s
  | .policerSet pair cid => Sys2Proof.Machine.execPolicerSet pair cid s
  | .errorRingRead pair cid pcieOk badWords => Sys2Proof.Machine.execErrorRingRead pair cid pcieOk badWords s
  | .countersRead pair cid pcieOk => Sys2Proof.Machine.execCountersRead pair cid pcieOk s
  | .traceConfig pair cid => Sys2Proof.Machine.execTraceConfig pair cid s
  | .lockstepConfig pair cid => Sys2Proof.Machine.execLockstepConfig pair cid s
  | .dailiesRun pair cid pcieOk => Sys2Proof.Machine.execDailiesRun pair cid pcieOk s
  | .logbookRead pair cid pcieOk => Sys2Proof.Machine.execLogbookRead pair cid pcieOk s
  | .clapperFreezeNow pair cid => Sys2Proof.Machine.execClapperFreezeNow pair cid s
  | .clapperFreezeAt pair cid => Sys2Proof.Machine.execClapperFreezeAt pair cid s
  | .clapperRelease pair cid ballHigh => Sys2Proof.Machine.execClapperRelease pair cid ballHigh s
  | .operatingPointSet pair cid => Sys2Proof.Machine.execOperatingPointSet pair cid s
  | .scrubPass pair cid faults => Sys2Proof.Machine.execScrubPass pair cid faults s
  | .initFill pair cid => Sys2Proof.Machine.execInitFill pair cid s
  | .testRotationSet pair cid => Sys2Proof.Machine.execTestRotationSet pair cid s
  | .testRun pair cid outs temp => Sys2Proof.Machine.execTestRun pair cid outs temp s
  | .testResultsRead pair cid pcieOk => Sys2Proof.Machine.execTestResultsRead pair cid pcieOk s
  | .unitRetire pair cid => Sys2Proof.Machine.execUnitRetire pair cid s
  | .attestReport pair cid pcieOk => Sys2Proof.Machine.execAttestReport pair cid pcieOk s
  | .certRead pair cid pcieOk => Sys2Proof.Machine.execCertRead pair cid pcieOk s
  | .scheduleComplete pipeline epoch => Sys2Proof.Machine.execScheduleComplete pipeline epoch s
  | .schedule pipeline epoch => Sys2Proof.Machine.execSchedule pipeline epoch s
  | .scheduleWindowRebuild pipeline epoch window failed => Sys2Proof.Machine.execScheduleWindowRebuild pipeline epoch window failed s
  | .poolAlloc owner cls stack bytes sample stage op filling => Sys2Proof.Machine.execPoolAlloc owner cls stack bytes sample stage op filling s
  | .allocGrant cls stack filling => Sys2Proof.Machine.execAllocGrant cls stack filling s
  | .poolFree handle owner stage op caller => Sys2Proof.Machine.execPoolFree handle owner stage op caller s
  | .poolShare handle n owner stage op caller filling => Sys2Proof.Machine.execPoolShare handle n owner stage op caller filling s
  | .poolAdd handle k owner stage op caller => Sys2Proof.Machine.execPoolAdd handle k owner stage op caller s
  | .poolRelease handle owner stage op caller => Sys2Proof.Machine.execPoolRelease handle owner stage op caller s
  | .engineEntryIssue sample queue => Sys2Proof.Machine.execEngineEntryIssue sample queue s
  | .engineCompletion queue flips => Sys2Proof.Machine.execEngineCompletion queue flips s
  | .blockDecompress queue => Sys2Proof.Machine.execBlockDecompress queue s
  | .crcVerify queue => Sys2Proof.Machine.execCrcVerify queue s
  | .fetchRepeat sample queue => Sys2Proof.Machine.execFetchRepeat sample queue s
  | .slatePredicate queue => Sys2Proof.Machine.execSlatePredicate queue s
  | .minhash queue pcieOk => Sys2Proof.Machine.execMinhash queue pcieOk s
  | .sinkHeadPoll pipeline instance_ head pcieOk => Sys2Proof.Machine.execSinkHeadPoll pipeline instance_ head pcieOk s
  | .imageDecode queue => Sys2Proof.Machine.execImageDecode queue s
  | .videoDecode queue => Sys2Proof.Machine.execVideoDecode queue s
  | .audioDecode queue => Sys2Proof.Machine.execAudioDecode queue s
  | .cropResample queue => Sys2Proof.Machine.execCropResample queue s
  | .flip queue => Sys2Proof.Machine.execFlip queue s
  | .affineWarp queue => Sys2Proof.Machine.execAffineWarp queue s
  | .colourJitter queue => Sys2Proof.Machine.execColourJitter queue s
  | .normalize queue => Sys2Proof.Machine.execNormalize queue s
  | .convert queue => Sys2Proof.Machine.execConvert queue s
  | .expression queue => Sys2Proof.Machine.execExpression queue s
  | .audioGain queue => Sys2Proof.Machine.execAudioGain queue s
  | .scoreModel queue => Sys2Proof.Machine.execScoreModel queue s
  | .embedModel queue => Sys2Proof.Machine.execEmbedModel queue s
  | .tokenize queue => Sys2Proof.Machine.execTokenize queue s
  | .grammar queue => Sys2Proof.Machine.execGrammar queue s
  | .tokenMask queue => Sys2Proof.Machine.execTokenMask queue s
  | .scoreFilter queue => Sys2Proof.Machine.execScoreFilter queue s
  | .splice pipeline epoch span => Sys2Proof.Machine.execSplice pipeline epoch span s
  | .deliver queue => Sys2Proof.Machine.execDeliver queue s
  | .sampleDigest queue pcieOk => Sys2Proof.Machine.execSampleDigest queue pcieOk s
  | .copy queue cmd faults => Sys2Proof.Machine.execCopy queue cmd faults s
  | .fill queue cmd faults => Sys2Proof.Machine.execFill queue cmd faults s
  | .gather queue cmd faults => Sys2Proof.Machine.execGather queue cmd faults s
  | .scatter queue cmd faults => Sys2Proof.Machine.execScatter queue cmd faults s
  | .hash queue cmd faults => Sys2Proof.Machine.execHash queue cmd faults s
  | .atomic queue cmd faults => Sys2Proof.Machine.execAtomic queue cmd faults s
  | .predicateScan queue cmd faults => Sys2Proof.Machine.execPredicateScan queue cmd faults s
  | .compress queue cmd faults => Sys2Proof.Machine.execCompress queue cmd faults s
  | .decompress queue cmd faults => Sys2Proof.Machine.execDecompress queue cmd faults s
  | .engineParityError queue access => Sys2Proof.Machine.execEngineParityError queue access s
  | .engineHang queue => Sys2Proof.Machine.execEngineHang queue s
  | .checkMismatchVote queue slot2 => Sys2Proof.Machine.execCheckMismatchVote queue slot2 s
  | .voteResult queue result core => Sys2Proof.Machine.execVoteResult queue result core s
  | .suspectClear unit => Sys2Proof.Machine.execSuspectClear unit s
  | .slotWrite sample => Sys2Proof.Machine.execSlotWrite sample s
  | .slotNoticeSend pipeline consumer batch flushStatus => Sys2Proof.Machine.execSlotNoticeSend pipeline consumer batch flushStatus s
  | .noticeCoalesceTimer pipeline consumer batch => Sys2Proof.Machine.execNoticeCoalesceTimer pipeline consumer batch s
  | .slotNotice m => Sys2Proof.Machine.execSlotNotice m s
  | .releaseNotice m => Sys2Proof.Machine.execReleaseNotice m s
  | .spanReport m => Sys2Proof.Machine.execSpanReport m s
  | .spanResult m => Sys2Proof.Machine.execSpanResult m s
  | .placement m => Sys2Proof.Machine.execPlacement m s
  | .pieceNotice m => Sys2Proof.Machine.execPieceNotice m s
  | .spanFetchStart pipeline epoch span => Sys2Proof.Machine.execSpanFetchStart pipeline epoch span s
  | .batchRelease pipeline consumer => Sys2Proof.Machine.execBatchRelease pipeline consumer s
  | .headReadTimer pipeline consumer => Sys2Proof.Machine.execHeadReadTimer pipeline consumer s
  | .headReadComplete pipeline consumer head => Sys2Proof.Machine.execHeadReadComplete pipeline consumer head s
  | .codeWordRead stack idx faults reader => Sys2Proof.Machine.execCodeWordRead stack idx faults reader s
  | .codeWordWrite stack idx off data fault writer => Sys2Proof.Machine.execCodeWordWrite stack idx off data fault writer s
  | .scrubStep stack fault => Sys2Proof.Machine.execScrubStep stack fault s
  | .presenceRise magazine => Sys2Proof.Machine.execPresenceRise magazine s
  | .insertionDebounce magazine stillPresent fault diesPerChannel report channelRates image => Sys2Proof.Machine.execInsertionDebounce magazine stillPresent fault diesPerChannel report channelRates image s
  | .magazineReady magazine => Sys2Proof.Machine.execMagazineReady magazine s
  | .attentionButton magazine => Sys2Proof.Machine.execAttentionButton magazine s
  | .ejectWindowExpiry magazine => Sys2Proof.Machine.execEjectWindowExpiry magazine s
  | .ejectPowerOff magazine => Sys2Proof.Machine.execEjectPowerOff magazine s
  | .ejectInhibitTimeout magazine => Sys2Proof.Machine.execEjectInhibitTimeout magazine s
  | .surpriseRemoval magazine => Sys2Proof.Machine.execSurpriseRemoval magazine s
  | .magazinePowerFault magazine => Sys2Proof.Machine.execMagazinePowerFault magazine s
  | .programInhibitSet pwrWarn railPct => Sys2Proof.Machine.execProgramInhibitSet pwrWarn railPct s
  | .programInhibitClear => Sys2Proof.Machine.execProgramInhibitClear s
  | .flashAbort railPct busy => Sys2Proof.Machine.execFlashAbort railPct busy s
  | .flashReadComplete volume block reads => Sys2Proof.Machine.execFlashReadComplete volume block reads s
  | .flashProgramComplete pair cid lastPage => Sys2Proof.Machine.execFlashProgramComplete pair cid lastPage s
  | .programFail stripe die second => Sys2Proof.Machine.execProgramFail stripe die second s
  | .stripeVerify stripe reads => Sys2Proof.Machine.execStripeVerify stripe reads s
  | .backgroundFold magazine units => Sys2Proof.Machine.execBackgroundFold magazine units s
  | .garbageCollection magazine group => Sys2Proof.Machine.execGarbageCollection magazine group s
  | .staticWearLevelling magazine => Sys2Proof.Machine.execStaticWearLevelling magazine s
  | .relocationSwitch volume block => Sys2Proof.Machine.execRelocationSwitch volume block s
  | .interfaceRetrainTimer => Sys2Proof.Machine.execInterfaceRetrainTimer s
  | .portStateAdvance port peerNode peerPort lanes => Sys2Proof.Machine.execPortStateAdvance port peerNode peerPort lanes s
  | .portBoundExpiry port => Sys2Proof.Machine.execPortBoundExpiry port s
  | .portRetryTimer port => Sys2Proof.Machine.execPortRetryTimer port s
  | .flit port f => Sys2Proof.Machine.execFlit port f s
  | .replay port f => Sys2Proof.Machine.execReplay port f s
  | .replayLimit port lockLost => Sys2Proof.Machine.execReplayLimit port lockLost s
  | .disable port => Sys2Proof.Machine.execDisable port s
  | .identityExchange port nonce key signature => Sys2Proof.Machine.execIdentityExchange port nonce key signature s
  | .timeReady port => Sys2Proof.Machine.execTimeReady port s
  | .timeProbeTimer => Sys2Proof.Machine.execTimeProbeTimer s
  | .timeProbe port p => Sys2Proof.Machine.execTimeProbe port p s
  | .workRequestPost qp kind addr key data len => Sys2Proof.Machine.execWorkRequestPost qp kind addr key data len s
  | .writePacket port vc p => Sys2Proof.Machine.execWritePacket port vc p s
  | .readReq port vc p data => Sys2Proof.Machine.execReadReq port vc p data s
  | .readResp port p => Sys2Proof.Machine.execReadResp port p s
  | .send port vc p => Sys2Proof.Machine.execSend port vc p s
  | .flushPacket port vc p => Sys2Proof.Machine.execFlushPacket port vc p s
  | .ack port p => Sys2Proof.Machine.execAck port p s
  | .nak port p => Sys2Proof.Machine.execNak port p s
  | .ackTimer qp => Sys2Proof.Machine.execAckTimer qp s
  | .retryTimer qp => Sys2Proof.Machine.execRetryTimer qp s
  | .nakBackoffExpiry qp => Sys2Proof.Machine.execNakBackoffExpiry qp s
  | .contextFetchComplete port qp => Sys2Proof.Machine.execContextFetchComplete port qp s
  | .wheelSlot => Sys2Proof.Machine.execWheelSlot s
  | .overflowSlot => Sys2Proof.Machine.execOverflowSlot s
  | .vc3MessageStart port relayed => Sys2Proof.Machine.execVc3MessageStart port relayed s
  | .gateTransition port => Sys2Proof.Machine.execGateTransition port s
  | .callSheetActivate port => Sys2Proof.Machine.execCallSheetActivate port s
  | .packageFatalError die cause linkUp => Sys2Proof.Machine.execPackageFatalError die cause linkUp s
  | .rotationTestDue cluster temp => Sys2Proof.Machine.execRotationTestDue cluster temp s
  | .takeover cluster => Sys2Proof.Machine.execTakeover cluster s
  | .testComplete out => Sys2Proof.Machine.execTestComplete out s
  | .testDeferralRetry cluster temp => Sys2Proof.Machine.execTestDeferralRetry cluster temp s
  | .requalificationRetest slot temp dayPassed out => Sys2Proof.Machine.execRequalificationRetest slot temp dayPassed out s
  | .suspectTest unit temp => Sys2Proof.Machine.execSuspectTest unit temp s
  | .digest m => Sys2Proof.Machine.execDigest m s
  | .match_ m => Sys2Proof.Machine.execMatch m s
  | .recordsRequest m => Sys2Proof.Machine.execRecordsRequest m s
  | .records m => Sys2Proof.Machine.execRecords m s
  | .chainRequest m => Sys2Proof.Machine.execChainRequest m s
  | .chain m => Sys2Proof.Machine.execChain m s
  | .freeze m => Sys2Proof.Machine.execFreeze m s
  | .forward m => Sys2Proof.Machine.execForward m s
  | .lockstepTimeout pipeline => Sys2Proof.Machine.execLockstepTimeout pipeline s
  | .clapperPinAssert => Sys2Proof.Machine.execClapperPinAssert s
  | .clapperPinDeassert => Sys2Proof.Machine.execClapperPinDeassert s
  | .clapperAtReached => Sys2Proof.Machine.execClapperAtReached s
  | .dailiesPeriod => Sys2Proof.Machine.execDailiesPeriod s
  | .logbookWrite => Sys2Proof.Machine.execLogbookWrite s
  | .powerOnReset bifPins => Sys2Proof.Machine.execPowerOnReset bifPins s
  | .pwrgdFall => Sys2Proof.Machine.execPwrgdFall s
  | .supplySample rails => Sys2Proof.Machine.execSupplySample rails s
  | .warmReset => Sys2Proof.Machine.execWarmReset s
  | .serviceButton holdMs => Sys2Proof.Machine.execServiceButton holdMs s
  | .pcieFundamentalReset => Sys2Proof.Machine.execPcieFundamentalReset s
  | .perstDeassert => Sys2Proof.Machine.execPerstDeassert s
  | .bootStageEnd ok haltCause failedStacks => Sys2Proof.Machine.execBootStageEnd ok haltCause failedStacks s
  | .bootWatchdog => Sys2Proof.Machine.execBootWatchdog s
  | .powerCapSample watts below100ms => Sys2Proof.Machine.execPowerCapSample watts below100ms s
  | .thermalThreshold die temp => Sys2Proof.Machine.execThermalThreshold die temp s
  | .thermalStep die temp => Sys2Proof.Machine.execThermalStep die temp s
  | .avsAdjust rail slackPs => Sys2Proof.Machine.execAvsAdjust rail slackPs s
  | .domainSwitchGateEnd domain => Sys2Proof.Machine.execDomainSwitchGateEnd domain s
  | .droopStretch cluster lowestMv => Sys2Proof.Machine.execDroopStretch cluster lowestMv s
  | .droopRecover cluster => Sys2Proof.Machine.execDroopRecover cluster s
  | .i3cRequest kind arg => Sys2Proof.Machine.execI3cRequest kind arg s
  | .pldmWarmReset => Sys2Proof.Machine.execPldmWarmReset s
  | .pldmLocateLed on => Sys2Proof.Machine.execPldmLocateLed on s
  | .safeRemoval magazine => Sys2Proof.Machine.execSafeRemoval magazine s
  | .crystalFailure => Sys2Proof.Machine.execCrystalFailure s
  | .visibilityReadComplete qp => Sys2Proof.Machine.execVisibilityReadComplete qp s

end Sys2Proof.Machine
end

