-- ==== Sys2Proof/Safety.lean ====
section
/-! DEFINITION. What counts as a safe step of the block, what every step keeps, and when a command of each kind has its own effect:
the conditions on the state and the operands that the statements name. -/

namespace Sys2Proof.Machine

/-- A step that answers a next state: neither a fault nor a refusal. -/
def Completes (s : State) : Prop := ∃ t, step s = .next t

/-! ### What every step keeps -/

/-- The canonical form of the addressed memories: the words of the stacks (R243; an unlisted word holds the uninitialised pattern)
and the blocks of the volumes (R286; an unlisted block reads zero). -/
def Memory.wf (s : State) : Bool := tsorted s.mem.words && tcanon zeroBlock s.flash.blocks

/-- What every step keeps: the fields and the memories in canonical form, at most 64 records in a die's error ring (R381), at most
256 undelivered events (R55), at most 64 paused long operations (R58), at most 256 logbook records queued (R443). -/
structure Invariant (s : State) : Prop where
  fields : tsorted s.fields = true
  memory : Memory.wf s = true
  rings : ∀ kv ∈ s.errs, kv.2.recs.length ≤ 64
  events : s.ken.events.length ≤ 256
  longs : s.ken.longOps.length ≤ 64
  logQueue : s.obs.logQueue.length ≤ 256

/-! ### When a command has its own effect -/

/-- Software reaches BAR0 through a sub-link of the part (R30, R31, R460). -/
abbrev BarAccess (s : State) (sub : Nat) : Prop := s.barUp = true ∧ sub < s.sublinks

/-- The command `c` is outstanding under its ring pair and CMD_ID, has this opcode and may start, in a part whose clocks run, which
no error has stopped and no freeze holds. -/
abbrev Ready (s : State) (op pair cid : Nat) (c : Cmd) : Prop :=
  s.alive = true ∧ s.findCmd pair cid = some c ∧ c.opcode = op ∧ s.mayStart c = true ∧ s.ken.fatal = false ∧
    s.ken.frozen = false

/-- As `Ready`, for a sliced command: its operation `l` starts, or a paused one is taken up again (R58). -/
abbrev Enters (s : State) (op pair cid : Nat) (c : Cmd) (target check : Nat) (l : LongOp) : Prop :=
  Ready s op pair cid c ∧ s.longEnter c target check = .ok l

/-- As `Ready`, for a sliced command that starts its operation anew, with its data fetched: nothing holds the unit, and fewer than 64
operations are under way (R58). -/
abbrev Starts (s : State) (op pair cid : Nat) (c : Cmd) (target : Nat) : Prop :=
  Ready s op pair cid c ∧ c.continues = false ∧ c.data ≠ none ∧ s.unitHeld target = false ∧
    s.ken.longOps.length < Config.maxLong

/-- The entry `e`, of operator `op`, is the current one of queue `k`; its sample `x` is in place and its pipeline `p` is declared; no
entry of the queue waits for a sink, and production goes on. -/
abbrev Runs (s : State) (k op : Nat) (e : Entry) (p : Pipeline) (x : Sample) : Prop :=
  s.alive = true ∧ s.going = true ∧ s.current k = some e ∧ e.op = op ∧ e.isMemory = false ∧
    (∀ w ∈ s.eng.sinkWait, w.1 ≠ k) ∧ s.sampleFor k e = some x ∧ tget s.pipes e.pipeline = some p

/-- The memory command `cmd`, of operation `mop`, is the current entry of a serving stack engine's queue. -/
abbrev MemRuns (s : State) (k mop : Nat) (cmd : Bytes) (e : Entry) : Prop :=
  s.alive = true ∧ s.going = true ∧ k / 1024 = 1 ∧ k % 1024 < 32 ∧ s.engineServes 1 (k % 1024) = true ∧ byteAt cmd 5 = 0x81 ∧
    byteAt cmd 6 = mop ∧ s.current k = some e ∧ e.isMemory = true ∧ e.raw.take 56 = (fitTo 64 cmd).take 56

/-- The word with key `w` is none of the `n` bytes from stack address `a`, nor, in the table area, a copy of one in the other half. -/
abbrev Apart (w a n : Nat) : Prop :=
  ∀ x ∈ wordsOf (addrOff a) n,
    w ≠ wordKey (addrStack a) x.1 ∧ (wordArea x.1 = 0 → w ≠ wordKey (otherHalf (addrStack a)) x.1)

end Sys2Proof.Machine
end

