-- ==== Sys2Proof/Certificates/Slice0/Obligations.lean ====
section
/-! DEFINITION. The statements of this model, for the provers: what each command does, what it leaves alone, and what every step
keeps. -/

open Sys2Proof Sys2Proof.Machine

/-- A write that rings BAR0 answers a next state, with the registers as the manual gives them: CTRL.EN rises on sub-link 0 and ring pair 0
is served at once where the part has booted; ADM_DEPTH takes depths from 2^4 to 2^16 while EN is 0, is refused with ST_CFG_BUSY while
EN is 1 and with ST_INVALID_FIELD for other depths; EVENT_STATUS bits are cleared by ones, but EVENT_PENDING while an event is queued;
EVENT_MASK is stored, and a mask bit that falls while its status bit is 1 fires vector 0; a base register takes an aligned half. -/
def Obligations.BarWritesTakeEffect : Prop :=
  (∀ s, s.barUp = true → s.ken.en = false → s.ken.booted = false →
    exec (.ctrlEnable 0) s = .next { s with ken := { s.ken with en := true } }) ∧
  (∀ s, s.barUp = true → s.ken.en = false → s.ken.booted = true →
    exec (.ctrlEnable 0) s = .next { s with ken := { s.ken with
      en := true
      rdy := true
      rings := tput s.ken.rings 0
        { storage := false, fence := false, sqBase := s.ken.admSqBase.toNat, cqBase := s.ken.admCqBase.toNat,
          sqLog2 := s.ken.admSqLog2, cqLog2 := s.ken.admCqLog2, vector := 0, coalC := 0, coalT := 0, sqHead := 0, sqTail := 0,
          cqHead := 0, cqTail := 0, phase := true, stopped := false, unsignalled := 0, resetLost := none } } }) ∧
  (∀ s v, s.barUp = true → s.ken.en = false → 4 ≤ bits v.toNat 4 0 → bits v.toNat 4 0 ≤ 16 → 4 ≤ bits v.toNat 20 16 →
    bits v.toNat 20 16 ≤ 16 →
    exec (.admDepthWrite 0 v) s = .next { s with ken := { s.ken with
      admSqLog2 := bits v.toNat 4 0, admCqLog2 := bits v.toNat 20 16 } }) ∧
  (∀ s v, s.barUp = true → s.ken.en = true →
    exec (.admDepthWrite 0 v) s = .next { s with ken := { s.ken with
      refusal := BitVec.ofNat 32 (0x0018 + stCfgBusy * 2 ^ 16 + 2 ^ 31) } }) ∧
  (∀ s v, s.barUp = true → s.ken.en = false →
    (bits v.toNat 4 0 < 4 ∨ 16 < bits v.toNat 4 0 ∨ bits v.toNat 20 16 < 4 ∨ 16 < bits v.toNat 20 16) →
    exec (.admDepthWrite 0 v) s = .next { s with ken := { s.ken with
      refusal := BitVec.ofNat 32 (0x0018 + stInvalidField * 2 ^ 16 + 2 ^ 31) } }) ∧
  (∀ s sub v, BarAccess s sub → s.ken.events = [] →
    exec (.eventStatusWrite sub v) s = .next { s with ken := { s.ken with
      evStatus := s.ken.evStatus &&& ~~~ v.setWidth 5 } }) ∧
  (∀ s sub v, BarAccess s sub → s.ken.events ≠ [] →
    exec (.eventStatusWrite sub v) s = .next { s with ken := { s.ken with
      evStatus := (s.ken.evStatus &&& ~~~ v.setWidth 5) ||| (s.ken.evStatus &&& evPending) } }) ∧
  (∀ s sub v, BarAccess s sub → s.ken.evStatus &&& s.ken.evMask &&& ~~~ v.setWidth 5 = 0 →
    exec (.eventMaskWrite sub v) s = .next { s with ken := { s.ken with evMask := v.setWidth 5 } }) ∧
  (∀ s sub v, BarAccess s sub → s.ken.evStatus &&& s.ken.evMask &&& ~~~ v.setWidth 5 ≠ 0 →
    exec (.eventMaskWrite sub v) s = .next (fireVector 0 { s with ken := { s.ken with evMask := v.setWidth 5 } })) ∧
  (∀ s v, s.barUp = true → 0 < s.sublinks → s.ken.en = false →
    exec (.registerWrite 0 0x0020 4 v) s = .next { s with ken := { s.ken with
      admSqBase := BitVec.ofNat 64 (s.ken.admSqBase.toNat / 2 ^ 32 * 2 ^ 32 + (v.setWidth 32).toNat / 4096 * 4096) } }) ∧
  (∀ s v, s.barUp = true → 0 < s.sublinks → s.ken.en = true →
    exec (.registerWrite 0 0x0028 4 v) s = .next { s with ken := { s.ken with
      refusal := BitVec.ofNat 32 (0x0028 + stCfgBusy * 2 ^ 16 + 2 ^ 31) } })

/-- A 64-bit read of TIMEBASE returns its value at that instant. A 32-bit read of 0x0040 returns bits [31:0] and latches bits [63:32] for
the sub-link, and in whatever state the latch is next read, a 32-bit read of 0x0044 returns what was latched and uses the latch. -/
def Obligations.TimebaseReadsAreCoherent : Prop :=
  (∀ s sub, BarAccess s sub → exec (.timebaseRead sub 0x0040 8) s = .next (emit (.readReturn s.tb) s)) ∧
  (∀ s sub, BarAccess s sub → ∃ t, exec (.timebaseRead sub 0x0040 4) s = .next t ∧
    t.out = s.out ++ [.readReturn (s.tb % 2 ^ 32)] ∧ tget t.ken.tbLatch sub = some (s.tb / 2 ^ 32) ∧ t.tb = s.tb) ∧
  (∀ s sub half, BarAccess s sub → tget s.ken.tbLatch sub = some half → ∃ t, exec (.timebaseRead sub 0x0044 4) s = .next t ∧
    t.out = s.out ++ [.readReturn half] ∧ tget t.ken.tbLatch sub = none)

/-- A read of REFUSAL, and one of RING_ERROR, returns the register and clears it, and changes nothing else of the node. -/
def Obligations.ReadsThatClear : Prop :=
  (∀ s sub, BarAccess s sub → exec (.refusalRead sub) s =
    .next { s with out := s.out ++ [.readReturn s.ken.refusal.toNat], ken := { s.ken with refusal := 0 } }) ∧
  (∀ s sub, BarAccess s sub → exec (.ringErrorRead sub) s =
    .next { s with out := s.out ++ [.readReturn s.ken.ringError.toNat], ken := { s.ken with ringError := 0 } })

/-- CTRL.EN written from 1 to 0 on sub-link 0: no command is outstanding, no paused long operation and no load is left, every ring pair but
pair 0 is gone, and EN and RDY are 0. With no command outstanding, nothing else of the node changes. -/
def Obligations.ControllerResetEndsCommands : Prop :=
  (∀ s, s.barUp = true → s.ken.en = true → ∃ t, exec (.controllerReset 0) s = .next t ∧
    t.ken.en = false ∧ t.ken.rdy = false ∧ t.ken.cmds = [] ∧ t.ken.longOps = [] ∧ t.cat.staged = [] ∧
    ∀ k, k ≠ 0 → tget t.ken.rings k = none) ∧
  (∀ s, s.barUp = true → s.ken.en = true → s.ken.cmds = [] →
    exec (.controllerReset 0) s = .next { s with
      ken := { s.ken with en := false, rdy := false, longOps := [], rings := tfilter s.ken.rings fun k _ => k == 0 }
      cat := { s.cat with staged := [] } })

/-- Finishing the outstanding command of a ring pair and CMD_ID: no unfinished command has that pair and CMD_ID any more; the one that had
them is finished with the status, RESULT, HANDLE and timebase of its completion; every other command, and everything else of the
node, is as it was. The same holds where the manual states no RESULT: the value is then free. -/
def Obligations.FinishingACommand : Prop :=
  (∀ s pair cid status result handle,
    (finishWith pair cid status result handle s).findCmd pair cid = none ∧
    (∀ c, s.findCmd pair cid = some c →
      { c with phase := .finished, status := status, result := result % 2 ^ 64, handle := handle, tbDone := s.tb } ∈
        (finishWith pair cid status result handle s).ken.cmds) ∧
    (∀ x, x ∈ s.ken.cmds → x.isOpen pair cid = false → x ∈ (finishWith pair cid status result handle s).ken.cmds) ∧
    (finishWith pair cid status result handle s).ken.cmds.length = s.ken.cmds.length ∧
    ∀ k, { finishWith pair cid status result handle s with ken := k } = { s with ken := k }) ∧
  (∀ s pair cid status,
    (finishPlain pair cid status s).findCmd pair cid = none ∧
    (∀ c, s.findCmd pair cid = some c → ∃ d, d ∈ (finishPlain pair cid status s).ken.cmds ∧ d.pair = pair ∧ d.cid = cid ∧
      d.phase = .finished ∧ d.status = status ∧ d.tbDone = s.tb ∧ d.ord = c.ord ∧ d.handle = 0) ∧
    (∀ x, x ∈ s.ken.cmds → x.isOpen pair cid = false → x ∈ (finishPlain pair cid status s).ken.cmds) ∧
    ∀ k, { finishPlain pair cid status s with ken := k } = { s with ken := k })

/-- A command that runs after PACKAGE_FATAL completes with ST_PACKAGE_FATAL; one that runs in a freeze, and that a freeze does not
serve, completes with ST_FROZEN; neither changes anything else. Shown for a command of each of six families. -/
def Obligations.StoppedPartRefuses : Prop :=
  (∀ s pair cid c, s.alive = true → s.findCmd pair cid = some c → s.mayStart c = true → s.ken.fatal = true →
    (c.opcode = 0x0001 → exec (.createRingPair pair cid) s = .next (refuse pair cid stPackageFatal s)) ∧
    (c.opcode = 0x0101 → exec (.catalogUnload pair cid) s = .next (refuse pair cid stPackageFatal s)) ∧
    (c.opcode = 0x0201 → exec (.pipelineStart pair cid) s = .next (refuse pair cid stPackageFatal s)) ∧
    (c.opcode = 0x0301 → exec (.write pair cid) s = .next (refuse pair cid stPackageFatal s)) ∧
    (c.opcode = 0x0404 → exec (.qpCreate pair cid) s = .next (refuse pair cid stPackageFatal s)) ∧
    (c.opcode = 0x0603 → exec (.unitRetire pair cid) s = .next (refuse pair cid stPackageFatal s))) ∧
  (∀ s pair cid c, s.alive = true → s.findCmd pair cid = some c → s.mayStart c = true → s.ken.fatal = false →
    s.ken.frozen = true → s.serves c.opcode c.entry = false →
    (c.opcode = 0x0001 → exec (.createRingPair pair cid) s = .next (refuse pair cid stFrozen s)) ∧
    (c.opcode = 0x0101 → exec (.catalogUnload pair cid) s = .next (refuse pair cid stFrozen s)) ∧
    (c.opcode = 0x0201 → exec (.pipelineStart pair cid) s = .next (refuse pair cid stFrozen s)) ∧
    (c.opcode = 0x0301 → exec (.write pair cid) s = .next (refuse pair cid stFrozen s)) ∧
    (c.opcode = 0x0404 → exec (.qpCreate pair cid) s = .next (refuse pair cid stFrozen s)) ∧
    (c.opcode = 0x0603 → exec (.unitRetire pair cid) s = .next (refuse pair cid stFrozen s)))

/-- A doorbell value below the depth moves the tail or the head; another stops the pair with its cause in RING_ERROR. A fetch takes the
entry at the head: the head moves on, and the command is outstanding, in order. A completion is written at the tail: the command
is retired, the tail and the phase move on, and the pair is signalled. The time T of a pair with unsignalled completions fires its
vector. A slice that ends with work left pauses its operation as `oneSlice` says; one of an operation that
reads flash needs a landing buffer. -/
def Obligations.RingsMove : Prop :=
  (∀ s sub pair v r, s.alive = true → tget s.ken.rings pair = some r → s.doorbellHits sub pair = true → r.stopped = false →
    v.toNat < 2 ^ r.sqLog2 →
    exec (.sqTailDoorbell sub pair v) s = .next { s with ken := { s.ken with
      rings := tput s.ken.rings pair { r with sqTail := v.toNat } } }) ∧
  (∀ s sub pair v r, s.alive = true → tget s.ken.rings pair = some r → s.doorbellHits sub pair = true → r.stopped = false →
    2 ^ r.sqLog2 ≤ v.toNat →
    exec (.sqTailDoorbell sub pair v) s = .next (ringError pair 1 { s with ken := { s.ken with
      rings := tput s.ken.rings pair { r with stopped := true } } })) ∧
  (∀ s sub pair v r, s.alive = true → tget s.ken.rings pair = some r → s.doorbellHits sub pair = true →
    v.toNat < 2 ^ r.cqLog2 →
    exec (.cqHeadDoorbell sub pair v) s = .next { s with ken := { s.ken with
      rings := tput s.ken.rings pair { r with cqHead := v.toNat } } }) ∧
  (∀ s sub pair v r, s.alive = true → tget s.ken.rings pair = some r → s.doorbellHits sub pair = true →
    2 ^ r.cqLog2 ≤ v.toNat →
    exec (.cqHeadDoorbell sub pair v) s = .next (ringError pair 2 { s with ken := { s.ken with
      rings := tput s.ken.rings pair { r with stopped := true } } })) ∧
  (∀ s pair e list data r, s.alive = true → tget s.ken.rings pair = some r → s.canFetch pair r = true →
    exec (.commandFetch pair (some e) list data) s = .next { s with ken := { s.ken with
      rings := tput s.ken.rings pair { r with sqHead := (r.sqHead + 1) % 2 ^ r.sqLog2 }
      cmds := s.ken.cmds ++ [makeCmd pair s.ken.nextOrd s.tb (fitTo 128 e) list data
        (s.screen pair r.storage (fitTo 128 e) list)]
      nextOrd := s.ken.nextOrd + 1 } }) ∧
  (∀ s pair list data r, s.alive = true → tget s.ken.rings pair = some r → s.canFetch pair r = true →
    exec (.commandFetch pair none list data) s = .next (stopRing pair 3 s)) ∧
  (∀ s pair cid r c, s.alive = true → tget s.ken.rings pair = some r → s.completable pair cid r.fence = some c →
    r.stopped = false → r.cqFree ≠ 0 → s.pcieClock = true →
    exec (.completionWrite pair cid true) s = .next (signalPair pair (modRing pair RingPair.advance
      (emit (.pcieWrite (s.entryVia pair) (r.cqBase + 32 * r.cqTail) (completionEntry c r)) (onWritten c (retireCmd c s)))))) ∧
  (∀ s pair cid r c, s.alive = true → tget s.ken.rings pair = some r → s.completable pair cid r.fence = some c →
    r.stopped = false → r.cqFree ≠ 0 → s.pcieClock = true → exec (.completionWrite pair cid false) s = .next (stopRing pair 3 s)) ∧
  (∀ s pair r, s.alive = true → tget s.ken.rings pair = some r → 0 < r.unsignalled →
    exec (.coalesceTimer pair) s = .next (fireVector r.vector { s with ken := { s.ken with
      rings := tput s.ken.rings pair { r with unsignalled := 0 } } })) ∧
  (∀ s op pair cid units faults c l, Enters s op pair cid c (sliceTarget op c s) (sliceCheck op c s) l → sliced op = true →
    ((op ≠ 0x0307 ∧ op ≠ 0x0308) ∨ s.landing = true) →
    exec (.workSliceEnd pair cid units faults) s = .next (oneSlice units faults l (dropLong l.handle s)))

/-- A new ring expects phase 1; a completion written anywhere but in the last slot keeps the phase and moves the tail on by one, and one
written in the last slot returns the tail to slot 0 and inverts the phase. Bit 15 of the last half-word of an entry is the phase. Writing
a completion sends the entry's 32 bytes, and after them at most the message of the pair's vector. -/
def Obligations.PhaseInvertsOnWrap : Prop :=
  (∀ a b c d e f g h i, (newRing a b c d e f g h i).phase = true) ∧
  (∀ r : RingPair, r.cqTail + 1 < 2 ^ r.cqLog2 → r.advance.cqTail = r.cqTail + 1 ∧ r.advance.phase = r.phase) ∧
  (∀ r : RingPair, r.cqTail + 1 = 2 ^ r.cqLog2 → r.advance.cqTail = 0 ∧ r.advance.phase = !r.phase) ∧
  (∀ (c : Cmd) r, c.status < 2 ^ 15 → (completionEntry c r).length = 32 ∧
    field (completionEntry c r) 30 2 / 2 ^ 15 = if r.phase then 1 else 0) ∧
  (∀ s pair cid r c, s.alive = true → tget s.ken.rings pair = some r → s.completable pair cid r.fence = some c →
    r.stopped = false → r.cqFree ≠ 0 → s.pcieClock = true → ∃ t after, exec (.completionWrite pair cid true) s = .next t ∧
      t.out = s.out ++ [.pcieWrite (s.entryVia pair) (r.cqBase + 32 * r.cqTail) (completionEntry c r)] ++ after ∧
      (after = [] ∨ after = [.msix r.vector]))

/-- DELETE_RING_PAIR of an existing pair other than 0, with no outstanding command and no paused long operation, deletes it and completes
with ST_OK. PAIR 0 completes with ST_INVALID_FIELD, a pair that does not exist with ST_PRECONDITION, an existing pair with an
outstanding command or a paused long operation with ST_BUSY; such a command changes nothing. -/
def Obligations.DeleteRingPair : Prop :=
  ∀ s pair cid c, Ready s 0x0002 pair cid c →
    (c.p8 32 = 0 → exec (.deleteRingPair pair cid) s = .next (refuse c.pair c.cid stInvalidField s)) ∧
    (c.p8 32 ≠ 0 → thas s.ken.rings (c.p8 32) = false →
      exec (.deleteRingPair pair cid) s = .next (refuse c.pair c.cid stPrecondition s)) ∧
    (c.p8 32 ≠ 0 → thas s.ken.rings (c.p8 32) = true →
      (s.outstanding (c.p8 32) ≠ [] ∨ ∃ l ∈ s.ken.longOps, l.pair = c.p8 32) →
      exec (.deleteRingPair pair cid) s = .next (refuse c.pair c.cid stBusy s)) ∧
    (c.p8 32 ≠ 0 → thas s.ken.rings (c.p8 32) = true → s.outstanding (c.p8 32) = [] →
      (∀ l ∈ s.ken.longOps, l.pair ≠ c.p8 32) →
      exec (.deleteRingPair pair cid) s = .next (finishPlain c.pair c.cid stOk
        { s with ken := { s.ken with rings := tdel s.ken.rings (c.p8 32) } }))

/-- IDENTIFY writes its 4096 bytes; CREATE_RING_PAIR makes a new pair from its parameters, and refuses a pair that exists; RESET_RING_PAIR of
a pair with nothing outstanding renews it and ends its long operations and loads; GET_EVENT answers with the oldest event, or
stays outstanding, at most 16 of them; GET_FIELD reads each field; SET_FIELD writes every entry, or says which one it refuses. -/
def Obligations.AdminCommandsWork : Prop :=
  (∀ s pair cid c, Ready s 0x0000 pair cid c → c.exactBuf 4096 = true →
    exec (.identify pair cid true) s = .next (finish c.pair c.cid stOk c.plainResult
      (emits ((layOut (hostBuffers c.entry c.list) s.identifyData).map fun p => .pcieWrite (s.dataVia c.pair) p.1 p.2) s))) ∧
  (∀ s pair cid c, Ready s 0x0001 pair cid c → c.p8 48 ≠ 0 → 4 ≤ c.p8 49 → c.p8 49 ≤ 16 → 4 ≤ c.p8 50 → c.p8 50 ≤ 16 →
    c.p8 51 ≤ 3 → c.p16 52 ≤ 511 → c.p64 32 % 4096 = 0 → c.p64 40 % 4096 = 0 →
    s.vectorSublink (c.p16 52) = s.pairSublink (c.p8 48) →
    (thas s.ken.rings (c.p8 48) = false →
      exec (.createRingPair pair cid) s = .next (finishPlain c.pair c.cid stOk { s with ken := { s.ken with
        rings := tput s.ken.rings (c.p8 48) (newRing (bitOf (c.p8 51) 0) (bitOf (c.p8 51) 1) (c.p64 32) (c.p64 40) (c.p8 49)
          (c.p8 50) (c.p16 52) (c.p8 54) (c.p8 55)) } })) ∧
    (thas s.ken.rings (c.p8 48) = true →
      exec (.createRingPair pair cid) s = .next (refuse c.pair c.cid stPrecondition s))) ∧
  (∀ s pair cid c r lost, Ready s 0x0003 pair cid c → c.p8 32 ≠ 0 → tget s.ken.rings (c.p8 32) = some r →
    r.resetLost = none → s.outstanding (c.p8 32) = [] → ∃ t, exec (.resetRingPair pair cid lost) s = .next t ∧
      tget t.ken.rings (c.p8 32) = some { newRing r.storage r.fence r.sqBase r.cqBase r.sqLog2 r.cqLog2 r.vector r.coalC r.coalT
        with unsignalled := r.unsignalled } ∧
      (∀ l ∈ t.ken.longOps, l.pair ≠ c.p8 32) ∧ t.findCmd pair cid = none ∧ t.out = s.out) ∧
  (∀ s pair cid c e rest, Ready s 0x0004 pair cid c → s.ken.events = e :: rest →
    exec (.getEvent pair cid) s = .next (modCmds (fun x => x.isOpen c.pair c.cid) (fun x => x.finish e.tb stOk
      (e.code % 2 ^ 16 + (e.unit % 2 ^ 16) * 2 ^ 16 + (e.detail % 2 ^ 32) * 2 ^ 32) 0)
      { s with ken := { s.ken with events := rest } })) ∧
  (∀ s pair cid c, Ready s 0x0004 pair cid c → s.ken.events = [] →
    ((s.ken.cmds.filter fun x => x.opcode == 0x0004 && x.phase == .running).length < 16 →
      exec (.getEvent pair cid) s = .next (markRunning c.pair c.cid s)) ∧
    (16 ≤ (s.ken.cmds.filter fun x => x.opcode == 0x0004 && x.phase == .running).length →
      exec (.getEvent pair cid) s = .next (refuse c.pair c.cid stNoResources s))) ∧
  (∀ s pair cid c r, Ready s 0x0005 pair cid c → c.fieldCountOk = true → c.minBuf (8 * c.p8 32) = true →
    (∀ e ∈ c.fieldEntries, e.2 = 0) → (∀ e ∈ c.fieldEntries, (s.fieldSpec e.1).isSome = true) →
    r = readFields (c.fieldEntries.map Prod.fst) s →
    exec (.getField pair cid true) s = .next (finish c.pair c.cid stOk c.plainResult
      (emits ((layOut (hostBuffers c.entry c.list) r.1).map fun p => .pcieWrite (r.2.dataVia c.pair) p.1 p.2) r.2))) ∧
  (∀ s pair cid c, Ready s 0x0006 pair cid c → c.fieldCountOk = true → (∀ e ∈ c.fieldEntries, s.entryBusy e = false) →
    (∀ e ∈ c.fieldEntries, s.entryOk e = true) →
    (∀ e ∈ c.fieldEntries, (c.fieldEntries.foldl (fun t e => writeField e t) s).jointOk e.1 = true) →
    exec (.setField pair cid) s = .next (finishPlain c.pair c.cid stOk (fieldEffects (c.fieldEntries.map Prod.fst) s
      (c.fieldEntries.foldl (fun t e => writeField e t) s)))) ∧
  (∀ s pair cid c i, Ready s 0x0006 pair cid c → c.fieldCountOk = true → c.fieldEntries.findIdx? s.entryBusy = some i →
    exec (.setField pair cid) s = .next (finish c.pair c.cid stCfgBusy i s)) ∧
  (∀ s pair cid c i, Ready s 0x0006 pair cid c → c.fieldCountOk = true → (∀ e ∈ c.fieldEntries, s.entryBusy e = false) →
    (c.fieldEntries.findIdx? fun e => !s.entryOk e) = some i →
    exec (.setField pair cid) s = .next (finish c.pair c.cid stInvalidField i s))

/-- FIRMWARE_STAGE without LAST stages its bytes and answers how many are staged; an offset that leaves a gap, or a bundle over 60 MiB,
discards what is staged; with LAST a bundle is accepted when it verifies and is no older in security than any activated, and a
certificate when the installed key signed it, or none is installed. FIRMWARE_ACTIVATE of an accepted bundle, with no pipeline
running and no operation paused, writes its record and lets the warm reset follow. CERT_READ and ATTEST_REPORT write their bytes.
OPERATING_POINT_SET sets the clusters of its mask. -/
def Obligations.FirmwareAndIdentityCommandsWork : Prop :=
  (∀ s pair cid c l l1 s1, Enters s 0x0007 pair cid c (stageTarget c s) (stageCheck c s) l →
    stageSome l.data.length l (dropLong l.handle s) = some (l1, s1) →
    (bitOf (byteAt l.entry 33) 1 = false →
      exec (.firmwareStage pair cid) s = .next (finish l.pair l.cid stOk (s1.stagedImage (byteAt l.entry 32)).length s1)) ∧
    (bitOf (byteAt l.entry 33) 1 = true → byteAt l.entry 32 = 0 →
      exec (.firmwareStage pair cid) s = .next
        (if !Config.bundleVerifies s1.pow.staged then refuseStaged l1 stSignature s1
        else if Config.securityVersion s1.pow.staged < s1.pow.securityMax then refuseStaged l1 stVersion s1
        else finish l1.pair l1.cid stOk s1.pow.staged.length { s1 with pow := { s1.pow with stagedOk := true } })) ∧
    (bitOf (byteAt l.entry 33) 1 = true → byteAt l.entry 32 ≠ 0 → s1.pow.modelCert = [] →
      exec (.firmwareStage pair cid) s = .next (finish l1.pair l1.cid stOk s1.pow.stagedCert.length
        (logRecord 0x0003 uPackage (fitTo 64 (putLE 1 1))
          { s1 with pow := { s1.pow with modelCert := s1.pow.stagedCert, stagedCert := [] } })))) ∧
  (∀ s pair cid c l, Enters s 0x0007 pair cid c (stageTarget c s) (stageCheck c s) l →
    stageSome l.data.length l (dropLong l.handle s) = none →
    exec (.firmwareStage pair cid) s = .next (refuse l.pair l.cid stInvalidField
      (dropStaged (byteAt l.entry 32) (dropLong l.handle s)))) ∧
  (∀ s pair cid c, Ready s 0x0008 pair cid c →
    (s.pow.stagedOk = false → exec (.firmwareActivate pair cid) s = .next (refuse c.pair c.cid stPrecondition s)) ∧
    (s.pow.stagedOk = true → (∀ kv ∈ s.pipes, kv.2.active = false) → (∀ l ∈ s.ken.longOps, l.paused = false) →
      exec (.firmwareActivate pair cid) s = .next (finishPlain c.pair c.cid stOk (logRecord 0x0003 uPackage
        (fitTo 64 (putLE 1 0 ++ putLE 1 (1 - s.pow.bankBooted) ++ zeros 2 ++ putLE 4 (Config.fwRelease s.pow.staged)
          ++ putLE 4 (Config.securityVersion s.pow.staged)))
        { s with pow := { s.pow with activating := true } })))) ∧
  (∀ s pair cid c d, Ready s 0x0701 pair cid c → c.p8 32 ≤ 2 → c.minBuf 4096 = true → s.certificate (c.p8 32) = some d →
    exec (.certRead pair cid true) s = .next (finish c.pair c.cid stOk d.length
      (emits ((layOut (hostBuffers c.entry c.list) d).map fun p => .pcieWrite (s.dataVia c.pair) p.1 p.2) s))) ∧
  (∀ s pair cid c, Ready s 0x0700 pair cid c → c.exactBuf 512 = true →
    exec (.attestReport pair cid true) s = .next (finish c.pair c.cid stOk c.plainResult
      (emits ((layOut (hostBuffers c.entry c.list) (s.attestBody (sub c.entry 32 32)
        ++ fitTo 96 (Config.identitySign (s.attestBody (sub c.entry 32 32))))).map fun p => .pcieWrite (s.dataVia c.pair) p.1 p.2) s))) ∧
  (∀ s pair cid c, Ready s 0x0507 pair cid c → c.p8 32 ≤ 1 → c.p16 34 ≠ 0 → freqOk (c.p8 32) (c.p16 36) = true →
    exec (.operatingPointSet pair cid) s = .next (finishPlain c.pair c.cid stOk
      (((List.range 16).filter fun i => bitOf (c.p16 34) i).foldl
        (fun t i => setHostFreq i (c.p8 32) (c.p16 36) t) s)))

/-- Right after reset the node is held at boot stage 0: CTRL, STATUS, EVENT_STATUS, EVENT_MASK, REFUSAL, RING_ERROR and FATAL_INFO are 0,
ADM_DEPTH holds depths of 2^4, no ring pair, command, event, field, error record, word or block is held, and no magazine serves. -/
def Obligations.ResetRegisters : Prop :=
  State.reset.pending = [] ∧ State.reset.tb = 0 ∧ State.reset.ken.en = false ∧ State.reset.regStatus = 0 ∧
  State.reset.ken.evStatus = 0 ∧ State.reset.ken.evMask = 0 ∧ State.reset.ken.refusal = 0 ∧ State.reset.ken.ringError = 0 ∧
  State.reset.ken.fatalInfo = 0 ∧ State.reset.ken.admSqLog2 = 4 ∧ State.reset.ken.admCqLog2 = 4 ∧
  State.reset.ken.admSqBase = 0 ∧ State.reset.ken.admCqBase = 0 ∧ State.reset.ken.rings = [] ∧ State.reset.ken.cmds = [] ∧
  State.reset.ken.events = [] ∧ State.reset.fields = [] ∧ State.reset.errs = [] ∧ State.reset.mem.words = [] ∧
  State.reset.flash.blocks = [] ∧ (∀ m < 8, State.reset.inService (uMagazine m) = false) ∧ State.reset.out = []

/-- Each reset leaves every die reset and starts the boot at stage 1 with the timebase at 0, its cause in the boot record, POWER_CYCLE
counted on, and remap entries, reels, volumes' blocks, retirements and the logbook kept: power-good, SYS_RST#, a hold of the service
button for 8 s, PLDM, FIRMWARE_ACTIVATE's (the bank just staged boots) and the watchdog's (the same bank when it has reached stage 8
before, whose third boot so ended halts; else the other bank where it verifies). -/
def Obligations.ResetsStartTheBoot : Prop :=
  (∀ s s' cause, s' = warmReset cause s →
    s'.tb = 0 ∧ s'.ken.bootStage = 1 ∧ s'.pow.bootCause = cause ∧ s'.pow.clocks = true ∧ s'.pow.browned = none ∧
    s'.obs.powerCycle = (tearAll s).obs.powerCycle + 1 ∧ s'.mem.remap = (tearAll s).mem.remap ∧ s'.mem.words = [] ∧
    s'.cat.reels = (tearAll s).cat.reels ∧ s'.flash.blocks = (tearAll s).flash.blocks ∧
    s'.flash.volumes = (tearAll s).flash.volumes ∧ s'.ftest.retired = (tearAll s).ftest.retired ∧
    s'.obs.log = (tearAll s).obs.log ∧ s'.errs = [] ∧ s'.pipes = [] ∧ s'.ken.cmds = [] ∧ s'.ken.rings = [] ∧ s'.ken.en = false ∧
    s'.ken.fatal = false ∧ s'.ken.frozen = false ∧ s'.pool.entries = [] ∧ s'.pending = (tearAll s).pending) ∧
  (∀ s pins, s.pow.pwrgd = false → ∃ t, exec (.powerOnReset pins) s = .next t ∧ t.pow.pwrgd = true ∧
    t.ken.bifMode = pins % 4 ∧ t.tb = 0 ∧ t.ken.bootStage = 1 ∧ t.pow.bootCause = 0 ∧ t.pow.clocks = true ∧
    t.pow.browned = none ∧ t.alive = true) ∧
  (∀ s, s.resettable = true → exec .warmReset s = .next (warmReset 2 s)) ∧
  (∀ s holdMs, s.alive = true → 8000 ≤ holdMs → exec (.serviceButton holdMs) s = .next (warmReset 3 s)) ∧
  (∀ s holdMs, s.alive = true → 50 ≤ holdMs → holdMs ≤ 2000 →
    exec (.serviceButton holdMs) s = .next (emit (.pin "LOCATE_LED" (if s.pow.led then 0 else 1))
      { s with pow := { s.pow with led := !s.pow.led } })) ∧
  (∀ s, s.alive = true → 1 ≤ s.ken.bootStage → exec .pldmWarmReset s = .next (warmReset 4 s)) ∧
  (∀ s, s.alive = true → s.pow.activating = true → ∃ t, exec .activationReset s = .next t ∧
    t.pow.bankBooted = 1 - s.pow.bankBooted ∧ t.pow.wdBoots = 0 ∧ t.ken.bootStage = 1 ∧ t.tb = 0 ∧ t.pow.bootCause = 5) ∧
  (∀ s, s.alive = true → 1 ≤ s.ken.bootStage → s.ken.bootStage < 8 → s.bankReached s.pow.bankBooted = true →
    s.pow.wdBoots + 1 < 3 → ∃ t, exec .bootWatchdog s = .next t ∧ t.pow.wdBoots = s.pow.wdBoots + 1 ∧
      t.pow.bankBooted = (tearAll s).pow.bankBooted ∧ t.ken.bootStage = 1 ∧ t.pow.bootCause = 7) ∧
  (∀ s, s.alive = true → 1 ≤ s.ken.bootStage → s.ken.bootStage < 8 → s.bankReached s.pow.bankBooted = true →
    3 ≤ s.pow.wdBoots + 1 → ∃ t, exec .bootWatchdog s = .next t ∧ t.ken.bootStage = 15 ∧ t.ken.haltCause = 8) ∧
  (∀ s, s.alive = true → 1 ≤ s.ken.bootStage → s.ken.bootStage < 8 → s.bankReached s.pow.bankBooted = false →
    ∃ t, exec .bootWatchdog s = .next t ∧ t.ken.bootStage = 1 ∧
      t.pow.bankBooted = (if s.bankGood (1 - s.pow.bankBooted) then 1 - s.pow.bankBooted else s.pow.bankBooted) ∧
      t.pow.bootCause = (if s.bankGood (1 - s.pow.bankBooted) then 6 else 7) ∧
      t.pow.wdBoots = (if s.bankGood (1 - s.pow.bankBooted) then 0 else s.pow.wdBoots + 1))

/-- The end of stages 1 to 3 starts the next one and notes the time; of stage 4 every domain switches to its PLL; of stage 5 the booted
bank, or the other one, is loaded where it is accepted, else the boot halts with cause 4; of stage 6 the words of the stacks hold the
uninitialised pattern; of stage 7 the bank is marked as one that has reached stage 8. A stage that fails halts at stage 15 with the
cause it may find. At stage 8 STATUS.BOOTED rises, and ring pair 0 is served where CTRL.EN is 1. -/
def Obligations.BootStagesAdvance : Prop :=
  (∀ s cause failed, s.alive = true → 1 ≤ s.ken.bootStage → s.ken.bootStage ≤ 3 →
    exec (.bootStageEnd true cause failed) s = .next { s with
      ken := { s.ken with bootStage := s.ken.bootStage + 1 }
      pow := { s.pow with stageEnds := s.pow.stageEnds ++ [s.tb] } }) ∧
  (∀ s cause failed, s.alive = true → s.ken.bootStage = 4 → ∃ t, exec (.bootStageEnd true cause failed) s = .next t ∧
    t.ken.bootStage = 5 ∧ t.pow.stageEnds = s.pow.stageEnds ++ [s.tb] ∧ t.tb = s.tb ∧ t.ken = { s.ken with bootStage := 5 } ∧
    (∀ k, 16 ≤ k → k < 48 → k ∈ t.pow.gated)) ∧
  (∀ s cause failed, s.alive = true → s.ken.bootStage = 5 →
    exec (.bootStageEnd true cause failed) s = .next
      (if s.bankGood s.pow.bankBooted then nextStage s
      else if s.bankGood (1 - s.pow.bankBooted) then
        nextStage { s with pow := { s.pow with bankBooted := 1 - s.pow.bankBooted } }
      else haltBoot 4 s)) ∧
  (∀ s cause, s.alive = true → s.ken.bootStage = 6 → ∃ t, exec (.bootStageEnd true cause []) s = .next t ∧
    t.mem.words = [] ∧ t.ken.bootStage = (if s.plainUnits 10 8 = 0 then 15 else 7)) ∧
  (∀ s cause failed, s.alive = true → s.ken.bootStage = 7 → ∃ t, exec (.bootStageEnd true cause failed) s = .next t ∧
    t.ken.bootStage = 8 ∧ tget t.pow.bankOk s.pow.bankBooted = some 1 ∧ t.pow.wdBoots = 0) ∧
  (∀ s cause failed, s.alive = true → s.ken.bootStage = 8 → s.ken.booted = false → s.ken.en = false →
    exec (.bootStageEnd true cause failed) s = .next { s with ken := { s.ken with booted := true } }) ∧
  (∀ s cause failed, s.alive = true → s.ken.bootStage = 8 → s.ken.booted = false → s.ken.en = true →
    ∃ t, exec (.bootStageEnd true cause failed) s = .next t ∧ t.ken.booted = true ∧ t.ken.rdy = true ∧
      tget t.ken.rings 0 = some (newRing false false s.ken.admSqBase.toNat s.ken.admCqBase.toNat s.ken.admSqLog2 s.ken.admCqLog2
        0 0 0)) ∧
  (∀ s cause failed, s.alive = true → 1 ≤ s.ken.bootStage → s.ken.bootStage < 8 → cause ∈ stageHalts s.ken.bootStage →
    exec (.bootStageEnd false cause failed) s = .next (emits [.pin "LOCATE_LED" 2, .sideband 0x10 cause]
      { s with ken := { s.ken with bootStage := 15, haltCause := cause } }))

/-- PWRGD falling holds every die in reset; PERST# resets the endpoint with a controller reset, its release starts link training; after a
brown-out every rail above 96 % starts the boot, with the rail in the boot record; ten readings below 88 % are a brown-out; readings
at or above 95 % leave all but the readings as they were; a crystal that fails stops every clock, and then nothing answers but a reset;
PLDM sets the locate LED; an I3C request assigns the address or reads a sensor. -/
def Obligations.PowerAndPins : Prop :=
  (∀ s, s.pow.pwrgd = true → ∃ t, exec .pwrgdFall s = .next t ∧ t.pow.pwrgd = false ∧ t.alive = false ∧ t.ken.bootStage = 0 ∧
    t.ken.cmds = [] ∧ t.pipes = [] ∧ t.mem.words = []) ∧
  (∀ s, s.alive = true → s.pow.perst = false → ∃ t, exec .pcieFundamentalReset s = .next t ∧ t.pow.perst = true ∧
    t.pow.linkTraining = false ∧ t.ken.tbLatch = [] ∧ t.ken.msixTable = [] ∧ t.ken.msixPba = [] ∧ t.ken.en = false ∧
    t.ken.cmds = []) ∧
  (∀ s, s.alive = true → s.pow.perst = true →
    exec .perstDeassert s = .next { s with pow := { s.pow with perst := false, linkTraining := true } }) ∧
  (∀ s rails rail, s.pow.pwrgd = true → s.pow.clocks = true → s.pow.browned = some rail → (∀ r ∈ rails, 960 < r) →
    ∃ t, exec (.supplySample rails) s = .next t ∧ t.pow.browned = none ∧ t.ken.bootStage = 1 ∧ t.pow.bootCause = 1 ∧
      t.pow.bootRail = rail ∧ t.pow.rails = rails ∧ t.tb = 0) ∧
  (∀ s rails, s.pow.pwrgd = true → s.pow.clocks = true → s.pow.browned = none → s.pow.brownCount = [] → s.pow.railLow = [] →
    (∀ r ∈ rails, 950 ≤ r) → exec (.supplySample rails) s = .next { s with pow := { s.pow with rails := rails } }) ∧
  (∀ s r rail, s.pow.pwrgd = true → s.pow.clocks = true → s.pow.browned = none → s.pow.brownCount = [(0, 9)] → r < 880 →
    rail = 0 → ∃ t, exec (.supplySample [r]) s = .next t ∧ t.pow.browned = some rail ∧ t.ken.bootStage = 0 ∧ t.alive = false) ∧
  (∀ s, s.alive = true → s.onCrystal = true →
    exec .crystalFailure s = .next { s with pow := { s.pow with clocks := false } }) ∧
  (∀ s on, s.alive = true → 1 ≤ s.ken.bootStage →
    exec (.pldmLocateLed on) s = .next (emit (.pin "LOCATE_LED" (if on then 1 else 0)) { s with pow := { s.pow with led := on } })) ∧
  (∀ s arg, s.alive = true → 1 ≤ s.ken.bootStage →
    exec (.i3cRequest 0 arg) s = .next (emit (.sideband 0 arg) { s with pow := { s.pow with i3cAddr := arg % 128 } })) ∧
  (∀ s kind arg v, s.alive = true → 1 ≤ s.ken.bootStage → kind ≠ 0 → s.sensor kind arg = some v →
    exec (.i3cRequest kind arg) s = .next (emit (.sideband kind v) s))

/-- A power estimate above the cap lowers the cap frequency by 25 MHz, to 400 MHz at least; 100 ms at 20 W or more below the cap raise it
by 25 MHz, to 800 MHz at most. A die's temperature is kept; above 105 °C it throttles, and each millisecond its clusters step down, or
below 98 °C up; 115 °C is fatal. AVS moves a set point one 5 mV step toward 15 ps of slack, within its range. A droop of 40 mV
stretches a cluster's clock and counts, recovery ends it; a switched domain's gate ends. -/
def Obligations.MonitorsAct : Prop :=
  (∀ s watts below, s.alive = true → ∃ t, exec (.powerCapSample watts below) s = .next t ∧ t.pow.watts = watts ∧
    t.pow.capFreq = (if s.raw 0x13 0 0x05 760 < watts then max 400 (s.pow.capFreq - 25)
      else if below = true ∧ watts + 20 ≤ s.raw 0x13 0 0x05 760 then min 800 (s.pow.capFreq + 25) else s.pow.capFreq)) ∧
  (∀ s die temp, s.alive = true → die < 12 → temp < 800 → die ∉ s.pow.dieHot → ∃ t,
    exec (.thermalThreshold die temp) s = .next t ∧ tget t.pow.dieTemp die = some temp ∧ die ∉ t.pow.throttling ∧
      t.ken = s.ken) ∧
  (∀ s die temp, s.alive = true → die < 12 → 840 ≤ temp → temp < 920 → ∃ t,
    exec (.thermalThreshold die temp) s = .next t ∧ tget t.pow.dieTemp die = some temp ∧ die ∈ t.pow.throttling) ∧
  (∀ s die temp, s.alive = true → die < 12 →
    (die ∈ (readTemp die temp s).pow.throttling → exec (.thermalStep die temp) s = .next (moveTherm true die (readTemp die temp s))) ∧
    (die ∉ (readTemp die temp s).pow.throttling → temp < 784 →
      exec (.thermalStep die temp) s = .next (moveTherm false die (readTemp die temp s))) ∧
    (die ∉ (readTemp die temp s).pow.throttling → 784 ≤ temp →
      exec (.thermalStep die temp) s = .next (readTemp die temp s))) ∧
  (∀ s rail slack, s.alive = true → rail < 5 → 4 ≤ s.ken.bootStage → ∃ t, exec (.avsAdjust rail slack) s = .next t ∧
    tget t.pow.setPoints rail = some (if slack < 15 then min (mvRange rail).2 (s.setPoint rail + 5)
      else if 15 < slack then max (mvRange rail).1 (s.setPoint rail - 5) else s.setPoint rail)) ∧
  (∀ s cluster mv, s.alive = true → cluster < 16 → mv + 40 ≤ s.setPoint (railOf cluster) → cluster ∉ s.pow.stretched →
    s.obs.traceOn = false → ∃ t, exec (.droopStretch cluster mv) s = .next t ∧
      t.pow.stretched = s.pow.stretched ++ [cluster] ∧ tget t.obs.droops cluster =
        some (match tget s.obs.droops cluster with | none => (1, mv) | some d => (d.1 + 1, min d.2 mv))) ∧
  (∀ s cluster, s.alive = true → exec (.droopRecover cluster) s = .next { s with pow := { s.pow with
    stretched := s.pow.stretched.filter (· ≠ cluster) } }) ∧
  (∀ s k, s.alive = true → 16 ≤ k → exec (.domainSwitchGateEnd k) s = .next { s with pow := { s.pow with
    gated := s.pow.gated.filter (· ≠ k) } })

/-- READ, with a landing buffer, reads its range and returns its blocks, zeros for lost ones, with ST_OK or, when any is lost,
ST_MEDIA_ERROR and where; without one it waits. An accepted WRITE waits to be programmed, and its last page, where free stripes are
left, stores its blocks and completes it; FLUSH waits for the blocks not yet settled; TRIM forgets its range; VOLUME_CREATE places a
volume on a serving magazine; VOLUME_DELETE trims it and removes its reels. -/
def Obligations.StorageCommandsWork : Prop :=
  (∀ s pair cid c, Ready s 0x0300 pair cid c → c.count ≠ 0 → c.count ≤ 2048 → c.volume ≤ 127 → c.p8 34 = 0 →
    c.dataIs (c.count * 4096) = true → s.volStatus c.volume c.block c.count false = stOk →
    (s.landing = true → ∀ u, u = readRun c.volume c.block c.count s → exec (.read pair cid true) s = .next (finish c.pair c.cid
      (if (s.lostIn c.volume c.block c.count).isEmpty then stOk else stMediaError)
      ((s.lostIn c.volume c.block c.count).length + (s.lostIn c.volume c.block c.count).headD 0 * 2 ^ 32)
      (emits ((layOut (hostBuffers c.entry c.list) (s.readBlocks c.volume c.block c.count)).map
        fun p => .pcieWrite (u.dataVia c.pair) p.1 p.2) u))) ∧
    (s.landing = false → exec (.read pair cid true) s = .next s)) ∧
  (∀ s pair cid c d, Ready s 0x0301 pair cid c → c.count ≠ 0 → c.count ≤ 2048 → c.volume ≤ 127 → c.p8 34 ≤ 3 →
    c.dataIs (c.count * 4096) = true → s.volStatus c.volume c.block c.count true = stOk →
    (c.data = some d → exec (.write pair cid) s = .next (markRunning c.pair c.cid s)) ∧
    (c.data = none → exec (.write pair cid) s = .next (refuse c.pair c.cid stDataAddress s))) ∧
  (∀ s pair cid c, s.alive = true → (s.ken.cmds.find? fun c => c.writing && c.pair == pair && c.cid == cid) = some c →
    (s.hostRoom c.volume c.count = true → s.ken.fatal = false →
      exec (.flashProgramComplete pair cid true) s = .next (finishPlain pair cid stOk (completeFlushes
        (writeBlocks c.volume (c.p8 34) c.block ((blocksOf (c.data.getD [])).take c.count) s)))) ∧
    (s.hostRoom c.volume c.count = false → exec (.flashProgramComplete pair cid true) s = .next s) ∧
    exec (.flashProgramComplete pair cid false) s = .next s) ∧
  (∀ s pair cid c, Ready s 0x0302 pair cid c → s.volStatus c.volume 0 0 false = stOk →
    exec (.flush pair cid) s = .next (completeFlushes
      (modCmds (fun x => x.isOpen c.pair c.cid) (fun x => { x with phase := .running, wait := s.unsettled c.volume }) s))) ∧
  (∀ s pair cid c, Ready s 0x0303 pair cid c → c.count ≠ 0 → c.volume ≤ 127 → c.p8 34 = 0 →
    s.volStatus c.volume c.block c.count true = stOk →
    exec (.trim pair cid) s = .next (finishPlain c.pair c.cid stOk (trimRange c.volume c.block c.count s))) ∧
  (∀ s pair cid c m, Ready s 0x0304 pair cid c → c.volume ≤ 127 → c.p8 34 ≤ 7 → c.p64 40 ≠ 0 →
    thas s.flash.volumes c.volume = false → tget s.flash.magazines (c.p8 34) = some m → m.state = 3 →
    (s.volumesOn m.sn).length < 16 → ((tvals (s.volumesOn m.sn)).map Volume.blocks).sum + c.p64 40 ≤ m.userBlocks →
    exec (.volumeCreate pair cid) s = .next (finishPlain c.pair c.cid stOk { s with flash := { s.flash with
      volumes := tput s.flash.volumes c.volume { sn := m.sn, bay := c.p8 34, blocks := c.p64 40, readOnly := false } } })) ∧
  (∀ s pair cid c v, Ready s 0x0305 pair cid c → tget s.flash.volumes c.volume = some v → s.volumeBusy c c.volume = false →
    s.openReels c.volume = false → s.runsOnVolume c.volume = false → ∃ t, exec (.volumeDelete pair cid) s = .next t ∧ tget t.flash.volumes c.volume = none ∧
      (∀ k r, (k, r) ∈ t.cat.reels → k / 2 ^ 32 ≠ c.volume) ∧ t.flash.blocks = (trimRange c.volume 0 v.blocks s).flash.blocks ∧
      t.findCmd pair cid = none)

/-- MAGAZINE_FORMAT erases the magazine and answers its capacity, and its first format is in the logbook; FOLD folds to its target and
answers the SLC blocks left, or pauses short of it; REBUILD scans its range and answers its progress; while the program-inhibit
condition holds the first two only pause, and so does a REBUILD with weak blocks; MAGAZINE_EJECT quiesces the magazine and stays outstanding; WEAR_REPORT writes a bay's record; the three forms of
REEL_APPEND open, extend and seal a reel. -/
def Obligations.MagazineAndReelCommandsWork : Prop :=
  (∀ s pair cid c l m, Enters s 0x0306 pair cid c (magTarget c s) (formatCheck c s) l →
    tget s.flash.magazines (byteAt l.entry 32) = some m → l.removed = false →
    (s.flash.inhibit = true →
      exec (.magazineFormat pair cid) s = .next (pauseLong l l.progress (dropLong l.handle s))) ∧
    (s.flash.inhibit = false → m.formatted = true →
      exec (.magazineFormat pair cid) s = .next (finish l.pair l.cid stOk m.userBlocks
        (wearCheck m.sn (dropLong l.handle s) (modMag m.sn Magazine.afterFormat (eraseAll m.sn (dropLong l.handle s)))))) ∧
    (s.flash.inhibit = false → m.formatted = false →
      exec (.magazineFormat pair cid) s = .next (finish l.pair l.cid stOk m.firstUserBlocks
        (logRecord 0x0032 (uMagazine (byteAt l.entry 32)) (formatBody (byteAt l.entry 32) m.afterFormat)
          (wearCheck m.sn (dropLong l.handle s)
            (modMag m.sn Magazine.afterFormat (eraseAll m.sn (dropLong l.handle s)))))))) ∧
  (∀ s pair cid c l m, Enters s 0x0307 pair cid c (magTarget c s) (foldCheck c s) l →
    s.landing = true → tget s.flash.magazines (byteAt l.entry 32) = some m → l.removed = false →
    (s.flash.inhibit = true →
      exec (.fold pair cid) s = .next (pauseLong l ((dropLong l.handle s).foldResult l) (dropLong l.handle s))) ∧
    (s.flash.inhibit = false → ∀ u, u = wearCheck m.sn (dropLong l.handle s)
      (foldSome l ((dropLong l.handle s).slcUsed m.sn) (dropLong l.handle s)) →
      (u.foldLeft (byteAt l.entry 32) (byteAt l.entry 33) m = 0 →
        exec (.fold pair cid) s = .next (finish l.pair l.cid stOk (u.foldResult l) u)) ∧
      (u.foldLeft (byteAt l.entry 32) (byteAt l.entry 33) m ≠ 0 →
        exec (.fold pair cid) s = .next (pauseLong l (u.foldResult l) u)))) ∧
  (∀ s pair cid c l v b m weak, Enters s 0x0308 pair cid c (rebuildTarget c s) (rebuildCheck c s) l → s.landing = true →
    tget s.flash.volumes (field l.entry 32 2) = some v → s.volMag v = some (b, m) → l.removed = false →
    s.flash.inhibit = true → weak ≠ [] →
    exec (.rebuild pair cid true weak) s = .next (pauseLong l l.progress (dropLong l.handle s))) ∧
  (∀ s pair cid c l v b m weak r, Enters s 0x0308 pair cid c (rebuildTarget c s) (rebuildCheck c s) l → s.landing = true →
    tget s.flash.volumes (field l.entry 32 2) = some v → s.volMag v = some (b, m) → l.removed = false →
    (s.flash.inhibit = false ∨ weak = []) →
    r = rebuildScan l true weak ((dropLong l.handle s).rebuildCount l.entry) (dropLong l.handle s) →
    exec (.rebuild pair cid true weak) s = .next (finish l.pair l.cid (if r.2.2 then stOk else stNoResources) r.2.1.progress r.1)) ∧
  (∀ s pair cid c m, Ready s 0x0309 pair cid c → tget s.flash.magazines (c.p8 32) = some m → (m.state = 3 ∨ m.state = 4) →
    exec (.magazineEject pair cid) s = .next (quiesce (c.p8 32) (markRunning c.pair c.cid (modBay (c.p8 32) (fun m =>
      { m with state := 5, prior := m.state, ejecting := true, ejectBy := some (c.pair, c.cid) }) s)))) ∧
  (∀ s pair cid c, Ready s 0x030B pair cid c → c.p8 32 ≤ 7 → c.exactBuf 128 = true →
    exec (.wearReport pair cid true) s = .next (finish c.pair c.cid stOk c.plainResult
      (emits ((layOut (hostBuffers c.entry c.list) (s.wearRecord (c.p8 32))).map fun p => .pcieWrite (s.dataVia c.pair) p.1 p.2) s))) ∧
  (∀ s pair cid c r, Ready s 0x030A pair cid c → c.p8 32 = 0 → c.openFields = true → s.reelBusy c = false →
    thas s.flash.volumes c.reelVolume = true → thas s.cat.reels c.reelKey = false → s.openCount < 256 →
    s.reelCount c.reelVolume < 1048576 → r = c.newReel s.tb (Config.fwRelease s.firmware) →
    s.volStatus c.reelVolume r.start r.payloadOffset true = stOk → s.hostRoom c.reelVolume r.payloadOffset = true →
    exec (.reelOpen pair cid) s = .next (finish c.pair c.cid stOk r.payloadOffset
      (writeBytes c.reelVolume r.start 2 (r.header c.reelNo ++ zeros ((r.payloadOffset - 1) * 4096)) (putReel c.reelKey r s)))) ∧
  (∀ s pair cid c r, Ready s 0x030A pair cid c → c.p8 32 = 1 →
    (tget s.cat.reels c.reelKey = none →
      exec (.reelSamples pair cid) s = .next (refuse c.pair c.cid stPrecondition s)) ∧
    (tget s.cat.reels c.reelKey = some r → s.reelBusy c = false → r.sealed = true →
      exec (.reelSamples pair cid) s = .next (refuse c.pair c.cid stPrecondition s)) ∧
    (∀ d sls xs bl z, tget s.cat.reels c.reelKey = some r → s.reelBusy c = false → r.sealed = false → c.hasData = true →
      c.p16 38 = r.dataset → c.data = some d → sls = pieces 64 (c.p32 72) d → sls.length = c.p32 72 →
      d.length = roundUp (64 * c.p32 72 + (sls.map fun b => field b 20 4).sum) 4 → c.dataLen = d.length →
      slatesGiven r.dataset (r.first + r.slates) sls = true → r.slates + c.p32 72 ≤ r.slateCap →
      xs = splitSamples sls (d.drop (64 * c.p32 72)) → bl = (packSamples r.blocks xs).closed.reverse →
      r.blocks + bl.length ≤ r.blockCap → z = storeBlocks r.codec r.level (Config.fwRelease s.firmware) r.nextUnit bl →
      s.volStatus c.reelVolume r.start z.2.2 true = stOk →
      s.hostRoom c.reelVolume (z.2.2 - r.nextUnit + 2 * c.p32 72 + 4) = true → ∃ t, exec (.reelSamples pair cid) s = .next t ∧
        tget t.cat.reels c.reelKey = some { r with
          slates := r.slates + c.p32 72, blocks := r.blocks + bl.length, nextUnit := z.2.2 })) ∧
  (∀ s pair cid c r, Ready s 0x030A pair cid c → c.p8 32 = 2 → tget s.cat.reels c.reelKey = some r → s.reelBusy c = false →
    r.sealed = true → exec (.reelSeal pair cid true) s = .next (refuse c.pair c.cid stPrecondition s)) ∧
  (∀ s pair cid c r s1, Ready s 0x030A pair cid c → c.p8 32 = 2 → tget s.cat.reels c.reelKey = some r → s.reelBusy c = false →
    r.sealed = false → c.exactBuf 48 = true → c.p16 38 = r.dataset →
    s.volStatus c.reelVolume r.start (r.nextUnit + 1) true = stOk → s.hostRoom c.reelVolume 2 = true →
    s1 = readRun c.reelVolume r.start r.nextUnit (writeBytes c.reelVolume r.start 2
      (({ r with sealed := true, footer := r.nextUnit } : Reel).header c.reelNo) s) →
    ∃ t, exec (.reelSeal pair cid true) s = .next t ∧ t.findCmd pair cid = none ∧
      tget t.cat.reels c.reelKey = some { r with sealed := true, footer := r.nextUnit } ∧
      ((layOut (hostBuffers c.entry c.list) (sha384 (s1.readBytes c.reelVolume (r.start * 4096)
        (r.nextUnit * 4096)))).map fun p => Output.pcieWrite (s1.dataVia c.pair) p.1 p.2) <:+ t.out)

/-- With the conditions of the manual on the state and the operands alone: MAGAZINE_FORMAT of a magazine in state 2, 3 or 4 without volumes
completes with ST_OK and USER_BLOCKS, and nothing is mapped on the magazine then; FOLD of a magazine in state 3 or 4, its SLC blocks no
more than the target, completes with ST_OK and their number, and of any other number it completes or, short of its target, pauses; REBUILD
of a range within a volume that holds lost blocks no more than its buffer takes completes with ST_OK; MAGAZINE_EJECT of a magazine in
state 3 or 4 quiesces it and stays outstanding, and completes with ST_OK once it is powered off; WEAR_REPORT writes the record of a
bay, or those of all eight. -/
def Obligations.MagazineOperationsComplete : Prop :=
  (∀ s pair cid c m, Starts s 0x0306 pair cid c (uMagazine (c.p8 32)) → c.p8 32 ≤ 7 →
    tget s.flash.magazines (c.p8 32) = some m → (m.state = 2 ∨ m.state = 3 ∨ m.state = 4) → s.volumesOn m.sn = [] →
    s.flash.inhibit = false → ∃ t u, exec (.magazineFormat pair cid) s = .next t ∧
      t = finish c.pair c.cid stOk (if m.formatted then m.userBlocks else m.firstUserBlocks) u ∧
      (∀ kv ∈ u.flash.stripes, stripeSn kv.1 ≠ m.sn) ∧ (∀ kv ∈ u.flash.home, stripeSn kv.2 ≠ m.sn) ∧
      (∀ v, tget u.flash.volumes v = none ↔ tget s.flash.volumes v = none)) ∧
  (∀ s pair cid c m, Starts s 0x0307 pair cid c (uMagazine (c.p8 32)) → c.p8 32 ≤ 7 → c.p8 33 ≤ 100 →
    tget s.flash.magazines (c.p8 32) = some m → (m.state = 3 ∨ m.state = 4) → s.flash.inhibit = false →
    s.landing = true →
    (s.foldLeft (c.p8 32) (c.p8 33) m = 0 → ∃ t u, exec (.fold pair cid) s = .next t ∧
      t = finish c.pair c.cid stOk (s.slcUsed m.sn) u ∧ u.flash.home = s.flash.home ∧ u.flash.blocks = s.flash.blocks) ∧
    ∃ t u, exec (.fold pair cid) s = .next t ∧ u.flash.blocks = s.flash.blocks ∧
      (u.foldLeft (c.p8 32) (c.p8 33) m = 0 → ∃ n, t = finish c.pair c.cid stOk n u) ∧
      (u.foldLeft (c.p8 32) (c.p8 33) m ≠ 0 → ∃ n l, t = pauseLong l n u ∧ l.pair = c.pair ∧ l.cid = c.cid)) ∧
  (∀ s pair cid c v b m weak, Starts s 0x0308 pair cid c (rebuildTarget c s) → c.volume ≤ 127 → eDataForm c.entry = 1 →
    tget s.flash.volumes c.volume = some v → s.volMag v = some (b, m) → m.takesCommands = true →
    c.p64 40 + s.rebuildCount c.entry ≤ v.blocks → s.flash.inhibit = false → s.landing = true →
    s.rebuildCount c.entry < 2 ^ 40 →
    (extentsOf ((s.lostIn c.volume (c.p64 40) (s.rebuildCount c.entry)).map (c.p64 40 + ·))).length ≤ eDataLen c.entry / 16 →
    ∃ t u, exec (.rebuild pair cid true weak) s = .next t ∧ u.flash.blocks = s.flash.blocks ∧ u.flash.lost = s.flash.lost ∧
      t = finish c.pair c.cid stOk (s.rebuildCount c.entry +
        (extentsOf ((s.lostIn c.volume (c.p64 40) (s.rebuildCount c.entry)).map (c.p64 40 + ·))).length * 2 ^ 40) u) ∧
  (∀ s pair cid c m, Ready s 0x0309 pair cid c → c.p8 32 ≤ 7 → tget s.flash.magazines (c.p8 32) = some m →
    (m.state = 3 ∨ m.state = 4) → ∃ t, exec (.magazineEject pair cid) s = .next t ∧
      tget t.flash.magazines (c.p8 32) = some { m with
        state := 5, prior := m.state, ejecting := true, ejectBy := some (c.pair, c.cid), quiescing := true } ∧
      t.inService (uMagazine (c.p8 32)) = false) ∧
  (∀ s bay m pair cid, s.alive = true → tget s.flash.magazines bay = some m → m.state = 5 → m.quiescing = true →
    m.ejectBy = some (pair, cid) → s.flash.inhibit = false → (∀ c ∈ s.ken.cmds, (c.writing && s.writesTo m.sn c) = false) →
    s.allVerified m.sn = true → ∃ t u, exec (.ejectPowerOff bay) s = .next t ∧ t = finishPlain pair cid stOk u ∧
      (tget u.flash.magazines bay).map Magazine.state = some 6) ∧
  (∀ s pair cid c, Ready s 0x030B pair cid c →
    (c.p8 32 ≤ 7 → c.exactBuf 128 = true → exec (.wearReport pair cid true) s = .next (finish c.pair c.cid stOk c.plainResult
      (emits ((layOut (hostBuffers c.entry c.list) (s.wearRecord (c.p8 32))).map
        fun p => .pcieWrite (s.dataVia c.pair) p.1 p.2) s))) ∧
    (c.p8 32 = 0xFF → c.exactBuf 1024 = true → exec (.wearReport pair cid true) s = .next (finish c.pair c.cid stOk c.plainResult
      (emits ((layOut (hostBuffers c.entry c.list) ((List.range 8).map s.wearRecord).flatten).map
        fun p => .pcieWrite (s.dataVia c.pair) p.1 p.2) s))))

/-- With the conditions of the manual on the state and the operands alone: OPEN of a reel that does not exist completes with ST_OK and the
payload offset, and the reel is in the table, open and empty; SAMPLES of slates and data that agree completes with ST_OK and the reel's
counts, which grow by the samples and their blocks; SEAL completes with ST_OK and the reel's length, and the reel is sealed. No other
reel changes. -/
def Obligations.ReelAppendCompletes : Prop :=
  (∀ s pair cid c r, Ready s 0x030A pair cid c → c.p8 32 = 0 → c.openFields = true → s.reelBusy c = false →
    thas s.flash.volumes c.reelVolume = true → thas s.cat.reels c.reelKey = false → s.openCount < 256 →
    s.reelCount c.reelVolume < 1048576 → r = c.newReel s.tb (Config.fwRelease s.firmware) →
    s.volStatus c.reelVolume r.start r.payloadOffset true = stOk → s.hostRoom c.reelVolume r.payloadOffset = true →
    ∃ t u, exec (.reelOpen pair cid) s = .next t ∧ t = finish c.pair c.cid stOk r.payloadOffset u ∧
      tget u.cat.reels c.reelKey = some r ∧ r.sealed = false ∧ r.slates = 0 ∧ r.blocks = 0 ∧
      ∀ k, k ≠ c.reelKey → tget u.cat.reels k = tget s.cat.reels k) ∧
  (∀ s pair cid c r d sls bl z, Ready s 0x030A pair cid c → c.p8 32 = 1 → tget s.cat.reels c.reelKey = some r →
    s.reelBusy c = false → r.sealed = false → c.hasData = true → c.p16 38 = r.dataset → c.data = some d →
    sls = pieces 64 (c.p32 72) d → sls.length = c.p32 72 →
    d.length = roundUp (64 * c.p32 72 + (sls.map fun b => field b 20 4).sum) 4 → c.dataLen = d.length →
    slatesGiven r.dataset (r.first + r.slates) sls = true → r.slates + c.p32 72 ≤ r.slateCap →
    bl = (packSamples r.blocks (splitSamples sls (d.drop (64 * c.p32 72)))).closed.reverse → r.blocks + bl.length ≤ r.blockCap →
    z = (storeBlocks r.codec r.level (Config.fwRelease s.firmware) r.nextUnit bl).2.2 →
    s.volStatus c.reelVolume r.start z true = stOk → s.hostRoom c.reelVolume (z - r.nextUnit + 2 * c.p32 72 + 4) = true →
    ∃ t u, exec (.reelSamples pair cid) s = .next t ∧
      t = finish c.pair c.cid stOk (r.slates + c.p32 72 + (r.blocks + bl.length) * 2 ^ 32) u ∧
      tget u.cat.reels c.reelKey = some { r with slates := r.slates + c.p32 72, blocks := r.blocks + bl.length, nextUnit := z } ∧
      ∀ k, k ≠ c.reelKey → tget u.cat.reels k = tget s.cat.reels k) ∧
  (∀ s pair cid c r, Ready s 0x030A pair cid c → c.p8 32 = 2 → tget s.cat.reels c.reelKey = some r → s.reelBusy c = false →
    r.sealed = false → c.exactBuf 48 = true → c.p16 38 = r.dataset →
    s.volStatus c.reelVolume r.start (r.nextUnit + 1) true = stOk → s.hostRoom c.reelVolume 2 = true →
    ∃ t u, exec (.reelSeal pair cid true) s = .next t ∧ t = finish c.pair c.cid stOk (r.nextUnit + 1) u ∧
      tget u.cat.reels c.reelKey = some { r with sealed := true, footer := r.nextUnit } ∧
      ∀ k, k ≠ c.reelKey → tget u.cat.reels k = tget s.cat.reels k)

/-- Presence starts the debounce; an empty debounce ends it; a sound magazine is powered and placed in its bay, unless a fault keeps it off;
one that trains takes the state of its wear and enters service; the attention button starts an eject and, within the window, cancels
it; the window's end quiesces; with no WRITE in flight its open stripes are closed, and once all are verified it is powered off, and
with the inhibit condition at the time-out too, its commands then ended; removal empties the bay, and a surprise removal or a power
fault fails what it held. -/
def Obligations.MagazinesComeAndGo : Prop :=
  (∀ s bay, s.alive = true → thas s.flash.magazines bay = false → bay ∉ s.flash.arriving →
    exec (.presenceRise bay) s = .next { s with flash := { s.flash with arriving := s.flash.arriving ++ [bay] } }) ∧
  (∀ s bay fault dies g rates i, s.alive = true → bay ∈ s.flash.arriving → 5 ≤ s.ken.bootStage →
    exec (.insertionDebounce bay false fault dies g rates i) s =
      .next { s with flash := { s.flash with arriving := s.flash.arriving.filter (· ≠ bay) } }) ∧
  (∀ s bay dies g rates i, s.alive = true → bay ∈ s.flash.arriving → 5 ≤ s.ken.bootStage → geometryOk dies g = true →
    (∀ r ∈ s.fitRates bay rates, r ≠ 0) →
    exec (.insertionDebounce bay true false dies g rates i) s = .next (emits (insertionOps bay (dies.headD 0) true)
      (magPin "LED_G" bay 3 (magPin "PWR_EN" bay 1 (placeMagazine bay (dies.headD 0) g (s.fitRates bay rates) i
        { s with flash := { s.flash with arriving := s.flash.arriving.filter (· ≠ bay) } }))))) ∧
  (∀ s bay dies g rates i, s.alive = true → bay ∈ s.flash.arriving → 5 ≤ s.ken.bootStage →
    exec (.insertionDebounce bay true true dies g rates i) s = .next (failEvent bay (modBay bay
      (fun m => { m with state := 7, powered := false })
      (placeMagazine bay (dies.headD 0) g (s.fitRates bay rates) i
        { s with flash := { s.flash with arriving := s.flash.arriving.filter (· ≠ bay) } })))) ∧
  (∀ s bay m u, s.alive = true → tget s.flash.magazines bay = some m → m.state = 1 → tget s.flash.incoming bay = none →
    u = { s with flash := { s.flash with
      volumes := tmapv s.flash.volumes fun _ v => if v.sn == m.sn then { v with bay := bay } else v } } →
    exec (.magazineReady bay) s = .next (enterService (uMagazine bay) (magEvent bay 5 (magPin "LED_G" bay 1 (modBay bay
      (fun x => { x with state := if !m.formatted then 2 else if m.sparePct ≤ 2 then 4 else 3 })
      (countFrom m (fetchAgain m.sn u))))))) ∧
  (∀ s bay m, s.alive = true → tget s.flash.magazines bay = some m → (m.state = 3 ∨ m.state = 4) → ∃ t,
    exec (.attentionButton bay) s = .next t ∧
      tget t.flash.magazines bay = some { m with state := 5, prior := m.state, ejecting := true }) ∧
  (∀ s bay m, s.alive = true → tget s.flash.magazines bay = some m → m.state = 5 → m.quiescing = false → ∃ t,
    exec (.attentionButton bay) s = .next t ∧
      tget t.flash.magazines bay = some { m with state := m.prior, ejecting := false }) ∧
  (∀ s bay m, s.alive = true → tget s.flash.magazines bay = some m → m.state = 5 → m.quiescing = false →
    exec (.ejectWindowExpiry bay) s = .next (departService (uMagazine bay) (magPin "LED_G" bay 3
      (modBay bay (fun m => { m with quiescing := true }) (loseOps bay s))))) ∧
  (∀ s bay m, s.alive = true → tget s.flash.magazines bay = some m → m.state = 5 → m.quiescing = true →
    s.flash.inhibit = false → (∀ c ∈ s.ken.cmds, (c.writing && s.writesTo m.sn c) = false) →
    exec (.ejectPowerOff bay) s = .next (if s.allVerified m.sn then powerOff bay m s else closeAll m.sn s)) ∧
  (∀ s bay m, s.alive = true → tget s.flash.magazines bay = some m → m.state = 5 → m.quiescing = true →
    s.flash.inhibit = true → exec (.ejectInhibitTimeout bay) s = .next (powerOff bay m (failCommands m.sn s))) ∧
  (∀ s bay m, s.alive = true → tget s.flash.magazines bay = some m → m.state ≠ 6 → ∃ t,
    exec (.surpriseRemoval bay) s = .next t ∧ tget t.flash.magazines bay = none ∧ tget t.flash.incoming bay = none) ∧
  (∀ s bay m, s.alive = true → tget s.flash.magazines bay = some m → m.powered = true →
    exec (.magazinePowerFault bay) s = .next (modBay bay (fun m =>
      { m with state := 7, powered := false, ejecting := false, quiescing := false, ejectBy := none }) (surprise bay m s))) ∧
  (∀ s bay m, s.alive = true → bay ∉ s.flash.arriving → tget s.flash.magazines bay = some m → m.state = 6 →
    exec (.safeRemoval bay) s = .next { s with flash := { s.flash with
      magazines := tdel s.flash.magazines bay
      incoming := tdel s.flash.incoming bay
      away := s.flash.away ++ [{ m with
        state := 0, powered := false, ejecting := false, quiescing := false, ejectBy := none }] } })

/-- A code word read is counted in the histogram of the attempt that gave it; one that a late read retry, the soft decode or the stripe's
parity gave is relocated, and one that none gave is lost and recorded; a stripe that verifies stands and the FLUSH commands that waited
for it complete; a program that fails is written again from a spare and recorded as corrected; folding, garbage collection, wear
levelling and relocation work from their thresholds; every 100 ms each magazine in use is retrained; the program-inhibit condition
sets and clears once; a rail below ABORT_PCT resets the busy dies. -/
def Obligations.FlashEventsWork : Prop :=
  (∀ s volume block reads v k b m n member u, s.alive = true → tget s.flash.volumes volume = some v →
    tget s.flash.home (blockKey volume block) = some k → s.volMag v = some (b, m) →
    n = correction (((tget s.flash.stripes k).map fun st => !st.parity.isEmpty).getD false) volume block reads →
    member = memberOf m.planes (s.wordIndex (blockKey volume block)) →
    u = emits (retryOps b (m.flashPlace (k % 2 ^ 32) member) n) (modMag v.sn (fun m => m.countRead (histBucket n)) s) →
    (n < 8 → exec (.flashReadComplete volume block reads) s = .next u) ∧
    (8 ≤ n → n ≠ 18 → exec (.flashReadComplete volume block reads) s = .next (relocateWeak { u with flash := { u.flash with
      weak := if blockKey volume block ∈ u.flash.weak then u.flash.weak else u.flash.weak ++ [blockKey volume block] } })) ∧
    (n = 18 → exec (.flashReadComplete volume block reads) s = .next (recordErr
      (flashErr b (member / 2) 0x0301 clsContained (blockKey volume block) (m.dieOfMember (k % 2 ^ 32) member)
        (m.blockNo (k % 2 ^ 32)) (s.erases m k))
      (loseBlocks b v.sn [blockKey volume block] u)))) ∧
  (∀ s k st b m u, s.alive = true → tget s.flash.stripes k = some st → s.magOf (stripeSn k) = some (b, m) →
    st.closed = true → st.verified = false →
    u = (List.range 16).foldl (fun (t : State) (i : Nat) => dieOp .read b m (k % 2 ^ 32) i t) s →
    exec (.stripeVerify k []) s = .next (completeFlushes (releaseParity (eraseEmpty (stripeSn k) (wearCheck (stripeSn k) s
      { u with flash := { u.flash with stripes := tput u.flash.stripes k { st with verified := true } } }))))) ∧
  (∀ s k die st b m hit u, s.alive = true → tget s.flash.stripes k = some st → s.magOf (stripeSn k) = some (b, m) →
    st.closed = false → tgetD m.sparesUsed (m.dieOfMember (k % 2 ^ 32) die) 0 < m.spares → hit = s.wordsOn k m.planes [die] →
    u = recordErr (flashErr b (die / 2) 0x0302 clsCorrected ((hit.map FlashWord.key).headD 0) (m.dieOfMember (k % 2 ^ 32) die)
      (m.blockNo (k % 2 ^ 32)) (s.erases m k)) (rewriteWords k st.slc st.cls hit (retireBlock k die s)) →
    exec (.programFail k die none) s = .next (wearCheck (stripeSn k) s u)) ∧
  (∀ s r bay units m, s.alive = true → r = relocateWeak s → tget r.flash.magazines bay = some m → r.mayWork m = true →
    r.landing = true → (∀ l ∈ r.ken.longOps, ¬ (l.opcode = 0x0307 ∧ l.target = uMagazine bay)) →
    (m.sn ∉ r.flash.foldOn → r.slcUsed m.sn < r.slcCapacity bay m * r.raw 0x07 bay 0x03 50 / 100 →
      exec (.backgroundFold bay units) s = .next r) ∧
    (m.sn ∈ r.flash.foldOn → r.slcUsed m.sn ≤ r.slcCapacity bay m * r.raw 0x07 bay 0x03 50 / 100 / 2 →
      exec (.backgroundFold bay units) s =
        .next { r with flash := { r.flash with foldOn := r.flash.foldOn.filter (· ≠ m.sn) } }) ∧
    (m.sn ∈ r.flash.foldOn → r.slcCapacity bay m * r.raw 0x07 bay 0x03 50 / 100 / 2 < r.slcUsed m.sn →
      exec (.backgroundFold bay units) s = .next (wearCheck m.sn r (foldBlocks m.sn
        (min units (r.slcUsed m.sn - r.slcCapacity bay m * r.raw 0x07 bay 0x03 50 / 100 / 2)) r)))) ∧
  (∀ s r bay group m k, s.alive = true → r = relocateWeak s → tget r.flash.magazines bay = some m → r.mayWork m = true →
    m.sn * 256 + group ∈ r.flash.gcOn →
    (r.raw 0x07 bay 0x05 24 ≤ r.freeInGroup m group → exec (.garbageCollection bay group) s =
      .next { r with flash := { r.flash with gcOn := r.flash.gcOn.filter (· ≠ m.sn * 256 + group) } }) ∧
    (r.freeInGroup m group < r.raw 0x07 bay 0x05 24 → r.victimOf m group = some k → exec (.garbageCollection bay group) s =
      .next (wearCheck m.sn r (relocateStripe m.sn k
        (min 3 (((tget r.flash.stripes k).map Stripe.cls).getD 0 + 1)) r)))) ∧
  (∀ s bay m k, s.alive = true → tget s.flash.magazines bay = some m → s.mayWork m = true → s.coldest m.sn = some k →
    s.raw 0x07 bay 0x06 1000 < s.eraseMax m - s.eraseMin m →
    exec (.staticWearLevelling bay) s = .next (wearCheck m.sn s (relocateStripe m.sn k 3 s))) ∧
  (∀ s volume block k st, s.alive = true → tget s.flash.copies (blockKey volume block) = some k →
    tget s.flash.stripes k = some st → st.closed = true → st.verified = true →
    exec (.relocationSwitch volume block) s = .next (wearCheck (stripeSn k) s (eraseEmpty (stripeSn k)
      { s with flash := { s.flash with
        home := tput s.flash.home (blockKey volume block) k, copies := tdel s.flash.copies (blockKey volume block) } }))) ∧
  (∀ s, s.alive = true → exec .interfaceRetrainTimer s = .next (emits
    ((s.flash.magazines.filter fun kv => decide (2 ≤ kv.2.state ∧ kv.2.state ≤ 5)).map
      fun kv => trainingOps kv.1 false).flatten s)) ∧
  (∀ s pct u, s.alive = true → s.flash.inhibit = false →
    u = failWrites (fun _ => true) stSupplyLow (failAppends (fun _ => true) stSupplyLow { s with flash := { s.flash with
      pwrWarn := true, railLow := decide (pct < s.inhibitPct) } }) →
    exec (.programInhibitSet true pct) s = .next (emit (.pin "WP#" 0) (raiseEvent 0x0006 uPackage (1 + 2 ^ 8)
      (bump 0x07 0x0100 0x03 { u with flash := { u.flash with inhibit := true } })))) ∧
  (∀ s u, s.alive = true → s.flash.inhibit = true →
    u = completeFlushes (emit (.pin "WP#" 1) (raiseEvent 0x0006 uPackage 1
      { s with flash := { s.flash with inhibit := false, pwrWarn := false, railLow := false } })) →
    exec .programInhibitClear s = .next (relocateWeak (s.flash.magazines.foldl (fun (t : State) (kv : Nat × Magazine) =>
      wearCheck kv.2.sn t (eraseEmpty kv.2.sn t)) u))) ∧
  (∀ s pct busy, s.alive = true → pct < s.raw 0x07 0x0100 0x02 90 →
    exec (.flashAbort pct busy) s = .next (emits (busy.map fun d => .flashOp .resetLun d.1 d.2) s))

/-- CATALOG_UNLOAD of a dataset that has runs, staged data or a summary removes all three and completes with ST_OK; while a running pipeline
uses it, or a CATALOG_LOAD of it is outstanding or paused, it completes with ST_BUSY and removes nothing; an unknown handle gives
ST_PRECONDITION. The RESULT, which the rule does not state, is a free value (log entry 3). -/
def Obligations.CatalogUnload : Prop :=
  ∀ s pair cid c, Ready s 0x0101 pair cid c →
    (thas s.cat.committed (c.p16 32) = false → thas s.cat.staged (c.p16 32) = false → thas s.cat.summaries (c.p16 32) = false →
      exec (.catalogUnload pair cid) s = .next (finishPlain c.pair c.cid stPrecondition s)) ∧
    ((thas s.cat.committed (c.p16 32) || thas s.cat.staged (c.p16 32) || thas s.cat.summaries (c.p16 32)) = true →
      (s.datasetInUse (c.p16 32) || s.loadingCatalog (c.p16 32)) = true →
      exec (.catalogUnload pair cid) s = .next (finishPlain c.pair c.cid stBusy s)) ∧
    ((thas s.cat.committed (c.p16 32) || thas s.cat.staged (c.p16 32) || thas s.cat.summaries (c.p16 32)) = true →
      s.datasetInUse (c.p16 32) = false → s.loadingCatalog (c.p16 32) = false →
      ∃ t, exec (.catalogUnload pair cid) s = .next t ∧
        tget t.cat.committed (c.p16 32) = none ∧ tget t.cat.staged (c.p16 32) = none ∧ tget t.cat.summaries (c.p16 32) = none ∧
        (∀ k r, (k, r) ∈ t.cat.held → k % 2 ^ 16 ≠ c.p16 32) ∧ t.ken = (finishPlain c.pair c.cid stOk s).ken)

/-- PIPELINE_DELETE of a pipeline that is declared and in DECLARED, STOPPED or ENDED frees all that the pipeline held, its declaration,
consumers, shot records and schedules with it, leaves every other pipeline, and completes with ST_OK. -/
def Obligations.PipelineDelete : Prop :=
  ∀ s pair cid c p, Ready s 0x0203 pair cid c → tget s.pipes (c.p8 32) = some p → (p.state = 1 ∨ p.state = 5 ∨ p.state = 6) →
    ∃ t, exec (.pipelineDelete pair cid) s = .next t ∧ tget t.pipes (c.p8 32) = none ∧
      (∀ k, k ≠ c.p8 32 → tget t.pipes k = tget s.pipes k) ∧ t.ken = (finishPlain c.pair c.cid stOk s).ken

/-- A CATALOG_LOAD whose slices all parse stages them and answers the runs staged, and with LAST it commits them when all slices of the
load are there; ROUTING_SUMMARY_LOAD puts its summary into effect, at once or from its batch on while a pipeline runs; CATALOG_LOOKUP
answers where the sample stands. -/
def Obligations.CatalogCommandsWork : Prop :=
  (∀ s pair cid c l r g, Enters s 0x0100 pair cid c (catalogTarget c s) (catalogCheck c s) l →
    r = loadSome l l.data.length (noteDataset l (dropLong l.handle s)) → r.1 = stOk → tget r.2.2.cat.staged (field l.entry 32 2) = some g →
    (bitOf (byteAt l.entry 56) 1 = false →
      exec (.catalogLoad pair cid) s = .next (finish l.pair l.cid stOk g.runs.length r.2.2)) ∧
    (bitOf (byteAt l.entry 56) 1 = true → (∃ sl rest, g.slices = sl :: rest ∧ sl.total = g.slices.length) →
      (thas r.2.2.cat.committed (field l.entry 32 2) = true ∨ r.2.2.cat.committed.length < 4096) →
      r.2.2.runsWith (field l.entry 32 2) g ≤ 16777216 →
      exec (.catalogLoad pair cid) s =
        .next (finish l.pair l.cid stOk g.runs.length (commitLoad (field l.entry 32 2) g r.2.2)))) ∧
  (∀ s pair cid c d es total sum kept, Ready s 0x0103 pair cid c → c.data = some d → c.p32 48 ≠ 0 →
    c.dataIs (16 * c.p32 48) = true → d.length = 16 * c.p32 48 → parseRoutes 0 (pieces 16 (c.p32 48) d) = some (es, total) →
    (thas s.cat.committed (c.p16 32) = true ∨ thas s.cat.staged (c.p16 32) = true) →
    s.sizesOf (c.p16 32) (c.p64 40) ≠ [] → (∀ n ∈ s.sizesOf (c.p16 32) (c.p64 40), n = total) →
    (s.datasetInUse (c.p16 32) = false → sum = { fromBatch := 0, version := c.p64 40, size := total, entries := es } → kept = [] →
      s.routesWith (c.p16 32) [sum] ≤ 1048576 →
      exec (.routingSummaryLoad pair cid) s = .next (finishPlain c.pair c.cid stOk (storeObject 4 (c.p16 32) sum.image
        { s with cat := { s.cat with summaries := tput s.cat.summaries (c.p16 32) [sum] } }))) ∧
    (s.datasetInUse (c.p16 32) = true → s.startedOf (c.p16 32) ≤ c.p64 56 →
      sum = { fromBatch := c.p64 56, version := c.p64 40, size := total, entries := es } →
      kept = (tgetD s.cat.summaries (c.p16 32) []).filter (fun m => decide (m.fromBatch < c.p64 56)) →
      s.routesWith (c.p16 32) (kept ++ [sum]) ≤ 1048576 →
      exec (.routingSummaryLoad pair cid) s = .next (finishPlain c.pair c.cid stOk (staleSchedules (c.p16 32) (c.p64 56)
        (storeObject 4 (c.p16 32) ((kept ++ [sum]).map Summary.image).flatten
          { s with cat := { s.cat with summaries := tput s.cat.summaries (c.p16 32) (kept ++ [sum]) } }))))) ∧
  (∀ s pair cid c k m own r, Ready s 0x0102 pair cid c → c.exactBuf 32 = true → tget s.cat.committed (c.p16 32) = some k →
    c.p64 40 < k.size → s.newestUser (c.p16 32) = none → s.summaryFor (c.p16 32) (2 ^ 64) = some m →
    m.owner (c.p64 40) = some own → runOf k.runs (c.p64 40) = some r →
    exec (.catalogLookup pair cid true) s = .next (finish c.pair c.cid stOk 1 (emits
      ((layOut (hostBuffers c.entry c.list) (putLE 2 own ++ putLE 2 r.volume ++ putLE 4 r.reel
        ++ putLE 4 (r.slateBase + (c.p64 40 - r.first)) ++ zeros 4
        ++ putLE 8 (((tget s.cat.reels (reelKey r.volume r.reel)).map Reel.start).getD 0)
        ++ putLE 8 k.version)).map fun p => .pcieWrite (s.dataVia c.pair) p.1 p.2) (tickFree s))))

/-- PIPELINE_DECLARE holds a valid declaration; PIPELINE_START enters STARTING; PIPELINE_STOP stops at once or at its stop point;
PIPELINE_CHECKPOINT writes the record, of a RUNNING pipeline at its next boundary; PIPELINE_RESTORE sets the cursor of a record that
fits; SHOT_RECORDS_LOAD sets the template or adds the records; CONSUMER_ATTACH attaches and detaches. -/
def Obligations.PipelineCommandsWork : Prop :=
  (∀ s pair cid c d k, Ready s 0x0200 pair cid c → thas s.pipes (c.p8 32) = false → c.hasData = true → c.data = some d →
    d.length = c.dataLen → parseDecl (c.p8 32) d = some k → k.valid = true → k.opcat = Config.opcatVersion s.firmware % 2 ^ 32 →
    exec (.pipelineDeclare pair cid) s = .next (finishPlain c.pair c.cid stOk (storeObject 7 (c.p8 32) d
      { s with pipes := tput s.pipes (c.p8 32) (newPipeline k) }))) ∧
  (∀ s pair cid c p, Ready s 0x0201 pair cid c → tget s.pipes (c.p8 32) = some p → s.startStatus (c.p8 32) p = stOk →
    exec (.pipelineStart pair cid) s = .next (finishPlain c.pair c.cid stOk (resetLock (c.p8 32) p.cursor
      (modPipe (c.p8 32) (fun _ => s.startedPipe (c.p8 32) p)
        (p.decl.datasets.foldl (fun t h => pruneSummaries h p.cursor t) s))))) ∧
  (∀ s pair cid c p, Ready s 0x0202 pair cid c → tget s.pipes (c.p8 32) = some p → c.p8 33 ≤ 1 → p.stop = none →
    (p.state = 2 ∨ p.state = 3) →
    (bitOf (c.p8 33) 0 = true ∨ (p.state = 2 ∧ c.p64 40 = 0) →
      exec (.pipelineStop pair cid) s = .next (finish c.pair c.cid stOk p.cursor (stopPipe (c.p8 32) 5 s))) ∧
    (bitOf (c.p8 33) 0 = false → p.state = 3 → c.p64 40 = 0 →
      exec (.pipelineStop pair cid) s = .next (markRunning c.pair c.cid (modPipe (c.p8 32) (fun q =>
        { q with state := 4, stop := some { pair := c.pair, cid := c.cid, at_ := p.cursor + 1, limits := false } }) s))) ∧
    (bitOf (c.p8 33) 0 = false → c.p64 40 ≠ 0 → c.p64 40 ≤ p.cursor →
      exec (.pipelineStop pair cid) s = .next (refuse c.pair c.cid stPrecondition s)) ∧
    (bitOf (c.p8 33) 0 = false → p.cursor < c.p64 40 → ∃ t q, exec (.pipelineStop pair cid) s = .next t ∧
      tget t.pipes (c.p8 32) = some q ∧ q.state = 4 ∧ q.stop = some { pair := c.pair, cid := c.cid, at_ := c.p64 40, limits := true } ∧
      q.cursor = p.cursor ∧ q.started = min p.started (c.p64 40))) ∧
  (∀ s pair cid c p, Ready s 0x0208 pair cid c → tget s.pipes (c.p8 32) = some p → c.exactBuf 160 = true →
    (p.state = 3 → exec (.pipelineCheckpoint pair cid true) s = .next (markRunning c.pair c.cid (modPipe (c.p8 32) (fun p =>
      { p with checkpoints := p.checkpoints ++ [(c.pair, c.cid, true)] }) s))) ∧
    (p.state ≠ 3 → exec (.pipelineCheckpoint pair cid true) s = .next (finish c.pair c.cid stOk c.plainResult
      (setAnchor (c.p8 32) (emits ((layOut (hostBuffers c.entry c.list)
        (s.checkpointRecord (c.p8 32) p)).map fun p => .pcieWrite (s.dataVia c.pair) p.1 p.2) s))))) ∧
  (∀ s pair cid c p d, Ready s 0x0209 pair cid c → tget s.pipes (c.p8 32) = some p → (p.state = 1 ∨ p.state = 5) →
    c.dataIs 160 = true → c.data = some d → s.restoreStatus (c.p8 32) p d = stOk → ∃ t q,
      exec (.pipelineRestore pair cid) s = .next t ∧ tget t.pipes (c.p8 32) = some q ∧ q.cursor = field d 112 8 ∧
      q.schedules = [] ∧ q.decl = p.decl ∧ q.state = p.state ∧ (∀ k x, (k, x) ∈ q.shots →
        field d 112 8 ≤ p.decl.nominalBatch (s.domain p.decl) (k / 2 ^ 47) (k % 2 ^ 47))) ∧
  (∀ s pair cid c p d, Ready s 0x0205 pair cid c → tget s.pipes (c.p8 32) = some p → c.data = some d →
    (∀ x, c.p8 33 = 0 → c.dataIs 192 = true → p.active = false → p.decl.shotMode = 1 →
      parseShot (d.take 128) (sub d 128 64) = some x → x.rangesOk = true →
      exec (.shotRecordsLoad pair cid) s = .next (finishPlain c.pair c.cid stOk
        (storeShots (c.p8 32) (modPipe (c.p8 32) (fun p => { p with template := some x }) s)))) ∧
    (∀ rs, c.p8 33 = 1 → c.p32 36 ≠ 0 → c.dataIs (128 * c.p32 36) = true → p.decl.shotMode = 2 → p.schedules = [] →
      (∀ b ∈ pieces 128 (c.p32 36) d, shotKey b ∉ p.made) → parseShots (pieces 128 (c.p32 36) d) = some rs →
      (∀ kv ∈ rs, kv.1 % 2 ^ 47 < s.domain p.decl ∧ kv.1 / 2 ^ 47 < p.decl.epochs) →
      (rs.foldl (fun t kv => tput t kv.1 kv.2) p.shots).length ≤ 16777216 →
      exec (.shotRecordsLoad pair cid) s = .next (finishPlain c.pair c.cid stOk (storeShots (c.p8 32) (modPipe (c.p8 32)
        (fun q => { q with shots := rs.foldl (fun t kv => tput t kv.1 kv.2) p.shots }) s))))) ∧
  (∀ s pair cid c p, Ready s 0x0207 pair cid c → tget s.pipes (c.p8 32) = some p → c.p8 33 ≤ 1 → c.p16 34 ≤ 4095 →
    p.active = false → p.state ≠ 6 →
    (c.p8 33 = 0 → c.consumer.ok p.decl = true → exec (.consumerAttach pair cid) s = .next (finishPlain c.pair c.cid stOk
      (modPipe (c.p8 32) (fun p =>
        { p with consumers := tput p.consumers (c.p16 34) c.consumer, runs := tdel p.runs (c.p16 34) }) s))) ∧
    (c.p8 33 = 1 → thas p.consumers (c.p16 34) = true → exec (.consumerAttach pair cid) s = .next (finishPlain c.pair c.cid stOk
      (modPipe (c.p8 32) (fun p =>
        { p with consumers := tdel p.consumers (c.p16 34), runs := tdel p.runs (c.p16 34) }) s))) ∧
    (c.p8 33 = 1 → thas p.consumers (c.p16 34) = false →
      exec (.consumerAttach pair cid) s = .next (refuse c.pair c.cid stPrecondition s)))

/-- A TOKEN_TABLE_LOAD of a table or automaton that passes its checks, and a MODEL_PACKAGE_LOAD whose package verifies, hold the image,
and its bytes in the table areas, for the moment their completion is written and answer what names it; the UNLOAD forms empty the slot,
and that of a model answers the identifier it removes. -/
def Obligations.TableAndModelLoadsWork : Prop :=
  (∀ s pair cid c l key, Enters s 0x0206 pair cid c (tableTarget c s) (tableCheck c s) l →
    key = (dropLong l.handle s).ordOf l.pair l.cid * 8 + tableSlot l.cmd →
    (tableUnload l.cmd = false → tableStatus (tableKind l.cmd) l.data = stOk → exec (.tokenTableLoad pair cid) s = .next
      (finish l.pair l.cid stOk (field l.data 56 4 + field l.data 8 4 * 2 ^ 32)
        (storeObject (if tableKind l.cmd = 0 then 17 else 18) key l.data { dropLong l.handle s with
          slots := if tableKind l.cmd = 0 then
              { s.slots with pendMerges := tput s.slots.pendMerges key (mergeImage l.data) }
            else { s.slots with pendAutomata := tput s.slots.pendAutomata key (automatonImage l.data) } }))) ∧
    (tableUnload l.cmd = true → tableKind l.cmd = 0 → thas s.slots.merges (tableSlot l.cmd) = true →
      exec (.tokenTableLoad pair cid) s = .next (finishPlain l.pair l.cid stOk { dropLong l.handle s with
        slots := { s.slots with merges := tdel s.slots.merges (tableSlot l.cmd) } })) ∧
    (tableUnload l.cmd = true → tableKind l.cmd ≠ 0 → thas s.slots.automata (tableSlot l.cmd) = true →
      exec (.tokenTableLoad pair cid) s = .next (finishPlain l.pair l.cid stOk { dropLong l.handle s with
        slots := { s.slots with automata := tdel s.slots.automata (tableSlot l.cmd) } }))) ∧
  (∀ s pair cid c l key, Enters s 0x0204 pair cid c (modelTarget c s) (modelCheck c s) l →
    key = (dropLong l.handle s).ordOf l.pair l.cid * 8 + modelSlot l.cmd →
    (modelUnload l.cmd = false → packageOk l.data = true → s.otherWeights (modelSlot l.cmd) + field l.data 32 8 ≤ 2 ^ 36 →
      exec (.modelPackageLoad pair cid) s = .next (if packageSigned s.pow.modelCert l.data = true then
          finish l.pair l.cid stOk (field l.data 40 8) (storeObject 16 key l.data { dropLong l.handle s with
            slots := { s.slots with pendModels := tput s.slots.pendModels key (packageOf l.data) } })
        else refuse l.pair l.cid stSignature (dropLong l.handle s))) ∧
    (∀ k, modelUnload l.cmd = true → tget s.slots.models (modelSlot l.cmd) = some k →
      exec (.modelPackageLoad pair cid) s = .next (finish l.pair l.cid stOk k.packageId { dropLong l.handle s with
        slots := { s.slots with models := tdel s.slots.models (modelSlot l.cmd) } })))

/-- TOPOLOGY_LOAD and PEER_IDENTITY_LOAD take effect; REGION_REGISTER answers the key of its region; REGION_REVOKE stays outstanding until
its drain ends; QP_CREATE, which of a control QP waits for its receive buffers, the four actions of QP_MODIFY and QP_DESTROY move a queue pair between its states; CALL_SHEET_LOAD leaves its
sheet pending; SHAPER_FLOW_SET and POLICER_SET set a flow and a policer. -/
def Obligations.FabricCommandsWork : Prop :=
  (∀ s pair cid c d, Ready s 0x0400 pair cid c → c.dataIs 33056 = true → topoParamsOk c = true → c.data = some d →
    (topoPorts d).all portEntryOk = true → (topoRoutes d).all (routeOk ((topoPorts d).map parsePortEntry)) = true →
    (s.fabricIdle = true ∨ (c.p16 32 = s.fab.nodeId ∧ (s.fab.loaded = false ∨ c.p16 34 = s.fab.timeRoot))) →
    exec (.topologyLoad pair cid) s = .next (finishPlain c.pair c.cid stOk (applyTopology c d s))) ∧
  (∀ s pair cid c d u, Ready s 0x0401 pair cid c → 1 ≤ c.p16 32 → c.p16 32 ≤ 8192 → c.p16 34 ≤ 1 →
    c.dataIs (64 * c.p16 32) = true → c.data = some d → (pieces 64 8192 d).all identityEntryOk = true →
    u = ({ s with fab := { s.fab with
      identities := (pieces 64 8192 d).foldl
        (fun (m : Table Bytes) (b : Bytes) => tput m (field b 0 2) (sub b 16 48))
        (if bitOf (c.p16 34) 0 then [] else s.fab.identities) } } : State) →
    exec (.peerIdentityLoad pair cid) s = .next (finishPlain c.pair c.cid stOk
      ((List.range 18).foldl (fun (u : State) (i : Nat) => applyIdentity s.fab.identities i u) u))) ∧
  (∀ s pair cid c d i g u, Ready s 0x0402 pair cid c → regionParamsOk c = true → c.dataIs (8 * regionPageCount c) = true →
    c.data = some d → (∀ a ∈ (pieces 8 (regionPageCount c) d).map leVal, a % 2 ^ c.p8 52 = 0) → s.freeIndex = some i →
    s.regionPages + ((pieces 8 (regionPageCount c) d).map leVal).length ≤ 16777216 →
    g = ({ gen := s.nextGen i, base := c.p64 32, length := c.p64 40, firstOffset := c.p32 48, pageLog2 := c.p8 52,
           access := c.p8 53, peer := c.p16 54, pages := (pieces 8 (regionPageCount c) d).map leVal, revoking := none } : Region) →
    u = storeObject 8 i d (takeIndex s) →
    exec (.regionRegister pair cid) s = .next (finish c.pair c.cid stOk (i * 256 + g.gen)
      { u with rdma := { u.rdma with regions := tput u.rdma.regions i g, gens := tput u.rdma.gens i g.gen } })) ∧
  (∀ s pair cid c g, Ready s 0x0403 pair cid c → tget s.rdma.regions (c.p32 32 / 256) = some g → g.gen = c.p32 32 % 256 →
    g.revoking = none → exec (.regionRevoke pair cid) s = .next (markRunning c.pair c.cid
      (emit (.pcieRead 0 (g.pages.head?.getD 0) 4) { s with rdma := { s.rdma with
        regions := tput s.rdma.regions (c.p32 32 / 256) { g with revoking := some (c.pair, c.cid) } } }))) ∧
  (∀ s i g pair cid, s.alive = true → tget s.rdma.regions i = some g → g.revoking = some (pair, cid) →
    exec (.revokeDrainComplete i) s = .next (finishPlain pair cid stOk { s with rdma := { s.rdma with
      regions := tdel s.rdma.regions i, freeIdx := s.rdma.freeIdx ++ [i] } })) ∧
  (∀ s pair cid c, Ready s 0x0404 pair cid c → c.p32 32 ≠ 0 → c.p8 36 ≤ 2 → (c.p8 37 ≤ 15 ∨ c.p8 37 = 255) →
    c.p32 32 < s.raw 0x0B 0 0x03 0 → thas s.rdma.qps (c.p32 32) = false →
    (∀ slots u, createRoom (c.p8 36) s = some (slots, u) →
      exec (.qpCreate pair cid) s = .next (finishPlain c.pair c.cid stOk { u with rdma := { u.rdma with
        qps := tput u.rdma.qps (c.p32 32)
          { freshQp (c.p8 36) (if c.p8 37 = 255 then s.raw 0x0B 0 0x04 7 else c.p8 37) u.rdma.clock with slots := slots }
        clock := u.rdma.clock + 1 } })) ∧
    (createRoom (c.p8 36) s = none → exec (.qpCreate pair cid) s = .next s)) ∧
  (∀ s pair cid c q, Ready s 0x0405 pair cid c → qpParam c = true → tget s.rdma.qps (c.p32 32) = some q →
    (c.p8 36 = 0 → c.noData = true → c.p16 38 ≤ 8191 → c.p32 40 < 2 ^ 20 → c.p32 44 < 2 ^ 24 → c.p32 48 < 2 ^ 24 →
      q.state = 0 → (q.kind ≠ 1 ∨ s.controlQp (c.p16 38) = none) →
      exec (.qpModifyReady pair cid) s = .next (finishPlain c.pair c.cid stOk (modQp (c.p32 32) (fun q =>
        { q with state := 1, remoteNode := c.p16 38, remoteQp := c.p32 40, postPsn := c.p32 44, sndPsn := c.p32 44
                 unacked := c.p32 44, expected := c.p32 48 }) s))) ∧
    (c.p8 36 = 1 → c.noData = true → q.state ≠ 0 → s.qpBusy (c.p32 32) q = false →
      exec (.qpModifyReset pair cid) s = .next (finishPlain c.pair c.cid stOk (resetQp (c.p32 32) q s))) ∧
    (c.p8 36 = 2 → c.noData = true → q.state = 1 → s.qpBusy (c.p32 32) q = false →
      exec (.qpModifyError pair cid) s = .next (finishPlain c.pair c.cid stOk (qpError (c.p32 32) q.unacked 0 none s))) ∧
    (c.p8 36 = 3 → c.exactBuf 64 = true →
      exec (.qpModifyQuery pair cid true) s = .next (finish c.pair c.cid stOk c.plainResult
        (emits ((layOut (hostBuffers c.entry c.list) q.query).map fun p => .pcieWrite (s.dataVia c.pair) p.1 p.2) s)))) ∧
  (∀ s pair cid c q u, Ready s 0x0406 pair cid c → qpParam c = true → tget s.rdma.qps (c.p32 32) = some q →
    s.qpBusy (c.p32 32) q = false → u = q.slots.foldl (fun (t : State) (h : Nat) => freeChain h t) (resetQp (c.p32 32) q s) →
    exec (.qpDestroy pair cid) s = .next (finishPlain c.pair c.cid stOk
      { u with rdma := { u.rdma with qps := tdel u.rdma.qps (c.p32 32) } })) ∧
  (∀ s pair cid c, Ready s 0x0407 pair cid c → c.p8 32 ≤ 17 →
    (c.p8 33 = 1 → c.p16 34 = 0 → c.noData = true →
      exec (.callSheetLoad pair cid) s = .next (finishPlain c.pair c.cid stOk { s with shaper := { s.shaper with
        active := tdel s.shaper.active (c.p8 32), pending := tdel s.shaper.pending (c.p8 32)
        gateOpen := tdel s.shaper.gateOpen (c.p8 32) } })) ∧
    (∀ d, c.p8 33 = 0 → 1 ≤ c.p16 34 → c.p16 34 ≤ 256 → 1000 ≤ c.p32 36 → c.p32 36 ≤ 1000000000 →
      c.dataIs (8 * c.p16 34) = true → c.data = some d → s.sheetOk (c.p8 32) (c.p32 36) d = true →
      exec (.callSheetLoad pair cid) s = .next (finishPlain c.pair c.cid stOk { s with shaper := { s.shaper with
        pending := tput s.shaper.pending (c.p8 32) { cycle := c.p32 36, base := c.p64 40, activateAt := c.p64 48
                                                     entries := sheetEntries d } } }))) ∧
  (∀ s pair cid c, Ready s 0x0408 pair cid c → c.p16 32 ≤ 8191 → c.p8 34 ≤ 1 → -64 ≤ signedOf 16 (c.p16 36) →
    signedOf 16 (c.p16 36) ≤ 255 → 8 ≤ c.p32 40 → c.p32 40 ≤ 4000000 →
    exec (.shaperFlowSet pair cid) s = .next (finishPlain c.pair c.cid stOk (setRaw 0x0C (c.p16 32) 0x01 (c.p8 34)
      (setRaw 0x0C (c.p16 32) 0x02 (c.p32 40) (setRaw 0x0C (c.p16 32) 0x03 (c.p16 36 % 512) s))))) ∧
  (∀ s pair cid c q, Ready s 0x0409 pair cid c → policerOk c = true →
    q = ({ mode := c.p8 34, flags := c.p8 35, cir := c.p32 40, cbs := c.p32 44, ebs := c.p32 48, pir := c.p32 52,
           tc := c.p32 44 * 8000, te := c.p32 48 * 8000, tp := c.p32 48 * 8000, last := s.localNs, nakSent := false } : Policer) →
    exec (.policerSet pair cid) s = .next (finishPlain c.pair c.cid stOk { s with shaper := { s.shaper with
      policers := if c.p16 32 = 0xFFFF then [(0xFFFF, q)] else tput s.shaper.policers (c.p16 32) q } }))

/-- Each training state of a port goes to the next when its work is done, fails at its bound, and a failed port retrains after its timer; a
peer of another identity fails the port; more replays than REPLAY_LIMIT or a lost codeword lock retrain it; a DISABLE flit fails it; a flit in turn is accepted, a damaged one asks
for a replay, and a REPLAY resends; probes are answered, gathered, and the fourth ends a run. -/
def Obligations.LinkEventsWork : Prop :=
  (∀ s port node pp lanes p, s.alive = true → port < 18 → s.port port = p →
    (p.state = 1 → exec (.portStateAdvance port node pp lanes) s = .next (portTo port 2 0 (s.peerOf port) s)) ∧
    (p.state = 2 → exec (.portStateAdvance port node pp lanes) s = .next (portTo port 3 0 (s.peerOf port) s)) ∧
    (p.state = 3 → (lanes = 4 ∨ (lanes = 2 ∧ (s.portEntry port).minLanes = 2)) →
      exec (.portStateAdvance port node pp lanes) s = .next (sendControl port ctlParam s.fab.nodeId
        (portTo port 4 0 (s.peerOf port) (modPort port (fun p => { p with lanes := lanes }) s)))) ∧
    (p.state = 4 → node = (s.portEntry port).peerNode → pp = (s.portEntry port).peerPort →
      exec (.portStateAdvance port node pp lanes) s = .next (sendIdentity port (portTo port 5 0 node
        (modPort port (fun p => { p with credits := allCredits, peer := node }) s)))) ∧
    (p.state = 4 → ¬ (node = (s.portEntry port).peerNode ∧ pp = (s.portEntry port).peerPort) →
      exec (.portStateAdvance port node pp lanes) s = .next (portTo port 8 7 (node % 65536) s)) ∧
    (p.state = 6 → p.probed = true → exec (.portStateAdvance port node pp lanes) s = .next (enterActive port s)) ∧
    (1 ≤ p.state → p.state ≤ 6 → exec (.portBoundExpiry port) s = .next (portTo port 8 1 (s.peerOf port) s)) ∧
    (p.state = 8 → exec (.portRetryTimer port) s = .next (portTo port 1 0 (s.peerOf port) s)) ∧
    (p.state = 7 → exec (.replayLimit port true) s = .next (portTo port 1 4 (s.peerOf port) s)) ∧
    (p.state = 7 → exec (.replayLimit port false) s =
      .next (if s.raw 0x09 port 0x0C 64 < p.replays then portTo port 1 3 (s.peerOf port) s else s)) ∧
    (3 ≤ p.state → p.state ≤ 7 → exec (.disable port) s = .next (portTo port 8 5 (s.peerOf port) s)) ∧
    (p.state = 5 → ∀ nonce key sig, exec (.identityExchange port nonce key sig) s = .next
      (if s.identityOk port nonce key sig = true then startProbes port (portTo port 6 0 (s.peerOf port) s)
       else failPort port 2 (recordErr (plainErr (uPort port) 0x0402 clsContained 2 (uPort port) 0 0) s))) ∧
    (p.state = 7 → port = s.fab.timePort → exec (.timeReady port) s = .next (startProbes port s))) ∧
  (∀ s port f, s.alive = true → port < 18 → 4 ≤ (s.port port).state → (s.port port).state ≤ 7 →
    (f.type = 0 → f.crcOk = true → exec (.flit port f) s = .next (afterFlit port (takeAck port f s))) ∧
    (f.type ≠ 0 → f.type ≠ 6 → f.crcOk = true → f.seq = (s.port port).rxSeq →
      exec (.flit port f) s = .next (afterFlit port (acceptFlit port f (takeAck port f s)))) ∧
    (f.type ≠ 0 → f.type ≠ 6 → f.crcOk = true → f.seq ≠ (s.port port).rxSeq →
      exec (.flit port f) s = .next (afterFlit port (askReplay port (takeAck port f s)))) ∧
    (f.crcOk = false → f.stomped = false →
      exec (.flit port f) s = .next (afterFlit port (askReplay port (stompOn port f (bump 0x09 port 0x05 s))))) ∧
    (f.type = 6 → f.crcOk = true → f.seq = (s.port port).rxSeq →
      exec (.replay port f) s = .next (afterFlit port (resend port (field f.payload 0 2)
        (acceptFlit port f (takeAck port f s)))))) ∧
  (∀ s, s.alive = true → exec .timeProbeTimer s = .next ((List.range 18).foldl
    (fun (t : State) (i : Nat) => if (t.port i).state = 7 then startProbes i t else t) s)) ∧
  (∀ s port p, s.alive = true → port < 18 → ((s.port port).state = 6 ∨ (s.port port).state = 7) →
    (p.t4 = 0 → exec (.timeProbe port p) s = .next (sendControl port ctlReply p.t1 s)) ∧
    (∀ ps, p.t4 ≠ 0 → tget s.fab.probes port = some ps → ps.length < 3 → exec (.timeProbe port p) s =
      .next { s with fab := { s.fab with probes := tput s.fab.probes port (ps ++ [p]) } }) ∧
    (∀ ps, p.t4 ≠ 0 → tget s.fab.probes port = some ps → 3 ≤ ps.length →
      exec (.timeProbe port p) s = .next (probesDone port (ps ++ [p]) s)))

/-- A work request posted on a READY queue pair takes its PSNs and goes when it may; a WRITE, READ_REQ, SEND or FLUSH in sequence is
performed, one whose key fails is refused; a duplicate is acknowledged again; ACK, NAK and READ_RESP reach the requester; the three timers,
the context fetch and the visibility read do what they wait for. -/
def Obligations.TransportEventsWork : Prop :=
  (∀ s n kind addr key data len q w, s.alive = true → s.going = true → tget s.rdma.qps n = some q → kindSends q.kind kind = true →
    w = ({ id := q.nextWr, kind := kind, addr := BitVec.toNat addr, key := key, data := data
           len := if kind = 1 ∨ kind = 4 then data.length else len
           psn := q.postPsn, psns := psnsOf kind (if kind = 1 ∨ kind = 4 then data.length else len), naks := 0, got := 0
           batch := 0 } : WorkReq) →
    (q.state = 1 → q.resident = true → exec (.workRequestPost n kind addr key data len) s = .next (kickQp n (touchQp n (modQp n
      (fun q => { q with wrs := q.wrs ++ [w], nextWr := q.nextWr + 1, postPsn := psnAdd q.postPsn w.psns, resident := true }) s)))) ∧
    (q.state = 2 → exec (.workRequestPost n kind addr key data len) s = .next (completeWr n w stQpError 0
      (modQp n (fun q => { q with nextWr := q.nextWr + 1 }) s)))) ∧
  (∀ s port vc p q u, s.alive = true → (s.port port).state = 7 → p.icrc = p.icrcOf → (s.policer p.srcNode).mode = 0 →
    tget s.rdma.qps p.destQp = some q → q.resident = true → q.state = 1 → u = touchQp p.destQp s →
    (p.opcode = 1 → q.kind = 2 → p.psn < 2 ^ 24 → q.expected = p.psn →
      (∀ g, u.keyCheck p = some g → exec (.writePacket port vc p) s =
        .next (performedOne p.destQp p.ackReq (advanceE p.destQp 1 (performWrite p g u)))) ∧
      (u.keyCheck p = none → q.flushes = [] → exec (.writePacket port vc p) s = .next (keyFail p u)) ∧
      (u.keyCheck p = none → q.flushes ≠ [] → exec (.writePacket port vc p) s =
        .next (modQp p.destQp (fun x => { x with behind := x.behind.or (some p) }) u))) ∧
    (∀ g, p.opcode = 2 → q.kind = 2 → p.psn < 2 ^ 24 → q.expected = p.psn → p.data ≠ [] → u.keyCheck p = some g →
      exec (.readReq port vc p []) s = .next (performedOne p.destQp p.ackReq
        (performRead p g (advanceE p.destQp (ceilDiv p.msgLen packetData) u)))) ∧
    (p.opcode = 4 → q.kind = 1 → p.psn < 2 ^ 24 → q.expected = p.psn → q.slotsUsed < 8 → exec (.send port vc p) s =
      .next (performedOne p.destQp p.ackReq (advanceE p.destQp 1
        (modQp p.destQp (fun q => { q with inbox := q.inbox ++ [p.data] }) u)))) ∧
    (p.opcode = 5 → q.kind = 1 → p.psn < 2 ^ 24 → q.expected = p.psn → exec (.flushPacket port vc p) s =
      .next (performedOne p.destQp true (advanceE p.destQp 1 u))) ∧
    (p.opcode = 5 → q.kind = 2 → p.psn < 2 ^ 24 → q.expected = p.psn → exec (.flushPacket port vc p) s = .next
      (modQp p.destQp (fun x => { x with flushes := x.flushes ++ [p.psn], nakSent := false })
        (advanceE p.destQp 1 (emit (.pcieRead 0 0 4) u)))) ∧
    (p.opcode = 4 → q.kind = 1 → 2 ^ 23 ≤ psnDiff q.expected p.psn →
      exec (.send port vc p) s = .next (sendAck p.destQp u)) ∧
    (p.opcode = 0x10 → exec (.ack port p) s = .next (takeAckPacket p u)) ∧
    (p.opcode = 0x11 → exec (.nak port p) s = .next (takeNakPacket p u)) ∧
    (p.opcode = 3 → exec (.readResp port p) s = .next (takeReadResp p u))) ∧
  (∀ s n q, s.alive = true → tget s.rdma.qps n = some q →
    (0 < q.ackOwed → exec (.ackTimer n) s = .next (sendAck n s)) ∧
    (q.state = 1 → q.unacked ≠ q.sndPsn → q.waiting = false → s.going = true → q.retries < q.retryLimit →
      exec (.retryTimer n) s = .next (kickQp n (bump 0x0B 0 0x0C (modQp n (fun x =>
        { x with retries := x.retries + 1, sndPsn := q.unacked }) s)))) ∧
    (q.state = 1 → q.unacked ≠ q.sndPsn → q.waiting = false → s.going = true → q.retryLimit ≤ q.retries →
      exec (.retryTimer n) s = .next (qpError n q.unacked q.lastSyn (some stRetryExceeded) s)) ∧
    (q.waiting = true → s.going = true →
      exec (.nakBackoffExpiry n) s = .next (kickQp n (modQp n (fun q => { q with waiting := false }) s))) ∧
    (∀ port, (port, n) ∈ s.rdma.fetches → s.residentCount < 16384 → q.held = [] →
      exec (.contextFetchComplete port n) s = .next (kickQp n
        (modQp n (fun q => { q with resident := true, held := [], refusedPsn := none })
          { s with rdma := { s.rdma with fetches := s.rdma.fetches.erase (port, n) } }))) ∧
    (q.flushes ≠ [] → q.behind = none → exec (.visibilityReadComplete n) s = .next (sendAck n
      (modQp n (fun q => { q with flushes := q.flushes.drop 1 }) s))))

/-- A slot of the wheel makes its packets ready in slot order; an overflow slot brings its packets into the wheel; a pending sheet becomes
active at a message boundary once its time has come; a gate that closes is counted; an own message starts when it fits its window, and so
does a relayed one whose turn it is. -/
def Obligations.ShaperEventsWork : Prop :=
  (∀ s, s.alive = true → ∃ t, exec .wheelSlot s = .next t ∧ t.shaper.wheelNow = s.shaper.wheelNow + 1 ∧
    (∀ x, x ∈ t.shaper.wheel ↔ x ∈ s.shaper.wheel ∧ s.shaper.wheelNow + 1 < x.1) ∧
    (∀ y, y ∈ t.shaper.ready ↔ y ∈ s.shaper.ready ∨ ∃ x ∈ s.shaper.wheel, x.1 ≤ s.shaper.wheelNow + 1 ∧ x.2 = y)) ∧
  (∀ s, s.alive = true → ∃ t, exec .overflowSlot s = .next t ∧ t.shaper.wheelNow = s.shaper.wheelNow ∧
    ∀ x ∈ s.shaper.overflow, (s.shaper.wheelNow / 8192 < x.1 / 8192 → x ∈ t.shaper.overflow) ∧
      (x.1 / 8192 ≤ s.shaper.wheelNow / 8192 → x ∈ t.shaper.wheel ∨ x.2 ∈ t.shaper.ready)) ∧
  (∀ s port h, s.alive = true → port < 18 → tget s.shaper.pending port = some h → h.activateAt ≤ s.tb →
    thas (s.port port).cur 3 = false → exec (.callSheetActivate port) s = .next { s with shaper := { s.shaper with
      active := tput s.shaper.active port h, pending := tdel s.shaper.pending port } }) ∧
  (∀ s port, s.alive = true → port < 18 → s.gateNow port = false →
    (tgetD s.shaper.gateOpen port true = true → exec (.gateTransition port) s = .next
      (bumpBy 0x0D port 0x04 ((s.vc3Own port).length + (s.vc3Relayed port).length) (bump 0x0D port 0x05
        { s with shaper := { s.shaper with gateOpen := tputD s.shaper.gateOpen port false true } }))) ∧
    (tgetD s.shaper.gateOpen port true = false → exec (.gateTransition port) s = .next
      { s with shaper := { s.shaper with gateOpen := tputD s.shaper.gateOpen port false true } })) ∧
  (∀ s port d p, s.alive = true → port < 18 → tget s.shaper.pending port = none → (s.port port).state = 7 →
    thas (s.port port).cur 3 = false →
    (s.going = true → s.vc3Relayed port = [] → (s.vc3Own port).find? (fun x => s.fits port x.2.flitCount) = some (d, p) →
      exec (.vc3MessageStart port false) s = .next (pumpPort port 512 (modPort port (fun q =>
        { q with
          cur := tput q.cur 3 { source := 0, vc := 3, dest := d, flits := messageFlits 3 d (routeHops (s.route d)) p.bytes }
          turns := tput q.turns 3 0 })
        (flowSent d p { s with shaper := { s.shaper with ready := s.shaper.ready.erase (d, p) } })))) ∧
    (s.vc3Relayed port ≠ [] → s.vc3Own port = [] → s.fits port 64 = true →
      exec (.vc3MessageStart port true) s = .next (pumpAll (startNext port 3 s))))

/-- The operator row of the current entry of a queue writes that entry's completion, with the code, work, output, descriptor and cause that
the operator gives on its sample, and changes nothing else but what the operator reads or draws; MINHASH and SAMPLE_DIGEST also write their
sink entry, TAIL after it, where the ring has room. -/
def Obligations.EngineOperatorsComplete : Prop :=
  (∀ s k e p x,
    (Runs s k 0x0102 e p x → exec (.crcVerify k) s = .next (completeEntry k e (crcVerify e p x s) s)) ∧
    (Runs s k 0x0201 e p x → exec (.imageDecode k) s = .next (completeEntry k e (imageDecode e p x s) s)) ∧
    (Runs s k 0x0202 e p x → exec (.videoDecode k) s = .next (completeEntry k e (videoDecode e p x s) s)) ∧
    (Runs s k 0x0203 e p x → exec (.audioDecode k) s = .next (completeEntry k e (audioDecode e p x s) s)) ∧
    (Runs s k 0x0301 e p x → exec (.cropResample k) s = .next (completeEntry k e (cropOp e p x s) s)) ∧
    (Runs s k 0x0302 e p x → exec (.flip k) s = .next (completeEntry k e (flipOp e p x s) s)) ∧
    (Runs s k 0x0303 e p x → exec (.affineWarp k) s = .next (completeEntry k e (warpOp e p x s) s)) ∧
    (Runs s k 0x0304 e p x → exec (.colourJitter k) s = .next (completeEntry k e (jitterOp e p x s) s)) ∧
    (Runs s k 0x0305 e p x → exec (.normalize k) s = .next (completeEntry k e (normalizeOp e p x s) s)) ∧
    (Runs s k 0x0306 e p x → exec (.convert k) s = .next (completeEntry k e (convertOp e p x s) s)) ∧
    (Runs s k 0x0307 e p x → exec (.expression k) s = .next (completeEntry k e (expressionOp e p x s) s)) ∧
    (Runs s k 0x0308 e p x → exec (.audioGain k) s = .next (completeEntry k e (gainOp e p x s) s)) ∧
    (Runs s k 0x0401 e p x → exec (.scoreModel k) s = .next (completeEntry k e (modelOp e p x s) s)) ∧
    (Runs s k 0x0402 e p x → exec (.embedModel k) s = .next (completeEntry k e (modelOp e p x s) s)) ∧
    (Runs s k 0x0501 e p x → exec (.tokenize k) s = .next (completeEntry k e (tokenizeOp e p x s) s)) ∧
    (Runs s k 0x0503 e p x → exec (.tokenMask k) s = .next (completeEntry k e (tokenMaskOp e p x s) s)) ∧
    (Runs s k 0x0702 e p x → exec (.deliver k) s = .next (completeEntry k e
      (e.within (Config.plainWork 0x0702) (doneC (Config.plainWork 0x0702))) s)) ∧
    (Runs s k 0x0101 e p x → exec (.blockDecompress k) s =
      .next (completeEntry k e (blockDecompress e p x s).1 (blockDecompress e p x s).2)) ∧
    (Runs s k 0x0103 e p x → exec (.slatePredicate k) s =
      .next (completeEntry k e (slatePredicate e p x s).1 (slatePredicate e p x s).2)) ∧
    (Runs s k 0x0502 e p x → exec (.grammar k) s =
      .next (completeEntry k e (grammarOp k e p x s).1 (grammarOp k e p x s).2)) ∧
    (Runs s k 0x0601 e p x → exec (.scoreFilter k) s =
      .next (completeEntry k e (filterOp e p x s).1 (filterOp e p x s).2))) ∧
  (∀ s k e p x b, b = p.decl.paramsAt e.instance_ →
    (Runs s k 0x0104 e p x → (p.decl.takes e x.cls && minhashTakes b x) = false →
      sinkKey e.pipeline e.instance_ ∉ s.eng.sinkFailed → ∀ ok,
      exec (.minhash k ok) s = .next (completeEntry k e (doneC 0) s)) ∧
    (Runs s k 0x0104 e p x → p.decl.takes e x.cls = true → minhashTakes b x = true → (e.budget = 0 ∨ minhashWork b x.data ≤ e.budget) →
      sinkKey e.pipeline e.instance_ ∉ s.eng.sinkFailed → s.sinkFull (sinkKey e.pipeline e.instance_) b = false →
      exec (.minhash k true) s = .next (completeEntry k e (doneC (minhashWork b x.data))
        (writeSink (sinkKey e.pipeline e.instance_) b (minhashEntry b x) s))) ∧
    (Runs s k 0x0703 e p x → (x.position % (if field b 2 2 = 0 then 1 else field b 2 2) ≠ 0) →
      sinkKey e.pipeline e.instance_ ∉ s.eng.sinkFailed → ∀ ok,
      exec (.sampleDigest k ok) s = .next (completeEntry k e (doneC 0) s)) ∧
    (Runs s k 0x0703 e p x → p.decl.takes e x.cls = true →
      (x.position % (if field b 2 2 = 0 then 1 else field b 2 2) = 0) → p.decl.packs x.cls = false →
      (e.budget = 0 ∨ digestWork x ≤ e.budget) → sinkKey e.pipeline e.instance_ ∉ s.eng.sinkFailed →
      s.sinkFull (sinkKey e.pipeline e.instance_) b = false →
      exec (.sampleDigest k true) s = .next (completeEntry k e (doneC (digestWork x))
        (writeSink (sinkKey e.pipeline e.instance_) b
          (digestEntry b x x.batch (x.slot.getD 0) 0 x.layout x.data x.crc) s))))

/-- A memory command takes its place at the end of its queue, and once it is the oldest it is executed: its completion carries the outcome
and the work of the bytes it read, and an address outside its area is recorded. A result word, where the command asks for one, is written
last. COPY writes what it read to its destination, FILL its pattern, ATOMIC its new value and answers the old one; a word that is
not returned ends it as POISON, an address outside its area as CORRUPT. -/
def Obligations.MemoryCommandsWork : Prop :=
  (∀ s k cmd fs e o i f m r,
    (o, i, f) ∈ [(0x01, Instr.copy k cmd fs, memCopy), (0x02, .fill k cmd fs, memFill), (0x03, .gather k cmd fs, memGather),
      (0x04, .scatter k cmd fs, memScatter), (0x05, .hash k cmd fs, memHash), (0x06, .atomic k cmd fs, memAtomic),
      (0x07, .predicateScan k cmd fs, memScan), (0x08, .compress k cmd fs, memCompress),
      (0x09, .decompress k cmd fs, memDecompress)] →
    MemRuns s k o cmd e → m = ({ faults := fs, reader := s.readerOf k } : MemArgs) → r = withResultWord e.raw m (f e.raw m s) →
    exec i s = .next (completeEntry k e
      { doneC (ceilDiv r.readBytes 1024) with code := r.code, cause := r.cause, lostWord := r.lost }
      (tickFree (if r.outside then outsideRecord e m.reader r.state else r.state)))) ∧
  (∀ s k cmd fs e u, s.alive = true → s.going = true → (s.queue k).entries = [] → (s.queue k).completions = [] →
    e = ({ op := field cmd 0 2, stage := field cmd 2 2, pipeline := byteAt cmd 4, engine := 1, sample := 0, instance_ := 0xFFFF
           budget := 0, seq := (s.queue k).nextSeq, attempts := 0, fault := 0, first := 0, tb := s.tb, runOn := none
           raw := patch (fitTo 64 cmd) 56 (putLE 4 (s.queue k).nextSeq) } : Entry) →
    u = modQueue k (fun q => { q with nextSeq := (q.nextSeq + 1) % 2 ^ 32, entries := [e] }) s → MemRuns u k 0x02 cmd e →
    exec (.fill k cmd fs) s = exec (.fill k cmd fs) u ∧ u.current k = some e) ∧
  (∀ c m (r : MemRun),
    (mResult c = none → withResultWord c m r = r) ∧
    (∀ a v, mResult c = some a → r.code = 0 → r.result = some v → bitOf (byteAt c 7) 1 = false →
      withResultWord c m r =
        { toDest true a (putLE 8 (v % 2 ^ 64)) r.readBytes r.result m r.state with written := r.written })) ∧
  (∀ c m s,
    (∀ a w, s.rangeOk (mSrc c) (mLen c) = true → a = readStack (mSrc c) (mLen c) m.faults m.reader s → a.failed = none →
      bitOf (byteAt c 7) 0 = false → w = writeStack false (mDst c) a.bytes m.faults m.reader a.state →
      a.state.rangeOk (mDst c) a.bytes.length = true → w.failed = none →
      memCopy c m s = memDone w.state (mLen c) a.bytes none) ∧
    (s.rangeOk (mDst c) (repeated (mLen c) (mArg0 c)).length = true →
      ∀ w, w = writeStack false (mDst c) (repeated (mLen c) (mArg0 c)) m.faults m.reader s → w.failed = none →
      memFill c m s = memDone w.state 0 (repeated (mLen c) (mArg0 c)) none) ∧
    (∀ a w v, s.rangeOk (mDst c) 8 = true → a = readStack (mDst c) 8 m.faults m.reader s → a.failed = none → mAux c = 1 →
      v = (if leVal a.bytes = mArg0 c then mArg1 c else leVal a.bytes) → a.state.rangeOk (mDst c) (putLE 8 v).length = true →
      w = writeStack true (mDst c) (putLE 8 v) m.faults m.reader a.state → w.failed = none →
      memAtomic c m s = memDone w.state 8 (putLE 8 v) (some (leVal a.bytes))) ∧
    (∀ a i, s.rangeOk (mSrc c) (mLen c) = true → a = readStack (mSrc c) (mLen c) m.faults m.reader s → a.failed = some i →
      memCopy c m s = memPoison a.state i a.bytes.length) ∧
    (s.rangeOk (mSrc c) (mLen c) = false → memCopy c m s = memOutside s 0))

/-- The firmware places a ready sample's next entry; the oldest completion of a queue is taken and makes of its sample what its code says; an
input that fails its carried CRC makes the sample again; a fetch that failed once is repeated; the first fault of an entry leaves it to be
tried again, and an access to a store that meets none goes on; a mismatch is counted and asks a second core, two equal results stand, and
a third core settles the rest; a ring read again takes what waited for it. -/
def Obligations.EngineQueuesWork : Prop :=
  (∀ s key k x p t out u, s.alive = true → s.going = true → u = enterSample (key / 2 ^ 63) (key / 2 ^ 47 % 2 ^ 16) (key % 2 ^ 47) s →
    tget u.eng.samples key = some x → tget u.pipes x.pipeline = some p → x.slate ≠ [] → x.phase = .ready → p.state = 3 →
    x.fetches = 0 → x.awaitsSlot p.decl = false → x.site p.decl = some t → opEngine t.op = k / 1024 →
    k % 1024 < queueCount (k / 1024) → u.engineServes (k / 1024) (k % 1024) = true → u.servingQueues (k / 1024) ≠ [] →
    (u.queue k).entries.length < queueRoom (k / 1024) → out = (if needsOut t.op then u.spareBuf x.pipeline else none) →
    (needsOut t.op = true → out ≠ none) →
    exec (.engineEntryIssue key k) s = .next (placeEntry p x t k out u)) ∧
  (∀ s k flips c cs e es s2, s.alive = true → s.going = true → (s.queue k).completions = c :: cs → (s.queue k).entries = e :: es →
    c.code ≠ 5 → s2 = traceEntry k e c (countRun (s.entryUnit k e) (countEntry e c (((s.sampleFor k e).map fun y => y.data.length).getD 0)
      (modQueue k (fun q => { q with completions := cs, entries := es }) s))) →
    (e.isMemory = true → exec (.engineCompletion k flips) s = .next (memoryOutcome e c (s.entryUnit k e) s2)) ∧
    (∀ x, e.isMemory = false → s.sampleFor k e = some x → x.phase ≠ .discarded → c.cause ≠ 21 →
      (readsInput e && x.inputFails flips) = false →
      exec (.engineCompletion k flips) s = .next (outcome x e c (s.entryUnit k e) (faultCured x.record e s2))) ∧
    (∀ x, e.isMemory = false → s.sampleFor k e = some x → x.phase ≠ .discarded → readsInput e = true → x.inputFails flips = true →
      exec (.engineCompletion k flips) s = .next (transit x e (s.entryUnit k e) s2)) ∧
    (∀ x, e.isMemory = false → s.sampleFor k e = some x → x.phase = .discarded →
      exec (.engineCompletion k flips) s = .next (dropSample x.key (freeBufs x (faultCured x.record e s2))))) ∧
  (∀ s key k x p i t b y, s.alive = true → s.going = true → tget s.eng.samples key = some x → tget s.pipes x.pipeline = some p →
    i = p.decl.fetchSites.findIdx (fun t => t.op == 0x0101) → p.decl.fetchSites[i]? = some t → s.spareBuf x.pipeline = some b →
    x.phase = .completed → k / 1024 = 1 → k % 1024 < 32 → s.engineServes 1 (k % 1024) = true →
    (s.queue k).entries.length < queueRoom 1 → s.queueUnit k ≠ x.failUnit →
    y = { x with opIdx := i, fetches := 1, data := [], inBuf := none, outBuf := none } →
    exec (.fetchRepeat key k) s = .next (placeEntry p y t k (some b) (modSample key (fun _ => y) (freeBufs x s)))) ∧
  (∀ s k e, s.alive = true → s.going = true → s.current k = some e → e.attempts = 0 → atDepth (s.entryRecord k e) = false →
    exec (.engineParityError k none) s = .next (modQueue k (fun q => { q with
      entries := q.entries.set (s.queue k).completions.length { e with
        attempts := 1, fault := 0x0501, first := s.entryUnit k e } }) s) ∧
    exec (.engineHang k) s = .next (modQueue k (fun q => { q with
      entries := q.entries.set (s.queue k).completions.length { e with
        attempts := 1, fault := 0x0502, first := s.entryUnit k e } }) s) ∧
    ∀ a, exec (.engineParityError k (some a)) s =
      .next (if (storeAccess k a s).2 then (storeAccess k a s).1 else engineFault 0x0501 k (storeAccess k a s).1)) ∧
  (∀ s k slot2 c cs e es u, s.alive = true → s.going = true → (s.queue k).completions = c :: cs → (s.queue k).entries = e :: es →
    c.code = 5 → (∀ v ∈ s.eng.votes, v.queue ≠ k) → slot2 ∈ s.secondCores (s.slotOf (k % 1024)) →
    u = traceEntry k e c (countRun (s.entryUnit k e) (countEntry e c (((s.sampleFor k e).map fun y => y.data.length).getD 0) s)) →
    exec (.checkMismatchVote k slot2) s = .next (bump 0x0F (dieOf (uSlot (s.slotOf (k % 1024)))) 0x07
      (modQueue k (fun q => { q with entries := e.recompute :: es }) { u with eng := { u.eng with votes := u.eng.votes ++
        [{ queue := k, seq := c.seq, asked := slot2, results := [(s.slotOf (k % 1024), c.result)] }] } }))) ∧
  (∀ s k e es v, s.alive = true → s.going = true → (s.queue k).entries = e :: es →
    (s.eng.votes.find? fun v => v.queue == k) = some v →
    (∀ r1, v.results = [r1] →
      exec (.voteResult k r1.2 v.asked) s = .next (dropVote k (modOldest k (fun c => c.withResult r1.2) (countRun (uSlot v.asked) s)))) ∧
    (∀ r1 result, v.results = [r1] → result ≠ r1.2 → exec (.voteResult k result v.asked) s =
      .next { countRun (uSlot v.asked) s with eng := { (countRun (uSlot v.asked) s).eng with votes := s.eng.votes.map fun w =>
        if w.queue = k then { w with results := w.results ++ [(v.asked, result)] } else w } }) ∧
    (∀ r1 r2 core u, v.results = [r1, r2] → s.mayThird r1.1 r2.1 core = true → u = countRun (uSlot core) s →
      exec (.voteResult k r1.2 core) s =
        .next (dissent (u.entryRecord k e) r2.1 r2.1 core 2 e (dropVote k (modOldest k (fun c => c.withResult r1.2) u))) ∧
      (r2.2 ≠ r1.2 → exec (.voteResult k r2.2 core) s =
        .next (dissent (u.entryRecord k e) r1.1 r2.1 core 1 e (dropVote k (modOldest k (fun c => c.withResult r2.2) u)))) ∧
      (∀ result, result ≠ r1.2 → result ≠ r2.2 → exec (.voteResult k result core) s =
        .next (dropVote k (threeWay k r1.1 r2.1 e u))))) ∧
  (∀ s unit q, s.alive = true → tget s.eng.suspects unit = some (q, 1) → 65536 ≤ tgetD s.eng.runs unit 0 →
    exec (.suspectClear unit) s = .next
      { s with eng := { s.eng with suspects := tdel s.eng.suspects unit, runs := tdel s.eng.runs unit } }) ∧
  (∀ s pipe inst head p b w t, s.alive = true → s.going = true → tget s.pipes pipe = some p → b = p.decl.paramsAt inst →
    s.sinkFull (sinkKey pipe inst) b = true → t = emit (.pcieRead 0 (sinkAddr b + 8) 8) { s with eng := { s.eng with
      sinks := tput s.eng.sinks (sinkKey pipe inst) ((tgetD s.eng.sinks (sinkKey pipe inst) (0, 0)).1, head) } } →
    ((t.eng.sinkWait.find? fun w => t.sinksTo w.1 (sinkKey pipe inst)) = none →
      exec (.sinkHeadPoll pipe inst head true) s = .next t) ∧
    ((t.eng.sinkWait.find? fun w => t.sinksTo w.1 (sinkKey pipe inst)) = some w →
      exec (.sinkHeadPoll pipe inst head true) s = .next (drainSink (sinkKey pipe inst) b sinkWork t.eng.sinkWait t)))

/-- SCHEDULE builds an epoch's schedule, SCHEDULE_COMPLETE makes it stand and a STARTING pipeline of that epoch RUNNING, and a window is
computed again from σ; ALLOC grants or waits, a waiter is granted, FREE frees the whole chain, SHARE sets and ADD raises a count, RELEASE
lowers it and frees at the last; an invalid handle or a free buffer is recorded and changes no buffer. -/
def Obligations.SchedulesAndPoolWork : Prop :=
  (∀ s pipe epoch p, s.alive = true → s.going = true → tget s.pipes pipe = some p →
    (∀ beside e gone r, s.mayBuild p epoch = true → p.schedule epoch = none → beside = p.schedulesBeside epoch →
      e = Schedule.mk epoch 0 (s.ownedPositions pipe p.decl epoch) true false [] [] [] [] →
      gone = p.schedules.filter (fun x => beside.all fun y => y.epoch != x.epoch) →
      r = placeSchedule (s.domain p.decl) e (modPipe pipe (fun q => { q with schedules := beside }) (dropMoved gone s)) →
      exec (.schedule pipe epoch) s = .next (modPipe pipe (fun q => { q with schedules := beside ++ [r.1] }) r.2)) ∧
    (∀ e, p.schedule epoch = some e → p.active = true → e.built = true → e.complete = false → ∃ t q,
      exec (.scheduleComplete pipe epoch) s = .next t ∧ tget t.pipes pipe = some q ∧
      q.state = (if p.state = 2 ∧ epoch = s.cursorEpoch p then 3 else p.state) ∧
      q.schedules = p.schedules.map (fun x => if x.epoch = epoch then { x with complete := true } else x)) ∧
    (∀ e window fresh, p.schedule epoch = some e → p.active = true → e.built = true →
      fresh = (s.ownedPositions pipe p.decl epoch).filter (fun n => windowOf n == window) →
      (∀ n, windowOf n = window → (n ∈ (e.renewed window fresh).positions ↔ n ∈ s.ownedPositions pipe p.decl epoch)) ∧
      (∀ n, windowOf n ≠ window → (n ∈ (e.renewed window fresh).positions ↔ n ∈ e.positions)) ∧
      (∀ x u, writeWindow (e.renewed window fresh) window s = some (x, u) →
        exec (.scheduleWindowRebuild pipe epoch window none) s = .next (modPipe pipe (fun q => { q with
          schedules := q.schedules.map fun y => if y.epoch = epoch then x else y }) u)) ∧
      (writeWindow (e.renewed window fresh) window s = none →
        exec (.scheduleWindowRebuild pipe epoch window none) s = .next s))) ∧
  (∀ s w filling u, s.alive = true → s.going = true → w.ok = true → w.copyOf = none → u = tracePool w.stack w.owner w.stage w.op s →
    (∀ hs, u.canServe w filling = some hs → u.noneAhead w = true →
      exec (.poolAlloc w.owner w.cls w.stack w.bytes w.sample w.stage w.op filling) s = .next (grantBufs w.owner w.cls hs u)) ∧
    (u.canServe w filling = none ∨ u.noneAhead w = false →
      exec (.poolAlloc w.owner w.cls w.stack w.bytes w.sample w.stage w.op filling) s = .next
        (bump 0x06 w.owner 0x07 { countWait w u with pool := { u.pool with waits := u.pool.waits ++ [w] } }))) ∧
  (∀ s cls stack filling w hs, s.alive = true → s.going = true → s.nextWaiter cls = some w →
    s.mayServe { w with stack := stack } filling = some hs → exec (.allocGrant cls stack filling) s =
      .next (grantWait w hs { s with pool := { s.pool with waits := s.pool.waits.erase w } })) ∧
  (∀ s h owner stage op caller filling u, s.alive = true → s.going = true → u = tracePool (bufStack h) owner stage op s →
    (∀ e, u.handleOk h = true → tget u.pool.entries h = some e →
      exec (.poolFree h owner stage op caller) s = .next (freeChain h u) ∧
      (∀ n, 2 ≤ n → n ≤ 65535 → e.ref = none → u.refsUsed (bufStack h) < 131072 →
        exec (.poolShare h n owner stage op caller filling) s = .next (modBuf h
          (fun e => { e with ref := some (u.freeRef (bufStack h)) }) (setRef (bufStack h) (u.freeRef (bufStack h)) n u))) ∧
      (∀ n, 2 ≤ n → n ≤ 65535 → e.ref = none → 131072 ≤ u.refsUsed (bufStack h) →
        exec (.poolShare h n owner stage op caller filling) s = .next
          (copyReaders h e.owner stage op filling (n - 1) (bumpBy 0x06 0x0100 0x04 (n - 1) u))) ∧
      (∀ i k, e.ref = some i → exec (.poolAdd h k owner stage op caller) s =
        .next (setRef (bufStack h) i (u.refCount (bufStack h) i + k) u)) ∧
      (∀ i, e.ref = some i → 2 ≤ u.refCount (bufStack h) i → exec (.poolRelease h owner stage op caller) s =
        .next (setRef (bufStack h) i (u.refCount (bufStack h) i - 1) u)) ∧
      (∀ i, e.ref = some i → u.refCount (bufStack h) i ≤ 1 →
        exec (.poolRelease h owner stage op caller) s = .next (freeChain h u))) ∧
    (u.handleOk h = true → tget u.pool.entries h = none →
      exec (.poolFree h owner stage op caller) s = .next (poolFault h owner stage op caller 0x020C u) ∧
      (∀ n, exec (.poolShare h n owner stage op caller filling) s = .next (poolFault h owner stage op caller 0x020D u)) ∧
      (∀ k, exec (.poolAdd h k owner stage op caller) s = .next (poolFault h owner stage op caller 0x020D u)) ∧
      exec (.poolRelease h owner stage op caller) s = .next (poolFault h owner stage op caller 0x020C u)) ∧
    (u.handleOk h = false → exec (.poolFree h owner stage op caller) s = .next (poolFault h owner stage op caller 0x020E u)))

/-- SLOT_WRITE posts a finished sample into its slot when its batch is in the window and writable; notices go after their flush, and each
message that arrives whole is taken: slots become final once, pieces are gathered, releases learned, reports and results resolve a span,
placements place pieces; SPLICE closes a span; a batch whose slots are all final is released, and a HEAD read moves the window on. -/
def Obligations.DeliveryWorks : Prop :=
  (∀ s key x p sl c k, s.alive = true → s.going = true → key < seqBase → tget s.eng.samples key = some x →
    tget s.pipes x.pipeline = some p → x.phase = .done → p.decl.ledger = false → p.decl.packs x.cls = false → x.slot = some sl →
    p.consumerOf sl = some (c, k) → s.mayWrite x.pipeline p c x.batch = true →
    exec (.slotWrite key) s = .next (writeSample x.pipeline p c k x x.batch sl s)) ∧
  (∀ s pipe c b p k, s.alive = true → s.going = true → tget s.pipes pipe = some p → tget p.consumers c = some k →
    (s.flushed k b = true → exec (.slotNoticeSend pipe c b stFlushed) s = .next (sendReady false pipe c b (markReady pipe c b s))) ∧
    exec (.noticeCoalesceTimer pipe c b) s = .next (sendReady true pipe c b s) ∧
    (∀ status, status ≠ stFlushed → exec (.slotNoticeSend pipe c b status) s =
      .next (modRun pipe c (fun r => { r with held := tdel r.held b, heldPieces := tdel r.heldPieces b }) s))) ∧
  (∀ s m u, s.alive = true → s.going = true → u = freeSlot m s →
    (∀ p k, u.accepts m 1 = true → tget u.pipes m.pipeline = some p → tget p.consumers m.consumer = some k →
      u.assembles m.pipeline k = true → exec (.slotNotice m) s = .next ((parseSlots m.body).foldl
        (fun (t : State) (e : Nat × Nat) => takeSlot m.pipeline m.consumer m.index e t) u)) ∧
    (u.accepts m 6 = true → exec (.pieceNotice m) s = .next (takePieces m u)) ∧
    (u.accepts m 2 = true → exec (.releaseNotice m) s = .next (takeRelease m u)) ∧
    (∀ p es, u.accepts m 3 = true → tget u.pipes m.pipeline = some p → p.decl.ledger = true →
      u.ledgerHere m.pipeline p (m.index % 2 ^ 48) = true → m.sender ∉ (p.span (m.index / 2 ^ 48) (m.index % 2 ^ 48)).doneFrom →
      es = parseReport m.body → exec (.spanReport m) s = .next (takeReport m.pipeline (m.index / 2 ^ 48) (m.index % 2 ^ 48) m.sender es
        (lastReport m.value m.count ((tgetD (p.span (m.index / 2 ^ 48) (m.index % 2 ^ 48)).reports m.sender []).length + es.length)) u)) ∧
    (∀ p, s.accepts m 4 = true → u.accepts m 4 = true → tget u.pipes m.pipeline = some p → p.decl.ledger = true →
      (p.span (m.index / 2 ^ 48) (m.index % 2 ^ 48)).result = false → (parseResult m.body).2 = none →
      exec (.spanResult m) s = .next (forwardToShadow m (modSpan m.pipeline (m.index / 2 ^ 48) (m.index % 2 ^ 48)
        (fun r => { r with skips := (p.span (m.index / 2 ^ 48) (m.index % 2 ^ 48)).skips ++ (parseResult m.body).1 }) u))) ∧
    (∀ p, s.accepts m 5 = true → u.accepts m 5 = true → tget u.pipes m.pipeline = some p →
      exec (.placement m) s = .next (forwardToShadow m ((pieces 16 m.count m.body).foldl (fun (t : State) (b : Bytes) =>
        takePlacement m.pipeline (m.index / 2 ^ 48) (m.index % 2 ^ 48) p.decl b t) u)))) ∧
  (∀ s pipe epoch span p, s.alive = true → s.going = true → tget s.pipes pipe = some p →
    (p.active = true → p.decl.ledger = true → epoch < p.decl.epochs → span < spansIn (s.domain p.decl) → p.mayFetch epoch span = true →
      exec (.spanFetchStart pipe epoch span) s = .next (modSpan pipe epoch span (fun r => { r with started := true }) s)) ∧
    exec (.splice pipe epoch span) s =
      .next (closeSpans pipe (s.spanCount pipe) epoch span (closeSpan true pipe epoch span s))) ∧
  (∀ s pipe c p k r, s.alive = true → s.going = true → tget s.pipes pipe = some p → tget p.consumers c = some k → tget p.runs c = some r →
    (s.mayRelease pipe p k r = true → ∃ t u, exec (.batchRelease pipe c) s = .next t ∧ t = moveCursor pipe (sendRelease pipe c r.oldest u) ∧
      ∀ q, tget u.pipes pipe = some q → ∀ x, tget q.runs c = some x →
        x.oldest = r.oldest + 1 ∧ x.tail = r.tail + 1 ∧ x.ring = r.ring ++ [r.oldest]) ∧
    (p.active = true → s.assembles pipe k = true → r.ring ≠ [] → r.stopped = false → exec (.headReadTimer pipe c) s =
      .next (postWork k.qp 2 (k.ringAddr + 8) k.ringKey [] 8 r.oldest s)) ∧
    (∀ head : BitVec 64, p.active = true → s.assembles pipe k = true → r.stopped = false → r.head ≤ head.toNat → head.toNat ≤ r.tail →
      (r.ring.drop (head.toNat - r.head)).headD r.oldest + k.buffers ≤ r.writable →
      exec (.headReadComplete pipe c head) s = .next (lowWaterCheck pipe c (modRun pipe c (fun x => { x with
        head := head.toNat, ring := r.ring.drop (head.toNat - r.head)
        writable := (r.ring.drop (head.toNat - r.head)).headD r.oldest + k.buffers }) s))))

/-- LOCKSTEP_CONFIG sets the role of a stopped pipeline; the messages of a partner act on the member of the right role: digests are compared
and a match recorded, records and chains are requested, sent and searched, a divergence freezes, a forwarded message is taken; a partner
that is late is lost. The clapper freezes now, at a time, or by its ball, and the release comes at once or is held until the ball rises. -/
def Obligations.LockstepAndClapperWork : Prop :=
  (∀ s pair cid c p, Ready s 0x0503 pair cid c → tget s.pipes (c.p8 32) = some p → p.active = false → s.controlQp (c.p16 34) ≠ none →
    c.p8 33 ≤ 2 → c.p8 38 ≤ 1 → c.p8 39 ≤ 1 → c.p16 40 ≤ 10000 → (c.p8 33 = 1 → c.p16 36 = s.fab.nodeId) →
    exec (.lockstepConfig pair cid) s = .next (finishPlain c.pair c.cid stOk
      { s with lock := tput s.lock (c.p8 32) { lockOf c with lowest := p.cursor } })) ∧
  (∀ s m u k, s.alive = true → s.going = true → u = freeSlot m s → tget u.lock m.pipeline = some k →
    (u.lockAccepts m 0x40 1 = true → k.hasMatched m.index = false → k.lsState = 1 → exec (.digest m) s = .next
      (compareDigests m.pipeline m.index (modLock m.pipeline (fun k => { k with
        digests := tput k.digests (4 * m.index + 1) m.body, partnerCounts := tput k.partnerCounts m.index m.value }) u))) ∧
    (u.lockAccepts m 0x41 2 = true → k.hasMatched m.index = false → exec (.match_ m) s = .next
      (noteWait m.pipeline (modLock m.pipeline (fun k => k.match1 m.index) u))) ∧
    (u.lockAccepts m 0x42 2 = true → exec (.recordsRequest m) s = .next (sendRecords m.pipeline m.index k u)) ∧
    (∀ p all, u.lockAccepts m 0x43 1 = true → k.searching = some (m.index, none) → tget u.pipes m.pipeline = some p →
      all = k.partnerRecs ++ (pieces 16 m.count m.body).map recordOfBytes → tgetD k.partnerCounts m.index 0 ≤ all.length →
      exec (.records m) s = .next (searchRecords m.pipeline m.index { k with partnerRecs := all } p.decl
        (modLock m.pipeline (fun k => { k with partnerRecs := all }) u))) ∧
    (u.lockAccepts m 0x44 2 = true → exec (.chainRequest m) s = .next (lockMsg 0x45 m.pipeline m.index m.value
      (tgetD k.chains (m.index * 2 ^ 32 + m.value) []).length
      ((tgetD k.chains (m.index * 2 ^ 32 + m.value) []).map chainEntry).flatten k u)) ∧
    (∀ p e, u.lockAccepts m 0x45 1 = true → k.searching = some (m.index, some m.value) → tget u.pipes m.pipeline = some p →
      e = (chainDiff (tgetD k.chains (m.index * 2 ^ 32 + m.value) [])
        ((pieces 12 m.count m.body).map fun x => (field x 0 2, field x 2 2, byteAt x 4, field x 8 4))).getD (0xFFFF, 0, 0, 0) →
      exec (.chain m) s = .next (primaryDiverges m.pipeline m.index m.value (p.decl.chainStage e.1 e.2.1)
        (e.2.1 + e.1 * 2 ^ 16) 4 k u)) ∧
    (u.lockAccepts m 0x46 2 = true → ∃ slot stage op, exec (.freeze m) s = .next
      (diverge m.pipeline m.index slot stage op m.value (tickFree (tickFree (tickFree u))))) ∧
    (u.lockAccepts m 0x47 2 = true → (parseMessage m.body).pipeline = m.pipeline → (parseMessage m.body).kind = 4 →
      exec (.forward m) s = .next (spanResultTake (parseMessage m.body) u)) ∧
    (u.lockAccepts m 0x47 2 = true → (parseMessage m.body).pipeline = m.pipeline → (parseMessage m.body).kind = 5 →
      exec (.forward m) s = .next (placementTake (parseMessage m.body) u))) ∧
  (∀ s pipe k p, s.alive = true → s.going = true → tget s.lock pipe = some k → tget s.pipes pipe = some p → p.active = true →
    k.lsState = 1 → s.partnerLate k = true → k.role = 1 → k.onLoss = 1 → exec (.lockstepTimeout pipe) s = .next
      (releaseHeld pipe (fun _ => true) (raiseEvent 0x0007 0 (0xFFFFF + pipe * 2 ^ 20 + 5 * 2 ^ 24)
        (modLock pipe (fun k => { k with lsState := 3 }) s)))) ∧
  (∀ s pair cid c, s.alive = true → s.findCmd pair cid = some c → c.opcode = 0x0506 → s.mayStart c = true → s.ken.fatal = false →
    (c.p8 32 = 0 → exec (.clapperFreezeNow pair cid) s = .next (finishPlain pair cid stOk (enterFreeze 0 false s))) ∧
    (c.p8 32 = 1 → s.ken.frozen = false → s.tb < c.p64 40 → exec (.clapperFreezeAt pair cid) s =
      .next (finishPlain c.pair c.cid stOk { s with clap := { s.clap with at_ := some (c.p64 40) } })) ∧
    (c.p8 32 = 1 → s.ken.frozen = false → c.p64 40 ≤ s.tb → exec (.clapperFreezeAt pair cid) s =
      .next (finishPlain c.pair c.cid stOk (enterFreeze 1 false { s with clap := { s.clap with at_ := none } }))) ∧
    (c.p8 32 = 2 → s.ken.frozen = true → s.clap.held = none → s.raw 0x12 0 0x01 0 = 0 →
      exec (.clapperRelease pair cid false) s = .next (finishPlain c.pair c.cid stOk
        (releaseFreeze (driveBall false { s with clap := { s.clap with released := true } })))) ∧
    (c.p8 32 = 2 → s.ken.frozen = true → s.clap.held = none → s.raw 0x12 0 0x01 0 ≠ 0 →
      exec (.clapperRelease pair cid false) s = .next (markRunning c.pair c.cid
        (let u := driveBall false { s with clap := { s.clap with released := true } }
        { u with clap := { u.clap with held := some (c.pair, c.cid) } })))) ∧
  (∀ s, s.alive = true →
    (s.raw 0x12 0 0x01 0 = 1 →
      exec .clapperPinAssert s = .next (enterFreeze 2 false { s with clap := { s.clap with ballLow := true } })) ∧
    (∀ pair cid, s.clap.held = some (pair, cid) → exec .clapperPinDeassert s =
      .next (finishPlain pair cid stOk (releaseFreeze { s with clap := { s.clap with ballLow := false } }))) ∧
    (∀ a, s.clap.at_ = some a → a ≤ s.tb →
      exec .clapperAtReached s = .next (enterFreeze 1 false { s with clap := { s.clap with at_ := none } })))

/-- A read of a sound word changes nothing but the streak of its channel; one of an uninitialised or poisoned word is recorded and poisons
the entry that read it; a whole write replaces any content, a narrow one of a sound or uninitialised word merges, and of a poisoned word
changes no word; the scrubber takes word after word; SCRUB_PASS and INIT_FILL answer what they did. -/
def Obligations.StackMemoryWorks : Prop :=
  (∀ s stack idx reader, s.alive = true → s.wordServes stack idx = true → 34 * 2 ^ 24 ≤ idx →
    (∀ bs, s.word stack idx = some (.data bs) →
      exec (.codeWordRead stack idx [] reader) s = .next (noteStreak false stack idx s)) ∧
    (s.word stack idx = none → exec (.codeWordRead stack idx [] reader) s = .next (poisonReader reader stack idx
      (wordRecord 0x0206 clsContained stack idx 0xFFFF (s.readerOf reader) (bump 0x05 stack 0x08 (noteStreak false stack idx s))))) ∧
    (s.word stack idx = some .poison → exec (.codeWordRead stack idx [] reader) s = .next (poisonReader reader stack idx
      (wordRecord 0x0207 clsContained stack idx 0xFFFF (s.readerOf reader) (noteStreak false stack idx s))))) ∧
  (∀ s stack idx off data writer, s.alive = true → s.wordServes stack idx = true → off + data.length ≤ 64 →
    s.servingStack stack idx = stack →
    (data.length = 64 → exec (.codeWordWrite stack idx off data WordFault.clean writer) s = .next (setWord stack idx (.data data) s)) ∧
    (∀ bs, data.length ≠ 64 → s.word stack idx = some (.data bs) → exec (.codeWordWrite stack idx off data WordFault.clean writer) s =
      .next (setWord stack idx (.data (patch bs off data)) (noteStreak false stack idx s))) ∧
    (data.length ≠ 64 → s.word stack idx = none → exec (.codeWordWrite stack idx off data WordFault.clean writer) s =
      .next (setWord stack idx (.data (patch (zeros 64) off data)) (noteStreak false stack idx s))) ∧
    (data.length ≠ 64 → s.word stack idx = some .poison → exec (.codeWordWrite stack idx off data WordFault.clean writer) s =
      .next (poisonReader writer stack idx (wordRecord 0x0207 clsContained stack idx 0xFFFF (s.readerOf writer)
        (noteStreak false stack idx s))))) ∧
  (∀ s stack bs, s.alive = true → s.wordServes stack 0 = true → s.passCovers stack = false → s.raw 0x05 stack 0x03 0 + 1 < 2 ^ 30 →
    s.word stack (s.raw 0x05 stack 0x03 0) = some (.data bs) → exec (.scrubStep stack WordFault.clean) s =
      .next (setRaw 0x05 stack 0x03 (s.raw 0x05 stack 0x03 0 + 1) (noteStreak false stack (s.raw 0x05 stack 0x03 0) s))) ∧
  (∀ s pair cid c l errs r, Enters s 0x0508 pair cid c (stacksTarget c s) (scrubCheck c s) l →
    r = scrubRange (scrubCount l.cmd - l.progress % 2 ^ 40) errs l (dropLong l.handle s) →
    exec (.scrubPass pair cid errs) s = .next (finish l.pair l.cid stOk r.2.2 r.1)) ∧
  (∀ s pair cid c l r, Enters s 0x0509 pair cid c (stacksTarget c s) (fillCheck c s) l →
    r = fillRange (stackBuffers - l.progress % 2 ^ 40) l (dropLong l.handle s) →
    exec (.initFill pair cid) s = .next (finish l.pair l.cid stOk r.2.2 r.1))

/-- ERROR_RING_READ writes the records in their order, answers how many and what is left, and empties what it wrote unless it peeks;
COUNTERS_READ writes one record for each operator of the pipeline; TRACE_CONFIG restarts the trace ring; the dailies are made on request
and at the period; a queued record is written to the logbook with the next LSN, and read from there; a package-fatal error stops the part
and disables its ports. -/
def Obligations.ObservabilityWorks : Prop :=
  (∀ s pair cid c out all, Ready s 0x0500 pair cid c → (c.p8 32 ≤ 11 ∨ c.p8 32 = 255) → 1 ≤ c.p16 34 → c.p16 34 ≤ 768 →
    c.minBuf (64 * c.p16 34) = true → out = (s.ringRecords (c.p8 32)).take (c.p16 34) →
    all = ((diesOf (c.p8 32)).map fun d => (s.ringOf d).recs.length).sum →
    (c.p8 33 = 1 → exec (.errorRingRead pair cid true []) s = .next (finish c.pair c.cid stOk
      (out.length + Nat.min all 0xFFFF * 2 ^ 16
        + Nat.min ((diesOf (c.p8 32)).map fun d => (s.ringOf d).discards).sum 0xFFFF * 2 ^ 32)
      (emits ((layOut (hostBuffers c.entry c.list) (out.map fun r => r.readOut []).flatten).map fun p => .pcieWrite (s.dataVia c.pair) p.1 p.2) s))) ∧
    (c.p8 33 = 0 → exec (.errorRingRead pair cid true []) s = .next (finish c.pair c.cid stOk
      (out.length + Nat.min (all - out.length) 0xFFFF * 2 ^ 16
        + Nat.min ((diesOf (c.p8 32)).map fun d => (s.ringOf d).discards).sum 0xFFFF * 2 ^ 32)
      ((diesOf (c.p8 32)).foldl (fun (u : State) (d : Nat) => emptyOut out d u) (emits ((layOut (hostBuffers c.entry c.list)
        (out.map fun r => r.readOut []).flatten).map fun p => .pcieWrite (s.dataVia c.pair) p.1 p.2) s))))) ∧
  (∀ s pair cid c p rs, Ready s 0x0501 pair cid c → c.p8 32 ≤ 15 → c.p8 33 = 0 → tget s.pipes (c.p8 32) = some p →
    rs = p.decl.counterRows (c.p8 32) → c.minBuf (128 * rs.length) = true →
    exec (.countersRead pair cid true) s = .next (finish c.pair c.cid stOk rs.length (emits
      ((layOut (hostBuffers c.entry c.list) (rs.map (s.counterRecord (c.p8 32))).flatten).map fun p => .pcieWrite (s.dataVia c.pair) p.1 p.2) s))) ∧
  (∀ s pair cid c, Ready s 0x0502 pair cid c → 10 ≤ c.p8 32 → c.p8 32 ≤ 24 → c.p8 33 ≤ 1 → c.p64 40 % 4096 = 0 →
    exec (.traceConfig pair cid) s = .next (finishPlain c.pair c.cid stOk (setRaw 0x12 0 0x06 0 { s with obs := { s.obs with
      traceOn := !bitOf (c.p8 33) 0, traceLog2 := c.p8 32, traceKinds := c.p32 36, traceAddr := c.p64 40, traceTail := 0
      traceHead := 0, traceSeq := 0 } }))) ∧
  (∀ s pair cid c l u, Enters s 0x0504 pair cid c (dailiesTarget c s) (dailiesCheck c s) l → u = dropLong l.handle s →
    exec (.dailiesRun pair cid true) s = .next (finish l.pair l.cid stOk u.comingLsn (makeDailies 1
      (emits ((layOut (hostBuffers l.entry []) (u.dailies 1)).map fun p => .pcieWrite (s.dataVia l.pair) p.1 p.2) u)))) ∧
  (∀ s pair cid c l r, Enters s 0x0505 pair cid c (logbookTarget c s) (logbookCheck c s) l →
    r = logbookSome s.obs.log.length l (dropLong l.handle s) →
    exec (.logbookRead pair cid true) s = .next (logbookEnd r.2.1 r.1)) ∧
  (∀ s, s.alive = true → 6 ≤ s.ken.bootStage → exec .dailiesPeriod s =
    .next (raiseEvent 0x0008 uPackage (s.comingLsn % 2 ^ 32) (makeDailies 0 s))) ∧
  (∀ s r rest, s.alive = true → s.obs.logQueue = r :: rest → s.obs.permDropped = 0 → exec .logbookWrite s = .next
    (appendLog false r { s with obs := { s.obs with
      logQueue := rest ++ s.obs.logOver.take 1, logOver := s.obs.logOver.drop 1 } })) ∧
  (∀ s die cause up, s.alive = true → (cause = 0x0602 ∨ cause = 0x0603 ∨ cause = 0x0604) → s.ken.fatal = false →
    exec (.packageFatalError die cause up) s = .next ((List.range 18).foldl (fun (t : State) (i : Nat) => disablePort i 0 up t)
      (recordErrOn die (plainErr (uDie die) cause clsPackageFatal 0 0 0 0) s)))

/-- A spare whose test falls due is tested at once, another slot waits for the takeover that releases it; a test that ends keeps its record
and does to its unit what the outcome says; a deferred test is tried again; a requalifying slot returns after two passes and is retired by
a failure; a suspect unit is tested; the commands set the rotation, run tests, read the records and retire a unit. -/
def Obligations.FieldTestWorks : Prop :=
  (∀ s c temp i, s.alive = true → s.going = true → s.raw 0x10 c 0x01 1 ≠ 0 → s.inService (uCluster c) = true → s.oldestSlot c = some i →
    i / 5 = c → s.testing (uSlot i) = false → thas s.ftest.pendingTakeover c = false → s.spareOf c ≠ none → temp < 760 →
    s.dieAllows (dieOf (uSlot i)) = true → s.waitsBehind c = false →
    (s.coreState i = 1 → exec (.rotationTestDue c temp) s =
      .next (startTest (s.newTest (uSlot i) 0 noParent s.extended false temp) (leaveWait c s))) ∧
    (s.coreState i ≠ 1 → exec (.rotationTestDue c temp) s = .next (leaveWait c { s with ftest := { s.ftest with
      pendingTakeover := tput s.ftest.pendingTakeover c { slot := i, temp := temp, trigger := 0, parent := noParent } } }))) ∧
  (∀ s c temp, s.alive = true → c ∈ s.ftest.deferred ∨ c ∈ s.ftest.waiting → exec (.testDeferralRetry c temp) s = .next (rotationDue c temp
    { s with ftest := { s.ftest with deferred := s.ftest.deferred.filter (· ≠ c) } })) ∧
  (∀ s0 s c d sp l u, s0.alive = true → s = s0.coreFlushed c → s.going = true → tget s.ftest.pendingTakeover c = some d →
    s.spareOf c = some sp → s.identityOf d.slot = some l → s.takeoverFree sp l = true →
    u = takeIdentity l sp { s with ftest := { s.ftest with pendingTakeover := tdel s.ftest.pendingTakeover c } } →
    exec (.takeover c) s0 = .next (startTest (u.newTest (uSlot d.slot) d.trigger d.parent u.extended false d.temp) u)) ∧
  (∀ s o t, s.alive = true → (s.ftest.tests.find? fun t => t.unit == o.unit) = some t →
    exec (.testComplete o) s = .next (finishTest t o (decide (t.unit / 4096 = 3) && (s.identityOf (t.unit % 4096)).isSome) s)) ∧
  (∀ s i temp o q x t u, s.alive = true → s.ken.fatal = false → s.coreState i = 3 → tget s.ftest.passes i = some q →
    temp - q.failed.tempStart ≤ 24 → q.failed.tempStart - temp ≤ 24 → s.dieAllows (dieOf (uSlot i)) = true → x = { o with unit := uSlot i, repeatFails := true } →
    t = { q.failed with trigger := 3, tbStart := s.tb, tempStart := temp } →
    u = countTest (uSlot i) (s.outcomeOf x) (keepRecord (s.testRecord t x (s.outcomeOf x)) s) →
    (s.outcomeOf x = 0 → 1 ≤ q.count → exec (.requalificationRetest i temp false o) s = .next (enterService (uSlot i) (becomeSpare i
      { u with ftest := { u.ftest with passes := tdel u.ftest.passes i } }))) ∧
    (s.outcomeOf x = 0 → q.count = 0 → exec (.requalificationRetest i temp false o) s =
      .next { u with ftest := { u.ftest with passes := tput u.ftest.passes i { q with count := 1 } } }) ∧
    (s.outcomeOf x ≠ 0 → exec (.requalificationRetest i temp false o) s = .next (retireUnit (uSlot i) q.failed.parent
      (raiseEvent 0x000A (uSlot i) (uSlot i + s.outcomeOf x * 2 ^ 16) u)))) ∧
  (∀ s u temp v, s.alive = true → tget s.eng.suspects u = some v → s.inService u = true → s.testing u = false → s.ken.fatal = false →
    u / 4096 ≠ 3 → exec (.suspectTest u temp) s = .next (startTest (s.newTest u 1 v.1 false true temp) s)) ∧
  (∀ s pair cid c, Ready s 0x0600 pair cid c → c.p16 32 ≠ 0 → c.p8 34 ≤ 1 → 1 ≤ c.p16 36 → c.p16 36 ≤ 168 →
    exec (.testRotationSet pair cid) s = .next (finishPlain c.pair c.cid stOk
      (((List.range 16).filter fun i => bitOf (c.p16 32) i).foldl
        (fun (t : State) (i : Nat) => setRaw 0x10 i 0x02 (c.p16 36) (setRaw 0x10 i 0x01 (c.p8 34) t)) s))) ∧
  (∀ s pair cid c l outs temp r, Enters s 0x0601 pair cid c (testTarget c s) (testCheck c s) l →
    r = testSome 4096 outs temp l (dropLong l.handle s) → exec (.testRun pair cid outs temp) s =
      .next (finish l.pair l.cid stOk (r.2.progress / 2 ^ 16 + r.2.progress % 2 ^ 16 * 2 ^ 8) r.1)) ∧
  (∀ s pair cid c out, Ready s 0x0602 pair cid c → 1 ≤ c.p16 32 → c.p16 32 ≤ 256 → c.p8 34 = 0 → c.minBuf (64 * c.p16 32) = true →
    out = s.ftest.records.take (c.p16 32) → ∃ t, exec (.testResultsRead pair cid true) s = .next t ∧
      t.ftest.records = s.ftest.records.drop (c.p16 32) ∧ t.ftest.replaced = 0 ∧ t.ken = (finish c.pair c.cid stOk
        (out.length + Nat.min s.ftest.replaced 0xFFFF * 2 ^ 16) s).ken ∧ t.out = s.out ++
        (layOut (hostBuffers c.entry c.list) (out.map TestRec.bytes).flatten).map fun p => .pcieWrite (s.dataVia c.pair) p.1 p.2) ∧
  (∀ s pair cid c, Ready s 0x0603 pair cid c → mayRetire (c.p16 32) = true → c.p16 32 ∉ s.ftest.retired →
    exec (.unitRetire pair cid) s = .next (finishPlain c.pair c.cid stOk (retireUnit (c.p16 32) noParent s)))

/-- With the command `c` at the front of its queue, the block runs `c` on the state with the queue's rest. -/
def Obligations.StepRunsTheFront : Prop :=
  ∀ c rest (s : State), step { s with pending := c :: rest } = exec c { s with pending := rest }

/-- The model's choice of log entry 1: on an empty queue the timebase of a part whose clocks run rises by 1, modulo 2^64, and nothing else
changes; a part whose clocks do not run is as it was. -/
def Obligations.EmptyQueueTicks : Prop :=
  (∀ s, s.pending = [] → s.alive = true → step s = .next { s with tb := (s.tb + 1) % 2 ^ 64 }) ∧
  (∀ s, s.pending = [] → s.alive = false → step s = .next s)

/-- After reset the fields, the words of the stacks and the blocks of the volumes are in canonical form, and no ring or queue exceeds its
bound; no command waits. -/
def Obligations.InvariantAtReset : Prop := Invariant State.reset ∧ State.reset.pending = []

/-- From every state with the invariant, whatever command is in front, a step leads to a state with the invariant: the addressed memories
and the fields stay in canonical form, a die's error ring holds at most 64 records, at most 256 events wait, at most 64 long operations
are paused, and at most 256 logbook records are queued. -/
def Obligations.StepsKeepTheInvariant : Prop := ∀ s t, Invariant s → step s = .next t → Invariant t

/-- Every step answers a next state: no command ends in a fault or a refusal. From a state with the invariant the step takes exactly the
command in front, leaves the others waiting in their order, and what was sent out before stands, with what the step sends after it. -/
def Obligations.StepsGoOn : Prop :=
  (∀ s, Completes s) ∧
  (∀ s c rest, Invariant s → s.pending = c :: rest → ∃ t, step s = .next t ∧ t.pending = rest ∧ s.out <+: t.out) ∧
  (∀ s, s.pending = [] → ∃ t, step s = .next t ∧ t.pending = [] ∧ t.out = s.out)

/-- While power-good is low, a brown-out holds, or the crystal has failed, every command but the power events themselves (POWER_ON_RESET,
PWRGD_FALL, WARM_RESET and SUPPLY_SAMPLE) leaves the node as it is. -/
def Obligations.StoppedClocksStopEverything : Prop :=
  ∀ s c, s.alive = false → (∀ b, c ≠ .powerOnReset b) → c ≠ .pwrgdFall → c ≠ .warmReset → (∀ r, c ≠ .supplySample r) →
    exec c s = .next s

/-- Until boot stage 8, while PERST# is asserted, and in a part whose clocks do not run, a read or write of BAR0 and a doorbell change
nothing; neither does one through a sub-link that the part does not have, nor a doorbell through another sub-link than its pair's. -/
def Obligations.NoAccessWithoutTheLink : Prop :=
  (∀ s, s.barUp = false → ∀ sub off size pair v w,
    exec (.ctrlEnable sub) s = .next s ∧ exec (.controllerReset sub) s = .next s ∧ exec (.admDepthWrite sub v) s = .next s ∧
    exec (.registerWrite sub off size w) s = .next s ∧ exec (.eventStatusWrite sub v) s = .next s ∧
    exec (.eventMaskWrite sub v) s = .next s ∧ exec (.refusalRead sub) s = .next s ∧ exec (.ringErrorRead sub) s = .next s ∧
    exec (.timebaseRead sub off size) s = .next s ∧ exec (.sqTailDoorbell sub pair v) s = .next s ∧
    exec (.cqHeadDoorbell sub pair v) s = .next s) ∧
  (∀ s sub, s.sublinks ≤ sub → ∀ off size v w,
    exec (.registerWrite sub off size w) s = .next s ∧ exec (.eventStatusWrite sub v) s = .next s ∧
    exec (.eventMaskWrite sub v) s = .next s ∧ exec (.refusalRead sub) s = .next s ∧ exec (.ringErrorRead sub) s = .next s ∧
    exec (.timebaseRead sub off size) s = .next s) ∧
  (∀ s sub, sub ≠ 0 → ∀ v, exec (.ctrlEnable sub) s = .next s ∧ exec (.controllerReset sub) s = .next s ∧
    exec (.admDepthWrite sub v) s = .next s) ∧
  (∀ s sub pair, s.pairSublink pair ≠ sub → ∀ v,
    exec (.sqTailDoorbell sub pair v) s = .next s ∧ exec (.cqHeadDoorbell sub pair v) s = .next s)

/-- The frame of CRC_VERIFY, the decoders, the transform and model operators, TOKENIZE, TOKEN_MASK and DELIVER, in every state. Either nothing
happens, or the engine first writes out its merge buffer and then only the completions of the row's own queue grow, by one; where the
buffer cannot be written out, the entry meets an engine fault instead. Writing the buffer out empties it, and changes no other buffer, no
cluster store, and no word of an operand store but those the buffer held. -/
def Obligations.OperatorsTouchTheirQueueOnly : Prop :=
  (∀ (s t : State) k c r, r = settleMerge k s → c ∈ [Instr.crcVerify k, .imageDecode k, .videoDecode k, .audioDecode k, .cropResample k,
      .flip k, .affineWarp k, .colourJitter k, .normalize k, .convert k, .expression k, .audioGain k, .scoreModel k, .embedModel k,
      .tokenize k, .tokenMask k, .deliver k] → exec c s = .next t →
    t = s ∨
    (r.2 = true ∧ (∃ q, t = { r.1 with eng := { r.1.eng with queues := q } }) ∧
      (∀ j, j ≠ k → tget t.eng.queues j = tget s.eng.queues j) ∧
      (t.queue k).entries = (s.queue k).entries ∧ (t.queue k).nextSeq = (s.queue k).nextSeq ∧
      ∃ x, (t.queue k).completions = (s.queue k).completions ++ [x]) ∨
    (r.2 = false ∧ t = engineFault 0x0501 k r.1)) ∧
  (∀ s k, ∃ m, (settleMerge k s).1 = { s with mem := { s.mem with stores := m } } ∧ m.cluster = s.mem.stores.cluster ∧
    (∀ j, j ≠ k → tget m.merge j = tget s.mem.stores.merge j) ∧ (storeUnit false k ≠ none → tgetD m.merge k [] = []) ∧
    ∀ x, (∀ u e, storeUnit false k = some u → e ∈ s.merging k → x ≠ u * 2 ^ 32 + e.word) →
      tget m.operand x = tget s.mem.stores.operand x)

/-- The frame of IDENTIFY, READ, WEAR_REPORT, QP_MODIFY's query, ATTEST_REPORT and CERT_READ, in every state, whether they answer, are refused,
or do not start: only the outstanding commands and the outputs may change; no command is added or lost, no other command is touched, and
what was sent stands. -/
def Obligations.ReadersChangeNothing : Prop :=
  ∀ (s t : State) pair cid ok c, c ∈ [Instr.identify pair cid ok, .read pair cid ok, .wearReport pair cid ok,
      .qpModifyQuery pair cid ok, .attestReport pair cid ok, .certRead pair cid ok] → exec c s = .next t →
    (∃ x o, t = { s with
      out := s.out ++ o
      ken := { s.ken with cmds := x } }) ∧ t.ken.cmds.length = s.ken.cmds.length ∧
    ∀ x ∈ s.ken.cmds, x.isOpen pair cid = false → x ∈ t.ken.cmds

/-- When the last page of a WRITE is programmed, block i of its range holds bytes 4 096 i to 4 096 i + 4 095 of its data, is not lost, and
every other block of every volume is as it was. A TRIM that completes leaves its range reading as zeros, and every other block as it was.
READ, FLUSH, FOLD, background folding, garbage collection, wear levelling and the switch of a relocation leave the content of every
block. -/
def Obligations.BlocksReadBack : Prop :=
  (∀ s t pair cid c d v m, s.alive = true →
    (s.ken.cmds.find? fun c => c.writing && c.pair == pair && c.cid == cid) = some c → c.data = some d →
    d.length = c.count * 4096 → tget s.flash.volumes c.volume = some v → s.volMag v = some m →
    s.hostRoom c.volume c.count = true → exec (.flashProgramComplete pair cid true) s = .next t →
    (∀ i, i < c.count → t.block (blockKey c.volume (c.block + i)) = sub d (4096 * i) 4096 ∧
      blockKey c.volume (c.block + i) ∉ t.flash.lost) ∧
    (∀ k, (k < blockKey c.volume c.block ∨ blockKey c.volume c.block + c.count ≤ k) → t.block k = s.block k ∧
      (k ∈ t.flash.lost ↔ k ∈ s.flash.lost))) ∧
  (∀ s t pair cid c, Ready s 0x0303 pair cid c → c.count ≠ 0 → c.volume ≤ 127 → c.p8 34 = 0 →
    s.volStatus c.volume c.block c.count true = stOk → exec (.trim pair cid) s = .next t →
    (∀ i, i < c.count → t.block (blockKey c.volume (c.block + i)) = zeroBlock) ∧
    (∀ k, (k < blockKey c.volume c.block ∨ blockKey c.volume c.block + c.count ≤ k) → t.block k = s.block k)) ∧
  (∀ s t c pair cid ok mag n vol blk, c ∈ [Instr.read pair cid ok, .write pair cid, .flush pair cid, .fold pair cid,
      .backgroundFold mag n, .garbageCollection mag n, .staticWearLevelling mag, .relocationSwitch vol blk] →
    exec c s = .next t → ∀ k, t.block k = s.block k)

/-- Whole words written without an error to a stack in service read back as written, whatever they held. Whatever errors they meet, a write
touches only the code words of its range, a read and a write of one code word only that word, and a scrub only its word; in the table area
that is the word or its copy in the other half. FILL changes only the words of its destination and its result word; COPY also rewrites
damaged words of its source. -/
def Obligations.WordsReadBack : Prop :=
  (∀ s narrow a bs rd rd2 u, addrOff a % 64 = 0 → bs.length % 64 = 0 → addrOff a + bs.length ≤ 2 ^ 36 →
    s.inService (uStack (addrStack a)) = true → u = (writeStack narrow a bs [] rd s).state →
    (writeStack narrow a bs [] rd s).failed = none ∧
    (readStack a bs.length [] rd2 u).failed = none ∧ (readStack a bs.length [] rd2 u).bytes = bs) ∧
  (∀ s narrow a bs fs rd w, Apart w a bs.length →
    tget (writeStack narrow a bs fs rd s).state.mem.words w = tget s.mem.words w) ∧
  (∀ s t stack idx fs f reader off data w, stack < 8 → w ≠ wordKey stack idx → (wordArea idx = 0 → w ≠ wordKey (otherHalf stack) idx) →
    (exec (.codeWordRead stack idx fs reader) s = .next t → tget t.mem.words w = tget s.mem.words w) ∧
    (exec (.codeWordWrite stack idx off data f reader) s = .next t → tget t.mem.words w = tget s.mem.words w)) ∧
  (∀ s t stack f w, w ≠ wordKey stack (s.raw 0x05 stack 0x03 0) →
    exec (.scrubStep stack f) s = .next t → tget t.mem.words w = tget s.mem.words w) ∧
  (∀ s t k cmd fs d w, d = fitTo 64 cmd → Apart w (mDst d) (mLen d) → (∀ a, mResult d = some a → Apart w a 8) →
    (exec (.fill k cmd fs) s = .next t → tget t.mem.words w = tget s.mem.words w) ∧
    (Apart w (mSrc d) (mLen d) → exec (.copy k cmd fs) s = .next t → tget t.mem.words w = tget s.mem.words w))

/-- Fetching keeps the CMD_IDs of a pair's unfinished commands distinct. A fetched entry whose CMD_ID is outstanding is finished with
ST_CMD_ID_IN_USE, so that it never runs, and the outstanding commands are as they were; one of a family that the pair does not carry is
finished with ST_WRONG_RING, and one with an undefined opcode with ST_INVALID_OPCODE. In a package that PACKAGE_FATAL has stopped, and for
a storage tag above 31, other rules come first (R64, R60). -/
def Obligations.CommandIdentifiers : Prop :=
  (∀ s t pair e list data, (∀ c ∈ s.ken.cmds, ∀ d ∈ s.ken.cmds, c.pair = d.pair → c.cid = d.cid → c.phase ≠ .finished →
      d.phase ≠ .finished → c = d) → exec (.commandFetch pair e list data) s = .next t →
    ∀ c ∈ t.ken.cmds, ∀ d ∈ t.ken.cmds, c.pair = d.pair → c.cid = d.cid → c.phase ≠ .finished → d.phase ≠ .finished → c = d) ∧
  (∀ s pair e b list data r, s.alive = true → tget s.ken.rings pair = some r → s.canFetch pair r = true → s.ken.fatal = false →
    b = fitTo 128 e →
    (s.cmdIdUsed pair (eCmdId b) = true → ∃ t x, exec (.commandFetch pair (some e) list data) s = .next t ∧
      t.ken.cmds = s.ken.cmds ++ [x] ∧ x.pair = pair ∧ x.cid = eCmdId b ∧ x.phase = .finished ∧ x.status = stCmdIdInUse ∧
      ∀ q i, t.findCmd q i = s.findCmd q i) ∧
    (s.cmdIdUsed pair (eCmdId b) = false → (r.storage = false ∨ eCmdId b ≤ 31) →
      (carries pair r.storage (eOpcode b / 256) = false → ∃ t x, exec (.commandFetch pair (some e) list data) s = .next t ∧
        t.ken.cmds = s.ken.cmds ++ [x] ∧ x.pair = pair ∧ x.cid = eCmdId b ∧ x.phase = .finished ∧ x.status = stWrongRing) ∧
      (carries pair r.storage (eOpcode b / 256) = true → opDefined (eOpcode b) = false →
        ∃ t x, exec (.commandFetch pair (some e) list data) s = .next t ∧ t.ken.cmds = s.ken.cmds ++ [x] ∧ x.pair = pair ∧
          x.cid = eCmdId b ∧ x.phase = .finished ∧ x.status = stInvalidOpcode)))

/-- Pair 0 carries family 0x00, a storage pair family 0x03, whose opcodes are 0x0300 to 0x030B, and a general pair the families 0x01, 0x02 and
0x04 to 0x07. A fetched entry of another family is finished with ST_WRONG_RING, and nothing of the node but its place in the rings and among
the commands changes: no command that could run is added. -/
def Obligations.RingFamilies : Prop :=
  (∀ storage f, carries 0 storage f = true ↔ f = 0) ∧
  (∀ pair f, pair ≠ 0 → (carries pair true f = true ↔ f = 3)) ∧
  (∀ pair f, pair ≠ 0 → (carries pair false f = true ↔ f ∈ [1, 2, 4, 5, 6, 7])) ∧
  (∀ op, op / 256 = 3 → (opDefined op = true ↔ 0x0300 ≤ op ∧ op ≤ 0x030B)) ∧
  (∀ s pair e b list data r, s.alive = true → tget s.ken.rings pair = some r → s.canFetch pair r = true → s.ken.fatal = false →
    b = fitTo 128 e → s.cmdIdUsed pair (eCmdId b) = false → (r.storage = false ∨ eCmdId b ≤ 31) →
    carries pair r.storage (eOpcode b / 256) = false → ∃ t x rs n, exec (.commandFetch pair (some e) list data) s = .next t ∧
      t = { s with ken := { s.ken with cmds := s.ken.cmds ++ [x], rings := rs, nextOrd := n } } ∧ x.phase = .finished ∧
      x.status = stWrongRing ∧ ∀ q i, t.findCmd q i = s.findCmd q i)

/-- A fetch from a storage pair with 32 commands outstanding does nothing, so that a fetch never raises them above 32. An entry with CMD_ID
above 31, not itself outstanding, is finished with ST_INVALID_FIELD, and no command that may run has such a tag. -/
def Obligations.StorageTags : Prop :=
  (∀ s pair e list data r, tget s.ken.rings pair = some r → r.storage = true → 32 ≤ (s.outstanding pair).length →
    exec (.commandFetch pair e list data) s = .next s) ∧
  (∀ s t pair e list data r, tget s.ken.rings pair = some r → r.storage = true → (s.outstanding pair).length ≤ 32 →
    exec (.commandFetch pair e list data) s = .next t → (t.outstanding pair).length ≤ 32) ∧
  (∀ s t pair e list data r, tget s.ken.rings pair = some r → r.storage = true →
    (∀ c ∈ s.outstanding pair, c.phase ≠ .finished → c.cid ≤ 31) → exec (.commandFetch pair e list data) s = .next t →
    ∀ c ∈ t.outstanding pair, c.phase ≠ .finished → c.cid ≤ 31) ∧
  (∀ s pair e list data r, s.alive = true → tget s.ken.rings pair = some r → r.storage = true → s.canFetch pair r = true →
    s.ken.fatal = false → s.cmdIdUsed pair (eCmdId (fitTo 128 e)) = false → 31 < eCmdId (fitTo 128 e) →
    ∃ t x, exec (.commandFetch pair (some e) list data) s = .next t ∧ t.ken.cmds = s.ken.cmds ++ [x] ∧ x.phase = .finished ∧
      x.cid = eCmdId (fitTo 128 e) ∧ x.status = stInvalidField)

/-- While an earlier command of its pair is outstanding and does not count as done, a command with ORDERED does not start, and neither does a
later command than one with ORDERED; a command that may not start does nothing when its row runs. On a pair with FENCE, COMPLETION_WRITE
writes the completion of the oldest outstanding command only, and holds every other. -/
def Obligations.OrderedAndFence : Prop :=
  (∀ (s : State) (c e : Cmd), e ∈ s.ken.cmds → e.pair = c.pair → e.ord < c.ord → (c.ordered = true ∨ e.ordered = true) → s.countsDone e = false →
    s.mayStart c = false) ∧
  (∀ s pair cid c, s.findCmd pair cid = some c → s.mayStart c = false →
    (∀ op f, runCmd op pair cid f s = s) ∧ (∀ op target check f, runLong op pair cid target check f s = s)) ∧
  (∀ s t pair cid ok r c cs, tget s.ken.rings pair = some r → r.fence = true → s.outstanding pair = c :: cs →
    ¬ (c.cid = cid ∧ c.phase = .finished) → exec (.completionWrite pair cid ok) s = .next t → t = s) ∧
  (∀ s pair r c cs, s.alive = true → tget s.ken.rings pair = some r → r.fence = true → s.outstanding pair = c :: cs →
    c.phase = .finished → r.stopped = false → r.cqFree ≠ 0 → s.pcieClock = true → ∃ t, exec (.completionWrite pair c.cid true) s = .next t ∧
      t.outstanding pair = cs ∧ Output.pcieWrite (s.entryVia pair) (r.cqBase + 32 * r.cqTail) (completionEntry c r) ∈ t.out)

/-- A range of a volume that is read-only, by itself or by its magazine's state, answers ST_MEDIA_READ_ONLY to a command that writes; a WRITE
and each form of REEL_APPEND that is well formed then completes with that status and changes nothing else; a READ of the range is served as
that of any other volume. -/
def Obligations.ReadOnlyVolumes : Prop :=
  (∀ (s : State) volume block count v, tget s.flash.volumes volume = some v → block + count ≤ v.blocks →
    (v.readOnly = true ∨ ∃ b m, s.volMag v = some (b, m) ∧ m.state = 4) →
    s.volStatus volume block count true = stMediaReadOnly ∧
    (∀ b m, s.volMag v = some (b, m) → m.takesCommands = true → s.volStatus volume block count false = stOk)) ∧
  (∀ s pair cid c, Ready s 0x0301 pair cid c → c.count ≠ 0 → c.count ≤ 2048 → c.volume ≤ 127 → c.p8 34 ≤ 3 →
    c.dataIs (c.count * 4096) = true → s.volStatus c.volume c.block c.count true = stMediaReadOnly →
    exec (.write pair cid) s = .next (refuse pair cid stMediaReadOnly s)) ∧
  (∀ s pair cid c, Ready s 0x0300 pair cid c → c.count ≠ 0 → c.count ≤ 2048 → c.volume ≤ 127 → c.p8 34 = 0 →
    c.dataIs (c.count * 4096) = true → s.volStatus c.volume c.block c.count true = stMediaReadOnly →
    s.volStatus c.volume c.block c.count false = stOk → s.lostIn c.volume c.block c.count = [] → s.landing = true →
    exec (.read pair cid true) s = .next (finish pair cid stOk 0 (emits ((layOut (hostBuffers c.entry c.list)
      (s.readBlocks c.volume c.block c.count)).map fun p => .pcieWrite (s.dataVia c.pair) p.1 p.2)
      (readRun c.volume c.block c.count s)))) ∧
  (∀ s pair cid c, Ready s 0x030A pair cid c →
    (∀ r, c.p8 32 = 0 → c.openFields = true → s.reelBusy c = false → thas s.flash.volumes c.reelVolume = true →
      thas s.cat.reels c.reelKey = false → s.openCount < 256 → s.reelCount c.reelVolume < 1048576 →
      r = c.newReel s.tb (Config.fwRelease s.firmware) →
      s.volStatus c.reelVolume r.start r.payloadOffset true = stMediaReadOnly →
      exec (.reelOpen pair cid) s = .next (refuse pair cid stMediaReadOnly s)) ∧
    (∀ r d sls bl z, c.p8 32 = 1 → tget s.cat.reels c.reelKey = some r → s.reelBusy c = false → r.sealed = false → c.hasData = true →
      c.p16 38 = r.dataset → c.data = some d → sls = pieces 64 (c.p32 72) d → sls.length = c.p32 72 →
      d.length = roundUp (64 * c.p32 72 + (sls.map fun b => field b 20 4).sum) 4 → c.dataLen = d.length →
      slatesGiven r.dataset (r.first + r.slates) sls = true → r.slates + c.p32 72 ≤ r.slateCap →
      bl = (packSamples r.blocks (splitSamples sls (d.drop (64 * c.p32 72)))).closed.reverse →
      r.blocks + bl.length ≤ r.blockCap → z = storeBlocks r.codec r.level (Config.fwRelease s.firmware) r.nextUnit bl →
      s.volStatus c.reelVolume r.start z.2.2 true = stMediaReadOnly →
      exec (.reelSamples pair cid) s = .next (refuse pair cid stMediaReadOnly s)) ∧
    (∀ r ok, c.p8 32 = 2 → tget s.cat.reels c.reelKey = some r → s.reelBusy c = false → r.sealed = false → c.exactBuf 48 = true →
      c.p16 38 = r.dataset → s.volStatus c.reelVolume r.start (r.nextUnit + 1) true = stMediaReadOnly →
      exec (.reelSeal pair cid ok) s = .next (refuse pair cid stMediaReadOnly s)))

/-- With its parameters in range, SHAPER_FLOW_SET sets SHAPED, RATE_MBPS and OVERHEAD of the flow in one step and completes with ST_OK, and no
other field changes; with one out of range it completes with ST_INVALID_FIELD and changes nothing else. -/
def Obligations.ShaperFlowSet : Prop :=
  ∀ s pair cid c, Ready s 0x0408 pair cid c →
    (c.p16 32 ≤ 8191 → c.p8 34 ≤ 1 → -64 ≤ signedOf 16 (c.p16 36) → signedOf 16 (c.p16 36) ≤ 255 → 8 ≤ c.p32 40 →
      c.p32 40 ≤ 4000000 → ∃ u, exec (.shaperFlowSet pair cid) s = .next (finishPlain pair cid stOk { s with fields := u }) ∧
        tget u (fieldId 0x0C (c.p16 32) 1) = some (c.p8 34) ∧ tget u (fieldId 0x0C (c.p16 32) 2) = some (c.p32 40) ∧
        tget u (fieldId 0x0C (c.p16 32) 3) = some (c.p16 36 % 512) ∧
        ∀ f, f ≠ fieldId 0x0C (c.p16 32) 1 → f ≠ fieldId 0x0C (c.p16 32) 2 → f ≠ fieldId 0x0C (c.p16 32) 3 →
          tget u f = tget s.fields f) ∧
    ((8191 < c.p16 32 ∨ 1 < c.p8 34 ∨ signedOf 16 (c.p16 36) < -64 ∨ 255 < signedOf 16 (c.p16 36) ∨ c.p32 40 < 8 ∨
        4000000 < c.p32 40) → exec (.shaperFlowSet pair cid) s = .next (refuse pair cid stInvalidField s))

/-- With its parameters in range, TEST_ROTATION_SET sets ENABLE and PERIOD_H of every cluster whose bit is 1 in one step and completes with ST_OK,
and no other field changes; with one out of range it completes with ST_INVALID_FIELD and changes nothing else. -/
def Obligations.TestRotationSet : Prop :=
  ∀ s pair cid c, Ready s 0x0600 pair cid c →
    (c.p16 32 ≠ 0 → c.p8 34 ≤ 1 → 1 ≤ c.p16 36 → c.p16 36 ≤ 168 →
      ∃ u, exec (.testRotationSet pair cid) s = .next (finishPlain pair cid stOk { s with fields := u }) ∧
        (∀ n, n < 16 → bitOf (c.p16 32) n = true →
          tget u (fieldId 0x10 n 1) = some (c.p8 34) ∧ tget u (fieldId 0x10 n 2) = some (c.p16 36)) ∧
        (∀ f, (∀ n, n < 16 → bitOf (c.p16 32) n = true → f ≠ fieldId 0x10 n 1 ∧ f ≠ fieldId 0x10 n 2) →
          tget u f = tget s.fields f)) ∧
    ((c.p16 32 = 0 ∨ 1 < c.p8 34 ∨ c.p16 36 = 0 ∨ 168 < c.p16 36) →
      exec (.testRotationSet pair cid) s = .next (refuse pair cid stInvalidField s))

/-- For every n from 1 to 2^47, twice the half-width is the smallest even k of at least 2 with 2^k ≥ n; for n = 2^47 the half-width is 24. -/
def Obligations.PermutationDomain : Prop :=
  (∀ n, 1 ≤ n → n ≤ 2 ^ 47 → 2 ≤ 2 * halfWidth n ∧ n ≤ 2 ^ (2 * halfWidth n) ∧
    ∀ k, k % 2 = 0 → 2 ≤ k → n ≤ 2 ^ k → 2 * halfWidth n ≤ k) ∧
  halfWidth (2 ^ 47) = 24

/-- The keyed network and its inverse keep their domain and undo each other. For every seed, every epoch and every pipeline of 1 to 2^47
samples, the shuffle takes each position below n to an index below n, and its inverse
takes it back; so each epoch delivers every sample exactly once, whichever node makes it. -/
def Obligations.ShuffleIsOneToOne : Prop :=
  (∀ seed h epoch x, x < 2 ^ (2 * h) → feistelE seed h epoch x < 2 ^ (2 * h) ∧ feistelD seed h epoch x < 2 ^ (2 * h) ∧
    feistelD seed h epoch (feistelE seed h epoch x) = x ∧ feistelE seed h epoch (feistelD seed h epoch x) = x) ∧
  ∀ seed n epoch, 1 ≤ n → n ≤ 2 ^ 47 →
    (∀ p, p < n → sigma seed n epoch p < n ∧ sigmaInv seed n epoch (sigma seed n epoch p) = p) ∧
    (∀ v, v < n → sigmaInv seed n epoch v < n ∧ sigma seed n epoch (sigmaInv seed n epoch v) = v)
end

