-- ==== Sys2Proof/Laws/Table.lean ====
section
/-! SUPPORT. Laws of keyed tables: what a read gives after each update, and that each update keeps the canonical form. -/

namespace Sys2Proof.Machine

variable {α : Type}

/-! ### Reading back -/

/-- Reading the key just written. -/
theorem tget_tput (t : Table α) (n : Nat) (a : α) : tget (tput t n a) n = some a := by
  induction t with
  | nil => simp [tput, tget]
  | cons kv t ih =>
    obtain ⟨k, v⟩ := kv
    unfold tput
    split
    · simp [tget]
    · split
      · simp [tget]
      · simp [tget, *]

/-- A write leaves every other key alone. -/
theorem tget_tput_other (t : Table α) {n m : Nat} (a : α) (h : m ≠ n) : tget (tput t n a) m = tget t m := by
  induction t with
  | nil => simp [tput, tget, Ne.symm h]
  | cons kv t ih =>
    obtain ⟨k, v⟩ := kv
    unfold tput
    split
    · simp [tget, Ne.symm h]
    · split
      · subst_vars; simp [tget, Ne.symm h]
      · simp only [tget, ih]

/-- A removed key reads as unlisted. -/
theorem tget_tdel (t : Table α) (n : Nat) : tget (tdel t n) n = none := by
  induction t with
  | nil => rfl
  | cons kv t ih =>
    obtain ⟨k, v⟩ := kv
    unfold tdel
    split <;> simp [tget, *]

/-- Removing a key leaves every other key alone. -/
theorem tget_tdel_other (t : Table α) {n m : Nat} (h : m ≠ n) : tget (tdel t n) m = tget t m := by
  induction t with
  | nil => rfl
  | cons kv t ih =>
    obtain ⟨k, v⟩ := kv
    unfold tdel
    split
    · subst_vars; simp [tget, Ne.symm h, ih]
    · simp only [tget, ih]

/-- A written default reads back through the default. -/
theorem tgetD_tputD [DecidableEq α] (t : Table α) (n : Nat) (a d : α) : tgetD (tputD t n a d) n d = a := by
  unfold tputD
  split <;> simp_all [tgetD, tget_tput, tget_tdel]

/-- A write into a table with a default leaves every other key alone. -/
theorem tgetD_tputD_other [DecidableEq α] (t : Table α) {n m : Nat} (a d : α) (h : m ≠ n) :
    tgetD (tputD t n a d) m d = tgetD t m d := by
  unfold tputD tgetD
  split
  · rw [tget_tdel_other t h]
  · rw [tget_tput_other t a h]

/-! ### Membership -/

/-- An entry after a write is the new one or was there. -/
theorem mem_tput {t : Table α} {n : Nat} {a : α} {kv : Nat × α} (h : kv ∈ tput t n a) : kv = (n, a) ∨ kv ∈ t := by
  induction t with
  | nil => left; simpa [tput] using h
  | cons x t ih =>
    obtain ⟨k, v⟩ := x
    unfold tput at h
    split at h
    · rcases List.mem_cons.mp h with h | h
      · exact .inl h
      · exact .inr h
    · split at h
      · rcases List.mem_cons.mp h with h | h
        · exact .inl h
        · exact .inr (List.mem_cons_of_mem _ h)
      · rcases List.mem_cons.mp h with h | h
        · exact .inr (h ▸ List.mem_cons_self)
        · rcases ih h with h | h
          · exact .inl h
          · exact .inr (List.mem_cons_of_mem _ h)

/-- An entry after a removal was there. -/
theorem mem_tdel {t : Table α} {n : Nat} {kv : Nat × α} (h : kv ∈ tdel t n) : kv ∈ t := by
  induction t with
  | nil => exact h
  | cons x t ih =>
    obtain ⟨k, v⟩ := x
    unfold tdel at h
    split at h
    · exact List.mem_cons_of_mem _ (ih h)
    · rcases List.mem_cons.mp h with h | h
      · exact h ▸ List.mem_cons_self
      · exact List.mem_cons_of_mem _ (ih h)

/-- What a read gives is an entry. -/
theorem mem_of_tget {t : Table α} {n : Nat} {a : α} (h : tget t n = some a) : (n, a) ∈ t := by
  induction t with
  | nil => simp [tget] at h
  | cons x t ih =>
    obtain ⟨k, v⟩ := x
    unfold tget at h
    split at h
    · cases h; subst_vars; exact List.mem_cons_self
    · exact List.mem_cons_of_mem _ (ih h)

/-! ### The canonical form -/

/-- The canonical form, one entry at a time. -/
theorem tsorted_cons (k : Nat) (v : α) (t : Table α) :
    tsorted ((k, v) :: t) = true ↔ (∀ kv ∈ t, k < kv.1) ∧ tsorted t = true := by
  simp [tsorted]

/-- A write keeps the keys rising. -/
theorem tsorted_tput {t : Table α} (n : Nat) (a : α) (h : tsorted t = true) : tsorted (tput t n a) = true := by
  induction t with
  | nil => simp [tput, tsorted]
  | cons x t ih =>
    obtain ⟨k, v⟩ := x
    rw [tsorted_cons] at h
    unfold tput
    split
    · rename_i hn
      rw [tsorted_cons, tsorted_cons]
      refine ⟨fun kv hkv => ?_, h⟩
      rcases List.mem_cons.mp hkv with rfl | hkv
      · exact hn
      · exact Nat.lt_trans hn (h.1 kv hkv)
    · split
      · subst_vars; rw [tsorted_cons]; exact h
      · rw [tsorted_cons]
        refine ⟨fun kv hkv => ?_, ih h.2⟩
        rcases mem_tput hkv with rfl | hkv
        · show k < n; omega
        · exact h.1 kv hkv

/-- A removal keeps the keys rising. -/
theorem tsorted_tdel {t : Table α} (n : Nat) (h : tsorted t = true) : tsorted (tdel t n) = true := by
  induction t with
  | nil => rfl
  | cons x t ih =>
    obtain ⟨k, v⟩ := x
    rw [tsorted_cons] at h
    unfold tdel
    split
    · exact ih h.2
    · rw [tsorted_cons]; exact ⟨fun kv hkv => h.1 kv (mem_tdel hkv), ih h.2⟩

/-- A filter keeps the keys rising. -/
theorem tsorted_tfilter {t : Table α} (p : Nat → α → Bool) (h : tsorted t = true) : tsorted (tfilter t p) = true := by
  induction t with
  | nil => rfl
  | cons x t ih =>
    obtain ⟨k, v⟩ := x
    rw [tsorted_cons] at h
    have hs : tsorted (t.filter fun kv => p kv.1 kv.2) = true := ih h.2
    unfold tfilter
    rw [List.filter_cons]
    split
    · rw [tsorted_cons]; exact ⟨fun kv hkv => h.1 kv (List.mem_of_mem_filter hkv), hs⟩
    · exact hs

/-- The canonical form with a default, taken apart. -/
theorem tcanon_iff [DecidableEq α] (d : α) (t : Table α) :
    tcanon d t = true ↔ tsorted t = true ∧ ∀ kv ∈ t, kv.2 ≠ d := by
  simp [tcanon]

/-- A write into a table with a default keeps its canonical form. -/
theorem tcanon_tputD [DecidableEq α] {d : α} {t : Table α} (n : Nat) (a : α) (h : tcanon d t = true) :
    tcanon d (tputD t n a d) = true := by
  rw [tcanon_iff] at h ⊢
  unfold tputD
  split
  · exact ⟨tsorted_tdel n h.1, fun kv hkv => h.2 kv (mem_tdel hkv)⟩
  · rename_i ha
    refine ⟨tsorted_tput n a h.1, fun kv hkv => ?_⟩
    rcases mem_tput hkv with rfl | hkv
    · exact ha
    · exact h.2 kv hkv

/-- A filter keeps the canonical form with a default. -/
theorem tcanon_tfilter [DecidableEq α] {d : α} {t : Table α} (p : Nat → α → Bool) (h : tcanon d t = true) :
    tcanon d (tfilter t p) = true := by
  rw [tcanon_iff] at h ⊢
  exact ⟨tsorted_tfilter p h.1, fun kv hkv => h.2 kv (List.mem_of_mem_filter hkv)⟩

end Sys2Proof.Machine
end

