-- ==== Sys2Proof/Laws/Keep.lean ====
section
/-! SUPPORT. What the shared operations keep: the queue of commands, the outputs already sent, and the invariant. One lemma for
each operation, so that a proof about a command cites the operations it calls and unfolds none of them. -/

namespace Sys2Proof.Machine

/-- The state keeps the queue `p`, has sent everything in `o`, holds at most `n` paused long operations, and meets the other parts of the
invariant. -/
structure Kept (p : List Instr) (n : Nat) (o : List Output) (s : State) : Prop where
  queue : s.pending = p
  outs : o <+: s.out
  longs : s.ken.longOps.length ≤ n
  fields : tsorted s.fields = true
  words : tsorted s.mem.words = true
  blocks : tcanon zeroBlock s.flash.blocks = true
  rings : ∀ kv ∈ s.errs, kv.2.recs.length ≤ 64
  events : s.ken.events.length ≤ 256
  logQueue : s.obs.logQueue.length ≤ 256

/-- What the operations keep gives the invariant. -/
theorem Kept.invariant {p : List Instr} {n : Nat} {o : List Output} {s : State} (h : Kept p n o s) (hn : n ≤ 64) :
    Invariant s :=
  ⟨h.fields, by simp [Memory.wf, h.words, h.blocks], h.rings, h.events, Nat.le_trans h.longs hn, h.logQueue⟩

/-- The invariant gives what the operations keep. -/
theorem Invariant.kept {s : State} (h : Invariant s) : Kept s.pending 64 s.out s := by
  have hm := h.memory
  simp only [Memory.wf, Bool.and_eq_true] at hm
  exact ⟨rfl, List.prefix_refl _, h.longs, h.fields, hm.1, hm.2, h.rings, h.events, h.logQueue⟩

/-- An answer that goes on, in a state that keeps all this. -/
def KeptRes (p : List Instr) (n : Nat) (o : List Output) (r : Res) : Prop := ∃ t, r = .next t ∧ Kept p n o t

section
variable {p : List Instr} {n : Nat} {o : List Output} {s : State}

/-- A change that touches no part named. -/
theorem kept_set {tb ft : Nat} {gone : List Nat} {ken : Kenlet} {cat : CatalogState} {pipes : Table Pipeline} {slots : Slots}
    {eng : Engines} {mem : StackMem} {pool : Pool} {flash : Flash} {fab : Fabric} {rdma : Rdma} {shaper : Shaper}
    {ftest : FieldTest} {lock : Table Lockstep} {clap : Clapper} {obs : Observe} {pow : Power} (h : Kept p n o s)
    (h1 : ken.longOps = s.ken.longOps) (h2 : ken.events = s.ken.events) (h3 : mem.words = s.mem.words)
    (h4 : flash.blocks = s.flash.blocks) (h5 : obs.logQueue = s.obs.logQueue) :
    Kept p n o (State.mk s.pending tb ft s.out s.fields gone ken cat pipes slots eng mem pool flash fab rdma shaper s.errs
      ftest lock clap obs pow) :=
  ⟨h.queue, h.outs, by simpa [h1] using h.longs, h.fields, by simpa [h3] using h.words, by simpa [h4] using h.blocks, h.rings,
    by simpa [h2] using h.events, by simpa [h5] using h.logQueue⟩

/-- Fewer paused operations are at most as many. -/
theorem kept_more {m : Nat} (h : Kept p m o s) (hm : m ≤ n) : Kept p n o s :=
  ⟨h.queue, h.outs, Nat.le_trans h.longs hm, h.fields, h.words, h.blocks, h.rings, h.events, h.logQueue⟩

/-- A fold of steps that each keep it. -/
theorem kept_foldl {β : Type} {f : State → β → State} (l : List β) (hf : ∀ t x, Kept p n o t → Kept p n o (f t x))
    (h : Kept p n o s) : Kept p n o (l.foldl f s) := by
  induction l generalizing s with
  | nil => exact h
  | cons x l ih => exact ih (hf s x h)

/-- The state of a pair named by an equation. -/
theorem kept_fst {β : Type} {t : State} {b : β} {x : State × β} (he : x = (t, b)) (h : Kept p n o x.1) : Kept p n o t := by
  subst he; exact h

/-- The state of a pair named by an equation, second place. -/
theorem kept_snd {β : Type} {t : State} {b : β} {x : β × State} (he : x = (b, t)) (h : Kept p n o x.2) : Kept p n o t := by
  subst he; exact h

theorem kept_id (h : Kept p n o s) : Kept p n o (id s) := h

theorem kept_live {f : State → State} (hf : ∀ t, Kept p n o t → Kept p n o (f t)) (h : Kept p n o s) :
    KeptRes p n o (live f s) := by
  unfold live
  split
  · exact ⟨_, rfl, hf s h⟩
  · exact ⟨_, rfl, h⟩

theorem kept_whenB {f : State → State} (b : Bool) (hf : ∀ t, Kept p n o t → Kept p n o (f t)) (h : Kept p n o s) :
    Kept p n o (whenB b f s) := by
  unfold whenB
  split
  · exact hf s h
  · exact h

theorem kept_idle (h : Kept p n o s) : Kept p n o (idle s) := by
  unfold idle
  split
  · exact kept_set h rfl rfl rfl rfl rfl
  · exact h

theorem kept_emit (x : Output) (h : Kept p n o s) : Kept p n o (emit x s) :=
  ⟨h.queue, h.outs.trans (List.prefix_append _ _), h.longs, h.fields, h.words, h.blocks, h.rings, h.events, h.logQueue⟩

theorem kept_emits (xs : List Output) (h : Kept p n o s) : Kept p n o (emits xs s) :=
  ⟨h.queue, h.outs.trans (List.prefix_append _ _), h.longs, h.fields, h.words, h.blocks, h.rings, h.events, h.logQueue⟩

theorem kept_setRaw (block inst no v : Nat) (h : Kept p n o s) : Kept p n o (setRaw block inst no v s) :=
  ⟨h.queue, h.outs, h.longs, tsorted_tput _ _ h.fields, h.words, h.blocks, h.rings, h.events, h.logQueue⟩

/-- A new event joins the queue while it has room. -/
theorem kept_addEvent (e : Event) (hr : s.ken.events.length < 256) (h : Kept p n o s) :
    Kept p n o { s with ken := { s.ken with events := s.ken.events ++ [e] } } :=
  ⟨h.queue, h.outs, h.longs, h.fields, h.words, h.blocks, h.rings, by simp; omega, h.logQueue⟩

/-- The queue of events only gets shorter. -/
theorem kept_fewerEvents (k : Kenlet) (hk : k.longOps = s.ken.longOps) (he : k.events.length ≤ s.ken.events.length)
    (h : Kept p n o s) : Kept p n o { s with ken := k } :=
  ⟨h.queue, h.outs, by simpa [hk] using h.longs, h.fields, h.words, h.blocks, h.rings, Nat.le_trans he h.events, h.logQueue⟩

/-- The queue of logbook records stays within its bound. -/
theorem kept_obs (b : Observe) (hb : b.logQueue.length ≤ 256) (h : Kept p n o s) : Kept p n o { s with obs := b } :=
  ⟨h.queue, h.outs, h.longs, h.fields, h.words, h.blocks, h.rings, h.events, hb⟩

/-- The blocks of the volumes stay in canonical form. -/
theorem kept_flash (f : Flash) (hf : tcanon zeroBlock f.blocks = true) (h : Kept p n o s) : Kept p n o { s with flash := f } :=
  ⟨h.queue, h.outs, h.longs, h.fields, h.words, hf, h.rings, h.events, h.logQueue⟩

/-- The words of the stacks stay in canonical form. -/
theorem kept_mem (m : StackMem) (hm : tsorted m.words = true) (h : Kept p n o s) : Kept p n o { s with mem := m } :=
  ⟨h.queue, h.outs, h.longs, h.fields, hm, h.blocks, h.rings, h.events, h.logQueue⟩

/-- The fields stay in canonical form. -/
theorem kept_fields (f : Table Nat) (hf : tsorted f = true) (h : Kept p n o s) : Kept p n o { s with fields := f } :=
  ⟨h.queue, h.outs, h.longs, hf, h.words, h.blocks, h.rings, h.events, h.logQueue⟩

/-- A die's ring is rewritten with at most 64 records. -/
theorem kept_putRing (die : Nat) (r : ErrRing) (hr : r.recs.length ≤ 64) (h : Kept p n o s) :
    Kept p n o { s with errs := tput s.errs die r } :=
  ⟨h.queue, h.outs, h.longs, h.fields, h.words, h.blocks,
    fun kv hkv => (mem_tput hkv).elim (fun e => e ▸ hr) (fun m => h.rings kv m), h.events, h.logQueue⟩

/-- A die's ring holds at most 64 records. -/
theorem Kept.ringOf (h : Kept p n o s) (die : Nat) : (s.ringOf die).recs.length ≤ 64 := by
  unfold State.ringOf tgetD
  cases he : tget s.errs die with
  | none => simp [emptyRing]
  | some r => exact h.rings _ (mem_of_tget he)

/-- The paused operations only get fewer. -/
theorem kept_fewerLongs (q : LongOp → Bool) (h : Kept p n o s) :
    Kept p n o { s with ken := { s.ken with longOps := s.ken.longOps.filter q } } :=
  ⟨h.queue, h.outs, Nat.le_trans (List.length_filter_le _ _) h.longs, h.fields, h.words, h.blocks, h.rings, h.events, h.logQueue⟩

end

end Sys2Proof.Machine
end

