-- ==== Sys2Proof/Laws/KeepOps.lean ====
section
/-! SUPPORT. What the operations of Machine/Ops.lean keep. -/

namespace Sys2Proof.Machine

variable {p : List Instr} {n : Nat} {o : List Output} {s : State}

theorem kept_tickFree (h : Kept p n o s) : Kept p n o (tickFree s) := by
  unfold tickFree
  repeat' first
    | with_reducible assumption
    | intro _
    | with_reducible refine kept_set ?_ rfl rfl rfl rfl rfl

theorem kept_bumpBy (block : Nat) (inst : Nat) (no : Nat) (n0 : Nat)
    (h : Kept p n o s) : Kept p n o (bumpBy block inst no n0 s) := by
  unfold bumpBy
  repeat' first
    | with_reducible assumption
    | with_reducible apply kept_setRaw

theorem kept_bump (block : Nat) (inst : Nat) (no : Nat) (h : Kept p n o s) : Kept p n o (bump block inst no s) := by
  unfold bump
  repeat' first
    | with_reducible assumption
    | with_reducible apply kept_bumpBy

theorem kept_fireVector (v : Nat) (h : Kept p n o s) : Kept p n o (fireVector v s) := by
  unfold fireVector
  repeat' first
    | with_reducible assumption
    | with_reducible apply kept_emit
    | intro _
    | split
    | with_reducible refine kept_set ?_ rfl rfl rfl rfl rfl

theorem kept_signalEv (m : BitVec 5) (h : Kept p n o s) : Kept p n o (signalEv m s) := by
  unfold signalEv
  try dsimp only
  repeat' first
    | with_reducible assumption
    | with_reducible apply kept_fireVector
    | intro _
    | split
    | with_reducible refine kept_set ?_ rfl rfl rfl rfl rfl

theorem kept_modCmds (p0 : Cmd → Bool) (f : Cmd → Cmd) (h : Kept p n o s) : Kept p n o (modCmds p0 f s) := by
  unfold modCmds
  repeat' first
    | with_reducible assumption
    | intro _
    | split
    | with_reducible refine kept_set ?_ rfl rfl rfl rfl rfl

theorem kept_finishWith (pair : Nat) (cid : Nat) (status : Nat) (result : Nat) (handle : Nat)
    (h : Kept p n o s) : Kept p n o (finishWith pair cid status result handle s) := by
  unfold finishWith
  repeat' first
    | with_reducible assumption
    | with_reducible apply kept_modCmds

theorem kept_finish (pair : Nat) (cid : Nat) (status : Nat) (result : Nat)
    (h : Kept p n o s) : Kept p n o (finish pair cid status result s) := by
  unfold finish
  repeat' first
    | with_reducible assumption
    | with_reducible apply kept_finishWith

theorem kept_finishPlain (pair : Nat) (cid : Nat) (status : Nat)
    (h : Kept p n o s) : Kept p n o (finishPlain pair cid status s) := by
  unfold finishPlain
  repeat' first
    | with_reducible assumption
    | with_reducible apply kept_modCmds

theorem kept_refuse (pair : Nat) (cid : Nat) (status : Nat) (h : Kept p n o s) : Kept p n o (refuse pair cid status s) := by
  unfold refuse
  repeat' first
    | with_reducible assumption
    | with_reducible apply kept_finishPlain

theorem kept_markRunning (pair : Nat) (cid : Nat) (h : Kept p n o s) : Kept p n o (markRunning pair cid s) := by
  unfold markRunning
  repeat' first
    | with_reducible assumption
    | with_reducible apply kept_modCmds

theorem kept_raiseEvent (code unit detail : Nat) (h : Kept p n o s) :
    Kept p n o (raiseEvent code unit detail s) := by
  unfold raiseEvent
  dsimp only
  split
  · exact kept_finish _ _ _ _ h
  · split
    · exact kept_signalEv _ (kept_addEvent _ (by assumption) h)
    · exact kept_signalEv _ h

theorem kept_runCmd (op pair cid : Nat) (f : Cmd → State → State)
    (hf : ∀ c t, Kept p n o t → Kept p n o (f c t)) (h : Kept p n o s) : Kept p n o (runCmd op pair cid f s) := by
  unfold runCmd
  split
  · exact h
  · split
    · split
      · exact kept_refuse _ _ _ h
      · split
        · exact kept_refuse _ _ _ h
        · exact hf _ _ h
    · exact h

theorem kept_replyData (c : Cmd) (pcieOk : Bool) (bs : Bytes) (result : Nat) (after : State → State) (h_after : ∀ t, Kept p n o t → Kept p n o (after t))
    (h : Kept p n o s) : Kept p n o (replyData c pcieOk bs result after s) := by
  unfold replyData
  repeat' first
    | with_reducible assumption
    | with_reducible apply kept_finish
    | with_reducible apply kept_emits
    | with_reducible apply kept_refuse
    | with_reducible apply h_after
    | intro _
    | split

theorem kept_replyStatus (c : Cmd) (pcieOk : Bool) (bs : Bytes) (status : Nat) (result : Nat)
    (h : Kept p n o s) : Kept p n o (replyStatus c pcieOk bs status result s) := by
  unfold replyStatus
  repeat' first
    | with_reducible assumption
    | with_reducible apply kept_finish
    | with_reducible apply kept_emits
    | with_reducible apply kept_refuse
    | intro _
    | split

theorem kept_withData (c : Cmd) (f : Bytes → State → State) (h_f : ∀ a0 t, Kept p n o t → Kept p n o (f a0 t))
    (h : Kept p n o s) : Kept p n o (withData c f s) := by
  unfold withData
  repeat' first
    | with_reducible assumption
    | with_reducible apply kept_refuse
    | with_reducible apply h_f
    | intro _
    | split

theorem dropNewestRolling_length (q : List LogRec) (h : q.any (fun r => !logPermanent r.type) = true) :
    (dropNewestRolling q).length + 1 = q.length := by
  unfold dropNewestRolling
  rw [List.any_eq_true] at h
  obtain ⟨r, hr, hp⟩ := h
  have := List.length_eraseP_of_mem (p := fun r : LogRec => !logPermanent r.type) (List.mem_reverse.mpr hr) hp
  have : 0 < q.length := List.length_pos_of_mem hr
  simp_all
  omega

theorem kept_logRecord (type unit : Nat) (body : Bytes) (h : Kept p n o s) :
    Kept p n o (logRecord type unit body s) := by
  have hq := h.logQueue
  unfold logRecord
  dsimp only
  split
  · exact kept_obs _ (by simp; omega) h
  · split
    · exact kept_bump _ _ _ h
    · split
      · rename_i ha
        have := dropNewestRolling_length _ ha
        exact kept_bump _ _ _ (kept_obs _ (by simp; omega) h)
      · split
        · exact kept_obs _ hq h
        · exact kept_bump _ _ _ (kept_obs _ hq h)

theorem kept_traceRecord (type : Nat) (unit : Nat) (pipeline : Nat) (stage : Nat) (op : Nat) (body : Bytes)
    (h : Kept p n o s) : Kept p n o (traceRecord type unit pipeline stage op body s) := by
  unfold traceRecord
  try dsimp only
  repeat' first
    | with_reducible assumption
    | with_reducible apply kept_tickFree
    | with_reducible apply kept_bump
    | with_reducible apply kept_emits
    | intro _
    | split
    | with_reducible refine kept_set ?_ rfl rfl rfl rfl rfl

theorem kept_serviceEvent (u : Nat)
    (h : Kept p n o s) : Kept p n o (serviceEvent u s) := by
  unfold serviceEvent
  repeat' first
    | with_reducible assumption
    | with_reducible apply kept_raiseEvent
    | intro _
    | split

theorem kept_leaveService (u : Nat)
    (h : Kept p n o s) : Kept p n o (leaveService u s) := by
  unfold leaveService
  repeat' first
    | with_reducible assumption
    | with_reducible apply kept_serviceEvent
    | intro _
    | split
    | with_reducible refine kept_set ?_ rfl rfl rfl rfl rfl

theorem kept_countRecord (u : Nat)
    (h : Kept p n o s) : Kept p n o (countRecord u s) := by
  unfold countRecord
  repeat' first
    | with_reducible assumption
    | with_reducible apply kept_logRecord
    | intro _
    | split

theorem kept_departService (u : Nat) (h : Kept p n o s) : Kept p n o (departService u s) := by
  unfold departService
  repeat' first
    | with_reducible assumption
    | with_reducible apply kept_countRecord
    | with_reducible apply kept_leaveService
    | intro _
    | split

theorem kept_enterService (u : Nat)
    (h : Kept p n o s) : Kept p n o (enterService u s) := by
  unfold enterService
  repeat' first
    | with_reducible assumption
    | with_reducible apply kept_countRecord
    | with_reducible apply kept_serviceEvent
    | intro _
    | split
    | with_reducible refine kept_set ?_ rfl rfl rfl rfl rfl

theorem kept_discardErr (die : Nat) (h : Kept p n o s) : Kept p n o (discardErr die s) := by
  have h1 := kept_bump 0x0F die 0x03 (kept_putRing die
    { s.ringOf die with discards := (s.ringOf die).discards + 1, armed := false } (h.ringOf die) h)
  unfold discardErr
  dsimp only
  split
  · exact kept_raiseEvent _ _ _ (kept_signalEv _ h1)
  · exact h1

/-- A record that a full ring gives up is one of its records. -/
theorem victim_lt {cls i : Nat} {rs : List ErrRec} (h : victim cls rs = some i) : i < rs.length := by
  have hn : ∀ c j, newestOf c rs = some j → j < rs.length := by
    intro c j hj
    unfold newestOf at hj
    rw [Option.map_eq_some_iff] at hj
    obtain ⟨a, ha, rfl⟩ := hj
    have hm := List.mem_of_getLast? ha
    have := List.mem_of_mem_filter hm
    have := List.snd_lt_of_mem_zipIdx this
    omega
  have ho : ∀ (a : Option Nat) (f : Unit → Option Nat), a.orElse f = some i → a = some i ∨ f () = some i := by
    intro a f h
    cases a with
    | none => exact .inr h
    | some x => exact .inl h
  unfold victim at h
  split at h
  · rcases ho _ _ h with h | h <;> exact hn _ _ h
  · split at h
    · rcases ho _ _ h with h | h
      · exact hn _ _ h
      · rcases ho _ _ h with h | h
        · exact hn _ _ h
        · rcases ho _ _ h with h | h <;> exact hn _ _ h
    · cases h

theorem kept_placeRecord (die : Nat) (a : ErrArgs) (h : Kept p n o s) : Kept p n o (placeRecord die a s) := by
  have hr := h.ringOf die
  unfold placeRecord
  dsimp only
  split
  · rename_i hlt
    simp only [Config.errRingSize] at hlt
    exact kept_putRing die _ (by simp; omega) h
  · split
    · rename_i hv
      have hi := victim_lt hv
      exact kept_putRing die _ (by simp [List.length_eraseIdx, hi]; omega) (kept_discardErr die h)
    · exact kept_discardErr die h

theorem kept_stopClocks (h : Kept p n o s) : Kept p n o (stopClocks s) := by
  unfold stopClocks
  with_reducible refine kept_set ?_ rfl rfl rfl rfl rfl
  assumption

theorem kept_failRunning {p : List Instr} {n : Nat} {o : List Output} {s : State}
    (h : Kept p n o s) : Kept p n o (failRunning s) := by
  unfold failRunning
  repeat' first
    | with_reducible assumption
    | with_reducible apply kept_modCmds

theorem kept_packageFatal (die : Nat) (cause : Nat)
    (h : Kept p n o s) : Kept p n o (packageFatal die cause s) := by
  unfold packageFatal
  try dsimp only
  repeat' first
    | with_reducible assumption
    | with_reducible apply kept_failRunning
    | with_reducible apply kept_emit
    | with_reducible apply kept_signalEv
    | with_reducible apply kept_stopClocks
    | intro _
    | split
    | with_reducible refine kept_set ?_ rfl rfl rfl rfl rfl

theorem kept_classAction (die : Nat) (a : ErrArgs) (body : Bytes) (h : Kept p n o s) : Kept p n o (classAction die a body s) := by
  unfold classAction
  try dsimp only
  repeat' first
    | with_reducible assumption
    | with_reducible apply kept_logRecord
    | with_reducible apply kept_leaveService
    | with_reducible apply kept_packageFatal
    | intro _
    | split

theorem kept_bumpClass (die : Nat) (cls : Nat) (h : Kept p n o s) : Kept p n o (bumpClass die cls s) := by
  unfold bumpClass
  repeat' first
    | with_reducible assumption
    | with_reducible apply kept_bump
    | intro _
    | split

theorem kept_recordErrOn (die : Nat) (a : ErrArgs) (h : Kept p n o s) : Kept p n o (recordErrOn die a s) := by
  have h0 := kept_bumpClass die a.cls h
  unfold recordErrOn
  dsimp only
  split
  · split
    · have h1 := kept_traceRecord 7 a.unit a.pipeline a.stage a.operator (mergeInto s.tb a ‹ErrRec›).bytes
        (kept_putRing die { s.ringOf die with recs := (s.ringOf die).recs.set ‹Nat› (mergeInto s.tb a ‹ErrRec›) }
          (by simpa using h.ringOf die) h0)
      split
      · exact kept_classAction _ _ _ h1
      · exact h1
    · exact h0
  · exact kept_classAction _ _ _ (kept_traceRecord _ _ _ _ _ _ (kept_placeRecord _ _ h0))

theorem kept_recordErr (a : ErrArgs) (h : Kept p n o s) : Kept p n o (recordErr a s) := by
  unfold recordErr
  repeat' first
    | with_reducible assumption
    | with_reducible apply kept_recordErrOn

end Sys2Proof.Machine
end

