-- ==== Sys2Proof/Laws/KeepClocks.lean ====
section
/-! SUPPORT. What the operations of Machine/Clocks.lean keep. -/

namespace Sys2Proof.Machine

variable {p : List Instr} {n : Nat} {o : List Output} {s : State}

theorem kept_gate (k : Nat) (h : Kept p n o s) : Kept p n o (gate k s) := by
  unfold gate
  repeat' first
    | with_reducible assumption
    | intro _
    | split
    | with_reducible refine kept_set ?_ rfl rfl rfl rfl rfl

theorem kept_switchIfChanged (cluster : Nat) (d : Nat) (old : Nat)
    (h : Kept p n o s) : Kept p n o (switchIfChanged cluster d old s) := by
  unfold switchIfChanged
  repeat' first
    | with_reducible assumption
    | with_reducible apply kept_gate
    | intro _
    | split

theorem kept_setHostFreq (cluster : Nat) (d : Nat) (f : Nat) (h : Kept p n o s) : Kept p n o (setHostFreq cluster d f s) := by
  unfold setHostFreq
  try dsimp only
  repeat' first
    | with_reducible assumption
    | with_reducible apply kept_switchIfChanged
    | with_reducible apply kept_logRecord
    | intro _
    | split
    | with_reducible refine kept_set ?_ rfl rfl rfl rfl rfl

theorem kept_applyOpPoints (h : Kept p n o s) : Kept p n o (applyOpPoints s) := by
  unfold applyOpPoints
  repeat' first
    | with_reducible assumption
    | with_reducible apply kept_setHostFreq
    | with_reducible apply kept_foldl
    | intro _
    | with_reducible refine kept_set ?_ rfl rfl rfl rfl rfl

theorem kept_operatingPointSet (c : Cmd) (h : Kept p n o s) : Kept p n o (operatingPointSet c s) := by
  unfold operatingPointSet
  try dsimp only
  repeat' first
    | with_reducible assumption
    | with_reducible apply kept_refuse
    | with_reducible apply kept_finishPlain
    | with_reducible apply kept_setHostFreq
    | with_reducible apply kept_foldl
    | intro _
    | split
    | with_reducible refine kept_set ?_ rfl rfl rfl rfl rfl

theorem kept_execOperatingPointSet (pair : Nat) (cid : Nat)
    (h : Kept p n o s) : KeptRes p n o (execOperatingPointSet pair cid s) := by
  unfold execOperatingPointSet
  repeat' first
    | with_reducible assumption
    | with_reducible apply kept_live
    | with_reducible apply kept_runCmd
    | with_reducible apply kept_operatingPointSet
    | intro _

end Sys2Proof.Machine
end

