-- ==== Sys2Proof/Laws/KeepLong.lean ====
section
/-! SUPPORT. What the operations of Machine/Long.lean keep. -/

namespace Sys2Proof.Machine

variable {p : List Instr} {n : Nat} {o : List Output} {s : State}

theorem kept_dropLong (k : Nat) (h : Kept p n o s) : Kept p n o (dropLong k s) := kept_fewerLongs _ h

theorem kept_pauseLong (l : LongOp) (result : Nat) (h : Kept p 63 o s) :
    Kept p 64 o (pauseLong l result s) := by
  have hd := kept_dropLong l.handle h
  have hl := hd.longs
  unfold pauseLong
  dsimp only
  exact kept_finishWith _ _ _ _ _ ⟨hd.queue, hd.outs, by simp; omega, hd.fields, hd.words, hd.blocks, hd.rings, hd.events,
    hd.logQueue⟩

/-- An operation that may start or resume leaves room for its own pause (R58). -/
theorem longEnter_room {c : Cmd} {target check : Nat} {l : LongOp}
    (he : s.longEnter c target check = .ok l) (h : Kept p 64 o s) : Kept p 63 o (dropLong l.handle s) := by
  have hd := kept_dropLong l.handle h
  refine ⟨hd.queue, hd.outs, ?_, hd.fields, hd.words, hd.blocks, hd.rings, hd.events, hd.logQueue⟩
  have h64 := h.longs
  unfold State.longEnter at he
  show (s.ken.longOps.filter fun x => x.handle ≠ l.handle).length ≤ 63
  split at he
  · split at he
    · rename_i x hx
      cases he
      have hm : x ∈ s.ken.longOps := List.mem_of_find?_eq_some hx
      have : (s.ken.longOps.filter fun y => y.handle ≠ x.handle).length < s.ken.longOps.length := by
        rw [List.length_filter_lt_length_iff_exists]
        exact ⟨x, hm, by simp⟩
      show (s.ken.longOps.filter fun y => y.handle ≠ x.handle).length ≤ 63
      omega
    · cases he
  · split at he
    · cases he
    · split at he
      · cases he
      · split at he
        · cases he
        · rename_i hlt
          have := List.length_filter_le (fun y : LongOp => decide (y.handle ≠ l.handle)) s.ken.longOps
          simp only [Config.maxLong] at hlt
          omega

theorem kept_runLong (op pair cid : Nat) (target check : Cmd → State → Nat)
    (f : LongOp → State → State) (hf : ∀ l t, Kept p 63 o t → Kept p 64 o (f l t)) (h : Kept p 64 o s) :
    Kept p 64 o (runLong op pair cid target check f s) := by
  refine kept_runCmd _ _ _ _ (fun c t ht => ?_) h
  split
  · exact kept_refuse _ _ _ ht
  · rename_i he
    exact hf _ _ (longEnter_room he ht)

end Sys2Proof.Machine
end

