-- ==== Sys2Proof/Laws/KeepWords.lean ====
section
/-! SUPPORT. What the operations of Machine/Words.lean keep. -/

namespace Sys2Proof.Machine

variable {p : List Instr} {n : Nat} {o : List Output} {s : State}

theorem kept_setWord (stack idx : Nat) (w : WordContent) (h : Kept p n o s) : Kept p n o (setWord stack idx w s) :=
  kept_mem _ (tsorted_tput _ _ h.words) h

theorem kept_setWords (stack : Nat) (idx : Nat) (ws : List Bytes) (h : Kept p n o s) : Kept p n o (setWords stack idx ws s) := by
  induction ws generalizing idx s with
  | nil => exact h
  | cons w ws ih => exact ih _ (kept_setWord _ _ _ h)

theorem kept_WordFault_used (f : WordFault)
    (h : Kept p n o s) : Kept p n o (WordFault.used f s) := by
  unfold WordFault.used
  repeat' first
    | with_reducible assumption
    | with_reducible apply kept_tickFree
    | intro _
    | split

theorem kept_writeUnits (at_ : Nat → Nat × Nat) (units : List Nat) (image : Bytes)
    (h : Kept p n o s) : Kept p n o (writeUnits at_ units image s) := by
  unfold writeUnits
  repeat' first
    | with_reducible assumption
    | with_reducible apply kept_setWords
    | with_reducible apply kept_foldl
    | intro _
    | split

theorem kept_writeCopies (units : List Nat) (image : Bytes)
    (h : Kept p n o s) : Kept p n o (writeCopies units image s) := by
  unfold writeCopies
  repeat' first
    | with_reducible assumption
    | with_reducible apply kept_writeUnits

theorem kept_storeObject (kind : Nat) (id : Nat) (image : Bytes)
    (h : Kept p n o s) : Kept p n o (storeObject kind id image s) := by
  unfold storeObject
  try dsimp only
  repeat' first
    | with_reducible assumption
    | with_reducible apply kept_writeCopies
    | with_reducible apply kept_id
    | intro _
    | with_reducible refine kept_set ?_ rfl rfl rfl rfl rfl

theorem kept_moveObject (kind : Nat) (id : Nat) (kind2 : Nat) (id2 : Nat)
    (h : Kept p n o s) : Kept p n o (moveObject kind id kind2 id2 s) := by
  unfold moveObject
  repeat' first
    | with_reducible assumption
    | with_reducible apply kept_id
    | intro _
    | split
    | refine kept_fst (by assumption) ?_
    | refine kept_snd (by assumption) ?_
    | with_reducible refine kept_set ?_ rfl rfl rfl rfl rfl

theorem kept_damageObjects (stack : Nat) (idx : Nat)
    (h : Kept p n o s) : Kept p n o (damageObjects stack idx s) := by
  unfold damageObjects
  try dsimp only
  repeat' first
    | with_reducible assumption
    | intro _
    | split
    | with_reducible refine kept_set ?_ rfl rfl rfl rfl rfl

theorem kept_placeSchedule (k : Nat) (e : Schedule) (h : Kept p n o s) : Kept p n o (placeSchedule k e s).2 :=
  kept_writeCopies _ _ (kept_writeUnits _ _ _ h)

theorem kept_loseScheduleWord (stack : Nat) (idx : Nat)
    (h : Kept p n o s) : Kept p n o (loseScheduleWord stack idx s) := by
  unfold loseScheduleWord
  repeat' first
    | with_reducible assumption
    | intro _
    | with_reducible refine kept_set ?_ rfl rfl rfl rfl rfl

theorem kept_loseScheduleStack (stack : Nat)
    (h : Kept p n o s) : Kept p n o (loseScheduleStack stack s) := by
  unfold loseScheduleStack
  repeat' first
    | with_reducible assumption
    | intro _
    | with_reducible refine kept_set ?_ rfl rfl rfl rfl rfl

end Sys2Proof.Machine
end

