-- ==== Sys2Proof/Laws/KeepRings.lean ====
section
/-! SUPPORT. What the operations of Machine/Rings.lean keep. -/

namespace Sys2Proof.Machine

variable {p : List Instr} {n : Nat} {o : List Output} {s : State}

theorem kept_modRing (pair : Nat) (f : RingPair → RingPair) (h : Kept p n o s) : Kept p n o (modRing pair f s) := by
  unfold modRing
  repeat' first
    | with_reducible assumption
    | intro _
    | with_reducible refine kept_set ?_ rfl rfl rfl rfl rfl

theorem kept_ringError (pair : Nat) (cause : Nat) (h : Kept p n o s) : Kept p n o (ringError pair cause s) := by
  unfold ringError
  repeat' first
    | with_reducible assumption
    | with_reducible apply kept_signalEv
    | intro _
    | with_reducible refine kept_set ?_ rfl rfl rfl rfl rfl

theorem kept_stopRing (pair : Nat) (cause : Nat) (h : Kept p n o s) : Kept p n o (stopRing pair cause s) := by
  unfold stopRing
  repeat' first
    | with_reducible assumption
    | with_reducible apply kept_ringError
    | with_reducible apply kept_modRing

theorem kept_sqTailWrite (sub : Nat) (pair : Nat) (v : BitVec 32) (h : Kept p n o s) : Kept p n o (sqTailWrite sub pair v s) := by
  unfold sqTailWrite
  repeat' first
    | with_reducible assumption
    | with_reducible apply kept_modRing
    | with_reducible apply kept_stopRing
    | intro _
    | split

theorem kept_cqHeadWrite (sub : Nat) (pair : Nat) (v : BitVec 32) (h : Kept p n o s) : Kept p n o (cqHeadWrite sub pair v s) := by
  unfold cqHeadWrite
  repeat' first
    | with_reducible assumption
    | with_reducible apply kept_modRing
    | with_reducible apply kept_stopRing
    | intro _
    | split

theorem kept_execSqTailDoorbell (sub : Nat) (pair : Nat) (v : BitVec 32)
    (h : Kept p n o s) : KeptRes p n o (execSqTailDoorbell sub pair v s) := by
  unfold execSqTailDoorbell
  repeat' first
    | with_reducible assumption
    | with_reducible apply kept_live
    | with_reducible apply kept_sqTailWrite
    | intro _

theorem kept_execCqHeadDoorbell (sub : Nat) (pair : Nat) (v : BitVec 32)
    (h : Kept p n o s) : KeptRes p n o (execCqHeadDoorbell sub pair v s) := by
  unfold execCqHeadDoorbell
  repeat' first
    | with_reducible assumption
    | with_reducible apply kept_live
    | with_reducible apply kept_cqHeadWrite
    | intro _

theorem kept_commandFetch (pair : Nat) (entry : Option Bytes) (list : Option Bytes) (data : Option Bytes)
    (h : Kept p n o s) : Kept p n o (commandFetch pair entry list data s) := by
  unfold commandFetch
  try dsimp only
  repeat' first
    | with_reducible assumption
    | with_reducible apply kept_stopRing
    | with_reducible apply kept_modRing
    | intro _
    | split
    | refine kept_fst (by assumption) ?_
    | refine kept_snd (by assumption) ?_
    | with_reducible refine kept_set ?_ rfl rfl rfl rfl rfl

theorem kept_execCommandFetch (pair : Nat) (entry : Option Bytes) (list : Option Bytes) (data : Option Bytes)
    (h : Kept p n o s) : KeptRes p n o (execCommandFetch pair entry list data s) := by
  unfold execCommandFetch
  repeat' first
    | with_reducible assumption
    | with_reducible apply kept_live
    | with_reducible apply kept_commandFetch
    | intro _

theorem kept_signalPair (pair : Nat) (h : Kept p n o s) : Kept p n o (signalPair pair s) := by
  unfold signalPair
  repeat' first
    | with_reducible assumption
    | with_reducible apply kept_fireVector
    | with_reducible apply kept_modRing
    | intro _
    | split

theorem kept_dropPending (ord : Nat) (h : Kept p n o s) : Kept p n o (dropPending ord s) := by
  unfold dropPending
  repeat' first
    | with_reducible assumption
    | intro _
    | with_reducible refine kept_set ?_ rfl rfl rfl rfl rfl

theorem kept_takeObjects (ord : Nat)
    (h : Kept p n o s) : Kept p n o (takeObjects ord s) := by
  unfold takeObjects
  try dsimp only
  repeat' first
    | with_reducible assumption
    | with_reducible apply kept_moveObject
    | with_reducible apply kept_foldl
    | with_reducible apply kept_id
    | intro _
    | split

theorem kept_onWritten (c : Cmd)
    (h : Kept p n o s) : Kept p n o (onWritten c s) := by
  unfold onWritten
  repeat' first
    | with_reducible assumption
    | with_reducible apply kept_dropPending
    | with_reducible apply kept_takeObjects
    | intro _
    | split
    | with_reducible refine kept_set ?_ rfl rfl rfl rfl rfl

theorem kept_retireCmd (c : Cmd) (h : Kept p n o s) : Kept p n o (retireCmd c s) := by
  unfold retireCmd
  repeat' first
    | with_reducible assumption
    | intro _
    | with_reducible refine kept_set ?_ rfl rfl rfl rfl rfl

theorem kept_completionWrite (pair : Nat) (cid : Nat) (pcieOk : Bool)
    (h : Kept p n o s) : Kept p n o (completionWrite pair cid pcieOk s) := by
  unfold completionWrite
  repeat' first
    | with_reducible assumption
    | with_reducible apply kept_signalPair
    | with_reducible apply kept_modRing
    | with_reducible apply kept_emit
    | with_reducible apply kept_onWritten
    | with_reducible apply kept_retireCmd
    | with_reducible apply kept_stopRing
    | intro _
    | split

theorem kept_execCompletionWrite (pair : Nat) (cid : Nat) (pcieOk : Bool)
    (h : Kept p n o s) : KeptRes p n o (execCompletionWrite pair cid pcieOk s) := by
  unfold execCompletionWrite
  repeat' first
    | with_reducible assumption
    | with_reducible apply kept_live
    | with_reducible apply kept_completionWrite
    | intro _

theorem kept_coalesceTimer (pair : Nat) (h : Kept p n o s) : Kept p n o (coalesceTimer pair s) := by
  unfold coalesceTimer
  repeat' first
    | with_reducible assumption
    | with_reducible apply kept_fireVector
    | with_reducible apply kept_modRing
    | intro _
    | split

theorem kept_execCoalesceTimer (pair : Nat) (h : Kept p n o s) : KeptRes p n o (execCoalesceTimer pair s) := by
  unfold execCoalesceTimer
  repeat' first
    | with_reducible assumption
    | with_reducible apply kept_live
    | with_reducible apply kept_coalesceTimer
    | intro _

theorem kept_createRingPair (c : Cmd) (h : Kept p n o s) : Kept p n o (createRingPair c s) := by
  unfold createRingPair
  try dsimp only
  repeat' first
    | with_reducible assumption
    | with_reducible apply kept_refuse
    | with_reducible apply kept_finishPlain
    | intro _
    | split
    | with_reducible refine kept_set ?_ rfl rfl rfl rfl rfl

theorem kept_execCreateRingPair (pair : Nat) (cid : Nat) (h : Kept p n o s) : KeptRes p n o (execCreateRingPair pair cid s) := by
  unfold execCreateRingPair
  repeat' first
    | with_reducible assumption
    | with_reducible apply kept_live
    | with_reducible apply kept_runCmd
    | with_reducible apply kept_createRingPair
    | intro _

theorem kept_deleteRingPair (c : Cmd) (h : Kept p n o s) : Kept p n o (deleteRingPair c s) := by
  unfold deleteRingPair
  try dsimp only
  repeat' first
    | with_reducible assumption
    | with_reducible apply kept_refuse
    | with_reducible apply kept_finishPlain
    | intro _
    | split
    | with_reducible refine kept_set ?_ rfl rfl rfl rfl rfl

theorem kept_execDeleteRingPair (pair : Nat) (cid : Nat) (h : Kept p n o s) : KeptRes p n o (execDeleteRingPair pair cid s) := by
  unfold execDeleteRingPair
  repeat' first
    | with_reducible assumption
    | with_reducible apply kept_live
    | with_reducible apply kept_runCmd
    | with_reducible apply kept_deleteRingPair
    | intro _

theorem kept_identify (pcieOk : Bool) (c : Cmd) (h : Kept p n o s) : Kept p n o (identify pcieOk c s) := by
  unfold identify
  repeat' first
    | with_reducible assumption
    | with_reducible apply kept_replyData
    | with_reducible apply kept_refuse
    | with_reducible apply kept_id
    | intro _
    | split

theorem kept_execIdentify (pair : Nat) (cid : Nat) (pcieOk : Bool)
    (h : Kept p n o s) : KeptRes p n o (execIdentify pair cid pcieOk s) := by
  unfold execIdentify
  repeat' first
    | with_reducible assumption
    | with_reducible apply kept_live
    | with_reducible apply kept_runCmd
    | with_reducible apply kept_identify
    | intro _

theorem kept_getEvent (c : Cmd) (h : Kept p n o s) : Kept p n o (getEvent c s) := by
  unfold getEvent
  repeat' first
    | with_reducible assumption
    | with_reducible apply kept_modCmds
    | with_reducible apply kept_refuse
    | with_reducible apply kept_markRunning
    | exact kept_finish _ _ _ _ (kept_fewerEvents _ rfl (by simp [*]) h)
    | exact kept_fewerEvents _ rfl (by simp [*]) h
    | intro _
    | split

theorem kept_execGetEvent (pair : Nat) (cid : Nat) (h : Kept p n o s) : KeptRes p n o (execGetEvent pair cid s) := by
  unfold execGetEvent
  repeat' first
    | with_reducible assumption
    | with_reducible apply kept_live
    | with_reducible apply kept_runCmd
    | with_reducible apply kept_getEvent
    | intro _

end Sys2Proof.Machine
end

