-- ==== Sys2Proof/Laws/KeepStorage.lean ====
section
/-! SUPPORT. What the operations of Machine/Storage.lean keep. -/

namespace Sys2Proof.Machine

variable {p : List Instr} {n : Nat} {o : List Output} {s : State}

theorem kept_magPin (name : String) (bay : Nat) (setting : Nat) (h : Kept p n o s) : Kept p n o (magPin name bay setting s) := by
  unfold magPin
  repeat' first
    | with_reducible assumption
    | with_reducible apply kept_emit

theorem kept_showAmber (bay : Nat) (was : State) (h : Kept p n o s) : Kept p n o (showAmber bay was s) := by
  unfold showAmber
  split
  · exact h
  · exact kept_magPin _ _ _ h

theorem kept_modMag (sn : Nat) (f : Magazine → Magazine) (h : Kept p n o s) : Kept p n o (modMag sn f s) := by
  unfold modMag
  repeat' first
    | with_reducible assumption
    | intro _
    | split
    | with_reducible refine kept_set ?_ rfl rfl rfl rfl rfl

theorem kept_dieOp (op : FlashOp) (bay : Nat) (m : Magazine) (no : Nat) (member : Nat)
    (h : Kept p n o s) : Kept p n o (dieOp op bay m no member s) := by
  unfold dieOp
  repeat' first
    | with_reducible assumption
    | with_reducible apply kept_emits

theorem kept_flashReads (keys : List Nat)
    (h : Kept p n o s) : Kept p n o (flashReads keys s) := by
  unfold flashReads
  repeat' first
    | with_reducible assumption
    | with_reducible apply kept_dieOp
    | with_reducible apply kept_foldl
    | intro _
    | split

theorem kept_readRun (volume : Nat) (block : Nat) (count : Nat)
    (h : Kept p n o s) : Kept p n o (readRun volume block count s) := by
  unfold readRun
  repeat' first
    | with_reducible assumption
    | with_reducible apply kept_flashReads

theorem kept_takeStripe (sn reserve : Nat) (st : Stripe) {r : Nat × State} (hr : takeStripe sn reserve st s = some r)
    (h : Kept p n o s) : Kept p n o r.2 := by
  simp only [takeStripe, Option.bind_eq_some_iff, Option.map_eq_some_iff] at hr
  obtain ⟨_, _, _, _, rfl⟩ := hr
  exact kept_set h rfl rfl rfl rfl rfl

theorem kept_openStripe (sn : Nat) (slc : Bool) (cls reserve : Nat) (avoid : Option Nat) {r : Nat × State}
    (hr : openStripe sn slc cls reserve avoid s = some r) (h : Kept p n o s) : Kept p n o r.2 := by
  unfold openStripe at hr
  split at hr
  · cases hr; exact h
  · exact kept_takeStripe _ _ _ hr h

theorem kept_countFlash (sn : Nat) (n0 : Nat) (h : Kept p n o s) : Kept p n o (countFlash sn n0 s) := by
  unfold countFlash
  repeat' first
    | with_reducible assumption
    | with_reducible apply kept_modMag

theorem kept_closeStripe (k : Nat)
    (h : Kept p n o s) : Kept p n o (closeStripe k s) := by
  unfold closeStripe
  try dsimp only
  repeat' first
    | with_reducible assumption
    | with_reducible apply kept_countFlash
    | intro _
    | split
    | refine kept_fst (by assumption) ?_
    | refine kept_snd (by assumption) ?_
    | with_reducible refine kept_set ?_ rfl rfl rfl rfl rfl

theorem kept_holdWord (k : Nat) (w : FlashWord) (bs : Bytes)
    (h : Kept p n o s) : Kept p n o (holdWord k w bs s) := by
  unfold holdWord
  try dsimp only
  repeat' first
    | with_reducible assumption
    | with_reducible apply kept_countFlash
    | with_reducible apply kept_dieOp
    | with_reducible apply kept_closeStripe
    | intro _
    | split
    | refine kept_fst (by assumption) ?_
    | refine kept_snd (by assumption) ?_
    | with_reducible refine kept_set ?_ rfl rfl rfl rfl rfl

theorem kept_putContent (key : Nat) (home : Table Nat) (bs : Bytes) (h : Kept p n o s) : Kept p n o (putContent key home bs s) :=
  kept_flash _ (tcanon_tputD _ _ h.blocks) h

theorem kept_putBlock (k key cls : Nat) (bs : Bytes) (h : Kept p n o s) : Kept p n o (putBlock k key cls bs s) :=
  kept_holdWord _ _ _ (kept_modMag _ _ (kept_putContent _ _ _ h))

theorem kept_writeBlock (volume block cls : Nat) (bs : Bytes) (h : Kept p n o s) :
    Kept p n o (writeBlock volume block cls bs s) := by
  unfold writeBlock
  split
  · exact h
  · split
    · exact h
    · split
      · exact kept_putContent _ _ _ h
      · exact kept_modMag _ _ (kept_putBlock _ _ _ _ (kept_openStripe _ _ _ _ _ (by assumption) h))

theorem kept_writeBlocks (volume cls b : Nat) (bs : List Bytes) (h : Kept p n o s) :
    Kept p n o (writeBlocks volume cls b bs s) := by
  induction bs generalizing b s with
  | nil => exact h
  | cons x t ih => exact ih _ (kept_writeBlock _ _ _ _ h)

theorem kept_writeBytes (volume : Nat) (block : Nat) (cls : Nat) (bs : Bytes)
    (h : Kept p n o s) : Kept p n o (writeBytes volume block cls bs s) := by
  unfold writeBytes
  repeat' first
    | with_reducible assumption
    | with_reducible apply kept_writeBlocks

theorem kept_trimRange (volume block count : Nat) (h : Kept p n o s) : Kept p n o (trimRange volume block count s) :=
  kept_flash _ (by dsimp only; exact tcanon_tfilter _ h.blocks) h

theorem kept_eraseOps (k : Nat)
    (h : Kept p n o s) : Kept p n o (eraseOps k s) := by
  unfold eraseOps
  repeat' first
    | with_reducible assumption
    | with_reducible apply kept_dieOp
    | with_reducible apply kept_foldl
    | intro _
    | split

theorem kept_eraseEmpty (sn : Nat)
    (h : Kept p n o s) : Kept p n o (eraseEmpty sn s) := by
  unfold eraseEmpty
  try dsimp only
  repeat' first
    | with_reducible assumption
    | with_reducible apply kept_eraseOps
    | with_reducible apply kept_foldl
    | intro _
    | split
    | with_reducible refine kept_set ?_ rfl rfl rfl rfl rfl

theorem kept_releaseParity {p : List Instr} {n : Nat} {o : List Output} {s : State}
    (h : Kept p n o s) : Kept p n o (releaseParity s) := by
  unfold releaseParity
  repeat' first
    | with_reducible assumption
    | intro _
    | split
    | with_reducible refine kept_set ?_ rfl rfl rfl rfl rfl

theorem kept_foldBlock (sn key : Nat) (h : Kept p n o s) : Kept p n o (foldBlock sn key s) := by
  unfold foldBlock
  split
  · exact h
  · split
    · exact h
    · exact kept_holdWord _ _ _ (kept_set (kept_openStripe _ _ _ _ _ (by assumption) h) rfl rfl rfl rfl rfl)

theorem kept_foldBlocks (sn : Nat) (n0 : Nat)
    (h : Kept p n o s) : Kept p n o (foldBlocks sn n0 s) := by
  unfold foldBlocks
  repeat' first
    | with_reducible assumption
    | with_reducible apply kept_foldBlock
    | with_reducible apply kept_flashReads
    | with_reducible apply kept_foldl
    | intro _

theorem kept_startCopies (sn cls : Nat) (avoid : Option Nat) (ks : List Nat) (h : Kept p n o s) :
    Kept p n o (startCopies sn cls avoid ks s) := by
  induction ks generalizing s with
  | nil => exact h
  | cons k t ih =>
    unfold startCopies
    split
    · exact ih (kept_holdWord _ _ _ (kept_set (kept_openStripe _ _ _ _ _ (by assumption) h) rfl rfl rfl rfl rfl))
    · exact ih h

theorem kept_readCmd (pcieOk : Bool) (c : Cmd)
    (h : Kept p n o s) : Kept p n o (readCmd pcieOk c s) := by
  unfold readCmd
  try dsimp only
  repeat' first
    | with_reducible assumption
    | with_reducible apply kept_refuse
    | with_reducible apply kept_replyStatus
    | with_reducible apply kept_readRun
    | intro _
    | split

theorem kept_execRead (pair : Nat) (cid : Nat) (pcieOk : Bool)
    (h : Kept p n o s) : KeptRes p n o (execRead pair cid pcieOk s) := by
  unfold execRead
  repeat' first
    | with_reducible assumption
    | with_reducible apply kept_live
    | with_reducible apply kept_runCmd
    | with_reducible apply kept_readCmd
    | intro _

theorem kept_writeCmd (c : Cmd) (h : Kept p n o s) : Kept p n o (writeCmd c s) := by
  unfold writeCmd
  try dsimp only
  repeat' first
    | with_reducible assumption
    | with_reducible apply kept_refuse
    | with_reducible apply kept_withData
    | with_reducible apply kept_markRunning
    | intro _
    | split

theorem kept_execWrite (pair : Nat) (cid : Nat) (h : Kept p n o s) : KeptRes p n o (execWrite pair cid s) := by
  unfold execWrite
  repeat' first
    | with_reducible assumption
    | with_reducible apply kept_live
    | with_reducible apply kept_runCmd
    | with_reducible apply kept_writeCmd
    | intro _

theorem kept_tearBlocks (volume cls b : Nat) (bs : List Bytes) (h : Kept p n o s) :
    Kept p n o (tearBlocks volume cls b bs s) := by
  induction bs generalizing b s with
  | nil => exact h
  | cons x t ih =>
    refine ih _ (kept_tickFree ?_)
    split
    · exact kept_writeBlock _ _ _ _ h
    · exact h

theorem kept_tearWrite (c : Cmd) (h : Kept p n o s) : Kept p n o (tearWrite c s) := by
  unfold tearWrite
  repeat' first
    | with_reducible assumption
    | with_reducible apply kept_tearBlocks

theorem kept_failWrites (p0 : Cmd → Bool) (status : Nat) (h : Kept p n o s) : Kept p n o (failWrites p0 status s) := by
  unfold failWrites
  repeat' first
    | with_reducible assumption
    | with_reducible apply kept_refuse
    | with_reducible apply kept_tearWrite
    | with_reducible apply kept_foldl
    | intro _

theorem kept_padOpen {p : List Instr} {n : Nat} {o : List Output} {s : State}
    (h : Kept p n o s) : Kept p n o (padOpen s) := by
  unfold padOpen
  try dsimp only
  repeat' first
    | with_reducible assumption
    | with_reducible apply kept_closeStripe
    | with_reducible apply kept_foldl
    | intro _
    | split

theorem kept_completeFlushes {p : List Instr} {n : Nat} {o : List Output} {s : State}
    (h : Kept p n o s) : Kept p n o (completeFlushes s) := by
  unfold completeFlushes
  try dsimp only
  repeat' first
    | with_reducible assumption
    | with_reducible apply kept_padOpen
    | with_reducible apply kept_finishPlain
    | with_reducible apply kept_foldl
    | intro _
    | split

theorem kept_flushCmd (c : Cmd)
    (h : Kept p n o s) : Kept p n o (flushCmd c s) := by
  unfold flushCmd
  try dsimp only
  repeat' first
    | with_reducible assumption
    | with_reducible apply kept_refuse
    | with_reducible apply kept_completeFlushes
    | with_reducible apply kept_modCmds
    | intro _
    | split

theorem kept_execFlush (pair : Nat) (cid : Nat) (h : Kept p n o s) : KeptRes p n o (execFlush pair cid s) := by
  unfold execFlush
  repeat' first
    | with_reducible assumption
    | with_reducible apply kept_live
    | with_reducible apply kept_runCmd
    | with_reducible apply kept_flushCmd
    | intro _

theorem kept_trimCmd (c : Cmd) (h : Kept p n o s) : Kept p n o (trimCmd c s) := by
  unfold trimCmd
  try dsimp only
  repeat' first
    | with_reducible assumption
    | with_reducible apply kept_refuse
    | with_reducible apply kept_finishPlain
    | with_reducible apply kept_trimRange
    | intro _
    | split

theorem kept_execTrim (pair : Nat) (cid : Nat) (h : Kept p n o s) : KeptRes p n o (execTrim pair cid s) := by
  unfold execTrim
  repeat' first
    | with_reducible assumption
    | with_reducible apply kept_live
    | with_reducible apply kept_runCmd
    | with_reducible apply kept_trimCmd
    | intro _

theorem kept_volumeCreate (c : Cmd) (h : Kept p n o s) : Kept p n o (volumeCreate c s) := by
  unfold volumeCreate
  try dsimp only
  repeat' first
    | with_reducible assumption
    | with_reducible apply kept_refuse
    | with_reducible apply kept_finishPlain
    | intro _
    | split
    | refine kept_fst (by assumption) ?_
    | refine kept_snd (by assumption) ?_
    | with_reducible refine kept_set ?_ rfl rfl rfl rfl rfl

theorem kept_execVolumeCreate (pair : Nat) (cid : Nat) (h : Kept p n o s) : KeptRes p n o (execVolumeCreate pair cid s) := by
  unfold execVolumeCreate
  repeat' first
    | with_reducible assumption
    | with_reducible apply kept_live
    | with_reducible apply kept_runCmd
    | with_reducible apply kept_volumeCreate
    | intro _

theorem kept_volumeDelete (c : Cmd)
    (h : Kept p n o s) : Kept p n o (volumeDelete c s) := by
  unfold volumeDelete
  try dsimp only
  repeat' first
    | with_reducible assumption
    | with_reducible apply kept_refuse
    | with_reducible apply kept_trimRange
    | with_reducible apply kept_finishPlain
    | intro _
    | split
    | refine kept_fst (by assumption) ?_
    | refine kept_snd (by assumption) ?_
    | with_reducible refine kept_set ?_ rfl rfl rfl rfl rfl

theorem kept_execVolumeDelete (pair : Nat) (cid : Nat) (h : Kept p n o s) : KeptRes p n o (execVolumeDelete pair cid s) := by
  unfold execVolumeDelete
  repeat' first
    | with_reducible assumption
    | with_reducible apply kept_live
    | with_reducible apply kept_runCmd
    | with_reducible apply kept_volumeDelete
    | intro _

theorem kept_thresholdCrossed (bay : Nat) (wear : Nat) (thr : Nat)
    (h : Kept p n o s) : Kept p n o (thresholdCrossed bay wear thr s) := by
  unfold thresholdCrossed
  repeat' first
    | with_reducible assumption
    | with_reducible apply kept_logRecord
    | with_reducible apply kept_raiseEvent

theorem kept_turnReadOnly (bay : Nat) (sn : Nat) (h : Kept p n o s) : Kept p n o (turnReadOnly bay sn s) := by
  unfold turnReadOnly
  try dsimp only
  repeat' first
    | with_reducible assumption
    | with_reducible apply kept_showAmber
    | with_reducible apply kept_modMag
    | with_reducible apply kept_failWrites
    | with_reducible apply kept_raiseEvent
    | intro _
    | split
    | with_reducible refine kept_set ?_ rfl rfl rfl rfl rfl

theorem kept_wearCheck (sn : Nat) (s0 : State) (h : Kept p n o s) : Kept p n o (wearCheck sn s0 s) := by
  unfold wearCheck
  try dsimp only
  repeat' first
    | with_reducible assumption
    | with_reducible apply kept_thresholdCrossed
    | with_reducible apply kept_turnReadOnly
    | with_reducible apply kept_foldl
    | intro _
    | split

theorem kept_eraseAll (sn : Nat)
    (h : Kept p n o s) : Kept p n o (eraseAll sn s) := by
  unfold eraseAll
  try dsimp only
  repeat' first
    | with_reducible assumption
    | with_reducible apply kept_modMag
    | with_reducible apply kept_emits
    | intro _
    | with_reducible refine kept_set ?_ rfl rfl rfl rfl rfl

theorem kept_formatDone (l : LongOp)
    (h : Kept p 63 o s) : Kept p 64 o (formatDone l s) := by
  unfold formatDone
  try dsimp only
  repeat' first
    | with_reducible assumption
    | exact kept_more (by with_reducible assumption) (by decide)
    | with_reducible apply kept_refuse
    | with_reducible apply kept_pauseLong
    | with_reducible apply kept_wearCheck
    | with_reducible apply kept_modMag
    | with_reducible apply kept_eraseAll
    | with_reducible apply kept_finish
    | with_reducible apply kept_logRecord
    | intro _
    | split

theorem kept_execMagazineFormat (pair : Nat) (cid : Nat)
    (h : Kept p 64 o s) : KeptRes p 64 o (execMagazineFormat pair cid s) := by
  unfold execMagazineFormat
  repeat' first
    | with_reducible assumption
    | exact kept_more (by with_reducible assumption) (by decide)
    | with_reducible apply kept_live
    | with_reducible apply kept_runLong
    | with_reducible apply kept_formatDone
    | intro _

theorem kept_foldSome (l : LongOp) (n0 : Nat) (h : Kept p n o s) : Kept p n o (foldSome l n0 s) := by
  unfold foldSome
  try dsimp only
  repeat' first
    | with_reducible assumption
    | with_reducible apply kept_foldBlocks
    | intro _
    | split

theorem kept_foldDone (l : LongOp)
    (h : Kept p 63 o s) : Kept p 64 o (foldDone l s) := by
  unfold foldDone
  try dsimp only
  repeat' first
    | with_reducible assumption
    | exact kept_more (by with_reducible assumption) (by decide)
    | with_reducible apply kept_refuse
    | with_reducible apply kept_pauseLong
    | with_reducible apply kept_wearCheck
    | with_reducible apply kept_foldSome
    | with_reducible apply kept_finish
    | intro _
    | split

theorem kept_runLanding (op pair cid : Nat) (target check : Cmd → State → Nat) (f : LongOp → State → State)
    (hf : ∀ l t, Kept p 63 o t → Kept p 64 o (f l t)) (h : Kept p 64 o s) :
    Kept p 64 o (runLanding op pair cid target check f s) := by
  refine kept_runCmd _ _ _ _ (fun c t ht => ?_) h
  split
  · exact kept_refuse _ _ _ ht
  · rename_i he
    split
    · exact hf _ _ (longEnter_room he ht)
    · exact ht

theorem kept_execFold (pair cid : Nat) (h : Kept p 64 o s) : KeptRes p 64 o (execFold pair cid s) :=
  kept_live (fun _ ht => kept_runLanding _ _ _ _ _ _ (fun l _ hl => kept_foldDone l hl) ht) h

theorem kept_rebuildScan (l : LongOp) (pcieOk : Bool) (weak : List Nat) (n0 : Nat)
    (h : Kept p n o s) : Kept p n o (rebuildScan l pcieOk weak n0 s).1 := by
  unfold rebuildScan
  try dsimp only
  repeat' first
    | with_reducible assumption
    | with_reducible apply kept_startCopies
    | with_reducible apply kept_readRun
    | with_reducible apply kept_emit
    | with_reducible apply kept_foldl
    | intro _
    | split

theorem kept_rebuildDone (pcieOk : Bool) (weak : List Nat) (l : LongOp)
    (h : Kept p 63 o s) : Kept p 64 o (rebuildDone pcieOk weak l s) := by
  unfold rebuildDone
  try dsimp only
  repeat' first
    | with_reducible assumption
    | exact kept_more (by with_reducible assumption) (by decide)
    | with_reducible apply kept_refuse
    | with_reducible apply kept_pauseLong
    | with_reducible apply kept_rebuildScan
    | with_reducible apply kept_finish
    | intro _
    | split

theorem kept_execRebuild (pair cid : Nat) (pcieOk : Bool) (weak : List Nat) (h : Kept p 64 o s) :
    KeptRes p 64 o (execRebuild pair cid pcieOk weak s) :=
  kept_live (fun _ ht => kept_runLanding _ _ _ _ _ _ (fun l _ hl => kept_rebuildDone pcieOk weak l hl) ht) h

theorem kept_wearReport (pcieOk : Bool) (c : Cmd) (h : Kept p n o s) : Kept p n o (wearReport pcieOk c s) := by
  unfold wearReport
  repeat' first
    | with_reducible assumption
    | with_reducible apply kept_replyData
    | with_reducible apply kept_refuse
    | with_reducible apply kept_id
    | intro _
    | split

theorem kept_execWearReport (pair : Nat) (cid : Nat) (pcieOk : Bool)
    (h : Kept p n o s) : KeptRes p n o (execWearReport pair cid pcieOk s) := by
  unfold execWearReport
  repeat' first
    | with_reducible assumption
    | with_reducible apply kept_live
    | with_reducible apply kept_runCmd
    | with_reducible apply kept_wearReport
    | intro _



end Sys2Proof.Machine
end

