-- ==== Sys2Proof/Laws/KeepCatalog.lean ====
section
/-! SUPPORT. What the operations of Machine/Catalog.lean keep. -/

namespace Sys2Proof.Machine

variable {p : List Instr} {n : Nat} {o : List Output} {s : State}

theorem kept_unstage (h0 : Nat) (h : Kept p n o s) : Kept p n o (unstage h0 s) := by
  unfold unstage
  repeat' first
    | with_reducible assumption
    | intro _
    | with_reducible refine kept_set ?_ rfl rfl rfl rfl rfl

theorem kept_pruneHeaders {p : List Instr} {n : Nat} {o : List Output} {s : State}
    (h : Kept p n o s) : Kept p n o (pruneHeaders s) := by
  unfold pruneHeaders
  try dsimp only
  repeat' first
    | with_reducible assumption
    | intro _
    | with_reducible refine kept_set ?_ rfl rfl rfl rfl rfl

theorem kept_commitLoad (h0 : Nat) (g : Staged)
    (h : Kept p n o s) : Kept p n o (commitLoad h0 g s) := by
  unfold commitLoad
  try dsimp only
  repeat' first
    | with_reducible assumption
    | with_reducible apply kept_moveObject
    | with_reducible apply kept_storeObject
    | with_reducible apply kept_unstage
    | with_reducible apply kept_pruneHeaders
    | with_reducible apply kept_foldl
    | intro _
    | split
    | with_reducible refine kept_set ?_ rfl rfl rfl rfl rfl

theorem kept_dropHeld (pipe : Nat)
    (h : Kept p n o s) : Kept p n o (dropHeld pipe s) := by
  unfold dropHeld
  repeat' first
    | with_reducible assumption
    | with_reducible apply kept_pruneHeaders
    | intro _
    | with_reducible refine kept_set ?_ rfl rfl rfl rfl rfl

theorem kept_stageSlices (k version size pair m : Nat) (d : Bytes) (h : Kept p n o s) :
    Kept p n o (stageSlices k version size pair m d s).2.2.2 := by
  induction m generalizing d s with
  | zero => exact h
  | succ m ih =>
    unfold stageSlices
    dsimp only
    split
    · exact h
    · split
      · exact kept_unstage _ h
      · split
        · exact kept_unstage _ h
        · exact ih _ (kept_set h rfl rfl rfl rfl rfl)

theorem kept_loadEnter (e : Bytes) (pair : Nat)
    (h : Kept p n o s) : Kept p n o (loadEnter e pair s).2 := by
  unfold loadEnter
  try dsimp only
  repeat' first
    | with_reducible assumption
    | with_reducible apply kept_unstage
    | intro _
    | split

theorem kept_loadEnd (l : LongOp)
    (h : Kept p n o s) : Kept p n o (loadEnd l s) := by
  unfold loadEnd
  try dsimp only
  repeat' first
    | with_reducible assumption
    | with_reducible apply kept_refuse
    | with_reducible apply kept_finish
    | with_reducible apply kept_unstage
    | with_reducible apply kept_commitLoad
    | intro _
    | split

theorem kept_loadSome (l : LongOp) (n0 : Nat) (h : Kept p n o s) : Kept p n o (loadSome l n0 s).2.2 := by
  unfold loadSome
  try dsimp only
  repeat' first
    | with_reducible assumption
    | with_reducible apply kept_unstage
    | with_reducible apply kept_loadEnter
    | with_reducible apply kept_stageSlices
    | intro _
    | split

theorem kept_noteDataset (l : LongOp)
    (h : Kept p n o s) : Kept p n o (noteDataset l s) := by
  unfold noteDataset
  repeat' first
    | with_reducible assumption
    | with_reducible apply kept_modCmds

theorem kept_loadDone (l : LongOp)
    (h : Kept p n o s) : Kept p n o (loadDone l s) := by
  unfold loadDone
  try dsimp only
  repeat' first
    | with_reducible assumption
    | with_reducible apply kept_noteDataset
    | with_reducible apply kept_loadSome
    | with_reducible apply kept_refuse
    | with_reducible apply kept_loadEnd
    | intro _
    | split

theorem kept_execCatalogLoad (pair : Nat) (cid : Nat)
    (h : Kept p 64 o s) : KeptRes p 64 o (execCatalogLoad pair cid s) := by
  unfold execCatalogLoad
  repeat' first
    | with_reducible assumption
    | exact kept_more (by with_reducible assumption) (by decide)
    | with_reducible apply kept_live
    | with_reducible apply kept_runLong
    | with_reducible apply kept_loadDone
    | intro _

theorem kept_catalogUnload (c : Cmd)
    (h : Kept p n o s) : Kept p n o (catalogUnload c s) := by
  unfold catalogUnload
  try dsimp only
  repeat' first
    | with_reducible assumption
    | with_reducible apply kept_refuse
    | with_reducible apply kept_finishPlain
    | with_reducible apply kept_pruneHeaders
    | intro _
    | split
    | with_reducible refine kept_set ?_ rfl rfl rfl rfl rfl

theorem kept_execCatalogUnload (pair : Nat) (cid : Nat) (h : Kept p n o s) : KeptRes p n o (execCatalogUnload pair cid s) := by
  unfold execCatalogUnload
  repeat' first
    | with_reducible assumption
    | with_reducible apply kept_live
    | with_reducible apply kept_runCmd
    | with_reducible apply kept_catalogUnload
    | intro _

theorem kept_catalogLookup (pcieOk : Bool) (c : Cmd) (h : Kept p n o s) : Kept p n o (catalogLookup pcieOk c s) := by
  unfold catalogLookup
  try dsimp only
  repeat' first
    | with_reducible assumption
    | with_reducible apply kept_refuse
    | with_reducible apply kept_replyData
    | with_reducible apply kept_tickFree
    | with_reducible apply kept_id
    | intro _
    | split

theorem kept_execCatalogLookup (pair : Nat) (cid : Nat) (pcieOk : Bool)
    (h : Kept p n o s) : KeptRes p n o (execCatalogLookup pair cid pcieOk s) := by
  unfold execCatalogLookup
  repeat' first
    | with_reducible assumption
    | with_reducible apply kept_live
    | with_reducible apply kept_runCmd
    | with_reducible apply kept_catalogLookup
    | intro _

theorem kept_pruneSummaries (h0 : Nat) (batch : Nat) (h : Kept p n o s) : Kept p n o (pruneSummaries h0 batch s) := by
  unfold pruneSummaries
  try dsimp only
  repeat' first
    | with_reducible assumption
    | intro _
    | split
    | with_reducible refine kept_set ?_ rfl rfl rfl rfl rfl

end Sys2Proof.Machine
end

