-- ==== Sys2Proof/Laws/KeepDeclare.lean ====
section
/-! SUPPORT. What the operations of Machine/Declare.lean keep. -/

namespace Sys2Proof.Machine

variable {p : List Instr} {n : Nat} {o : List Output} {s : State}

theorem kept_pipelineDeclare (c : Cmd)
    (h : Kept p n o s) : Kept p n o (pipelineDeclare c s) := by
  unfold pipelineDeclare
  try dsimp only
  repeat' first
    | with_reducible assumption
    | with_reducible apply kept_refuse
    | with_reducible apply kept_withData
    | with_reducible apply kept_finishPlain
    | with_reducible apply kept_storeObject
    | intro _
    | split
    | refine kept_fst (by assumption) ?_
    | refine kept_snd (by assumption) ?_
    | with_reducible refine kept_set ?_ rfl rfl rfl rfl rfl

theorem kept_execPipelineDeclare (pair : Nat) (cid : Nat)
    (h : Kept p n o s) : KeptRes p n o (execPipelineDeclare pair cid s) := by
  unfold execPipelineDeclare
  repeat' first
    | with_reducible assumption
    | with_reducible apply kept_live
    | with_reducible apply kept_runCmd
    | with_reducible apply kept_pipelineDeclare
    | intro _

end Sys2Proof.Machine
end

