-- ==== Sys2Proof/Laws/KeepPool.lean ====
section
/-! SUPPORT. What the operations of Machine/Pool.lean keep. -/

namespace Sys2Proof.Machine

variable {p : List Instr} {n : Nat} {o : List Output} {s : State}

theorem kept_notePeak (o0 : Nat) (cls : Nat) (h : Kept p n o s) : Kept p n o (notePeak o0 cls s) := by
  unfold notePeak
  repeat' first
    | with_reducible assumption
    | with_reducible apply kept_setRaw
    | intro _
    | split

theorem kept_grantBufs (o0 : Nat) (cls : Nat) (hs : List Nat) (h : Kept p n o s) : Kept p n o (grantBufs o0 cls hs s) := by
  unfold grantBufs
  repeat' first
    | with_reducible assumption
    | with_reducible apply kept_emit
    | with_reducible apply kept_notePeak
    | intro _
    | with_reducible refine kept_set ?_ rfl rfl rfl rfl rfl

theorem kept_notePeaks (hs : List Nat)
    (h : Kept p n o s) : Kept p n o (notePeaks hs s) := by
  unfold notePeaks
  repeat' first
    | with_reducible assumption
    | with_reducible apply kept_notePeak
    | with_reducible apply kept_foldl
    | intro _
    | split

theorem kept_takeBack (out : Nat → Bool)
    (h : Kept p n o s) : Kept p n o (takeBack out s) := by
  unfold takeBack
  try dsimp only
  repeat' first
    | with_reducible assumption
    | intro _
    | with_reducible refine kept_set ?_ rfl rfl rfl rfl rfl

theorem kept_freeChain (h0 : Nat)
    (h : Kept p n o s) : Kept p n o (freeChain h0 s) := by
  unfold freeChain
  try dsimp only
  repeat' first
    | with_reducible assumption
    | with_reducible apply kept_takeBack
    | with_reducible apply kept_notePeaks

theorem kept_freeBuf (o0 : Option Nat) (h : Kept p n o s) : Kept p n o (freeBuf o0 s) := by
  unfold freeBuf
  repeat' first
    | with_reducible assumption
    | with_reducible apply kept_freeChain
    | intro _
    | split

theorem kept_modBuf (h0 : Nat) (f : PoolEntry → PoolEntry) (h : Kept p n o s) : Kept p n o (modBuf h0 f s) := by
  unfold modBuf
  repeat' first
    | with_reducible assumption
    | intro _
    | with_reducible refine kept_set ?_ rfl rfl rfl rfl rfl

theorem kept_carryCrc (o0 : Option Nat) (crc : Nat)
    (h : Kept p n o s) : Kept p n o (carryCrc o0 crc s) := by
  unfold carryCrc
  repeat' first
    | with_reducible assumption
    | with_reducible apply kept_modBuf
    | intro _
    | split

theorem kept_dropStackBufs (stack : Nat)
    (h : Kept p n o s) : Kept p n o (dropStackBufs stack s) := by
  unfold dropStackBufs
  repeat' first
    | with_reducible assumption
    | with_reducible apply kept_takeBack
    | with_reducible apply kept_notePeaks

end Sys2Proof.Machine
end

