-- ==== Sys2Proof/Laws/KeepProgram.lean ====
section
/-! SUPPORT. What the operations of Machine/Program.lean keep. -/

namespace Sys2Proof.Machine

variable {p : List Instr} {n : Nat} {o : List Output} {s : State}

theorem kept_modPipe (pipe : Nat) (f : Pipeline → Pipeline) (h : Kept p n o s) : Kept p n o (modPipe pipe f s) := by
  unfold modPipe
  repeat' first
    | with_reducible assumption
    | intro _
    | with_reducible refine kept_set ?_ rfl rfl rfl rfl rfl

theorem kept_dropMoved (es : List Schedule)
    (h : Kept p n o s) : Kept p n o (dropMoved es s) := by
  unfold dropMoved
  repeat' first
    | with_reducible assumption
    | with_reducible apply kept_freeBuf
    | with_reducible apply kept_foldl
    | intro _

theorem kept_buildSchedule (pipe : Nat) (epoch : Nat)
    (h : Kept p n o s) : Kept p n o (buildSchedule pipe epoch s) := by
  unfold buildSchedule
  try dsimp only
  repeat' first
    | with_reducible assumption
    | with_reducible apply kept_placeSchedule
    | with_reducible apply kept_modPipe
    | with_reducible apply kept_dropMoved
    | intro _
    | split

theorem kept_execSchedule (pipeline : Nat) (epoch : Nat) (h : Kept p n o s) : KeptRes p n o (execSchedule pipeline epoch s) := by
  unfold execSchedule
  repeat' first
    | with_reducible assumption
    | with_reducible apply kept_live
    | with_reducible apply kept_whenB
    | with_reducible apply kept_buildSchedule
    | intro _

theorem kept_scheduleComplete (pipe : Nat) (epoch : Nat) (h : Kept p n o s) : Kept p n o (scheduleComplete pipe epoch s) := by
  unfold scheduleComplete
  try dsimp only
  repeat' first
    | with_reducible assumption
    | with_reducible apply kept_modPipe
    | intro _
    | split

theorem kept_execScheduleComplete (pipeline : Nat) (epoch : Nat)
    (h : Kept p n o s) : KeptRes p n o (execScheduleComplete pipeline epoch s) := by
  unfold execScheduleComplete
  repeat' first
    | with_reducible assumption
    | with_reducible apply kept_live
    | with_reducible apply kept_whenB
    | with_reducible apply kept_scheduleComplete
    | intro _

theorem kept_scheduleRecord (pipe : Nat) (p0 : Pipeline) (epoch : Nat) (pos : Nat)
    (h : Kept p n o s) : Kept p n o (scheduleRecord pipe p0 epoch pos s) := by
  unfold scheduleRecord
  try dsimp only
  repeat' first
    | with_reducible assumption
    | with_reducible apply kept_recordErr

theorem kept_writeWindow (e : Schedule) (window : Nat) {r : Schedule × State} (hr : writeWindow e window s = some r)
    (h : Kept p n o s) : Kept p n o r.2 := by
  unfold writeWindow at hr
  dsimp only at hr
  split at hr
  · split at hr
    · cases hr
    · cases hr; exact kept_grantBufs _ _ _ (kept_dropMoved _ h)
  · cases hr; exact kept_writeUnits _ _ _ h

theorem kept_windowRebuild (pipe epoch window : Nat) (failed : Option Nat) (h : Kept p n o s) :
    Kept p n o (windowRebuild pipe epoch window failed s) := by
  unfold windowRebuild
  split
  · exact h
  · split
    · exact h
    · split
      · have h1 : ∀ (q : Pipeline), Kept p n o (match failed with
            | some pos => scheduleRecord pipe q epoch pos s
            | none => s) := by
          intro q
          split
          · exact kept_scheduleRecord _ _ _ _ h
          · exact h
        dsimp only
        split
        · exact h1 _
        · rename_i hw
          exact kept_modPipe _ _ (kept_writeWindow _ _ hw (h1 _))
      · exact h

theorem kept_execScheduleWindowRebuild (pipeline : Nat) (epoch : Nat) (window : Nat) (failed : Option Nat)
    (h : Kept p n o s) : KeptRes p n o (execScheduleWindowRebuild pipeline epoch window failed s) := by
  unfold execScheduleWindowRebuild
  repeat' first
    | with_reducible assumption
    | with_reducible apply kept_live
    | with_reducible apply kept_whenB
    | with_reducible apply kept_windowRebuild
    | intro _

theorem kept_staleSchedules (h0 : Nat) (batch : Nat)
    (h : Kept p n o s) : Kept p n o (staleSchedules h0 batch s) := by
  unfold staleSchedules
  try dsimp only
  repeat' first
    | with_reducible assumption
    | intro _
    | split
    | with_reducible refine kept_set ?_ rfl rfl rfl rfl rfl

theorem kept_routingSummaryLoad (c : Cmd)
    (h : Kept p n o s) : Kept p n o (routingSummaryLoad c s) := by
  unfold routingSummaryLoad
  try dsimp only
  repeat' first
    | with_reducible assumption
    | with_reducible apply kept_withData
    | with_reducible apply kept_refuse
    | with_reducible apply kept_finishPlain
    | with_reducible apply kept_staleSchedules
    | with_reducible apply kept_storeObject
    | with_reducible apply kept_id
    | intro _
    | split
    | refine kept_fst (by assumption) ?_
    | refine kept_snd (by assumption) ?_
    | with_reducible refine kept_set ?_ rfl rfl rfl rfl rfl

theorem kept_execRoutingSummaryLoad (pair : Nat) (cid : Nat)
    (h : Kept p n o s) : KeptRes p n o (execRoutingSummaryLoad pair cid s) := by
  unfold execRoutingSummaryLoad
  repeat' first
    | with_reducible assumption
    | with_reducible apply kept_live
    | with_reducible apply kept_runCmd
    | with_reducible apply kept_routingSummaryLoad
    | intro _

end Sys2Proof.Machine
end

