-- ==== Sys2Proof/Laws/KeepPipeline.lean ====
section
/-! SUPPORT. What the operations of Machine/Pipeline.lean keep. -/

namespace Sys2Proof.Machine

variable {p : List Instr} {n : Nat} {o : List Output} {s : State}

theorem kept_resetLock (pipe : Nat) (cursor : Nat) (h : Kept p n o s) : Kept p n o (resetLock pipe cursor s) := by
  unfold resetLock
  repeat' first
    | with_reducible assumption
    | intro _
    | with_reducible refine kept_set ?_ rfl rfl rfl rfl rfl

theorem kept_pipelineStart (c : Cmd) (h : Kept p n o s) : Kept p n o (pipelineStart c s) := by
  unfold pipelineStart
  try dsimp only
  repeat' first
    | with_reducible assumption
    | with_reducible apply kept_refuse
    | with_reducible apply kept_pruneSummaries
    | with_reducible apply kept_finishPlain
    | with_reducible apply kept_resetLock
    | with_reducible apply kept_modPipe
    | with_reducible apply kept_foldl
    | intro _
    | split

theorem kept_execPipelineStart (pair : Nat) (cid : Nat) (h : Kept p n o s) : KeptRes p n o (execPipelineStart pair cid s) := by
  unfold execPipelineStart
  repeat' first
    | with_reducible assumption
    | with_reducible apply kept_live
    | with_reducible apply kept_runCmd
    | with_reducible apply kept_pipelineStart
    | intro _

theorem kept_setAnchor (pipe : Nat)
    (h : Kept p n o s) : Kept p n o (setAnchor pipe s) := by
  unfold setAnchor
  try dsimp only
  repeat' first
    | with_reducible assumption
    | with_reducible apply kept_setRaw
    | with_reducible apply kept_modPipe
    | intro _
    | split

theorem kept_checkpointDone (pipe : Nat) (c : Cmd) (pcieOk : Bool)
    (h : Kept p n o s) : Kept p n o (checkpointDone pipe c pcieOk s) := by
  unfold checkpointDone
  repeat' first
    | with_reducible assumption
    | with_reducible apply kept_refuse
    | with_reducible apply kept_replyData
    | with_reducible apply kept_setAnchor
    | intro _
    | split

theorem kept_finishCheckpoints (pipe : Nat) (h : Kept p n o s) : Kept p n o (finishCheckpoints pipe s) := by
  unfold finishCheckpoints
  try dsimp only
  repeat' first
    | with_reducible assumption
    | with_reducible apply kept_checkpointDone
    | with_reducible apply kept_modPipe
    | with_reducible apply kept_foldl
    | intro _
    | split

theorem kept_freeBufs (x : Sample)
    (h : Kept p n o s) : Kept p n o (freeBufs x s) := by
  unfold freeBufs
  repeat' first
    | with_reducible assumption
    | with_reducible apply kept_freeBuf
    | with_reducible apply kept_foldl
    | intro _

theorem kept_discardSamples (pipe : Nat) (out : Sample → Bool)
    (h : Kept p n o s) : Kept p n o (discardSamples pipe out s) := by
  unfold discardSamples
  try dsimp only
  repeat' first
    | with_reducible assumption
    | with_reducible apply kept_freeBufs
    | with_reducible apply kept_foldl
    | intro _
    | split
    | with_reducible refine kept_set ?_ rfl rfl rfl rfl rfl

theorem kept_stopPipe (pipe : Nat) (state : Nat)
    (h : Kept p n o s) : Kept p n o (stopPipe pipe state s) := by
  unfold stopPipe
  try dsimp only
  repeat' first
    | with_reducible assumption
    | with_reducible apply kept_setAnchor
    | with_reducible apply kept_discardSamples
    | with_reducible apply kept_modPipe
    | with_reducible apply kept_finishCheckpoints
    | with_reducible apply kept_finish
    | with_reducible apply kept_dropHeld
    | with_reducible apply kept_resetLock
    | with_reducible apply kept_dropMoved
    | intro _
    | split
    | refine kept_fst (by assumption) ?_
    | refine kept_snd (by assumption) ?_
    | with_reducible refine kept_set ?_ rfl rfl rfl rfl rfl

theorem kept_discardFrom (pipe : Nat) (c : Nat)
    (h : Kept p n o s) : Kept p n o (discardFrom pipe c s) := by
  unfold discardFrom
  try dsimp only
  repeat' first
    | with_reducible assumption
    | with_reducible apply kept_modPipe
    | with_reducible apply kept_discardSamples
    | intro _
    | split

theorem kept_pipelineStop (c : Cmd)
    (h : Kept p n o s) : Kept p n o (pipelineStop c s) := by
  unfold pipelineStop
  try dsimp only
  repeat' first
    | with_reducible assumption
    | with_reducible apply kept_refuse
    | with_reducible apply kept_finish
    | with_reducible apply kept_stopPipe
    | with_reducible apply kept_discardFrom
    | with_reducible apply kept_markRunning
    | with_reducible apply kept_modPipe
    | intro _
    | split

theorem kept_execPipelineStop (pair : Nat) (cid : Nat) (h : Kept p n o s) : KeptRes p n o (execPipelineStop pair cid s) := by
  unfold execPipelineStop
  repeat' first
    | with_reducible assumption
    | with_reducible apply kept_live
    | with_reducible apply kept_runCmd
    | with_reducible apply kept_pipelineStop
    | intro _

theorem kept_withdrawStop (pipe : Nat) (h : Kept p n o s) : Kept p n o (withdrawStop pipe s) := by
  unfold withdrawStop
  repeat' first
    | with_reducible assumption
    | with_reducible apply kept_modPipe
    | intro _
    | split

theorem kept_endCheck (pipe : Nat)
    (h : Kept p n o s) : Kept p n o (endCheck pipe s) := by
  unfold endCheck
  repeat' first
    | with_reducible assumption
    | with_reducible apply kept_stopPipe
    | intro _
    | split

theorem kept_boundary (pipe : Nat)
    (h : Kept p n o s) : Kept p n o (boundary pipe s) := by
  unfold boundary
  try dsimp only
  repeat' first
    | with_reducible assumption
    | with_reducible apply kept_modPipe
    | with_reducible apply kept_dropHeld
    | with_reducible apply kept_pruneSummaries
    | with_reducible apply kept_stopPipe
    | with_reducible apply kept_finishCheckpoints
    | with_reducible apply kept_foldl
    | intro _
    | split

theorem kept_reachBoundaries (pipe m : Nat) (h : Kept p n o s) : Kept p n o (reachBoundaries pipe m s) := by
  induction m generalizing s with
  | zero => exact h
  | succ m ih =>
    unfold reachBoundaries
    split
    · exact h
    · split
      · exact ih (kept_boundary _ h)
      · exact h

theorem kept_pipelineDelete (c : Cmd) (h : Kept p n o s) : Kept p n o (pipelineDelete c s) := by
  unfold pipelineDelete
  dsimp only
  split
  · exact kept_refuse _ _ _ h
  · split
    · exact kept_refuse _ _ _ h
    · exact kept_finishPlain _ _ _ ⟨h.queue, h.outs, h.longs, by dsimp only; exact tsorted_tfilter _ h.fields, h.words,
        h.blocks, h.rings, h.events, h.logQueue⟩

theorem kept_execPipelineDelete (pair : Nat) (cid : Nat) (h : Kept p n o s) : KeptRes p n o (execPipelineDelete pair cid s) := by
  unfold execPipelineDelete
  repeat' first
    | with_reducible assumption
    | with_reducible apply kept_live
    | with_reducible apply kept_runCmd
    | with_reducible apply kept_pipelineDelete
    | intro _

theorem kept_pipelineCheckpoint (pcieOk : Bool) (c : Cmd) (h : Kept p n o s) : Kept p n o (pipelineCheckpoint pcieOk c s) := by
  unfold pipelineCheckpoint
  try dsimp only
  repeat' first
    | with_reducible assumption
    | with_reducible apply kept_refuse
    | with_reducible apply kept_markRunning
    | with_reducible apply kept_modPipe
    | with_reducible apply kept_checkpointDone
    | intro _
    | split

theorem kept_execPipelineCheckpoint (pair : Nat) (cid : Nat) (pcieOk : Bool)
    (h : Kept p n o s) : KeptRes p n o (execPipelineCheckpoint pair cid pcieOk s) := by
  unfold execPipelineCheckpoint
  repeat' first
    | with_reducible assumption
    | with_reducible apply kept_live
    | with_reducible apply kept_runCmd
    | with_reducible apply kept_pipelineCheckpoint
    | intro _

theorem kept_pipelineRestore (c : Cmd)
    (h : Kept p n o s) : Kept p n o (pipelineRestore c s) := by
  unfold pipelineRestore
  try dsimp only
  repeat' first
    | with_reducible assumption
    | with_reducible apply kept_refuse
    | with_reducible apply kept_withData
    | with_reducible apply kept_finishPlain
    | with_reducible apply kept_modPipe
    | with_reducible apply kept_boundary
    | intro _
    | split

theorem kept_execPipelineRestore (pair : Nat) (cid : Nat)
    (h : Kept p n o s) : KeptRes p n o (execPipelineRestore pair cid s) := by
  unfold execPipelineRestore
  repeat' first
    | with_reducible assumption
    | with_reducible apply kept_live
    | with_reducible apply kept_runCmd
    | with_reducible apply kept_pipelineRestore
    | intro _

theorem kept_storeShots (pipe : Nat)
    (h : Kept p n o s) : Kept p n o (storeShots pipe s) := by
  unfold storeShots
  repeat' first
    | with_reducible assumption
    | with_reducible apply kept_storeObject
    | intro _
    | split

theorem kept_shotRecordsLoad (c : Cmd)
    (h : Kept p n o s) : Kept p n o (shotRecordsLoad c s) := by
  unfold shotRecordsLoad
  try dsimp only
  repeat' first
    | with_reducible assumption
    | with_reducible apply kept_refuse
    | with_reducible apply kept_withData
    | with_reducible apply kept_finishPlain
    | with_reducible apply kept_storeShots
    | with_reducible apply kept_modPipe
    | with_reducible apply kept_foldl
    | intro _
    | split

theorem kept_execShotRecordsLoad (pair : Nat) (cid : Nat)
    (h : Kept p n o s) : KeptRes p n o (execShotRecordsLoad pair cid s) := by
  unfold execShotRecordsLoad
  repeat' first
    | with_reducible assumption
    | with_reducible apply kept_live
    | with_reducible apply kept_runCmd
    | with_reducible apply kept_shotRecordsLoad
    | intro _

theorem kept_consumerAttach (c : Cmd) (h : Kept p n o s) : Kept p n o (consumerAttach c s) := by
  unfold consumerAttach
  try dsimp only
  repeat' first
    | with_reducible assumption
    | with_reducible apply kept_refuse
    | with_reducible apply kept_finishPlain
    | with_reducible apply kept_modPipe
    | intro _
    | split

theorem kept_execConsumerAttach (pair : Nat) (cid : Nat) (h : Kept p n o s) : KeptRes p n o (execConsumerAttach pair cid s) := by
  unfold execConsumerAttach
  repeat' first
    | with_reducible assumption
    | with_reducible apply kept_live
    | with_reducible apply kept_runCmd
    | with_reducible apply kept_consumerAttach
    | intro _

end Sys2Proof.Machine
end

