-- ==== Sys2Proof/Laws/KeepWheel.lean ====
section
/-! SUPPORT. What the flows and the wheel keep. -/

namespace Sys2Proof.Machine

variable {p : List Instr} {n : Nat} {o : List Output} {s : State}

theorem kept_setFlow (d : Nat) (f : Flow) (h : Kept p n o s) : Kept p n o (setFlow d f s) := by
  unfold setFlow
  repeat' first
    | with_reducible assumption
    | intro _
    | with_reducible refine kept_set ?_ rfl rfl rfl rfl rfl

theorem kept_placeSlot (slot : Nat) (d : Nat) (p0 : Packet) (h : Kept p n o s) : Kept p n o (placeSlot slot d p0 s) := by
  unfold placeSlot
  repeat' first
    | with_reducible assumption
    | intro _
    | split
    | with_reducible refine kept_set ?_ rfl rfl rfl rfl rfl

theorem kept_startFlow (d : Nat) (h : Kept p n o s) : Kept p n o (startFlow d s) := by
  unfold startFlow
  try dsimp only
  repeat' first
    | with_reducible assumption
    | with_reducible apply kept_setFlow
    | with_reducible apply kept_placeSlot
    | intro _
    | split
    | refine kept_fst (by assumption) ?_
    | refine kept_snd (by assumption) ?_
    | with_reducible refine kept_set ?_ rfl rfl rfl rfl rfl

theorem kept_postVc3 (d : Nat) (p0 : Packet) (h : Kept p n o s) : Kept p n o (postVc3 d p0 s) := by
  unfold postVc3
  try dsimp only
  repeat' first
    | with_reducible assumption
    | with_reducible apply kept_startFlow
    | with_reducible apply kept_setFlow

theorem kept_flowLeft (d : Nat) (h : Kept p n o s) : Kept p n o (flowLeft d s) := kept_startFlow _ (kept_setFlow _ _ h)

end Sys2Proof.Machine
end

