-- ==== Sys2Proof/Laws/KeepLinks.lean ====
section
/-! SUPPORT. What the operations of Machine/Links.lean keep. -/

namespace Sys2Proof.Machine

variable {p : List Instr} {n : Nat} {o : List Output} {s : State}

theorem kept_setPort (n0 : Nat) (p0 : Port) (h : Kept p n o s) : Kept p n o (setPort n0 p0 s) := by
  unfold setPort
  repeat' first
    | with_reducible assumption
    | intro _
    | with_reducible refine kept_set ?_ rfl rfl rfl rfl rfl

theorem kept_modPort (n0 : Nat) (f : Port → Port) (h : Kept p n o s) : Kept p n o (modPort n0 f s) := by
  unfold modPort
  repeat' first
    | with_reducible assumption
    | with_reducible apply kept_setPort

theorem kept_startNext (port : Nat) (vc : Nat) (h : Kept p n o s) : Kept p n o (startNext port vc s) := by
  unfold startNext
  try dsimp only
  repeat' first
    | with_reducible assumption
    | with_reducible apply kept_setPort
    | intro _
    | split
    | refine kept_fst (by assumption) ?_
    | refine kept_snd (by assumption) ?_
    | with_reducible refine kept_set ?_ rfl rfl rfl rfl rfl

theorem kept_transmit (port : Nat) (f : Flit) (h : Kept p n o s) : Kept p n o (transmit port f s) := by
  unfold transmit
  try dsimp only
  repeat' first
    | with_reducible assumption
    | with_reducible apply kept_emit
    | with_reducible apply kept_setPort

theorem kept_freeInput (source : Nat) (vc : Nat) (h : Kept p n o s) : Kept p n o (freeInput source vc s) := by
  unfold freeInput
  repeat' first
    | with_reducible assumption
    | with_reducible apply kept_modPort
    | intro _
    | split

theorem kept_leftPort (m : OutMsg) (h : Kept p n o s) : Kept p n o (leftPort m s) := by
  unfold leftPort
  split
  · exact kept_flowLeft _ h
  · exact h

theorem kept_sendOne (port : Nat)
    (h : Kept p n o s) : Kept p n o (sendOne port s) := by
  unfold sendOne
  try dsimp only
  repeat' first
    | with_reducible assumption
    | with_reducible apply kept_transmit
    | with_reducible apply kept_setPort
    | with_reducible apply kept_startNext
    | with_reducible apply kept_freeInput
    | with_reducible apply kept_leftPort
    | intro _
    | split

theorem kept_pumpPort (port m : Nat) (h : Kept p n o s) : Kept p n o (pumpPort port m s) := by
  induction m generalizing s with
  | zero => exact h
  | succ m ih =>
    unfold pumpPort
    split
    · exact ih (kept_sendOne _ h)
    · exact h

theorem kept_pumpAll (h : Kept p n o s) : Kept p n o (pumpAll s) := by
  unfold pumpAll
  repeat' first
    | with_reducible assumption
    | with_reducible apply kept_pumpPort
    | with_reducible apply kept_foldl
    | intro _

theorem kept_sendIdle (port : Nat) (h : Kept p n o s) : Kept p n o (sendIdle port s) := by
  unfold sendIdle
  try dsimp only
  repeat' first
    | with_reducible assumption
    | with_reducible apply kept_emit
    | with_reducible apply kept_setPort

theorem kept_sendControl (port : Nat) (kind : Nat) (arg : Nat) (h : Kept p n o s) : Kept p n o (sendControl port kind arg s) := by
  unfold sendControl
  try dsimp only
  repeat' first
    | with_reducible assumption
    | with_reducible apply kept_pumpPort
    | with_reducible apply kept_modPort
    | with_reducible apply kept_emit
    | with_reducible apply kept_tickFree

theorem kept_sendOwn (vc : Nat) (dest : Nat) (bs : Bytes) (h : Kept p n o s) : Kept p n o (sendOwn vc dest bs s) := by
  unfold sendOwn
  repeat' first
    | with_reducible assumption
    | intro _
    | with_reducible refine kept_set ?_ rfl rfl rfl rfl rfl

theorem kept_nodeEvent (st : Nat) (reason : Nat) (h : Kept p n o s) : Kept p n o (nodeEvent st reason s) := by
  unfold nodeEvent
  repeat' first
    | with_reducible assumption
    | with_reducible apply kept_raiseEvent

theorem kept_checkFabric (h : Kept p n o s) : Kept p n o (checkFabric s) := by
  unfold checkFabric
  repeat' first
    | with_reducible assumption
    | with_reducible apply kept_enable
    | with_reducible apply kept_nodeEvent
    | intro _
    | split
    | with_reducible refine kept_set ?_ rfl rfl rfl rfl rfl

theorem kept_enterHoldover (reason : Nat) (h : Kept p n o s) : Kept p n o (enterHoldover reason s) := by
  unfold enterHoldover
  repeat' first
    | with_reducible assumption
    | with_reducible apply kept_nodeEvent
    | intro _
    | split
    | with_reducible refine kept_set ?_ rfl rfl rfl rfl rfl

theorem kept_dropLink (port : Nat) (h : Kept p n o s) : Kept p n o (dropLink port s) := by
  unfold dropLink
  try dsimp only
  repeat' first
    | with_reducible assumption
    | with_reducible apply kept_foldl
    | with_reducible apply kept_leftPort
    | intro _
    | with_reducible refine kept_set ?_ rfl rfl rfl rfl rfl

theorem kept_leaveActive (port : Nat) (reason : Nat) (h : Kept p n o s) : Kept p n o (leaveActive port reason s) := by
  unfold leaveActive
  try dsimp only
  repeat' first
    | with_reducible assumption
    | with_reducible apply kept_recordErr
    | with_reducible apply kept_bump
    | with_reducible apply kept_enterHoldover
    | intro _
    | split

theorem kept_portTo (port : Nat) (st : Nat) (reason : Nat) (peer : Nat)
    (h : Kept p n o s) : Kept p n o (portTo port st reason peer s) := by
  unfold portTo
  try dsimp only
  repeat' first
    | with_reducible assumption
    | with_reducible apply kept_raiseEvent
    | with_reducible apply kept_setPort
    | with_reducible apply kept_checkFabric
    | with_reducible apply kept_dropLink
    | with_reducible apply kept_leaveActive
    | intro _
    | split

theorem kept_retrain (port : Nat) (reason : Nat) (h : Kept p n o s) : Kept p n o (retrain port reason s) := by
  unfold retrain
  repeat' first
    | with_reducible assumption
    | with_reducible apply kept_portTo

theorem kept_failPort (port : Nat) (reason : Nat) (h : Kept p n o s) : Kept p n o (failPort port reason s) := by
  unfold failPort
  repeat' first
    | with_reducible assumption
    | with_reducible apply kept_portTo

theorem kept_disablePort (port : Nat) (reason : Nat) (linkUp : Bool)
    (h : Kept p n o s) : Kept p n o (disablePort port reason linkUp s) := by
  unfold disablePort
  try dsimp only
  repeat' first
    | with_reducible assumption
    | with_reducible apply kept_sendControl
    | with_reducible apply kept_portTo
    | intro _
    | split

theorem kept_fatalStop (die : Nat) (cause : Nat) (linkUp : Bool)
    (h : Kept p n o s) : Kept p n o (fatalStop die cause linkUp s) := by
  unfold fatalStop
  repeat' first
    | with_reducible assumption
    | with_reducible apply kept_disablePort
    | with_reducible apply kept_recordErrOn
    | with_reducible apply kept_foldl
    | intro _
    | split

theorem kept_sendIdentity (port : Nat) (h : Kept p n o s) : Kept p n o (sendIdentity port s) := by
  unfold sendIdentity
  repeat' first
    | with_reducible assumption
    | with_reducible apply kept_sendControl
    | with_reducible apply kept_modPort
    | with_reducible apply kept_tickFree

theorem kept_startProbes (port : Nat) (h : Kept p n o s) : Kept p n o (startProbes port s) := by
  unfold startProbes
  repeat' first
    | with_reducible assumption
    | with_reducible apply kept_sendControl
    | with_reducible apply kept_foldl
    | intro _
    | with_reducible refine kept_set ?_ rfl rfl rfl rfl rfl

theorem kept_enterActive (port : Nat) (h : Kept p n o s) : Kept p n o (enterActive port s) := by
  unfold enterActive
  try dsimp only
  repeat' first
    | with_reducible assumption
    | with_reducible apply kept_portTo
    | with_reducible apply kept_pumpAll
    | with_reducible apply kept_sendControl
    | intro _
    | split

theorem kept_endParam (port : Nat) (peerNode : Nat) (peerPort : Nat)
    (h : Kept p n o s) : Kept p n o (endParam port peerNode peerPort s) := by
  unfold endParam
  try dsimp only
  repeat' first
    | with_reducible assumption
    | with_reducible apply kept_portTo
    | with_reducible apply kept_sendIdentity
    | with_reducible apply kept_modPort
    | intro _
    | split

theorem kept_portAdvance (port : Nat) (peerNode : Nat) (peerPort : Nat) (lanes : Nat)
    (h : Kept p n o s) : Kept p n o (portAdvance port peerNode peerPort lanes s) := by
  unfold portAdvance
  try dsimp only
  repeat' first
    | with_reducible assumption
    | with_reducible apply kept_portTo
    | with_reducible apply kept_sendControl
    | with_reducible apply kept_modPort
    | with_reducible apply kept_endParam
    | with_reducible apply kept_enterActive
    | intro _
    | split

theorem kept_execPortStateAdvance (port : Nat) (peerNode : Nat) (peerPort : Nat) (lanes : Nat)
    (h : Kept p n o s) : KeptRes p n o (execPortStateAdvance port peerNode peerPort lanes s) := by
  unfold execPortStateAdvance
  repeat' first
    | with_reducible assumption
    | with_reducible apply kept_live
    | with_reducible apply kept_whenB
    | with_reducible apply kept_portAdvance
    | intro _

theorem kept_boundExpiry (port : Nat) (h : Kept p n o s) : Kept p n o (boundExpiry port s) := by
  unfold boundExpiry
  try dsimp only
  repeat' first
    | with_reducible assumption
    | with_reducible apply kept_failPort
    | intro _
    | split

theorem kept_execPortBoundExpiry (port : Nat) (h : Kept p n o s) : KeptRes p n o (execPortBoundExpiry port s) := by
  unfold execPortBoundExpiry
  repeat' first
    | with_reducible assumption
    | with_reducible apply kept_live
    | with_reducible apply kept_whenB
    | with_reducible apply kept_boundExpiry
    | intro _

theorem kept_portRetry (port : Nat) (h : Kept p n o s) : Kept p n o (portRetry port s) := by
  unfold portRetry
  repeat' first
    | with_reducible assumption
    | with_reducible apply kept_retrain
    | intro _
    | split

theorem kept_execPortRetryTimer (port : Nat) (h : Kept p n o s) : KeptRes p n o (execPortRetryTimer port s) := by
  unfold execPortRetryTimer
  repeat' first
    | with_reducible assumption
    | with_reducible apply kept_live
    | with_reducible apply kept_whenB
    | with_reducible apply kept_portRetry
    | intro _

theorem kept_replayLimit (port : Nat) (lockLost : Bool) (h : Kept p n o s) : Kept p n o (replayLimit port lockLost s) := by
  unfold replayLimit
  repeat' first
    | with_reducible assumption
    | with_reducible apply kept_retrain
    | intro _
    | split

theorem kept_execReplayLimit (port : Nat) (lockLost : Bool)
    (h : Kept p n o s) : KeptRes p n o (execReplayLimit port lockLost s) := by
  unfold execReplayLimit
  repeat' first
    | with_reducible assumption
    | with_reducible apply kept_live
    | with_reducible apply kept_whenB
    | with_reducible apply kept_replayLimit
    | intro _

theorem kept_peerDisabled (port : Nat) (h : Kept p n o s) : Kept p n o (peerDisabled port s) := by
  unfold peerDisabled
  try dsimp only
  repeat' first
    | with_reducible assumption
    | with_reducible apply kept_failPort
    | intro _
    | split

theorem kept_execDisable (port : Nat) (h : Kept p n o s) : KeptRes p n o (execDisable port s) := by
  unfold execDisable
  repeat' first
    | with_reducible assumption
    | with_reducible apply kept_live
    | with_reducible apply kept_whenB
    | with_reducible apply kept_peerDisabled
    | intro _

theorem kept_identityExchange (port : Nat) (nonce : Bytes) (key : Bytes) (signature : Bytes)
    (h : Kept p n o s) : Kept p n o (identityExchange port nonce key signature s) := by
  unfold identityExchange
  try dsimp only
  repeat' first
    | with_reducible assumption
    | with_reducible apply kept_sendIdentity
    | with_reducible apply kept_startProbes
    | with_reducible apply kept_portTo
    | with_reducible apply kept_setPort
    | with_reducible apply kept_failPort
    | with_reducible apply kept_recordErr
    | intro _
    | split

theorem kept_execIdentityExchange (port : Nat) (nonce : Bytes) (key : Bytes) (signature : Bytes)
    (h : Kept p n o s) : KeptRes p n o (execIdentityExchange port nonce key signature s) := by
  unfold execIdentityExchange
  repeat' first
    | with_reducible assumption
    | with_reducible apply kept_live
    | with_reducible apply kept_whenB
    | with_reducible apply kept_identityExchange
    | intro _

theorem kept_takeAck (port : Nat) (f : Flit) (h : Kept p n o s) : Kept p n o (takeAck port f s) := by
  unfold takeAck
  try dsimp only
  repeat' first
    | with_reducible assumption
    | with_reducible apply kept_setPort

theorem kept_askReplay (port : Nat) (h : Kept p n o s) : Kept p n o (askReplay port s) := by
  unfold askReplay
  try dsimp only
  repeat' first
    | with_reducible assumption
    | with_reducible apply kept_pumpPort
    | with_reducible apply kept_bump
    | with_reducible apply kept_setPort
    | intro _
    | split

theorem kept_resend (port : Nat) (seq : Nat) (h : Kept p n o s) : Kept p n o (resend port seq s) := by
  unfold resend
  try dsimp only
  repeat' first
    | with_reducible assumption
    | with_reducible apply kept_emits
    | with_reducible apply kept_bump
    | with_reducible apply kept_setPort

theorem kept_messageArrived (port : Nat) (m : List Flit) (h : Kept p n o s) : Kept p n o (messageArrived port m s) := by
  unfold messageArrived
  try dsimp only
  repeat' first
    | with_reducible assumption
    | with_reducible apply kept_modPort
    | with_reducible apply kept_bump
    | intro _
    | split
    | with_reducible refine kept_set ?_ rfl rfl rfl rfl rfl

theorem kept_acceptFlit (port : Nat) (f : Flit) (h : Kept p n o s) : Kept p n o (acceptFlit port f s) := by
  unfold acceptFlit
  try dsimp only
  repeat' first
    | with_reducible assumption
    | with_reducible apply kept_modPort
    | with_reducible apply kept_bump
    | with_reducible apply kept_messageArrived
    | with_reducible apply kept_setPort
    | intro _
    | split

theorem kept_stompOn (port : Nat) (f : Flit) (h : Kept p n o s) : Kept p n o (stompOn port f s) := by
  unfold stompOn
  try dsimp only
  repeat' first
    | with_reducible assumption
    | with_reducible apply kept_tickFree
    | with_reducible apply kept_emit
    | with_reducible apply kept_setPort
    | intro _
    | split

theorem kept_receiveFlit (port : Nat) (f : Flit) (h : Kept p n o s) : Kept p n o (receiveFlit port f s) := by
  unfold receiveFlit
  try dsimp only
  repeat' first
    | with_reducible assumption
    | with_reducible apply kept_takeAck
    | with_reducible apply kept_acceptFlit
    | with_reducible apply kept_askReplay
    | with_reducible apply kept_modPort
    | with_reducible apply kept_stompOn
    | with_reducible apply kept_bump
    | intro _
    | split

theorem kept_afterFlit (port : Nat) (h : Kept p n o s) : Kept p n o (afterFlit port s) := by
  unfold afterFlit
  try dsimp only
  repeat' first
    | with_reducible assumption
    | with_reducible apply kept_pumpAll
    | with_reducible apply kept_sendIdle
    | intro _
    | split

theorem kept_flitIn (port : Nat) (f : Flit) (h : Kept p n o s) : Kept p n o (flitIn port f s) := by
  unfold flitIn
  try dsimp only
  repeat' first
    | with_reducible assumption
    | with_reducible apply kept_receiveFlit
    | with_reducible apply kept_afterFlit
    | with_reducible apply kept_resend
    | intro _
    | split

theorem kept_execFlit (port : Nat) (f : Flit) (h : Kept p n o s) : KeptRes p n o (execFlit port f s) := by
  unfold execFlit
  repeat' first
    | with_reducible assumption
    | with_reducible apply kept_live
    | with_reducible apply kept_whenB
    | with_reducible apply kept_flitIn
    | intro _

theorem kept_execReplay (port : Nat) (f : Flit) (h : Kept p n o s) : KeptRes p n o (execReplay port f s) := by
  unfold execReplay
  repeat' first
    | with_reducible assumption
    | with_reducible apply kept_live
    | with_reducible apply kept_whenB
    | with_reducible apply kept_flitIn
    | intro _

theorem kept_tellReady (h : Kept p n o s) : Kept p n o (tellReady s) := by
  unfold tellReady
  repeat' first
    | with_reducible assumption
    | with_reducible apply kept_sendControl
    | with_reducible apply kept_foldl
    | intro _
    | split

theorem kept_becomeAligned (h : Kept p n o s) : Kept p n o (becomeAligned s) := by
  unfold becomeAligned
  repeat' first
    | with_reducible assumption
    | with_reducible apply kept_checkFabric
    | with_reducible apply kept_tellReady
    | with_reducible apply kept_nodeEvent
    | intro _
    | split
    | with_reducible refine kept_set ?_ rfl rfl rfl rfl rfl

theorem kept_stepTime (ns : Int) (h : Kept p n o s) : Kept p n o (stepTime ns s) := by
  unfold stepTime
  try dsimp only
  repeat' first
    | with_reducible assumption
    | with_reducible apply kept_becomeAligned
    | with_reducible apply kept_logRecord
    | intro _
    | with_reducible refine kept_set ?_ rfl rfl rfl rfl rfl

theorem kept_steer (p0 : Probe) (h : Kept p n o s) : Kept p n o (steer p0 s) := by
  unfold steer
  repeat' first
    | with_reducible assumption
    | with_reducible apply kept_enterHoldover
    | with_reducible apply kept_stepTime
    | with_reducible apply kept_tickFree
    | with_reducible apply kept_becomeAligned
    | intro _
    | split
    | with_reducible refine kept_set ?_ rfl rfl rfl rfl rfl

theorem kept_probesDone (port : Nat) (ps : List Probe) (h : Kept p n o s) : Kept p n o (probesDone port ps s) := by
  unfold probesDone
  try dsimp only
  repeat' first
    | with_reducible assumption
    | with_reducible apply kept_modPort
    | with_reducible apply kept_tickFree
    | with_reducible apply kept_steer
    | intro _
    | split
    | refine kept_fst (by assumption) ?_
    | refine kept_snd (by assumption) ?_
    | with_reducible refine kept_set ?_ rfl rfl rfl rfl rfl

theorem kept_timeProbe (port : Nat) (p0 : Probe) (h : Kept p n o s) : Kept p n o (timeProbe port p0 s) := by
  unfold timeProbe
  try dsimp only
  repeat' first
    | with_reducible assumption
    | with_reducible apply kept_sendControl
    | with_reducible apply kept_probesDone
    | intro _
    | split
    | refine kept_fst (by assumption) ?_
    | refine kept_snd (by assumption) ?_
    | with_reducible refine kept_set ?_ rfl rfl rfl rfl rfl

theorem kept_execTimeProbe (port : Nat) (p0 : Probe) (h : Kept p n o s) : KeptRes p n o (execTimeProbe port p0 s) := by
  unfold execTimeProbe
  repeat' first
    | with_reducible assumption
    | with_reducible apply kept_live
    | with_reducible apply kept_whenB
    | with_reducible apply kept_timeProbe
    | intro _

theorem kept_timeReady (port : Nat) (h : Kept p n o s) : Kept p n o (timeReady port s) := by
  unfold timeReady
  repeat' first
    | with_reducible assumption
    | with_reducible apply kept_startProbes
    | intro _
    | split

theorem kept_execTimeReady (port : Nat) (h : Kept p n o s) : KeptRes p n o (execTimeReady port s) := by
  unfold execTimeReady
  repeat' first
    | with_reducible assumption
    | with_reducible apply kept_live
    | with_reducible apply kept_whenB
    | with_reducible apply kept_timeReady
    | intro _

theorem kept_probeTimer (h : Kept p n o s) : Kept p n o (probeTimer s) := by
  unfold probeTimer
  repeat' first
    | with_reducible assumption
    | with_reducible apply kept_startProbes
    | with_reducible apply kept_foldl
    | intro _
    | split

theorem kept_execTimeProbeTimer (h : Kept p n o s) : KeptRes p n o (execTimeProbeTimer s) := by
  unfold execTimeProbeTimer
  repeat' first
    | with_reducible assumption
    | with_reducible apply kept_live
    | with_reducible apply kept_probeTimer

theorem kept_applyEntry (old : Option PortEntry) (port : Nat) (h : Kept p n o s) : Kept p n o (applyEntry old port s) := by
  unfold applyEntry
  try dsimp only
  repeat' first
    | with_reducible assumption
    | with_reducible apply kept_retrain
    | with_reducible apply kept_disablePort
    | intro _
    | split

theorem kept_applyTimeTree (h : Kept p n o s) : Kept p n o (applyTimeTree s) := by
  unfold applyTimeTree
  repeat' first
    | with_reducible assumption
    | with_reducible apply kept_checkFabric
    | with_reducible apply kept_tellReady
    | with_reducible apply kept_enterHoldover
    | intro _
    | split
    | with_reducible refine kept_set ?_ rfl rfl rfl rfl rfl

theorem kept_dropUnrouted (h : Kept p n o s) : Kept p n o (dropUnrouted s) := by
  unfold dropUnrouted
  try dsimp only
  repeat' first
    | with_reducible assumption
    | with_reducible apply kept_foldl
    | with_reducible apply kept_modPort
    | with_reducible apply kept_bump
    | intro _
    | with_reducible refine kept_set ?_ rfl rfl rfl rfl rfl

theorem kept_applyTopology (c : Cmd) (d : Bytes) (h : Kept p n o s) : Kept p n o (applyTopology c d s) := by
  unfold applyTopology
  try dsimp only
  repeat' first
    | with_reducible assumption
    | with_reducible apply kept_pumpAll
    | with_reducible apply kept_checkFabric
    | with_reducible apply kept_applyTimeTree
    | with_reducible apply kept_dropUnrouted
    | with_reducible apply kept_applyEntry
    | with_reducible apply kept_foldl
    | intro _
    | with_reducible refine kept_set ?_ rfl rfl rfl rfl rfl

theorem kept_topologyLoad (c : Cmd) (h : Kept p n o s) : Kept p n o (topologyLoad c s) := by
  unfold topologyLoad
  repeat' first
    | with_reducible assumption
    | with_reducible apply kept_refuse
    | with_reducible apply kept_withData
    | with_reducible apply kept_finishPlain
    | with_reducible apply kept_applyTopology
    | intro _
    | split

theorem kept_execTopologyLoad (pair : Nat) (cid : Nat) (h : Kept p n o s) : KeptRes p n o (execTopologyLoad pair cid s) := by
  unfold execTopologyLoad
  repeat' first
    | with_reducible assumption
    | with_reducible apply kept_live
    | with_reducible apply kept_runCmd
    | with_reducible apply kept_topologyLoad
    | intro _

theorem kept_applyIdentity (old : Table Bytes) (port : Nat) (h : Kept p n o s) : Kept p n o (applyIdentity old port s) := by
  unfold applyIdentity
  try dsimp only
  repeat' first
    | with_reducible assumption
    | with_reducible apply kept_sendIdentity
    | with_reducible apply kept_modPort
    | with_reducible apply kept_retrain
    | intro _
    | split

theorem kept_peerIdentityLoad (c : Cmd) (h : Kept p n o s) : Kept p n o (peerIdentityLoad c s) := by
  unfold peerIdentityLoad
  try dsimp only
  repeat' first
    | with_reducible assumption
    | with_reducible apply kept_refuse
    | with_reducible apply kept_withData
    | with_reducible apply kept_finishPlain
    | with_reducible apply kept_applyIdentity
    | with_reducible apply kept_foldl
    | intro _
    | split
    | with_reducible refine kept_set ?_ rfl rfl rfl rfl rfl

theorem kept_execPeerIdentityLoad (pair : Nat) (cid : Nat)
    (h : Kept p n o s) : KeptRes p n o (execPeerIdentityLoad pair cid s) := by
  unfold execPeerIdentityLoad
  repeat' first
    | with_reducible assumption
    | with_reducible apply kept_live
    | with_reducible apply kept_runCmd
    | with_reducible apply kept_peerIdentityLoad
    | intro _

end Sys2Proof.Machine
end

