-- ==== Sys2Proof/Laws/KeepShaper.lean ====
section
/-! SUPPORT. What the operations of Machine/Shaper.lean keep. -/

namespace Sys2Proof.Machine

variable {p : List Instr} {n : Nat} {o : List Output} {s : State}

theorem kept_wheelTick (h : Kept p n o s) : Kept p n o (wheelTick s) := by
  unfold wheelTick
  try dsimp only
  repeat' first
    | with_reducible assumption
    | intro _
    | with_reducible refine kept_set ?_ rfl rfl rfl rfl rfl

theorem kept_execWheelSlot (h : Kept p n o s) : KeptRes p n o (execWheelSlot s) := by
  unfold execWheelSlot
  repeat' first
    | with_reducible assumption
    | with_reducible apply kept_live
    | with_reducible apply kept_wheelTick

theorem kept_overflowTick (h : Kept p n o s) : Kept p n o (overflowTick s) := by
  unfold overflowTick
  try dsimp only
  repeat' first
    | with_reducible assumption
    | with_reducible apply kept_placeSlot
    | with_reducible apply kept_foldl
    | intro _
    | with_reducible refine kept_set ?_ rfl rfl rfl rfl rfl

theorem kept_execOverflowSlot (h : Kept p n o s) : KeptRes p n o (execOverflowSlot s) := by
  unfold execOverflowSlot
  repeat' first
    | with_reducible assumption
    | with_reducible apply kept_live
    | with_reducible apply kept_overflowTick

theorem kept_activateSheet (port : Nat) (h : Kept p n o s) : Kept p n o (activateSheet port s) := by
  unfold activateSheet
  repeat' first
    | with_reducible assumption
    | intro _
    | split
    | refine kept_fst (by assumption) ?_
    | refine kept_snd (by assumption) ?_
    | with_reducible refine kept_set ?_ rfl rfl rfl rfl rfl

theorem kept_execCallSheetActivate (port : Nat) (h : Kept p n o s) : KeptRes p n o (execCallSheetActivate port s) := by
  unfold execCallSheetActivate
  repeat' first
    | with_reducible assumption
    | with_reducible apply kept_live
    | with_reducible apply kept_whenB
    | with_reducible apply kept_activateSheet
    | intro _

theorem kept_gateCross (port : Nat) (h : Kept p n o s) : Kept p n o (gateCross port s) := by
  unfold gateCross
  try dsimp only
  repeat' first
    | with_reducible assumption
    | with_reducible apply kept_bumpBy
    | with_reducible apply kept_bump
    | intro _
    | split
    | with_reducible refine kept_set ?_ rfl rfl rfl rfl rfl

theorem kept_execGateTransition (port : Nat) (h : Kept p n o s) : KeptRes p n o (execGateTransition port s) := by
  unfold execGateTransition
  repeat' first
    | with_reducible assumption
    | with_reducible apply kept_live
    | with_reducible apply kept_whenB
    | with_reducible apply kept_gateCross
    | intro _

theorem kept_flowSent (d : Nat) (p0 : Packet) (h : Kept p n o s) : Kept p n o (flowSent d p0 s) := by
  unfold flowSent
  try dsimp only
  repeat' first
    | with_reducible assumption
    | with_reducible apply kept_bumpBy
    | with_reducible apply kept_bump
    | with_reducible apply kept_startFlow
    | with_reducible apply kept_setFlow

theorem kept_startOwn (port : Nat) (h : Kept p n o s) : Kept p n o (startOwn port s) := by
  unfold startOwn
  try dsimp only
  repeat' first
    | with_reducible assumption
    | with_reducible apply kept_flowSent
    | with_reducible apply kept_pumpPort
    | with_reducible apply kept_modPort
    | intro _
    | split
    | refine kept_fst (by assumption) ?_
    | refine kept_snd (by assumption) ?_
    | with_reducible refine kept_set ?_ rfl rfl rfl rfl rfl

theorem kept_startRelayed (port : Nat) (h : Kept p n o s) : Kept p n o (startRelayed port s) := by
  unfold startRelayed
  repeat' first
    | with_reducible assumption
    | with_reducible apply kept_pumpAll
    | with_reducible apply kept_startNext
    | intro _
    | split

theorem kept_vc3Start (port : Nat) (relayed : Bool) (h : Kept p n o s) : Kept p n o (vc3Start port relayed s) := by
  unfold vc3Start
  try dsimp only
  repeat' first
    | with_reducible assumption
    | with_reducible apply kept_activateSheet
    | with_reducible apply kept_startRelayed
    | with_reducible apply kept_startOwn
    | intro _
    | split

theorem kept_execVc3MessageStart (port : Nat) (relayed : Bool)
    (h : Kept p n o s) : KeptRes p n o (execVc3MessageStart port relayed s) := by
  unfold execVc3MessageStart
  repeat' first
    | with_reducible assumption
    | with_reducible apply kept_live
    | with_reducible apply kept_whenB
    | with_reducible apply kept_vc3Start
    | intro _

theorem kept_callSheetLoad (c : Cmd) (h : Kept p n o s) : Kept p n o (callSheetLoad c s) := by
  unfold callSheetLoad
  try dsimp only
  repeat' first
    | with_reducible assumption
    | with_reducible apply kept_refuse
    | with_reducible apply kept_finishPlain
    | with_reducible apply kept_withData
    | intro _
    | split
    | with_reducible refine kept_set ?_ rfl rfl rfl rfl rfl

theorem kept_execCallSheetLoad (pair : Nat) (cid : Nat) (h : Kept p n o s) : KeptRes p n o (execCallSheetLoad pair cid s) := by
  unfold execCallSheetLoad
  repeat' first
    | with_reducible assumption
    | with_reducible apply kept_live
    | with_reducible apply kept_runCmd
    | with_reducible apply kept_callSheetLoad
    | intro _

theorem kept_shaperFlowSet (c : Cmd) (h : Kept p n o s) : Kept p n o (shaperFlowSet c s) := by
  unfold shaperFlowSet
  try dsimp only
  repeat' first
    | with_reducible assumption
    | with_reducible apply kept_refuse
    | with_reducible apply kept_finishPlain
    | with_reducible apply kept_setRaw
    | intro _
    | split

theorem kept_execShaperFlowSet (pair : Nat) (cid : Nat) (h : Kept p n o s) : KeptRes p n o (execShaperFlowSet pair cid s) := by
  unfold execShaperFlowSet
  repeat' first
    | with_reducible assumption
    | with_reducible apply kept_live
    | with_reducible apply kept_runCmd
    | with_reducible apply kept_shaperFlowSet
    | intro _

theorem kept_police (vc : Nat) (p0 : Packet) (h : Kept p n o s) : Kept p n o (police vc p0 s).1 := by
  unfold police
  try dsimp only
  repeat' first
    | with_reducible assumption
    | with_reducible apply kept_bump
    | intro _
    | split
    | refine kept_fst (by assumption) ?_
    | refine kept_snd (by assumption) ?_
    | with_reducible refine kept_set ?_ rfl rfl rfl rfl rfl

theorem kept_policerSet (c : Cmd) (h : Kept p n o s) : Kept p n o (policerSet c s) := by
  unfold policerSet
  try dsimp only
  repeat' first
    | with_reducible assumption
    | with_reducible apply kept_refuse
    | with_reducible apply kept_finishPlain
    | intro _
    | split
    | with_reducible refine kept_set ?_ rfl rfl rfl rfl rfl

theorem kept_execPolicerSet (pair : Nat) (cid : Nat) (h : Kept p n o s) : KeptRes p n o (execPolicerSet pair cid s) := by
  unfold execPolicerSet
  repeat' first
    | with_reducible assumption
    | with_reducible apply kept_live
    | with_reducible apply kept_runCmd
    | with_reducible apply kept_policerSet
    | intro _

end Sys2Proof.Machine
end

