-- ==== Sys2Proof/Laws/KeepRdma.lean ====
section
/-! SUPPORT. What the operations of Machine/Rdma.lean keep. -/

namespace Sys2Proof.Machine

variable {p : List Instr} {n : Nat} {o : List Output} {s : State}

theorem kept_modQp (n0 : Nat) (f : Qp → Qp) (h : Kept p n o s) : Kept p n o (modQp n0 f s) := by
  unfold modQp
  repeat' first
    | with_reducible assumption
    | intro _
    | with_reducible refine kept_set ?_ rfl rfl rfl rfl rfl

theorem kept_touchQp (n0 : Nat) (h : Kept p n o s) : Kept p n o (touchQp n0 s) := by
  unfold touchQp
  repeat' first
    | with_reducible assumption
    | with_reducible apply kept_modQp
    | intro _
    | with_reducible refine kept_set ?_ rfl rfl rfl rfl rfl

theorem kept_makeRoom {p : List Instr} {n : Nat} {o : List Output} {s : State}
    (h : Kept p n o s) : Kept p n o (makeRoom s).1 := by
  unfold makeRoom
  repeat' first
    | with_reducible assumption
    | with_reducible apply kept_bump
    | with_reducible apply kept_emit
    | with_reducible apply kept_tickFree
    | with_reducible apply kept_modQp
    | intro _
    | split

theorem kept_startFetch (port : Nat) (n0 : Nat)
    (h : Kept p n o s) : Kept p n o (startFetch port n0 s) := by
  unfold startFetch
  try dsimp only
  repeat' first
    | with_reducible assumption
    | with_reducible apply kept_makeRoom
    | with_reducible apply kept_bump
    | with_reducible apply kept_emit
    | intro _
    | with_reducible refine kept_set ?_ rfl rfl rfl rfl rfl

theorem kept_sendPacket (vc : Nat) (dest : Nat) (p0 : Packet) (h : Kept p n o s) : Kept p n o (sendPacket vc dest p0 s) := by
  unfold sendPacket
  try dsimp only
  repeat' first
    | with_reducible assumption
    | with_reducible apply kept_emit
    | with_reducible apply kept_postVc3
    | with_reducible apply kept_pumpAll
    | with_reducible apply kept_sendOwn
    | intro _
    | split

theorem kept_sendNak (p0 : Packet) (syn : Nat) (psn : Nat) (hint : Nat)
    (h : Kept p n o s) : Kept p n o (sendNak p0 syn psn hint s) := by
  unfold sendNak
  repeat' first
    | with_reducible assumption
    | with_reducible apply kept_sendPacket
    | with_reducible apply kept_tickFree

theorem kept_nakAt (n0 : Nat) (p0 : Packet) (syn : Nat) (psn : Nat) (hint : Nat)
    (h : Kept p n o s) : Kept p n o (nakAt n0 p0 syn psn hint s) := by
  unfold nakAt
  repeat' first
    | with_reducible assumption
    | with_reducible apply kept_sendNak
    | with_reducible apply kept_modQp

theorem kept_sendAck (n0 : Nat) (h : Kept p n o s) : Kept p n o (sendAck n0 s) := by
  unfold sendAck
  try dsimp only
  repeat' first
    | with_reducible assumption
    | with_reducible apply kept_sendPacket
    | with_reducible apply kept_tickFree
    | with_reducible apply kept_modQp
    | intro _
    | split

theorem kept_performedOne (n0 : Nat) (ackReq : Bool) (h : Kept p n o s) : Kept p n o (performedOne n0 ackReq s) := by
  unfold performedOne
  try dsimp only
  repeat' first
    | with_reducible assumption
    | with_reducible apply kept_modQp
    | with_reducible apply kept_sendAck
    | intro _
    | split

theorem kept_sendNext (n0 : Nat) (h : Kept p n o s) : Kept p n o (sendNext n0 s).1 := by
  unfold sendNext
  try dsimp only
  repeat' first
    | with_reducible assumption
    | with_reducible apply kept_sendPacket
    | with_reducible apply kept_modQp
    | intro _
    | split

theorem kept_pumpQp (k m : Nat) (h : Kept p n o s) : Kept p n o (pumpQp k m s) := by
  induction m generalizing s with
  | zero => exact h
  | succ m ih =>
    unfold pumpQp
    dsimp only
    split
    · exact ih (kept_sendNext _ h)
    · exact kept_sendNext _ h

theorem kept_kickQp (n0 : Nat) (h : Kept p n o s) : Kept p n o (kickQp n0 s) := by
  unfold kickQp
  repeat' first
    | with_reducible assumption
    | with_reducible apply kept_pumpQp

theorem kept_kickAll (h : Kept p n o s) : Kept p n o (kickAll s) := by
  unfold kickAll
  repeat' first
    | with_reducible assumption
    | with_reducible apply kept_kickQp
    | with_reducible apply kept_foldl
    | intro _

theorem kept_stopDelivery (n0 : Nat) (batch : Nat)
    (h : Kept p n o s) : Kept p n o (stopDelivery n0 batch s) := by
  unfold stopDelivery
  try dsimp only
  repeat' first
    | with_reducible assumption
    | with_reducible apply kept_recordErr
    | with_reducible apply kept_foldl
    | intro _
    | split
    | refine kept_fst (by assumption) ?_
    | refine kept_snd (by assumption) ?_
    | with_reducible refine kept_set ?_ rfl rfl rfl rfl rfl

theorem kept_completeWr (n0 : Nat) (w : WorkReq) (status : Nat) (result : Nat)
    (h : Kept p n o s) : Kept p n o (completeWr n0 w status result s) := by
  unfold completeWr
  try dsimp only
  repeat' first
    | with_reducible assumption
    | with_reducible apply kept_emit
    | with_reducible apply kept_stopDelivery
    | with_reducible apply kept_id
    | intro _
    | split

theorem kept_postWork (n0 : Nat) (kind : Nat) (addr : Nat) (key : Nat) (data : Bytes) (len : Nat) (batch : Nat)
    (h : Kept p n o s) : Kept p n o (postWork n0 kind addr key data len batch s) := by
  unfold postWork
  try dsimp only
  repeat' first
    | with_reducible assumption
    | with_reducible apply kept_completeWr
    | with_reducible apply kept_modQp
    | with_reducible apply kept_bump
    | with_reducible apply kept_emit
    | with_reducible apply kept_makeRoom
    | with_reducible apply kept_startFetch
    | with_reducible apply kept_kickQp
    | with_reducible apply kept_touchQp
    | with_reducible apply kept_id
    | intro _
    | split

theorem kept_execWorkRequestPost (qp : Nat) (kind : Nat) (addr : BitVec 64) (key : Nat) (data : Bytes) (len : Nat)
    (h : Kept p n o s) : KeptRes p n o (execWorkRequestPost qp kind addr key data len s) := by
  unfold execWorkRequestPost
  repeat' first
    | with_reducible assumption
    | with_reducible apply kept_live
    | with_reducible apply kept_whenB
    | with_reducible apply kept_postWork
    | intro _

theorem kept_flushWrs (n0 : Nat) (ws : List WorkReq) (h : Kept p n o s) : Kept p n o (flushWrs n0 ws s) := by
  unfold flushWrs
  repeat' first
    | with_reducible assumption
    | with_reducible apply kept_completeWr
    | with_reducible apply kept_foldl
    | intro _

theorem kept_qpError (n0 : Nat) (psn : Nat) (syn : Nat) (cause : Option Nat)
    (h : Kept p n o s) : Kept p n o (qpError n0 psn syn cause s) := by
  unfold qpError
  try dsimp only
  repeat' first
    | with_reducible assumption
    | with_reducible apply kept_foldl
    | with_reducible apply kept_modQp
    | with_reducible apply kept_recordErr
    | with_reducible apply kept_bump
    | with_reducible apply kept_flushWrs
    | with_reducible apply kept_completeWr
    | with_reducible apply kept_id
    | intro _
    | split

theorem kept_completeDone (k : Nat) (ws : List WorkReq) (left : Nat) (h : Kept p n o s) :
    Kept p n o (completeDone k ws left s) := by
  induction ws generalizing left s with
  | nil => exact kept_modQp _ _ h
  | cons w ws ih =>
    unfold completeDone
    split
    · exact ih _ (kept_completeWr _ _ _ _ h)
    · exact kept_modQp _ _ h

theorem kept_advanceAck (n0 : Nat) (psn0 : Nat) (h : Kept p n o s) : Kept p n o (advanceAck n0 psn0 s) := by
  unfold advanceAck
  try dsimp only
  repeat' first
    | with_reducible assumption
    | with_reducible apply kept_completeDone
    | with_reducible apply kept_modQp
    | intro _
    | split

theorem kept_retryFrom (n0 : Nat) (psn : Nat) (h : Kept p n o s) : Kept p n o (retryFrom n0 psn s) := by
  unfold retryFrom
  repeat' first
    | with_reducible assumption
    | with_reducible apply kept_qpError
    | with_reducible apply kept_kickQp
    | with_reducible apply kept_bump
    | with_reducible apply kept_modQp
    | intro _
    | split

theorem kept_retryTimer (n0 : Nat) (h : Kept p n o s) : Kept p n o (retryTimer n0 s) := by
  unfold retryTimer
  repeat' first
    | with_reducible assumption
    | with_reducible apply kept_retryFrom
    | intro _
    | split

theorem kept_execRetryTimer (qp : Nat) (h : Kept p n o s) : KeptRes p n o (execRetryTimer qp s) := by
  unfold execRetryTimer
  repeat' first
    | with_reducible assumption
    | with_reducible apply kept_live
    | with_reducible apply kept_retryTimer
    | intro _

theorem kept_ackTimer (n0 : Nat) (h : Kept p n o s) : Kept p n o (ackTimer n0 s) := by
  unfold ackTimer
  repeat' first
    | with_reducible assumption
    | with_reducible apply kept_sendAck
    | intro _
    | split

theorem kept_execAckTimer (qp : Nat) (h : Kept p n o s) : KeptRes p n o (execAckTimer qp s) := by
  unfold execAckTimer
  repeat' first
    | with_reducible assumption
    | with_reducible apply kept_live
    | with_reducible apply kept_ackTimer
    | intro _

theorem kept_backoffExpiry (n0 : Nat) (h : Kept p n o s) : Kept p n o (backoffExpiry n0 s) := by
  unfold backoffExpiry
  repeat' first
    | with_reducible assumption
    | with_reducible apply kept_kickQp
    | with_reducible apply kept_modQp
    | intro _
    | split

theorem kept_execNakBackoffExpiry (qp : Nat) (h : Kept p n o s) : KeptRes p n o (execNakBackoffExpiry qp s) := by
  unfold execNakBackoffExpiry
  repeat' first
    | with_reducible assumption
    | with_reducible apply kept_live
    | with_reducible apply kept_backoffExpiry
    | intro _

theorem kept_takeAckPacket (p0 : Packet) (h : Kept p n o s) : Kept p n o (takeAckPacket p0 s) := by
  unfold takeAckPacket
  try dsimp only
  repeat' first
    | with_reducible assumption
    | with_reducible apply kept_kickQp
    | with_reducible apply kept_advanceAck

theorem kept_missNak (n0 : Nat) (psn : Nat) (h : Kept p n o s) : Kept p n o (missNak n0 psn s) := by
  unfold missNak
  repeat' first
    | with_reducible assumption
    | with_reducible apply kept_qpError
    | with_reducible apply kept_modQp
    | with_reducible apply kept_id
    | intro _
    | split

theorem kept_takeNakPacket (p0 : Packet) (h : Kept p n o s) : Kept p n o (takeNakPacket p0 s) := by
  unfold takeNakPacket
  try dsimp only
  repeat' first
    | with_reducible assumption
    | with_reducible apply kept_advanceAck
    | with_reducible apply kept_modQp
    | with_reducible apply kept_retryFrom
    | with_reducible apply kept_missNak
    | with_reducible apply kept_qpError
    | intro _
    | split

theorem kept_takeReadResp (p0 : Packet) (h : Kept p n o s) : Kept p n o (takeReadResp p0 s) := by
  unfold takeReadResp
  try dsimp only
  repeat' first
    | with_reducible assumption
    | with_reducible apply kept_modQp
    | with_reducible apply kept_kickQp
    | with_reducible apply kept_advanceAck
    | with_reducible apply kept_id
    | intro _
    | split

theorem kept_keyFail (p0 : Packet)
    (h : Kept p n o s) : Kept p n o (keyFail p0 s) := by
  unfold keyFail
  repeat' first
    | with_reducible assumption
    | with_reducible apply kept_nakAt
    | with_reducible apply kept_recordErr
    | with_reducible apply kept_bump

theorem kept_keyRefuse (n0 : Nat) (q : Qp) (p0 : Packet)
    (h : Kept p n o s) : Kept p n o (keyRefuse n0 q p0 s) := by
  unfold keyRefuse
  repeat' first
    | with_reducible assumption
    | with_reducible apply kept_keyFail
    | with_reducible apply kept_modQp
    | split

theorem kept_takeIndex (h : Kept p n o s) : Kept p n o (takeIndex s) := by
  unfold takeIndex
  repeat' first
    | with_reducible assumption
    | intro _
    | split
    | with_reducible refine kept_set ?_ rfl rfl rfl rfl rfl

theorem kept_regionRegister (c : Cmd)
    (h : Kept p n o s) : Kept p n o (regionRegister c s) := by
  unfold regionRegister
  try dsimp only
  repeat' first
    | with_reducible assumption
    | with_reducible apply kept_refuse
    | with_reducible apply kept_withData
    | with_reducible apply kept_storeObject
    | with_reducible apply kept_takeIndex
    | with_reducible apply kept_finish
    | intro _
    | split
    | refine kept_fst (by assumption) ?_
    | refine kept_snd (by assumption) ?_
    | with_reducible refine kept_set ?_ rfl rfl rfl rfl rfl

theorem kept_execRegionRegister (pair : Nat) (cid : Nat) (h : Kept p n o s) : KeptRes p n o (execRegionRegister pair cid s) := by
  unfold execRegionRegister
  repeat' first
    | with_reducible assumption
    | with_reducible apply kept_live
    | with_reducible apply kept_runCmd
    | with_reducible apply kept_regionRegister
    | intro _

theorem kept_regionRevoke (c : Cmd)
    (h : Kept p n o s) : Kept p n o (regionRevoke c s) := by
  unfold regionRevoke
  try dsimp only
  repeat' first
    | with_reducible assumption
    | with_reducible apply kept_refuse
    | with_reducible apply kept_markRunning
    | with_reducible apply kept_emit
    | intro _
    | split
    | refine kept_fst (by assumption) ?_
    | refine kept_snd (by assumption) ?_
    | with_reducible refine kept_set ?_ rfl rfl rfl rfl rfl

theorem kept_execRegionRevoke (pair : Nat) (cid : Nat) (h : Kept p n o s) : KeptRes p n o (execRegionRevoke pair cid s) := by
  unfold execRegionRevoke
  repeat' first
    | with_reducible assumption
    | with_reducible apply kept_live
    | with_reducible apply kept_runCmd
    | with_reducible apply kept_regionRevoke
    | intro _

theorem kept_revokeDrain (i : Nat) (h : Kept p n o s) : Kept p n o (revokeDrain i s) := by
  unfold revokeDrain
  repeat' first
    | with_reducible assumption
    | with_reducible apply kept_finishPlain
    | intro _
    | split
    | refine kept_fst (by assumption) ?_
    | refine kept_snd (by assumption) ?_
    | with_reducible refine kept_set ?_ rfl rfl rfl rfl rfl

theorem kept_execRevokeDrainComplete (index : Nat) (h : Kept p n o s) : KeptRes p n o (execRevokeDrainComplete index s) := by
  unfold execRevokeDrainComplete
  repeat' first
    | with_reducible assumption
    | with_reducible apply kept_live
    | with_reducible apply kept_revokeDrain
    | intro _

theorem kept_advanceE (n0 : Nat) (k : Nat) (h : Kept p n o s) : Kept p n o (advanceE n0 k s) := by
  unfold advanceE
  repeat' first
    | with_reducible assumption
    | with_reducible apply kept_modQp

theorem kept_performRead (p0 : Packet) (g : Region)
    (h : Kept p n o s) : Kept p n o (performRead p0 g s) := by
  unfold performRead
  try dsimp only
  repeat' first
    | with_reducible assumption
    | with_reducible apply kept_emits
    | with_reducible apply kept_sendPacket
    | with_reducible apply kept_foldl
    | intro _

theorem kept_performWrite (p0 : Packet) (g : Region)
    (h : Kept p n o s) : Kept p n o (performWrite p0 g s) := by
  unfold performWrite
  repeat' first
    | with_reducible assumption
    | with_reducible apply kept_emits

theorem kept_performPacket (n0 : Nat) (q : Qp) (p0 : Packet)
    (h : Kept p n o s) : Kept p n o (performPacket n0 q p0 s) := by
  unfold performPacket
  repeat' first
    | with_reducible assumption
    | with_reducible apply kept_keyRefuse
    | with_reducible apply kept_performedOne
    | with_reducible apply kept_advanceE
    | with_reducible apply kept_performWrite
    | with_reducible apply kept_performRead
    | with_reducible apply kept_nakAt
    | with_reducible apply kept_bump
    | with_reducible apply kept_modQp
    | with_reducible apply kept_emit
    | intro _
    | split

theorem kept_duplicatePacket (n0 : Nat) (p0 : Packet) (h : Kept p n o s) : Kept p n o (duplicatePacket n0 p0 s) := by
  unfold duplicatePacket
  repeat' first
    | with_reducible assumption
    | with_reducible apply kept_keyFail
    | with_reducible apply kept_performRead
    | with_reducible apply kept_sendAck
    | intro _
    | split

theorem kept_respond (n0 : Nat) (q : Qp) (p0 : Packet)
    (h : Kept p n o s) : Kept p n o (respond n0 q p0 s) := by
  unfold respond
  try dsimp only
  repeat' first
    | with_reducible assumption
    | with_reducible apply kept_sendNak
    | with_reducible apply kept_performPacket
    | with_reducible apply kept_duplicatePacket
    | with_reducible apply kept_nakAt
    | with_reducible apply kept_modQp
    | intro _
    | split

theorem kept_processPacket (n0 : Nat) (p0 : Packet) (h : Kept p n o s) : Kept p n o (processPacket n0 p0 s) := by
  unfold processPacket
  try dsimp only
  repeat' first
    | with_reducible assumption
    | with_reducible apply kept_touchQp
    | with_reducible apply kept_takeAckPacket
    | with_reducible apply kept_takeNakPacket
    | with_reducible apply kept_takeReadResp
    | with_reducible apply kept_respond
    | intro _
    | split

theorem kept_missPeak (port : Nat) (h : Kept p n o s) : Kept p n o (missPeak port s) := by
  unfold missPeak
  repeat' first
    | with_reducible assumption
    | with_reducible apply kept_setRaw

theorem kept_holdPacket (port : Nat) (n0 : Nat) (p0 : Packet) (h : Kept p n o s) : Kept p n o (holdPacket port n0 p0 s) := by
  unfold holdPacket
  repeat' first
    | with_reducible assumption
    | with_reducible apply kept_missPeak
    | with_reducible apply kept_modQp

theorem kept_missRefuse (n0 : Nat) (p0 : Packet) (pending : Bool)
    (h : Kept p n o s) : Kept p n o (missRefuse n0 p0 pending s) := by
  unfold missRefuse
  try dsimp only
  repeat' first
    | with_reducible assumption
    | with_reducible apply kept_sendNak
    | with_reducible apply kept_bump
    | with_reducible apply kept_modQp
    | intro _
    | split

theorem kept_missPacket (port : Nat) (n0 : Nat) (q : Qp) (p0 : Packet)
    (h : Kept p n o s) : Kept p n o (missPacket port n0 q p0 s) := by
  unfold missPacket
  try dsimp only
  repeat' first
    | with_reducible assumption
    | with_reducible apply kept_holdPacket
    | with_reducible apply kept_missRefuse
    | with_reducible apply kept_startFetch
    | intro _
    | split

theorem kept_admitPacket (port : Nat) (p0 : Packet) (h : Kept p n o s) : Kept p n o (admitPacket port p0 s) := by
  unfold admitPacket
  repeat' first
    | with_reducible assumption
    | with_reducible apply kept_processPacket
    | with_reducible apply kept_missPacket
    | intro _
    | split

theorem kept_receivePacket (port : Nat) (vc : Nat) (op : Nat) (p0 : Packet)
    (h : Kept p n o s) : Kept p n o (receivePacket port vc op p0 s) := by
  unfold receivePacket
  try dsimp only
  repeat' first
    | with_reducible assumption
    | with_reducible apply kept_bump
    | with_reducible apply kept_police
    | with_reducible apply kept_admitPacket
    | with_reducible apply kept_sendNak
    | intro _
    | split

theorem kept_execWritePacket (port : Nat) (vc : Nat) (p0 : Packet)
    (h : Kept p n o s) : KeptRes p n o (execWritePacket port vc p0 s) := by
  unfold execWritePacket
  repeat' first
    | with_reducible assumption
    | with_reducible apply kept_live
    | with_reducible apply kept_receivePacket
    | intro _

theorem kept_readReqIn (port : Nat) (vc : Nat) (p0 : Packet) (data : Bytes)
    (h : Kept p n o s) : Kept p n o (readReqIn port vc p0 data s) := by
  unfold readReqIn
  try dsimp only
  repeat' first
    | with_reducible assumption
    | with_reducible apply kept_receivePacket
    | intro _
    | split

theorem kept_execReadReq (port : Nat) (vc : Nat) (p0 : Packet) (data : Bytes)
    (h : Kept p n o s) : KeptRes p n o (execReadReq port vc p0 data s) := by
  unfold execReadReq
  repeat' first
    | with_reducible assumption
    | with_reducible apply kept_live
    | with_reducible apply kept_readReqIn
    | intro _

theorem kept_execReadResp (port : Nat) (p0 : Packet) (h : Kept p n o s) : KeptRes p n o (execReadResp port p0 s) := by
  unfold execReadResp
  repeat' first
    | with_reducible assumption
    | with_reducible apply kept_live
    | with_reducible apply kept_receivePacket
    | intro _

theorem kept_execSend (port : Nat) (vc : Nat) (p0 : Packet) (h : Kept p n o s) : KeptRes p n o (execSend port vc p0 s) := by
  unfold execSend
  repeat' first
    | with_reducible assumption
    | with_reducible apply kept_live
    | with_reducible apply kept_receivePacket
    | intro _

theorem kept_execFlushPacket (port : Nat) (vc : Nat) (p0 : Packet)
    (h : Kept p n o s) : KeptRes p n o (execFlushPacket port vc p0 s) := by
  unfold execFlushPacket
  repeat' first
    | with_reducible assumption
    | with_reducible apply kept_live
    | with_reducible apply kept_receivePacket
    | intro _

theorem kept_execAck (port : Nat) (p0 : Packet) (h : Kept p n o s) : KeptRes p n o (execAck port p0 s) := by
  unfold execAck
  repeat' first
    | with_reducible assumption
    | with_reducible apply kept_live
    | with_reducible apply kept_receivePacket
    | intro _

theorem kept_execNak (port : Nat) (p0 : Packet) (h : Kept p n o s) : KeptRes p n o (execNak port p0 s) := by
  unfold execNak
  repeat' first
    | with_reducible assumption
    | with_reducible apply kept_live
    | with_reducible apply kept_receivePacket
    | intro _

theorem kept_contextArrives (port : Nat) (n0 : Nat) (h : Kept p n o s) : Kept p n o (contextArrives port n0 s) := by
  unfold contextArrives
  try dsimp only
  repeat' first
    | with_reducible assumption
    | with_reducible apply kept_makeRoom
    | with_reducible apply kept_modQp
    | with_reducible apply kept_kickQp
    | with_reducible apply kept_processPacket
    | with_reducible apply kept_foldl
    | intro _
    | split
    | with_reducible refine kept_set ?_ rfl rfl rfl rfl rfl

theorem kept_execContextFetchComplete (port : Nat) (qp : Nat)
    (h : Kept p n o s) : KeptRes p n o (execContextFetchComplete port qp s) := by
  unfold execContextFetchComplete
  repeat' first
    | with_reducible assumption
    | with_reducible apply kept_live
    | with_reducible apply kept_contextArrives
    | intro _

theorem kept_visibilityRead (n0 : Nat) (h : Kept p n o s) : Kept p n o (visibilityRead n0 s) := by
  unfold visibilityRead
  try dsimp only
  repeat' first
    | with_reducible assumption
    | with_reducible apply kept_respond
    | with_reducible apply kept_sendAck
    | with_reducible apply kept_modQp
    | intro _
    | split

theorem kept_execVisibilityReadComplete (qp : Nat) (h : Kept p n o s) : KeptRes p n o (execVisibilityReadComplete qp s) := by
  unfold execVisibilityReadComplete
  repeat' first
    | with_reducible assumption
    | with_reducible apply kept_live
    | with_reducible apply kept_visibilityRead
    | intro _

theorem kept_receiveSlots (kind : Nat) {r : List Nat × State} (hr : receiveSlots kind s = some r) (h : Kept p n o s) :
    Kept p n o r.2 := by
  unfold receiveSlots at hr
  split at hr
  · cases hr; exact h
  · simp only [Option.bind_eq_some_iff, Option.map_eq_some_iff] at hr
    obtain ⟨_, _, _, _, rfl⟩ := hr
    exact kept_grantBufs _ _ _ (kept_grantBufs _ _ _ h)

theorem kept_createRoom (kind : Nat) {r : List Nat × State} (hr : createRoom kind s = some r) (h : Kept p n o s) :
    Kept p n o r.2 := by
  unfold createRoom at hr
  split at hr
  · exact kept_receiveSlots _ hr (kept_makeRoom h)
  · cases hr

theorem kept_qpCreate (c : Cmd) (h : Kept p n o s) : Kept p n o (qpCreate c s) := by
  unfold qpCreate
  dsimp only
  repeat' first
    | with_reducible exact h
    | with_reducible exact kept_refuse _ _ _ h
    | exact kept_finishPlain _ _ _ (kept_set (kept_createRoom _ (by assumption) h) rfl rfl rfl rfl rfl)
    | split

theorem kept_execQpCreate (pair : Nat) (cid : Nat) (h : Kept p n o s) : KeptRes p n o (execQpCreate pair cid s) := by
  unfold execQpCreate
  repeat' first
    | with_reducible assumption
    | with_reducible apply kept_live
    | with_reducible apply kept_runCmd
    | with_reducible apply kept_qpCreate
    | intro _

theorem kept_resetQp (n0 : Nat) (q : Qp)
    (h : Kept p n o s) : Kept p n o (resetQp n0 q s) := by
  unfold resetQp
  try dsimp only
  repeat' first
    | with_reducible assumption
    | with_reducible apply kept_flushWrs
    | intro _
    | with_reducible refine kept_set ?_ rfl rfl rfl rfl rfl

theorem kept_qpModify (action : Nat) (f : Cmd → Nat → Qp → State → State) (c : Cmd) (h_f : ∀ a0 a1 a2 t, Kept p n o t → Kept p n o (f a0 a1 a2 t))
    (h : Kept p n o s) : Kept p n o (qpModify action f c s) := by
  unfold qpModify
  try dsimp only
  repeat' first
    | with_reducible assumption
    | with_reducible apply kept_refuse
    | with_reducible apply h_f
    | intro _
    | split

theorem kept_qpReady (c : Cmd) (n0 : Nat) (q : Qp) (h : Kept p n o s) : Kept p n o (qpReady c n0 q s) := by
  unfold qpReady
  try dsimp only
  repeat' first
    | with_reducible assumption
    | with_reducible apply kept_refuse
    | with_reducible apply kept_finishPlain
    | with_reducible apply kept_modQp
    | intro _
    | split

theorem kept_qpToReset (c : Cmd) (n0 : Nat) (q : Qp) (h : Kept p n o s) : Kept p n o (qpToReset c n0 q s) := by
  unfold qpToReset
  repeat' first
    | with_reducible assumption
    | with_reducible apply kept_refuse
    | with_reducible apply kept_finishPlain
    | with_reducible apply kept_resetQp
    | intro _
    | split

theorem kept_qpToError (c : Cmd) (n0 : Nat) (q : Qp) (h : Kept p n o s) : Kept p n o (qpToError c n0 q s) := by
  unfold qpToError
  repeat' first
    | with_reducible assumption
    | with_reducible apply kept_refuse
    | with_reducible apply kept_finishPlain
    | with_reducible apply kept_qpError
    | intro _
    | split

theorem kept_execQpModifyReady (pair : Nat) (cid : Nat) (h : Kept p n o s) : KeptRes p n o (execQpModifyReady pair cid s) := by
  unfold execQpModifyReady
  repeat' first
    | with_reducible assumption
    | with_reducible apply kept_live
    | with_reducible apply kept_runCmd
    | with_reducible apply kept_qpModify
    | with_reducible apply kept_qpReady
    | intro _

theorem kept_execQpModifyReset (pair : Nat) (cid : Nat) (h : Kept p n o s) : KeptRes p n o (execQpModifyReset pair cid s) := by
  unfold execQpModifyReset
  repeat' first
    | with_reducible assumption
    | with_reducible apply kept_live
    | with_reducible apply kept_runCmd
    | with_reducible apply kept_qpModify
    | with_reducible apply kept_qpToReset
    | intro _

theorem kept_execQpModifyError (pair : Nat) (cid : Nat) (h : Kept p n o s) : KeptRes p n o (execQpModifyError pair cid s) := by
  unfold execQpModifyError
  repeat' first
    | with_reducible assumption
    | with_reducible apply kept_live
    | with_reducible apply kept_runCmd
    | with_reducible apply kept_qpModify
    | with_reducible apply kept_qpToError
    | intro _

theorem kept_execQpModifyQuery (pair : Nat) (cid : Nat) (pcieOk : Bool)
    (h : Kept p n o s) : KeptRes p n o (execQpModifyQuery pair cid pcieOk s) := by
  unfold execQpModifyQuery
  repeat' first
    | with_reducible assumption
    | with_reducible apply kept_live
    | with_reducible apply kept_runCmd
    | with_reducible apply kept_qpModify
    | with_reducible apply kept_replyData
    | with_reducible apply kept_id
    | intro _

theorem kept_qpDestroy (c : Cmd)
    (h : Kept p n o s) : Kept p n o (qpDestroy c s) := by
  unfold qpDestroy
  try dsimp only
  repeat' first
    | with_reducible assumption
    | with_reducible apply kept_refuse
    | with_reducible apply kept_freeChain
    | with_reducible apply kept_resetQp
    | with_reducible apply kept_finishPlain
    | with_reducible apply kept_foldl
    | intro _
    | split
    | refine kept_fst (by assumption) ?_
    | refine kept_snd (by assumption) ?_
    | with_reducible refine kept_set ?_ rfl rfl rfl rfl rfl

theorem kept_execQpDestroy (pair : Nat) (cid : Nat) (h : Kept p n o s) : KeptRes p n o (execQpDestroy pair cid s) := by
  unfold execQpDestroy
  repeat' first
    | with_reducible assumption
    | with_reducible apply kept_live
    | with_reducible apply kept_runCmd
    | with_reducible apply kept_qpDestroy
    | intro _

theorem kept_sendMessage (node : Nat) (m : Message) (h : Kept p n o s) : Kept p n o (sendMessage node m s) := by
  unfold sendMessage
  repeat' first
    | with_reducible assumption
    | with_reducible apply kept_postWork
    | with_reducible apply kept_emit
    | with_reducible apply kept_recordErr
    | with_reducible apply kept_foldl
    | intro _
    | split

theorem kept_freeSlot (m : Message) (h : Kept p n o s) : Kept p n o (freeSlot m s) := by
  unfold freeSlot
  repeat' first
    | with_reducible assumption
    | with_reducible apply kept_modQp
    | intro _
    | split

end Sys2Proof.Machine
end

