-- ==== Sys2Proof/Laws/KeepClapper.lean ====
section
/-! SUPPORT. What the operations of Machine/Clapper.lean keep. -/

namespace Sys2Proof.Machine

variable {p : List Instr} {n : Nat} {o : List Output} {s : State}

theorem kept_clapperRecord (release : Nat) (trigger : Nat) (h : Kept p n o s) : Kept p n o (clapperRecord release trigger s) := by
  unfold clapperRecord
  repeat' first
    | with_reducible assumption
    | with_reducible apply kept_traceRecord
    | with_reducible apply kept_logRecord

theorem kept_driveBall (on : Bool) (h : Kept p n o s) : Kept p n o (driveBall on s) := by
  unfold driveBall
  repeat' first
    | with_reducible assumption
    | with_reducible apply kept_emit
    | intro _
    | split
    | with_reducible refine kept_set ?_ rfl rfl rfl rfl rfl

theorem kept_enterFreeze (trigger : Nat) (drive : Bool) (h : Kept p n o s) : Kept p n o (enterFreeze trigger drive s) := by
  unfold enterFreeze
  try dsimp only
  repeat' first
    | with_reducible assumption
    | with_reducible apply kept_driveBall
    | with_reducible apply kept_clapperRecord
    | with_reducible apply kept_bump
    | intro _
    | split
    | with_reducible refine kept_set ?_ rfl rfl rfl rfl rfl

theorem kept_driveWritten (h : Kept p n o s) : Kept p n o (driveWritten s) := by
  unfold driveWritten
  split
  · exact kept_driveBall _ h
  · exact h

theorem kept_armWritten (h : Kept p n o s) : Kept p n o (armWritten s) := by
  unfold armWritten
  split
  · exact kept_enterFreeze _ _ h
  · exact h

theorem kept_releaseFreeze (h : Kept p n o s) : Kept p n o (releaseFreeze s) := by
  unfold releaseFreeze
  try dsimp only
  repeat' first
    | with_reducible assumption
    | with_reducible apply kept_clapperRecord
    | with_reducible apply kept_stopPipe
    | with_reducible apply kept_kickAll
    | with_reducible apply kept_applyOpPoints
    | with_reducible apply kept_foldl
    | intro _
    | split
    | with_reducible refine kept_set ?_ rfl rfl rfl rfl rfl

theorem kept_clapperCmd (action : Nat) (pair : Nat) (cid : Nat) (f : Cmd → State → State) (h_f : ∀ a0 t, Kept p n o t → Kept p n o (f a0 t))
    (h : Kept p n o s) : Kept p n o (clapperCmd action pair cid f s) := by
  unfold clapperCmd
  repeat' first
    | with_reducible assumption
    | with_reducible apply kept_runCmd
    | with_reducible apply kept_refuse
    | with_reducible apply h_f
    | intro _
    | split

theorem kept_execClapperFreezeNow (pair : Nat) (cid : Nat)
    (h : Kept p n o s) : KeptRes p n o (execClapperFreezeNow pair cid s) := by
  unfold execClapperFreezeNow
  repeat' first
    | with_reducible assumption
    | with_reducible apply kept_live
    | with_reducible apply kept_clapperCmd
    | with_reducible apply kept_finishPlain
    | with_reducible apply kept_enterFreeze
    | intro _

theorem kept_freezeAt (c : Cmd) (h : Kept p n o s) : Kept p n o (freezeAt c s) := by
  unfold freezeAt
  try dsimp only
  repeat' first
    | with_reducible assumption
    | with_reducible apply kept_finishPlain
    | with_reducible apply kept_enterFreeze
    | intro _
    | split
    | with_reducible refine kept_set ?_ rfl rfl rfl rfl rfl

theorem kept_execClapperFreezeAt (pair : Nat) (cid : Nat)
    (h : Kept p n o s) : KeptRes p n o (execClapperFreezeAt pair cid s) := by
  unfold execClapperFreezeAt
  repeat' first
    | with_reducible assumption
    | with_reducible apply kept_live
    | with_reducible apply kept_clapperCmd
    | with_reducible apply kept_freezeAt
    | intro _

theorem kept_clapperRelease (ballHigh : Bool) (c : Cmd) (h : Kept p n o s) : Kept p n o (clapperRelease ballHigh c s) := by
  unfold clapperRelease
  try dsimp only
  repeat' first
    | with_reducible assumption
    | with_reducible apply kept_refuse
    | with_reducible apply kept_driveBall
    | with_reducible apply kept_finishPlain
    | with_reducible apply kept_releaseFreeze
    | with_reducible apply kept_markRunning
    | intro _
    | split
    | with_reducible refine kept_set ?_ rfl rfl rfl rfl rfl

theorem kept_execClapperRelease (pair : Nat) (cid : Nat) (ballHigh : Bool)
    (h : Kept p n o s) : KeptRes p n o (execClapperRelease pair cid ballHigh s) := by
  unfold execClapperRelease
  repeat' first
    | with_reducible assumption
    | with_reducible apply kept_live
    | with_reducible apply kept_clapperCmd
    | with_reducible apply kept_clapperRelease
    | intro _

theorem kept_execClapperPinAssert (h : Kept p n o s) : KeptRes p n o (execClapperPinAssert s) := by
  unfold execClapperPinAssert
  try dsimp only
  repeat' first
    | with_reducible assumption
    | with_reducible apply kept_live
    | with_reducible apply kept_enterFreeze
    | intro _
    | split
    | with_reducible refine kept_set ?_ rfl rfl rfl rfl rfl

theorem kept_execClapperPinDeassert (h : Kept p n o s) : KeptRes p n o (execClapperPinDeassert s) := by
  unfold execClapperPinDeassert
  try dsimp only
  repeat' first
    | with_reducible assumption
    | with_reducible apply kept_live
    | with_reducible apply kept_finishPlain
    | with_reducible apply kept_releaseFreeze
    | intro _
    | split
    | refine kept_fst (by assumption) ?_
    | refine kept_snd (by assumption) ?_
    | with_reducible refine kept_set ?_ rfl rfl rfl rfl rfl

theorem kept_execClapperAtReached (h : Kept p n o s) : KeptRes p n o (execClapperAtReached s) := by
  unfold execClapperAtReached
  repeat' first
    | with_reducible assumption
    | with_reducible apply kept_live
    | with_reducible apply kept_enterFreeze
    | intro _
    | split
    | refine kept_fst (by assumption) ?_
    | refine kept_snd (by assumption) ?_
    | with_reducible refine kept_set ?_ rfl rfl rfl rfl rfl

end Sys2Proof.Machine
end

