-- ==== Sys2Proof/Laws/KeepReels.lean ====
section
/-! SUPPORT. What the operations of Machine/Reels.lean keep. -/

namespace Sys2Proof.Machine

variable {p : List Instr} {n : Nat} {o : List Output} {s : State}

theorem kept_writeAt (volume : Nat) (off : Nat) (bs : Bytes)
    (h : Kept p n o s) : Kept p n o (writeAt volume off bs s) := by
  unfold writeAt
  try dsimp only
  repeat' first
    | with_reducible assumption
    | with_reducible apply kept_writeBytes
    | with_reducible apply kept_readRun
    | intro _
    | split

theorem kept_putReel (key : Nat) (r : Reel) (h : Kept p n o s) : Kept p n o (putReel key r s) := by
  unfold putReel
  repeat' first
    | with_reducible assumption
    | intro _
    | with_reducible refine kept_set ?_ rfl rfl rfl rfl rfl

theorem kept_reelOpen (c : Cmd)
    (h : Kept p n o s) : Kept p n o (reelOpen c s) := by
  unfold reelOpen
  try dsimp only
  repeat' first
    | with_reducible assumption
    | with_reducible apply kept_refuse
    | with_reducible apply kept_finish
    | with_reducible apply kept_writeBytes
    | with_reducible apply kept_putReel
    | intro _
    | split

theorem kept_runReel (subop : Nat) (pair : Nat) (cid : Nat) (f : Cmd → State → State) (h_f : ∀ a0 t, Kept p n o t → Kept p n o (f a0 t))
    (h : Kept p n o s) : Kept p n o (runReel subop pair cid f s) := by
  unfold runReel
  repeat' first
    | with_reducible assumption
    | with_reducible apply kept_runCmd
    | with_reducible apply kept_refuse
    | with_reducible apply h_f
    | intro _
    | split

theorem kept_execReelOpen (pair : Nat) (cid : Nat) (h : Kept p n o s) : KeptRes p n o (execReelOpen pair cid s) := by
  unfold execReelOpen
  repeat' first
    | with_reducible assumption
    | with_reducible apply kept_live
    | with_reducible apply kept_runReel
    | with_reducible apply kept_reelOpen
    | intro _

theorem kept_reelSamples (c : Cmd)
    (h : Kept p n o s) : Kept p n o (reelSamples c s) := by
  unfold reelSamples
  try dsimp only
  repeat' first
    | with_reducible assumption
    | with_reducible apply kept_refuse
    | with_reducible apply kept_withData
    | with_reducible apply kept_finish
    | with_reducible apply kept_putReel
    | with_reducible apply kept_writeAt
    | intro _
    | split

theorem kept_execReelSamples (pair : Nat) (cid : Nat) (h : Kept p n o s) : KeptRes p n o (execReelSamples pair cid s) := by
  unfold execReelSamples
  repeat' first
    | with_reducible assumption
    | with_reducible apply kept_live
    | with_reducible apply kept_runReel
    | with_reducible apply kept_reelSamples
    | intro _

theorem kept_reelSeal (pcieOk : Bool) (c : Cmd)
    (h : Kept p n o s) : Kept p n o (reelSeal pcieOk c s) := by
  unfold reelSeal
  try dsimp only
  repeat' first
    | with_reducible assumption
    | with_reducible apply kept_refuse
    | with_reducible apply kept_readRun
    | with_reducible apply kept_writeBytes
    | with_reducible apply kept_replyData
    | with_reducible apply kept_putReel
    | with_reducible apply kept_id
    | intro _
    | split

theorem kept_reelAppend (c : Cmd)
    (h : Kept p n o s) : Kept p n o (reelAppend c s) := by
  unfold reelAppend
  repeat' first
    | with_reducible assumption
    | with_reducible apply kept_reelOpen
    | with_reducible apply kept_reelSamples
    | with_reducible apply kept_reelSeal
    | intro _
    | split

theorem kept_tearSome (keys : List (Nat × Bytes))
    (h : Kept p n o s) : Kept p n o (tearSome keys s) := by
  unfold tearSome
  repeat' first
    | with_reducible assumption
    | with_reducible apply kept_tickFree
    | with_reducible apply kept_writeBlock
    | with_reducible apply kept_foldl
    | intro _
    | split

theorem kept_tearReel (c : Cmd)
    (h : Kept p n o s) : Kept p n o (tearReel c s) := by
  unfold tearReel
  repeat' first
    | with_reducible assumption
    | with_reducible apply kept_tearSome
    | with_reducible apply kept_reelAppend
    | intro _
    | split

theorem kept_execReelSeal (pair : Nat) (cid : Nat) (pcieOk : Bool)
    (h : Kept p n o s) : KeptRes p n o (execReelSeal pair cid pcieOk s) := by
  unfold execReelSeal
  repeat' first
    | with_reducible assumption
    | with_reducible apply kept_live
    | with_reducible apply kept_runReel
    | with_reducible apply kept_reelSeal
    | intro _

end Sys2Proof.Machine
end

