-- ==== Sys2Proof/Laws/KeepFlash.lean ====
section
/-! SUPPORT. What the operations of Machine/Flash.lean keep. -/

namespace Sys2Proof.Machine

variable {p : List Instr} {n : Nat} {o : List Output} {s : State}

theorem kept_flashProgramComplete (pair : Nat) (cid : Nat) (lastPage : Bool)
    (h : Kept p n o s) : Kept p n o (flashProgramComplete pair cid lastPage s) := by
  unfold flashProgramComplete
  repeat' first
    | with_reducible assumption
    | with_reducible apply kept_finishPlain
    | with_reducible apply kept_completeFlushes
    | with_reducible apply kept_writeBlocks
    | intro _
    | split

theorem kept_execFlashProgramComplete (pair : Nat) (cid : Nat) (lastPage : Bool)
    (h : Kept p n o s) : KeptRes p n o (execFlashProgramComplete pair cid lastPage s) := by
  unfold execFlashProgramComplete
  repeat' first
    | with_reducible assumption
    | with_reducible apply kept_live
    | with_reducible apply kept_flashProgramComplete
    | intro _

theorem kept_rewriteWords (k : Nat) (slc : Bool) (cls : Nat) (ws : List FlashWord) (h : Kept p n o s) :
    Kept p n o (rewriteWords k slc cls ws s) := by
  induction ws generalizing s with
  | nil => exact h
  | cons w ws ih =>
    unfold rewriteWords
    split
    · exact ih h
    · rename_i a ha
      exact ih (kept_holdWord _ _ _ (kept_set (kept_openStripe _ _ _ _ _ ha h) rfl rfl rfl rfl rfl))

theorem kept_retireBlock (k : Nat) (member : Nat)
    (h : Kept p n o s) : Kept p n o (retireBlock k member s) := by
  unfold retireBlock
  try dsimp only
  repeat' first
    | with_reducible assumption
    | with_reducible apply kept_modMag
    | with_reducible apply kept_logRecord
    | with_reducible apply kept_tickFree
    | with_reducible apply kept_bump
    | intro _
    | split

theorem kept_eraseMember (k member : Nat) (h : Kept p n o s) : Kept p n o (eraseMember k member s) := by
  unfold eraseMember
  split
  · exact kept_dieOp _ _ _ _ _ h
  · exact h

theorem kept_failMember (k : Nat) (st : Stripe) (planes : Nat) (member : Nat)
    (h : Kept p n o s) : Kept p n o (failMember k st planes member s) := by
  unfold failMember
  try dsimp only
  repeat' first
    | with_reducible assumption
    | with_reducible apply kept_eraseMember
    | with_reducible apply kept_rewriteWords
    | with_reducible apply kept_retireBlock
    | intro _
    | split
    | with_reducible refine kept_set ?_ rfl rfl rfl rfl rfl

theorem kept_stripeVerify (k : Nat) (reads : List (Nat × Option Nat))
    (h : Kept p n o s) : Kept p n o (stripeVerify k reads s) := by
  unfold stripeVerify
  try dsimp only
  repeat' first
    | with_reducible assumption
    | with_reducible apply kept_dieOp
    | with_reducible apply kept_failMember
    | with_reducible apply kept_completeFlushes
    | with_reducible apply kept_releaseParity
    | with_reducible apply kept_eraseEmpty
    | with_reducible apply kept_wearCheck
    | with_reducible apply kept_foldl
    | intro _
    | split
    | refine kept_fst (by assumption) ?_
    | refine kept_snd (by assumption) ?_
    | with_reducible refine kept_set ?_ rfl rfl rfl rfl rfl

theorem kept_execStripeVerify (stripe : Nat) (reads : List (Nat × Option Nat))
    (h : Kept p n o s) : KeptRes p n o (execStripeVerify stripe reads s) := by
  unfold execStripeVerify
  repeat' first
    | with_reducible assumption
    | with_reducible apply kept_live
    | with_reducible apply kept_stripeVerify
    | intro _

theorem kept_loseBlocks (bay sn : Nat) (keys : List Nat) (h : Kept p n o s) : Kept p n o (loseBlocks bay sn keys s) :=
  kept_bumpBy _ _ _ _ (kept_modMag _ _ (kept_flash _ (by dsimp only; exact tcanon_tfilter _ h.blocks) h))

theorem kept_programFail (k : Nat) (die : Nat) (second : Option Nat)
    (h : Kept p n o s) : Kept p n o (programFail k die second s) := by
  unfold programFail
  try dsimp only
  repeat' first
    | with_reducible assumption
    | with_reducible apply kept_retireBlock
    | with_reducible apply kept_recordErr
    | with_reducible apply kept_rewriteWords
    | with_reducible apply kept_loseBlocks
    | with_reducible apply kept_wearCheck
    | with_reducible apply kept_foldl
    | intro _
    | split
    | refine kept_fst (by assumption) ?_
    | refine kept_snd (by assumption) ?_
    | with_reducible refine kept_set ?_ rfl rfl rfl rfl rfl

theorem kept_execProgramFail (stripe : Nat) (die : Nat) (second : Option Nat)
    (h : Kept p n o s) : KeptRes p n o (execProgramFail stripe die second s) := by
  unfold execProgramFail
  repeat' first
    | with_reducible assumption
    | with_reducible apply kept_live
    | with_reducible apply kept_programFail
    | intro _

theorem kept_relocateWeak (h : Kept p n o s) : Kept p n o (relocateWeak s) := by
  unfold relocateWeak
  dsimp only
  apply kept_foldl
  · intro t x ht
    split
    · split
      · exact ht
      · exact kept_startCopies _ _ _ _ ht
    · exact ht
  · exact kept_set h rfl rfl rfl rfl rfl

theorem kept_flashReadComplete (volume : Nat) (block : Nat) (reads : List (Option FlashRead))
    (h : Kept p n o s) : Kept p n o (flashReadComplete volume block reads s) := by
  unfold flashReadComplete
  try dsimp only
  repeat' first
    | with_reducible assumption
    | with_reducible apply kept_emits
    | with_reducible apply kept_modMag
    | with_reducible apply kept_recordErr
    | with_reducible apply kept_loseBlocks
    | with_reducible apply kept_relocateWeak
    | intro _
    | split
    | with_reducible refine kept_set ?_ rfl rfl rfl rfl rfl

theorem kept_execFlashReadComplete (volume : Nat) (block : Nat) (reads : List (Option FlashRead))
    (h : Kept p n o s) : KeptRes p n o (execFlashReadComplete volume block reads s) := by
  unfold execFlashReadComplete
  repeat' first
    | with_reducible assumption
    | with_reducible apply kept_live
    | with_reducible apply kept_flashReadComplete
    | intro _

theorem kept_backgroundFold (bay : Nat) (units : Nat)
    (h : Kept p n o s) : Kept p n o (backgroundFold bay units s) := by
  unfold backgroundFold
  try dsimp only
  repeat' first
    | with_reducible assumption
    | with_reducible apply kept_wearCheck
    | with_reducible apply kept_foldBlocks
    | with_reducible apply kept_relocateWeak
    | intro _
    | split
    | refine kept_fst (by assumption) ?_
    | refine kept_snd (by assumption) ?_
    | with_reducible refine kept_set ?_ rfl rfl rfl rfl rfl

theorem kept_execBackgroundFold (magazine : Nat) (units : Nat)
    (h : Kept p n o s) : KeptRes p n o (execBackgroundFold magazine units s) := by
  unfold execBackgroundFold
  repeat' first
    | with_reducible assumption
    | with_reducible apply kept_live
    | with_reducible apply kept_backgroundFold
    | intro _

theorem kept_relocateStripe (sn : Nat) (k : Nat) (cls : Nat)
    (h : Kept p n o s) : Kept p n o (relocateStripe sn k cls s) := by
  unfold relocateStripe
  try dsimp only
  repeat' first
    | with_reducible assumption
    | with_reducible apply kept_eraseEmpty
    | with_reducible apply kept_startCopies
    | with_reducible apply kept_flashReads

theorem kept_garbageCollection (bay : Nat) (group : Nat) (h : Kept p n o s) : Kept p n o (garbageCollection bay group s) := by
  unfold garbageCollection
  try dsimp only
  repeat' first
    | with_reducible assumption
    | with_reducible apply kept_wearCheck
    | with_reducible apply kept_relocateStripe
    | with_reducible apply kept_relocateWeak
    | with_reducible apply kept_id
    | intro _
    | split
    | refine kept_fst (by assumption) ?_
    | refine kept_snd (by assumption) ?_
    | with_reducible refine kept_set ?_ rfl rfl rfl rfl rfl

theorem kept_execGarbageCollection (magazine : Nat) (group : Nat)
    (h : Kept p n o s) : KeptRes p n o (execGarbageCollection magazine group s) := by
  unfold execGarbageCollection
  repeat' first
    | with_reducible assumption
    | with_reducible apply kept_live
    | with_reducible apply kept_garbageCollection
    | intro _

theorem kept_staticWearLevelling (bay : Nat) (h : Kept p n o s) : Kept p n o (staticWearLevelling bay s) := by
  unfold staticWearLevelling
  repeat' first
    | with_reducible assumption
    | with_reducible apply kept_wearCheck
    | with_reducible apply kept_relocateStripe
    | intro _
    | split

theorem kept_execStaticWearLevelling (magazine : Nat)
    (h : Kept p n o s) : KeptRes p n o (execStaticWearLevelling magazine s) := by
  unfold execStaticWearLevelling
  repeat' first
    | with_reducible assumption
    | with_reducible apply kept_live
    | with_reducible apply kept_staticWearLevelling
    | intro _

theorem kept_relocationSwitch (volume : Nat) (block : Nat) (h : Kept p n o s) : Kept p n o (relocationSwitch volume block s) := by
  unfold relocationSwitch
  try dsimp only
  repeat' first
    | with_reducible assumption
    | with_reducible apply kept_wearCheck
    | with_reducible apply kept_eraseEmpty
    | intro _
    | split
    | refine kept_fst (by assumption) ?_
    | refine kept_snd (by assumption) ?_
    | with_reducible refine kept_set ?_ rfl rfl rfl rfl rfl

theorem kept_execRelocationSwitch (volume : Nat) (block : Nat)
    (h : Kept p n o s) : KeptRes p n o (execRelocationSwitch volume block s) := by
  unfold execRelocationSwitch
  repeat' first
    | with_reducible assumption
    | with_reducible apply kept_live
    | with_reducible apply kept_relocationSwitch
    | intro _

theorem kept_interfaceRetrain {p : List Instr} {n : Nat} {o : List Output} {s : State}
    (h : Kept p n o s) : Kept p n o (interfaceRetrain s) := by
  unfold interfaceRetrain
  repeat' first
    | with_reducible assumption
    | with_reducible apply kept_emits

theorem kept_execInterfaceRetrainTimer (h : Kept p n o s) : KeptRes p n o (execInterfaceRetrainTimer s) := by
  unfold execInterfaceRetrainTimer
  repeat' first
    | with_reducible assumption
    | with_reducible apply kept_live
    | with_reducible apply kept_interfaceRetrain

theorem kept_failAppends (p0 : Cmd → Bool) (status : Nat)
    (h : Kept p n o s) : Kept p n o (failAppends p0 status s) := by
  unfold failAppends
  repeat' first
    | with_reducible assumption
    | with_reducible apply kept_refuse
    | with_reducible apply kept_tearReel
    | with_reducible apply kept_foldl
    | intro _

theorem kept_programInhibitSet (pwrWarn : Bool) (railPct : Nat)
    (h : Kept p n o s) : Kept p n o (programInhibitSet pwrWarn railPct s) := by
  unfold programInhibitSet
  try dsimp only
  repeat' first
    | with_reducible assumption
    | with_reducible apply kept_failWrites
    | with_reducible apply kept_failAppends
    | with_reducible apply kept_bump
    | with_reducible apply kept_emit
    | with_reducible apply kept_raiseEvent
    | intro _
    | split
    | with_reducible refine kept_set ?_ rfl rfl rfl rfl rfl

theorem kept_execProgramInhibitSet (pwrWarn : Bool) (railPct : Nat)
    (h : Kept p n o s) : KeptRes p n o (execProgramInhibitSet pwrWarn railPct s) := by
  unfold execProgramInhibitSet
  repeat' first
    | with_reducible assumption
    | with_reducible apply kept_live
    | with_reducible apply kept_programInhibitSet
    | intro _

theorem kept_programInhibitClear {p : List Instr} {n : Nat} {o : List Output} {s : State}
    (h : Kept p n o s) : Kept p n o (programInhibitClear s) := by
  unfold programInhibitClear
  try dsimp only
  repeat' first
    | with_reducible assumption
    | with_reducible apply kept_relocateWeak
    | with_reducible apply kept_foldl
    | with_reducible apply kept_wearCheck
    | with_reducible apply kept_eraseEmpty
    | with_reducible apply kept_completeFlushes
    | with_reducible apply kept_emit
    | with_reducible apply kept_raiseEvent
    | intro _
    | split
    | with_reducible refine kept_set ?_ rfl rfl rfl rfl rfl

theorem kept_execProgramInhibitClear (h : Kept p n o s) : KeptRes p n o (execProgramInhibitClear s) := by
  unfold execProgramInhibitClear
  repeat' first
    | with_reducible assumption
    | with_reducible apply kept_live
    | with_reducible apply kept_programInhibitClear

theorem kept_flashAbort (railPct : Nat) (busy : List (Nat × Nat))
    (h : Kept p n o s) : Kept p n o (flashAbort railPct busy s) := by
  unfold flashAbort
  repeat' first
    | with_reducible assumption
    | with_reducible apply kept_emits
    | intro _
    | split

theorem kept_execFlashAbort (railPct : Nat) (busy : List (Nat × Nat))
    (h : Kept p n o s) : KeptRes p n o (execFlashAbort railPct busy s) := by
  unfold execFlashAbort
  repeat' first
    | with_reducible assumption
    | with_reducible apply kept_live
    | with_reducible apply kept_flashAbort
    | intro _

end Sys2Proof.Machine
end

