-- ==== Sys2Proof/Laws/KeepMagazine.lean ====
section
/-! SUPPORT. What the operations of Machine/Magazine.lean keep. -/

namespace Sys2Proof.Machine

variable {p : List Instr} {n : Nat} {o : List Output} {s : State}

theorem kept_magEvent (bay : Nat) (kind : Nat) (h : Kept p n o s) : Kept p n o (magEvent bay kind s) := by
  unfold magEvent
  repeat' first
    | with_reducible assumption
    | with_reducible apply kept_raiseEvent

theorem kept_failEvent (bay : Nat) (h : Kept p n o s) : Kept p n o (failEvent bay s) := by
  unfold failEvent
  repeat' first
    | with_reducible assumption
    | with_reducible apply kept_tickFree
    | with_reducible apply kept_magEvent

theorem kept_modBay (bay : Nat) (f : Magazine → Magazine) (h : Kept p n o s) : Kept p n o (modBay bay f s) := by
  unfold modBay
  repeat' first
    | with_reducible assumption
    | with_reducible apply kept_showAmber
    | intro _
    | with_reducible refine kept_set ?_ rfl rfl rfl rfl rfl

theorem kept_failCommands (sn : Nat)
    (h : Kept p n o s) : Kept p n o (failCommands sn s) := by
  unfold failCommands
  try dsimp only
  repeat' first
    | with_reducible assumption
    | with_reducible apply kept_failAppends
    | with_reducible apply kept_failWrites
    | with_reducible apply kept_refuse
    | with_reducible apply kept_foldl
    | intro _

theorem kept_presenceRise (bay : Nat) (h : Kept p n o s) : Kept p n o (presenceRise bay s) := by
  unfold presenceRise
  repeat' first
    | with_reducible assumption
    | intro _
    | split
    | with_reducible refine kept_set ?_ rfl rfl rfl rfl rfl

theorem kept_execPresenceRise (magazine : Nat) (h : Kept p n o s) : KeptRes p n o (execPresenceRise magazine s) := by
  unfold execPresenceRise
  repeat' first
    | with_reducible assumption
    | with_reducible apply kept_live
    | with_reducible apply kept_presenceRise
    | intro _

theorem kept_placeMagazine (bay : Nat) (n0 : Nat) (g : DieReport) (rates : List Nat) (i : MagImage)
    (h : Kept p n o s) : Kept p n o (placeMagazine bay n0 g rates i s) := by
  unfold placeMagazine
  repeat' first
    | with_reducible assumption
    | with_reducible apply kept_showAmber
    | intro _
    | split
    | refine kept_fst (by assumption) ?_
    | refine kept_snd (by assumption) ?_
    | with_reducible refine kept_set ?_ rfl rfl rfl rfl rfl

theorem kept_failChannels (bay : Nat) (rates : List Nat) (h : Kept p n o s) : Kept p n o (failChannels bay rates s) := by
  unfold failChannels
  try dsimp only
  repeat' first
    | with_reducible assumption
    | with_reducible apply kept_recordErr
    | with_reducible apply kept_foldl
    | intro _
    | split

theorem kept_loseOps (bay : Nat) (h : Kept p n o s) : Kept p n o (loseOps bay s) :=
  ⟨h.queue, h.outs, by simpa [loseOps] using h.longs, h.fields, h.words, h.blocks, h.rings, h.events, h.logQueue⟩

theorem kept_fetchAgain (sn : Nat) (h : Kept p n o s) : Kept p n o (fetchAgain sn s) := kept_set h rfl rfl rfl rfl rfl

theorem kept_failMagazine (bay : Nat)
    (h : Kept p n o s) : Kept p n o (failMagazine bay s) := by
  unfold failMagazine
  repeat' first
    | with_reducible assumption
    | with_reducible apply kept_modBay
    | with_reducible apply kept_failCommands
    | with_reducible apply kept_loseOps
    | intro _
    | split

theorem kept_insertionDebounce (bay : Nat) (present : Bool) (fault : Bool) (dies : List Nat) (g : DieReport) (rates : List Nat) (i : MagImage)
    (h : Kept p n o s) : Kept p n o (insertionDebounce bay present fault dies g rates i s) := by
  unfold insertionDebounce
  try dsimp only
  repeat' first
    | with_reducible assumption
    | with_reducible apply kept_placeMagazine
    | with_reducible apply kept_failEvent
    | with_reducible apply kept_modBay
    | with_reducible apply kept_emits
    | with_reducible apply kept_magPin
    | with_reducible apply kept_recordErr
    | with_reducible apply kept_failMagazine
    | with_reducible apply kept_failChannels
    | intro _
    | split
    | with_reducible refine kept_set ?_ rfl rfl rfl rfl rfl

theorem kept_execInsertionDebounce (magazine : Nat) (stillPresent : Bool) (fault : Bool) (diesPerChannel : List Nat) (report : DieReport) (channelRates : List Nat) (image : MagImage)
    (h : Kept p n o s) : KeptRes p n o (execInsertionDebounce magazine stillPresent fault diesPerChannel report channelRates image s) := by
  unfold execInsertionDebounce
  repeat' first
    | with_reducible assumption
    | with_reducible apply kept_live
    | with_reducible apply kept_insertionDebounce
    | intro _

/-- Writes, one after another, into a table with a default keep its canonical form. -/
theorem tcanon_foldl_tputD {β : Type} (key : β → Nat) (val : β → Bytes) (l : List β) {t : Table Bytes}
    (h : tcanon zeroBlock t = true) : tcanon zeroBlock (l.foldl (fun t x => tputD t (key x) (val x) zeroBlock) t) = true := by
  induction l generalizing t with
  | nil => exact h
  | cons x l ih => exact ih (tcanon_tputD _ _ h)

theorem kept_placeImage (sn m fuel : Nat) (content : List (Nat × Bytes)) (h : Kept p n o s) :
    Kept p n o (placeImage sn m fuel content s) := by
  induction fuel generalizing content s with
  | zero => exact h
  | succ fuel ih =>
    unfold placeImage
    dsimp only
    split
    · exact h
    · split
      · exact h
      · rename_i ho
        refine ih _ (kept_modMag _ _ ?_)
        exact kept_flash _ (tcanon_foldl_tputD (fun x : Nat × Bytes => x.1) (fun x => fitTo 4096 x.2) _
          (kept_takeStripe _ _ _ ho h).blocks) (kept_takeStripe _ _ _ ho h)

theorem kept_bringImage (bay sn : Nat) (i : MagImage) (h : Kept p n o s) : Kept p n o (bringImage bay sn i s) :=
  kept_placeImage _ _ _ _ (kept_set h rfl rfl rfl rfl rfl)

theorem kept_countFrom (m : Magazine) (h : Kept p n o s) : Kept p n o (countFrom m s) := by
  unfold countFrom
  repeat' first
    | with_reducible assumption
    | with_reducible apply kept_foldl
    | intro _
    | split
    | with_reducible refine kept_set ?_ rfl rfl rfl rfl rfl

theorem kept_magazineReady (bay : Nat) (h : Kept p n o s) : Kept p n o (magazineReady bay s) := by
  unfold magazineReady
  try dsimp only
  repeat' first
    | with_reducible assumption
    | with_reducible apply kept_bringImage
    | with_reducible apply kept_failEvent
    | with_reducible apply kept_failMagazine
    | with_reducible apply kept_enterService
    | with_reducible apply kept_magEvent
    | with_reducible apply kept_magPin
    | with_reducible apply kept_modBay
    | with_reducible apply kept_countFrom
    | with_reducible apply kept_fetchAgain
    | intro _
    | split
    | refine kept_fst (by assumption) ?_
    | refine kept_snd (by assumption) ?_
    | with_reducible refine kept_set ?_ rfl rfl rfl rfl rfl

theorem kept_execMagazineReady (magazine : Nat) (h : Kept p n o s) : KeptRes p n o (execMagazineReady magazine s) := by
  unfold execMagazineReady
  repeat' first
    | with_reducible assumption
    | with_reducible apply kept_live
    | with_reducible apply kept_magazineReady
    | intro _

theorem kept_attentionButton (bay : Nat) (h : Kept p n o s) : Kept p n o (attentionButton bay s) := by
  unfold attentionButton
  repeat' first
    | with_reducible assumption
    | with_reducible apply kept_magPin
    | with_reducible apply kept_magEvent
    | with_reducible apply kept_modBay
    | intro _
    | split

theorem kept_execAttentionButton (magazine : Nat) (h : Kept p n o s) : KeptRes p n o (execAttentionButton magazine s) := by
  unfold execAttentionButton
  repeat' first
    | with_reducible assumption
    | with_reducible apply kept_live
    | with_reducible apply kept_attentionButton
    | intro _

theorem kept_quiesce (bay : Nat) (h : Kept p n o s) : Kept p n o (quiesce bay s) := by
  unfold quiesce
  repeat' first
    | with_reducible assumption
    | with_reducible apply kept_departService
    | with_reducible apply kept_magPin
    | with_reducible apply kept_modBay
    | with_reducible apply kept_loseOps

theorem kept_ejectWindowExpiry (bay : Nat) (h : Kept p n o s) : Kept p n o (ejectWindowExpiry bay s) := by
  unfold ejectWindowExpiry
  repeat' first
    | with_reducible assumption
    | with_reducible apply kept_quiesce
    | intro _
    | split

theorem kept_execEjectWindowExpiry (magazine : Nat) (h : Kept p n o s) : KeptRes p n o (execEjectWindowExpiry magazine s) := by
  unfold execEjectWindowExpiry
  repeat' first
    | with_reducible assumption
    | with_reducible apply kept_live
    | with_reducible apply kept_ejectWindowExpiry
    | intro _

theorem kept_magazineEject (c : Cmd) (h : Kept p n o s) : Kept p n o (magazineEject c s) := by
  unfold magazineEject
  repeat' first
    | with_reducible assumption
    | with_reducible apply kept_refuse
    | with_reducible apply kept_quiesce
    | with_reducible apply kept_markRunning
    | with_reducible apply kept_modBay
    | intro _
    | split

theorem kept_execMagazineEject (pair : Nat) (cid : Nat) (h : Kept p n o s) : KeptRes p n o (execMagazineEject pair cid s) := by
  unfold execMagazineEject
  repeat' first
    | with_reducible assumption
    | with_reducible apply kept_live
    | with_reducible apply kept_runCmd
    | with_reducible apply kept_magazineEject
    | intro _

theorem kept_closeAll (sn : Nat)
    (h : Kept p n o s) : Kept p n o (closeAll sn s) := by
  unfold closeAll
  repeat' first
    | with_reducible assumption
    | with_reducible apply kept_closeStripe
    | with_reducible apply kept_foldl

theorem kept_powerOff (bay : Nat) (m : Magazine) (h : Kept p n o s) : Kept p n o (powerOff bay m s) := by
  unfold powerOff
  try dsimp only
  repeat' first
    | with_reducible assumption
    | with_reducible apply kept_magPin
    | with_reducible apply kept_magEvent
    | with_reducible apply kept_modBay
    | with_reducible apply kept_finishPlain
    | intro _
    | split

theorem kept_ejectPowerOff (bay : Nat)
    (h : Kept p n o s) : Kept p n o (ejectPowerOff bay s) := by
  unfold ejectPowerOff
  repeat' first
    | with_reducible assumption
    | with_reducible apply kept_powerOff
    | with_reducible apply kept_closeAll
    | intro _
    | split

theorem kept_execEjectPowerOff (magazine : Nat) (h : Kept p n o s) : KeptRes p n o (execEjectPowerOff magazine s) := by
  unfold execEjectPowerOff
  repeat' first
    | with_reducible assumption
    | with_reducible apply kept_live
    | with_reducible apply kept_ejectPowerOff
    | intro _

theorem kept_ejectInhibitTimeout (bay : Nat)
    (h : Kept p n o s) : Kept p n o (ejectInhibitTimeout bay s) := by
  unfold ejectInhibitTimeout
  repeat' first
    | with_reducible assumption
    | with_reducible apply kept_powerOff
    | with_reducible apply kept_failCommands
    | with_reducible apply kept_loseOps
    | intro _
    | split

theorem kept_execEjectInhibitTimeout (magazine : Nat)
    (h : Kept p n o s) : KeptRes p n o (execEjectInhibitTimeout magazine s) := by
  unfold execEjectInhibitTimeout
  repeat' first
    | with_reducible assumption
    | with_reducible apply kept_live
    | with_reducible apply kept_ejectInhibitTimeout
    | intro _

theorem kept_takeAway (bay : Nat) (m : Magazine) (h : Kept p n o s) : Kept p n o (takeAway bay m s) := by
  unfold takeAway
  repeat' first
    | with_reducible assumption
    | intro _
    | with_reducible refine kept_set ?_ rfl rfl rfl rfl rfl

theorem kept_surprise (bay : Nat) (m : Magazine)
    (h : Kept p n o s) : Kept p n o (surprise bay m s) := by
  unfold surprise
  try dsimp only
  repeat' first
    | with_reducible assumption
    | with_reducible apply kept_failCommands
    | with_reducible apply kept_loseOps
    | with_reducible apply kept_magPin
    | with_reducible apply kept_emit
    | with_reducible apply kept_refuse
    | with_reducible apply kept_recordErr
    | with_reducible apply kept_magEvent
    | intro _
    | split

theorem kept_surpriseRemoval (bay : Nat) (h : Kept p n o s) : Kept p n o (surpriseRemoval bay s) := by
  unfold surpriseRemoval
  repeat' first
    | with_reducible assumption
    | with_reducible apply kept_showAmber
    | with_reducible apply kept_magPin
    | with_reducible apply kept_takeAway
    | with_reducible apply kept_surprise
    | intro _
    | split

theorem kept_execSurpriseRemoval (magazine : Nat) (h : Kept p n o s) : KeptRes p n o (execSurpriseRemoval magazine s) := by
  unfold execSurpriseRemoval
  repeat' first
    | with_reducible assumption
    | with_reducible apply kept_live
    | with_reducible apply kept_surpriseRemoval
    | intro _

theorem kept_magazinePowerFault (bay : Nat) (h : Kept p n o s) : Kept p n o (magazinePowerFault bay s) := by
  unfold magazinePowerFault
  repeat' first
    | with_reducible assumption
    | with_reducible apply kept_modBay
    | with_reducible apply kept_surprise
    | intro _
    | split

theorem kept_execMagazinePowerFault (magazine : Nat) (h : Kept p n o s) : KeptRes p n o (execMagazinePowerFault magazine s) := by
  unfold execMagazinePowerFault
  repeat' first
    | with_reducible assumption
    | with_reducible apply kept_live
    | with_reducible apply kept_magazinePowerFault
    | intro _

theorem kept_safeRemoval (bay : Nat) (h : Kept p n o s) : Kept p n o (safeRemoval bay s) := by
  unfold safeRemoval
  repeat' first
    | with_reducible assumption
    | with_reducible apply kept_takeAway
    | intro _
    | split
    | refine kept_fst (by assumption) ?_
    | refine kept_snd (by assumption) ?_
    | with_reducible refine kept_set ?_ rfl rfl rfl rfl rfl

theorem kept_execSafeRemoval (magazine : Nat) (h : Kept p n o s) : KeptRes p n o (execSafeRemoval magazine s) := by
  unfold execSafeRemoval
  repeat' first
    | with_reducible assumption
    | with_reducible apply kept_live
    | with_reducible apply kept_safeRemoval
    | intro _

end Sys2Proof.Machine
end

