-- ==== Sys2Proof/Laws/KeepResets.lean ====
section
/-! SUPPORT. What the operations of Machine/Resets.lean keep. -/

namespace Sys2Proof.Machine

variable {p : List Instr} {n : Nat} {o : List Output} {s : State}

theorem kept_forgetWaits (pair : Nat) (cid : Nat) (h : Kept p n o s) : Kept p n o (forgetWaits pair cid s) := by
  unfold forgetWaits
  try dsimp only
  repeat' first
    | with_reducible assumption
    | with_reducible apply kept_withdrawStop
    | with_reducible apply kept_foldl
    | intro _
    | split
    | with_reducible refine kept_set ?_ rfl rfl rfl rfl rfl

theorem kept_endCmd (c : Cmd)
    (h : Kept p n o s) : Kept p n o (endCmd c s) := by
  unfold endCmd
  repeat' first
    | with_reducible assumption
    | with_reducible apply kept_forgetWaits
    | with_reducible apply kept_tearWrite
    | with_reducible apply kept_tearReel
    | intro _
    | split

theorem kept_endPairWork (pair : Nat) (h : Kept p n o s) : Kept p n o (endPairWork pair s) :=
  ⟨h.queue, h.outs, Nat.le_trans (List.length_filter_le _ _) h.longs, h.fields, h.words, h.blocks, h.rings, h.events,
    h.logQueue⟩

theorem kept_beginReset (pair : Nat) (h : Kept p n o s) : Kept p n o (beginReset pair s) := by
  unfold beginReset
  try dsimp only
  repeat' first
    | with_reducible assumption
    | with_reducible apply kept_refuse
    | with_reducible apply kept_endCmd
    | with_reducible apply kept_endPairWork
    | with_reducible apply kept_modRing
    | with_reducible apply kept_foldl
    | intro _

theorem kept_writeAborted (pair : Nat) (lost : List Nat) (cs : List Cmd) (h : Kept p n o s) :
    Kept p n o (writeAborted pair lost cs s) := by
  induction cs generalizing s with
  | nil => exact h
  | cons c t ih =>
    have h1 := kept_onWritten c (kept_retireCmd c h)
    unfold writeAborted
    dsimp only
    split
    · exact h
    · split
      · exact h
      · refine ih ?_
        split
        · exact kept_ringError _ _ (kept_modRing _ _ h1)
        · exact kept_signalPair _ (kept_modRing _ _ (kept_emit _ h1))

theorem kept_resetRingPair (lost : List Nat) (c : Cmd) (h : Kept p n o s) : Kept p n o (resetRingPair lost c s) := by
  unfold resetRingPair
  try dsimp only
  repeat' first
    | with_reducible assumption
    | with_reducible apply kept_refuse
    | with_reducible apply kept_beginReset
    | with_reducible apply kept_writeAborted
    | with_reducible apply kept_finish
    | with_reducible apply kept_modRing
    | intro _
    | split

theorem kept_execResetRingPair (pair : Nat) (cid : Nat) (lost : List Nat)
    (h : Kept p n o s) : KeptRes p n o (execResetRingPair pair cid lost s) := by
  unfold execResetRingPair
  repeat' first
    | with_reducible assumption
    | with_reducible apply kept_live
    | with_reducible apply kept_runCmd
    | with_reducible apply kept_resetRingPair
    | intro _

theorem kept_controllerReset (h : Kept p n o s) : Kept p n o (controllerReset s) := by
  have h1 : Kept p n o (s.ken.cmds.foldl (fun (t : State) (c : Cmd) => dropPending c.ord t)
      ((s.ken.cmds.filter fun c => c.phase != .finished).foldl (fun (t : State) (c : Cmd) => endCmd c t) s)) :=
    kept_foldl _ (fun t c ht => kept_dropPending _ ht) (kept_foldl _ (fun t c ht => kept_endCmd _ ht) h)
  exact ⟨h1.queue, h1.outs, Nat.zero_le _, h1.fields, h1.words, h1.blocks, h1.rings, h1.events, h1.logQueue⟩

theorem kept_execControllerReset (sub : Nat) (h : Kept p n o s) : KeptRes p n o (execControllerReset sub s) := by
  unfold execControllerReset
  repeat' first
    | with_reducible assumption
    | with_reducible apply kept_live
    | with_reducible apply kept_whenB
    | with_reducible apply kept_controllerReset
    | intro _

end Sys2Proof.Machine
end

