-- ==== Sys2Proof/Laws/KeepBar.lean ====
section
/-! SUPPORT. What the operations of Machine/Bar.lean keep. -/

namespace Sys2Proof.Machine

variable {p : List Instr} {n : Nat} {o : List Output} {s : State}

theorem kept_refusalRead (h : Kept p n o s) : Kept p n o (refusalRead s) := by
  unfold refusalRead
  repeat' first
    | with_reducible assumption
    | with_reducible apply kept_emit
    | intro _
    | with_reducible refine kept_set ?_ rfl rfl rfl rfl rfl

theorem kept_execRefusalRead (sub : Nat) (h : Kept p n o s) : KeptRes p n o (execRefusalRead sub s) := by
  unfold execRefusalRead
  repeat' first
    | with_reducible assumption
    | with_reducible apply kept_live
    | with_reducible apply kept_whenB
    | with_reducible apply kept_refusalRead
    | intro _

theorem kept_ringErrorRead (h : Kept p n o s) : Kept p n o (ringErrorRead s) := by
  unfold ringErrorRead
  repeat' first
    | with_reducible assumption
    | with_reducible apply kept_emit
    | with_reducible apply kept_ringError
    | intro _
    | with_reducible refine kept_set ?_ rfl rfl rfl rfl rfl

theorem kept_execRingErrorRead (sub : Nat) (h : Kept p n o s) : KeptRes p n o (execRingErrorRead sub s) := by
  unfold execRingErrorRead
  repeat' first
    | with_reducible assumption
    | with_reducible apply kept_live
    | with_reducible apply kept_whenB
    | with_reducible apply kept_ringErrorRead
    | intro _

theorem kept_timebaseRead (sub : Nat) (off : Nat) (size : Nat) (h : Kept p n o s) : Kept p n o (timebaseRead sub off size s) := by
  unfold timebaseRead
  repeat' first
    | with_reducible assumption
    | with_reducible apply kept_emit
    | intro _
    | split
    | with_reducible refine kept_set ?_ rfl rfl rfl rfl rfl

theorem kept_execTimebaseRead (sub : Nat) (off : Nat) (size : Nat)
    (h : Kept p n o s) : KeptRes p n o (execTimebaseRead sub off size s) := by
  unfold execTimebaseRead
  repeat' first
    | with_reducible assumption
    | with_reducible apply kept_live
    | with_reducible apply kept_whenB
    | with_reducible apply kept_timebaseRead
    | intro _

theorem kept_refuseWrite (off : Nat) (status : Nat) (h : Kept p n o s) : Kept p n o (refuseWrite off status s) := by
  unfold refuseWrite
  repeat' first
    | with_reducible assumption
    | intro _
    | with_reducible refine kept_set ?_ rfl rfl rfl rfl rfl

theorem kept_serveAdmin (h : Kept p n o s) : Kept p n o (serveAdmin s) := by
  unfold serveAdmin
  repeat' first
    | with_reducible assumption
    | intro _
    | with_reducible refine kept_set ?_ rfl rfl rfl rfl rfl

theorem kept_enable (h : Kept p n o s) : Kept p n o (enable s) := by
  unfold enable
  try dsimp only
  repeat' first
    | with_reducible assumption
    | with_reducible apply kept_serveAdmin
    | intro _
    | split
    | with_reducible refine kept_set ?_ rfl rfl rfl rfl rfl

theorem kept_execCtrlEnable (sub : Nat) (h : Kept p n o s) : KeptRes p n o (execCtrlEnable sub s) := by
  unfold execCtrlEnable
  repeat' first
    | with_reducible assumption
    | with_reducible apply kept_live
    | with_reducible apply kept_whenB
    | with_reducible apply kept_enable
    | intro _

theorem kept_admDepth (off : Nat) (v : BitVec 32) (h : Kept p n o s) : Kept p n o (admDepth off v s) := by
  unfold admDepth
  try dsimp only
  repeat' first
    | with_reducible assumption
    | with_reducible apply kept_refuseWrite
    | intro _
    | split
    | with_reducible refine kept_set ?_ rfl rfl rfl rfl rfl

theorem kept_execAdmDepthWrite (sub : Nat) (v : BitVec 32) (h : Kept p n o s) : KeptRes p n o (execAdmDepthWrite sub v s) := by
  unfold execAdmDepthWrite
  repeat' first
    | with_reducible assumption
    | with_reducible apply kept_live
    | with_reducible apply kept_whenB
    | with_reducible apply kept_admDepth
    | intro _

theorem kept_eventStatusWrite (v : BitVec 32) (h : Kept p n o s) : Kept p n o (eventStatusWrite v s) := by
  unfold eventStatusWrite
  try dsimp only
  repeat' first
    | with_reducible assumption
    | intro _
    | split
    | with_reducible refine kept_set ?_ rfl rfl rfl rfl rfl

theorem kept_execEventStatusWrite (sub : Nat) (v : BitVec 32)
    (h : Kept p n o s) : KeptRes p n o (execEventStatusWrite sub v s) := by
  unfold execEventStatusWrite
  repeat' first
    | with_reducible assumption
    | with_reducible apply kept_live
    | with_reducible apply kept_whenB
    | with_reducible apply kept_eventStatusWrite
    | intro _

theorem kept_eventMaskWrite (v : BitVec 32) (h : Kept p n o s) : Kept p n o (eventMaskWrite v s) := by
  unfold eventMaskWrite
  try dsimp only
  repeat' first
    | with_reducible assumption
    | with_reducible apply kept_fireVector
    | intro _
    | split
    | with_reducible refine kept_set ?_ rfl rfl rfl rfl rfl

theorem kept_execEventMaskWrite (sub : Nat) (v : BitVec 32) (h : Kept p n o s) : KeptRes p n o (execEventMaskWrite sub v s) := by
  unfold execEventMaskWrite
  repeat' first
    | with_reducible assumption
    | with_reducible apply kept_live
    | with_reducible apply kept_whenB
    | with_reducible apply kept_eventMaskWrite
    | intro _

theorem kept_msixWrite (sub : Nat) (off : Nat) (v : BitVec 32) (h : Kept p n o s) : Kept p n o (msixWrite sub off v s) := by
  unfold msixWrite
  try dsimp only
  repeat' first
    | with_reducible assumption
    | with_reducible apply kept_fireVector
    | intro _
    | split
    | with_reducible refine kept_set ?_ rfl rfl rfl rfl rfl

theorem kept_regWrite (sub : Nat) (at_ : Nat) (off : Nat) (v : BitVec 32)
    (h : Kept p n o s) : Kept p n o (regWrite sub at_ off v s) := by
  unfold regWrite
  repeat' first
    | with_reducible assumption
    | with_reducible apply kept_enable
    | with_reducible apply kept_controllerReset
    | with_reducible apply kept_admDepth
    | with_reducible apply kept_refuseWrite
    | with_reducible apply kept_eventStatusWrite
    | with_reducible apply kept_eventMaskWrite
    | with_reducible apply kept_sqTailWrite
    | with_reducible apply kept_cqHeadWrite
    | with_reducible apply kept_msixWrite
    | intro _
    | split
    | with_reducible refine kept_set ?_ rfl rfl rfl rfl rfl

theorem kept_registerWrite (sub : Nat) (off : Nat) (size : Nat) (v : BitVec 64)
    (h : Kept p n o s) : Kept p n o (registerWrite sub off size v s) := by
  unfold registerWrite
  repeat' first
    | with_reducible assumption
    | with_reducible apply kept_regWrite
    | intro _
    | split

theorem kept_execRegisterWrite (sub : Nat) (off : Nat) (size : Nat) (v : BitVec 64)
    (h : Kept p n o s) : KeptRes p n o (execRegisterWrite sub off size v s) := by
  unfold execRegisterWrite
  repeat' first
    | with_reducible assumption
    | with_reducible apply kept_live
    | with_reducible apply kept_whenB
    | with_reducible apply kept_registerWrite
    | intro _

end Sys2Proof.Machine
end

