-- ==== Sys2Proof/Laws/KeepFirmware.lean ====
section
/-! SUPPORT. What the operations of Machine/Firmware.lean keep. -/

namespace Sys2Proof.Machine

variable {p : List Instr} {n : Nat} {o : List Output} {s : State}

theorem kept_dropStaged (kind : Nat) (h : Kept p n o s) : Kept p n o (dropStaged kind s) := by
  unfold dropStaged
  repeat' first
    | with_reducible assumption
    | intro _
    | split
    | with_reducible refine kept_set ?_ rfl rfl rfl rfl rfl

theorem kept_putStaged (kind : Nat) (bs : Bytes) (h : Kept p n o s) : Kept p n o (putStaged kind bs s) := by
  unfold putStaged
  repeat' first
    | with_reducible assumption
    | intro _
    | split
    | with_reducible refine kept_set ?_ rfl rfl rfl rfl rfl

/-- A slice of staging: the base it starts from, and what it leaves. -/
theorem stageSome_eq (m : Nat) (l : LongOp) (s : State) : stageSome m l s =
    (fun (s0 : State) (part : Bytes) =>
      if (s0.stagedImage (byteAt l.entry 32)).length < field l.entry 40 8 + l.progress
          ∨ (byteAt l.entry 32 = 0 ∧ bankBytes < field l.entry 40 8 + l.progress + part.length) then none
      else some ({ l with progress := l.progress + part.length },
        putStaged (byteAt l.entry 32) (patch (s0.stagedImage (byteAt l.entry 32)) (field l.entry 40 8 + l.progress) part) s0))
      (if !l.paused && bitOf (byteAt l.entry 33) 0 then dropStaged 0 (dropStaged 1 s) else s)
      ((l.data.drop l.progress).take m) := rfl

theorem kept_stageSome {m : Nat} {l l1 : LongOp} {t : State} (he : stageSome m l s = some (l1, t))
    (h : Kept p n o s) : Kept p n o t := by
  have h0 : Kept p n o (if !l.paused && bitOf (byteAt l.entry 33) 0 then dropStaged 0 (dropStaged 1 s) else s) := by
    split
    · exact kept_dropStaged _ (kept_dropStaged _ h)
    · exact h
  rw [stageSome_eq] at he
  generalize (if (!l.paused && bitOf (byteAt l.entry 33) 0) = true then dropStaged 0 (dropStaged 1 s) else s) = s0 at h0 he
  dsimp only at he
  split at he
  · cases he
  · simp only [Option.some.injEq, Prod.mk.injEq] at he
    exact he.2 ▸ kept_putStaged _ _ h0

theorem kept_refuseStaged (l : LongOp) (status : Nat) (h : Kept p n o s) : Kept p n o (refuseStaged l status s) := by
  unfold refuseStaged
  repeat' first
    | with_reducible assumption
    | with_reducible apply kept_refuse
    | with_reducible apply kept_dropStaged

theorem kept_verifyStaged (l : LongOp) (h : Kept p n o s) : Kept p n o (verifyStaged l s) := by
  unfold verifyStaged
  repeat' first
    | with_reducible assumption
    | with_reducible apply kept_refuseStaged
    | with_reducible apply kept_finish
    | with_reducible apply kept_logRecord
    | intro _
    | split
    | with_reducible refine kept_set ?_ rfl rfl rfl rfl rfl

theorem kept_stageDone (l : LongOp) (h : Kept p n o s) : Kept p n o (stageDone l s) := by
  unfold stageDone
  repeat' first
    | with_reducible assumption
    | with_reducible apply kept_refuseStaged
    | with_reducible apply kept_verifyStaged
    | with_reducible apply kept_finish
    | exact kept_stageSome (by assumption) h
    | intro _
    | split

theorem kept_execFirmwareStage (pair : Nat) (cid : Nat) (h : Kept p 64 o s) : KeptRes p 64 o (execFirmwareStage pair cid s) := by
  unfold execFirmwareStage
  repeat' first
    | with_reducible assumption
    | exact kept_more (by with_reducible assumption) (by decide)
    | with_reducible apply kept_live
    | with_reducible apply kept_runLong
    | with_reducible apply kept_stageDone
    | intro _

theorem kept_firmwareActivate (c : Cmd) (h : Kept p n o s) : Kept p n o (firmwareActivate c s) := by
  unfold firmwareActivate
  repeat' first
    | with_reducible assumption
    | with_reducible apply kept_refuse
    | with_reducible apply kept_finishPlain
    | with_reducible apply kept_logRecord
    | intro _
    | split
    | with_reducible refine kept_set ?_ rfl rfl rfl rfl rfl

theorem kept_execFirmwareActivate (pair : Nat) (cid : Nat)
    (h : Kept p n o s) : KeptRes p n o (execFirmwareActivate pair cid s) := by
  unfold execFirmwareActivate
  repeat' first
    | with_reducible assumption
    | with_reducible apply kept_live
    | with_reducible apply kept_runCmd
    | with_reducible apply kept_firmwareActivate
    | intro _

theorem kept_certRead (pcieOk : Bool) (c : Cmd) (h : Kept p n o s) : Kept p n o (certRead pcieOk c s) := by
  unfold certRead
  repeat' first
    | with_reducible assumption
    | with_reducible apply kept_refuse
    | with_reducible apply kept_replyData
    | with_reducible apply kept_id
    | intro _
    | split

theorem kept_execCertRead (pair : Nat) (cid : Nat) (pcieOk : Bool)
    (h : Kept p n o s) : KeptRes p n o (execCertRead pair cid pcieOk s) := by
  unfold execCertRead
  repeat' first
    | with_reducible assumption
    | with_reducible apply kept_live
    | with_reducible apply kept_runCmd
    | with_reducible apply kept_certRead
    | intro _

theorem kept_attestReport (pcieOk : Bool) (c : Cmd) (h : Kept p n o s) : Kept p n o (attestReport pcieOk c s) := by
  unfold attestReport
  try dsimp only
  repeat' first
    | with_reducible assumption
    | with_reducible apply kept_refuse
    | with_reducible apply kept_replyData
    | with_reducible apply kept_id
    | intro _
    | split

theorem kept_execAttestReport (pair : Nat) (cid : Nat) (pcieOk : Bool)
    (h : Kept p n o s) : KeptRes p n o (execAttestReport pair cid pcieOk s) := by
  unfold execAttestReport
  repeat' first
    | with_reducible assumption
    | with_reducible apply kept_live
    | with_reducible apply kept_runCmd
    | with_reducible apply kept_attestReport
    | intro _

end Sys2Proof.Machine
end

