-- ==== Sys2Proof/Laws/KeepLedger.lean ====
section
/-! SUPPORT. What the operations of Machine/Ledger.lean keep. -/

namespace Sys2Proof.Machine

variable {p : List Instr} {n : Nat} {o : List Output} {s : State}

theorem kept_sendAll (pipe : Nat) (p0 : Pipeline) (m : Message) (h : Kept p n o s) : Kept p n o (sendAll pipe p0 m s) := by
  unfold sendAll
  repeat' first
    | with_reducible assumption
    | with_reducible apply kept_sendMessage
    | with_reducible apply kept_foldl
    | intro _
    | split

theorem kept_forwardToShadow (m : Message) (h : Kept p n o s) : Kept p n o (forwardToShadow m s) := by
  unfold forwardToShadow
  repeat' first
    | with_reducible assumption
    | with_reducible apply kept_sendMessage
    | intro _
    | split

theorem kept_modSpan (pipe : Nat) (epoch : Nat) (span : Nat) (f : SpanRec → SpanRec)
    (h : Kept p n o s) : Kept p n o (modSpan pipe epoch span f s) := by
  unfold modSpan
  repeat' first
    | with_reducible assumption
    | with_reducible apply kept_modPipe

theorem kept_modSample (key : Nat) (f : Sample → Sample) (h : Kept p n o s) : Kept p n o (modSample key f s) := by
  unfold modSample
  repeat' first
    | with_reducible assumption
    | intro _
    | with_reducible refine kept_set ?_ rfl rfl rfl rfl rfl

theorem kept_dropSample (key : Nat) (h : Kept p n o s) : Kept p n o (dropSample key s) := by
  unfold dropSample
  repeat' first
    | with_reducible assumption
    | intro _
    | with_reducible refine kept_set ?_ rfl rfl rfl rfl rfl

theorem kept_placeSamples (pipe : Nat) (epoch : Nat) (span : Nat) (p0 : Pipeline) (r : SpanRec) (base : Nat)
    (h : Kept p n o s) : Kept p n o (placeSamples pipe epoch span p0 r base s) := by
  unfold placeSamples
  try dsimp only
  repeat' first
    | with_reducible assumption
    | intro _
    | split
    | with_reducible refine kept_set ?_ rfl rfl rfl rfl rfl

theorem kept_recordSeqs (pipe : Nat) (epoch : Nat) (span : Nat) (p0 : Pipeline) (r : SpanRec) (base : Nat)
    (h : Kept p n o s) : Kept p n o (recordSeqs pipe epoch span p0 r base s) := by
  unfold recordSeqs
  try dsimp only
  repeat' first
    | with_reducible assumption
    | with_reducible apply kept_modPipe
    | with_reducible apply kept_foldl
    | intro _

theorem kept_recordFillers (pipe : Nat) (epoch : Nat) (span : Nat) (u : Nat) (p0 : Pipeline)
    (h : Kept p n o s) : Kept p n o (recordFillers pipe epoch span u p0 s) := by
  unfold recordFillers
  try dsimp only
  repeat' first
    | with_reducible assumption
    | with_reducible apply kept_modPipe
    | with_reducible apply kept_foldl
    | intro _
    | split

theorem kept_placePiece (pipe : Nat) (epoch : Nat) (pos : Nat) (y : Placed)
    (h : Kept p n o s) : Kept p n o (placePiece pipe epoch pos y s) := by
  unfold placePiece
  try dsimp only
  repeat' first
    | with_reducible assumption
    | with_reducible apply kept_modPipe
    | with_reducible apply kept_modSample

theorem kept_sendPlacements (pipe : Nat) (epoch : Nat) (span : Nat) (p0 : Pipeline) (parts : List (Nat × Nat × Nat × Nat × Nat × Nat))
    (h : Kept p n o s) : Kept p n o (sendPlacements pipe epoch span p0 parts s) := by
  unfold sendPlacements
  try dsimp only
  repeat' first
    | with_reducible assumption
    | with_reducible apply kept_placePiece
    | with_reducible apply kept_forwardToShadow
    | with_reducible apply kept_sendMessage
    | with_reducible apply kept_foldl
    | intro _
    | split

theorem kept_holdResult (pipe : Nat) (epoch : Nat) (span : Nat) (base : Nat) (units : Nat) (skips : List (Nat × Nat)) (marks : List (Nat × Nat))
    (h : Kept p n o s) : Kept p n o (holdResult pipe epoch span base units skips marks s) := by
  unfold holdResult
  try dsimp only
  repeat' first
    | with_reducible assumption
    | with_reducible apply kept_modSpan
    | with_reducible apply kept_placeSamples
    | intro _
    | split

theorem kept_closeSpan (splice : Bool) (pipe : Nat) (epoch : Nat) (span : Nat)
    (h : Kept p n o s) : Kept p n o (closeSpan splice pipe epoch span s) := by
  unfold closeSpan
  try dsimp only
  repeat' first
    | with_reducible assumption
    | with_reducible apply kept_modSpan
    | with_reducible apply kept_recordSeqs
    | with_reducible apply kept_recordFillers
    | with_reducible apply kept_endCheck
    | with_reducible apply kept_sendPlacements
    | with_reducible apply kept_holdResult
    | with_reducible apply kept_forwardToShadow
    | with_reducible apply kept_sendAll
    | intro _
    | split

theorem kept_closeSpans (pipe f epoch span : Nat) (h : Kept p n o s) : Kept p n o (closeSpans pipe f epoch span s) := by
  induction f generalizing epoch span s with
  | zero => exact h
  | succ f ih =>
    have h1 := kept_closeSpan false pipe epoch span h
    unfold closeSpans
    dsimp only
    split
    · exact h1
    · split
      · split
        · exact ih _ _ h1
        · exact h1
      · exact h1

theorem kept_takeReport (pipe : Nat) (epoch : Nat) (span : Nat) (sender : Nat) (es : List (Nat × Nat × Nat × Nat)) (last : Bool)
    (h : Kept p n o s) : Kept p n o (takeReport pipe epoch span sender es last s) := by
  unfold takeReport
  repeat' first
    | with_reducible assumption
    | with_reducible apply kept_closeSpans
    | with_reducible apply kept_modSpan

theorem kept_reportSpan (pipe : Nat) (epoch : Nat) (span : Nat)
    (h : Kept p n o s) : Kept p n o (reportSpan pipe epoch span s) := by
  unfold reportSpan
  try dsimp only
  repeat' first
    | with_reducible assumption
    | with_reducible apply kept_modSpan
    | with_reducible apply kept_takeReport
    | with_reducible apply kept_sendMessage
    | intro _
    | split

theorem kept_resolvePos (pipe : Nat) (epoch : Nat) (pos : Nat) (value : Nat)
    (h : Kept p n o s) : Kept p n o (resolvePos pipe epoch pos value s) := by
  unfold resolvePos
  repeat' first
    | with_reducible assumption
    | with_reducible apply kept_reportSpan
    | with_reducible apply kept_modSpan

theorem kept_spanReportIn (m : Message) (h : Kept p n o s) : Kept p n o (spanReportIn m s) := by
  unfold spanReportIn
  try dsimp only
  repeat' first
    | with_reducible assumption
    | with_reducible apply kept_freeSlot
    | with_reducible apply kept_takeReport
    | intro _
    | split

theorem kept_execSpanReport (m : Message) (h : Kept p n o s) : KeptRes p n o (execSpanReport m s) := by
  unfold execSpanReport
  repeat' first
    | with_reducible assumption
    | with_reducible apply kept_live
    | with_reducible apply kept_whenB
    | with_reducible apply kept_spanReportIn
    | intro _

theorem kept_spanResultTake (m : Message)
    (h : Kept p n o s) : Kept p n o (spanResultTake m s) := by
  unfold spanResultTake
  try dsimp only
  repeat' first
    | with_reducible assumption
    | with_reducible apply kept_modSpan
    | with_reducible apply kept_endCheck
    | with_reducible apply kept_holdResult
    | with_reducible apply kept_closeSpans
    | intro _
    | split

theorem kept_execSpanResult (m : Message) (h : Kept p n o s) : KeptRes p n o (execSpanResult m s) := by
  unfold execSpanResult
  repeat' first
    | with_reducible assumption
    | with_reducible apply kept_live
    | with_reducible apply kept_whenB
    | with_reducible apply kept_forwardToShadow
    | with_reducible apply kept_spanResultTake
    | with_reducible apply kept_freeSlot
    | intro _

theorem kept_takePlacement (pipe : Nat) (epoch : Nat) (span : Nat) (d : Decl) (b : Bytes)
    (h : Kept p n o s) : Kept p n o (takePlacement pipe epoch span d b s) := by
  unfold takePlacement
  try dsimp only
  repeat' first
    | with_reducible assumption
    | with_reducible apply kept_placePiece
    | intro _
    | split

theorem kept_placementTake (m : Message) (h : Kept p n o s) : Kept p n o (placementTake m s) := by
  unfold placementTake
  repeat' first
    | with_reducible assumption
    | with_reducible apply kept_takePlacement
    | with_reducible apply kept_foldl
    | intro _
    | split

theorem kept_execPlacement (m : Message) (h : Kept p n o s) : KeptRes p n o (execPlacement m s) := by
  unfold execPlacement
  repeat' first
    | with_reducible assumption
    | with_reducible apply kept_live
    | with_reducible apply kept_whenB
    | with_reducible apply kept_forwardToShadow
    | with_reducible apply kept_placementTake
    | with_reducible apply kept_freeSlot
    | intro _

theorem kept_spanFetchStart (pipe : Nat) (epoch : Nat) (span : Nat)
    (h : Kept p n o s) : Kept p n o (spanFetchStart pipe epoch span s) := by
  unfold spanFetchStart
  repeat' first
    | with_reducible assumption
    | with_reducible apply kept_modSpan
    | intro _
    | split

theorem kept_execSpanFetchStart (pipeline : Nat) (epoch : Nat) (span : Nat)
    (h : Kept p n o s) : KeptRes p n o (execSpanFetchStart pipeline epoch span s) := by
  unfold execSpanFetchStart
  repeat' first
    | with_reducible assumption
    | with_reducible apply kept_live
    | with_reducible apply kept_whenB
    | with_reducible apply kept_spanFetchStart
    | intro _

theorem kept_execSplice (pipeline : Nat) (epoch : Nat) (span : Nat)
    (h : Kept p n o s) : KeptRes p n o (execSplice pipeline epoch span s) := by
  unfold execSplice
  repeat' first
    | with_reducible assumption
    | with_reducible apply kept_live
    | with_reducible apply kept_whenB
    | with_reducible apply kept_closeSpans
    | with_reducible apply kept_closeSpan
    | intro _

end Sys2Proof.Machine
end

