-- ==== Sys2Proof/Laws/KeepStores.lean ====
section
/-! SUPPORT. What the operations of Machine/Stores.lean keep. -/

namespace Sys2Proof.Machine

variable {p : List Instr} {n : Nat} {o : List Output} {s : State}

theorem kept_modStores (f : Stores → Stores)
    (h : Kept p n o s) : Kept p n o (modStores f s) := by
  unfold modStores
  repeat' first
    | with_reducible assumption
    | intro _
    | with_reducible refine kept_set ?_ rfl rfl rfl rfl rfl

theorem kept_setStoreWord (cluster : Bool) (u : Nat) (w : Nat) (v : StoreWord)
    (h : Kept p n o s) : Kept p n o (setStoreWord cluster u w v s) := by
  unfold setStoreWord
  repeat' first
    | with_reducible assumption
    | with_reducible apply kept_modStores

theorem kept_disturbWord (cluster : Bool) (u : Nat) (w : Nat) (flips : List Nat)
    (h : Kept p n o s) : Kept p n o (disturbWord cluster u w flips s) := by
  unfold disturbWord
  repeat' first
    | with_reducible assumption
    | with_reducible apply kept_setStoreWord
    | with_reducible apply kept_foldl
    | intro _
    | split

theorem kept_storeWhole (cluster : Bool) (u : Nat) (w : Nat) (data : Bytes)
    (h : Kept p n o s) : Kept p n o (storeWhole cluster u w data s) := by
  unfold storeWhole
  repeat' first
    | with_reducible assumption
    | with_reducible apply kept_setStoreWord

theorem kept_storeModify (cluster : Bool) (u : Nat) (w : Nat) (bytes : List (Option Byte))
    (h : Kept p n o s) : Kept p n o (storeModify cluster u w bytes s).1 := by
  unfold storeModify
  repeat' first
    | with_reducible assumption
    | with_reducible apply kept_storeWhole
    | with_reducible apply kept_setStoreWord
    | intro _
    | split

theorem kept_setMerging (k : Nat) (l : List MergeEntry)
    (h : Kept p n o s) : Kept p n o (setMerging k l s) := by
  unfold setMerging
  repeat' first
    | with_reducible assumption
    | with_reducible apply kept_modStores

theorem kept_writeOut (u : Nat) (es : List MergeEntry) (h : Kept p n o s) : Kept p n o (writeOut u es s).1 := by
  induction es generalizing s with
  | nil => exact h
  | cons e es ih => exact ih (kept_storeModify _ _ _ _ h)

theorem kept_flushMerge (k : Nat) (u : Nat) (p0 : MergeEntry → Bool)
    (h : Kept p n o s) : Kept p n o (flushMerge k u p0 s).1 := by
  unfold flushMerge
  repeat' first
    | with_reducible assumption
    | with_reducible apply kept_writeOut
    | with_reducible apply kept_setMerging

theorem kept_mergeWrite (k : Nat) (u : Nat) (w : Nat) (off : Nat) (data : Bytes)
    (h : Kept p n o s) : Kept p n o (mergeWrite k u w off data s).1 := by
  unfold mergeWrite
  try dsimp only
  repeat' first
    | with_reducible assumption
    | with_reducible apply kept_flushMerge
    | with_reducible apply kept_storeWhole
    | with_reducible apply kept_setMerging
    | intro _
    | split

theorem kept_settleMerge (k : Nat)
    (h : Kept p n o s) : Kept p n o (settleMerge k s).1 := by
  unfold settleMerge
  repeat' first
    | with_reducible assumption
    | with_reducible apply kept_flushMerge
    | intro _
    | split

theorem kept_storeAccess (k : Nat) (a : StoreAccess)
    (h : Kept p n o s) : Kept p n o (storeAccess k a s).1 := by
  unfold storeAccess
  try dsimp only
  repeat' first
    | with_reducible assumption
    | with_reducible apply kept_disturbWord
    | with_reducible apply kept_flushMerge
    | with_reducible apply kept_mergeWrite
    | with_reducible apply kept_storeWhole
    | with_reducible apply kept_storeModify
    | intro _
    | split

end Sys2Proof.Machine
end

