-- ==== Sys2Proof/Laws/KeepEngine.lean ====
section
/-! SUPPORT. What the operations of Machine/Engine.lean keep. -/

namespace Sys2Proof.Machine

variable {p : List Instr} {n : Nat} {o : List Output} {s : State}

theorem kept_modQueue (k : Nat) (f : EQueue → EQueue) (h : Kept p n o s) : Kept p n o (modQueue k f s) := by
  unfold modQueue
  repeat' first
    | with_reducible assumption
    | intro _
    | with_reducible refine kept_set ?_ rfl rfl rfl rfl rfl

theorem kept_remake (x : Sample)
    (h : Kept p n o s) : Kept p n o (remake x s) := by
  unfold remake
  repeat' first
    | with_reducible assumption
    | with_reducible apply kept_modSample
    | with_reducible apply kept_freeBufs
    | intro _
    | split

theorem kept_markMade (pipe : Nat) (epoch : Nat) (pos : Nat)
    (h : Kept p n o s) : Kept p n o (markMade pipe epoch pos s) := by
  unfold markMade
  try dsimp only
  repeat' first
    | with_reducible assumption
    | with_reducible apply kept_modSample
    | with_reducible apply kept_modPipe
    | intro _
    | split

theorem kept_leavePath (x : Sample) (cause : Nat) (errCode : Nat) (errOff : Nat)
    (h : Kept p n o s) : Kept p n o (leavePath x cause errCode errOff s) := by
  unfold leavePath
  try dsimp only
  repeat' first
    | with_reducible assumption
    | with_reducible apply kept_markMade
    | with_reducible apply kept_freeBufs
    | with_reducible apply kept_modSample
    | with_reducible apply kept_resolvePos
    | with_reducible apply kept_dropSample
    | intro _
    | split

theorem kept_corruptPath (x : Sample) (unit : Nat) (stage : Nat) (op : Nat) (slotCause : Nat) (code : Nat) (errCode : Nat) (attempts : Nat) (errOff : Nat)
    (h : Kept p n o s) : Kept p n o (corruptPath x unit stage op slotCause code errCode attempts errOff s) := by
  unfold corruptPath
  try dsimp only
  repeat' first
    | with_reducible assumption
    | with_reducible apply kept_recordErr
    | with_reducible apply kept_leavePath
    | intro _
    | split

theorem kept_enterSample (pipe : Nat) (epoch : Nat) (pos : Nat)
    (h : Kept p n o s) : Kept p n o (enterSample pipe epoch pos s) := by
  unfold enterSample
  try dsimp only
  repeat' first
    | with_reducible assumption
    | with_reducible apply kept_windowRebuild
    | with_reducible apply kept_modPipe
    | intro _
    | split
    | refine kept_fst (by assumption) ?_
    | refine kept_snd (by assumption) ?_
    | with_reducible refine kept_set ?_ rfl rfl rfl rfl rfl

theorem kept_placeEntry (p0 : Pipeline) (x : Sample) (t : Site) (k : Nat) (out : Option Nat)
    (h : Kept p n o s) : Kept p n o (placeEntry p0 x t k out s) := by
  unfold placeEntry
  try dsimp only
  repeat' first
    | with_reducible assumption
    | with_reducible apply kept_modSample
    | with_reducible apply kept_modQueue

theorem kept_issueEntry (key : Nat) (k : Nat)
    (h : Kept p n o s) : Kept p n o (issueEntry key k s) := by
  unfold issueEntry
  try dsimp only
  repeat' first
    | with_reducible assumption
    | with_reducible apply kept_enterSample
    | with_reducible apply kept_corruptPath
    | with_reducible apply kept_placeEntry
    | intro _
    | split

theorem kept_execEngineEntryIssue (sample : Nat) (queue : Nat)
    (h : Kept p n o s) : KeptRes p n o (execEngineEntryIssue sample queue s) := by
  unfold execEngineEntryIssue
  repeat' first
    | with_reducible assumption
    | with_reducible apply kept_live
    | with_reducible apply kept_whenB
    | with_reducible apply kept_issueEntry
    | intro _

theorem kept_putCompletion (k : Nat) (e : Entry) (c : Completion)
    (h : Kept p n o s) : Kept p n o (putCompletion k e c s) := by
  unfold putCompletion
  repeat' first
    | with_reducible assumption
    | with_reducible apply kept_modQueue

theorem kept_faultRecord (h0 : Option (Nat × Nat)) (e : Entry) (cls : Nat) (flags : Nat)
    (h : Kept p n o s) : Kept p n o (faultRecord h0 e cls flags s) := by
  unfold faultRecord
  repeat' first
    | with_reducible assumption
    | with_reducible apply kept_recordErr

theorem kept_suspect (unit : Nat) (seq : Nat) (dissents : Nat) (h : Kept p n o s) : Kept p n o (suspect unit seq dissents s) := by
  unfold suspect
  repeat' first
    | with_reducible assumption
    | intro _
    | with_reducible refine kept_set ?_ rfl rfl rfl rfl rfl

theorem kept_engineFault (cause : Nat) (k : Nat)
    (h : Kept p n o s) : Kept p n o (engineFault cause k s) := by
  unfold engineFault
  try dsimp only
  repeat' first
    | with_reducible assumption
    | with_reducible apply kept_modQueue
    | with_reducible apply kept_tickFree
    | with_reducible apply kept_faultRecord
    | with_reducible apply kept_suspect
    | with_reducible apply kept_putCompletion
    | intro _
    | split

theorem kept_completeEntry (k : Nat) (e : Entry) (c : Completion)
    (h : Kept p n o s) : Kept p n o (completeEntry k e c s) := by
  unfold completeEntry
  try dsimp only
  repeat' first
    | with_reducible assumption
    | with_reducible apply kept_settleMerge
    | with_reducible apply kept_putCompletion
    | with_reducible apply kept_engineFault
    | intro _
    | split

theorem kept_runEntry (op : Nat) (k : Nat) (f : Entry → Pipeline → Sample → State → Completion × State) (h_f : ∀ a0 a1 a2 t, Kept p n o t → Kept p n o (f a0 a1 a2 t).2)
    (h : Kept p n o s) : Kept p n o (runEntry op k f s) := by
  unfold runEntry
  try dsimp only
  repeat' first
    | with_reducible assumption
    | with_reducible apply kept_completeEntry
    | with_reducible apply h_f
    | intro _
    | split

theorem kept_runPure (op : Nat) (k : Nat) (f : Entry → Pipeline → Sample → State → Completion)
    (h : Kept p n o s) : Kept p n o (runPure op k f s) := by
  unfold runPure
  repeat' first
    | with_reducible assumption
    | with_reducible apply kept_whenB
    | with_reducible apply kept_runEntry
    | intro _

theorem kept_countRun (unit : Nat) (h : Kept p n o s) : Kept p n o (countRun unit s) := by
  unfold countRun
  split
  · with_reducible exact kept_set h rfl rfl rfl rfl rfl
  · exact h

theorem kept_countEntry (e : Entry) (c : Completion) (bytesIn : Nat)
    (h : Kept p n o s) : Kept p n o (countEntry e c bytesIn s) := by
  unfold countEntry
  try dsimp only
  repeat' first
    | with_reducible assumption
    | with_reducible apply kept_tickFree
    | intro _
    | split
    | with_reducible refine kept_set ?_ rfl rfl rfl rfl rfl

theorem kept_traceEntry (k : Nat) (e : Entry) (c : Completion)
    (h : Kept p n o s) : Kept p n o (traceEntry k e c s) := by
  unfold traceEntry
  repeat' first
    | with_reducible assumption
    | with_reducible apply kept_traceRecord
    | intro _
    | split

theorem kept_sampleMade (x : Sample) (unit : Nat) (h : Kept p n o s) : Kept p n o (sampleMade x unit s) := by
  unfold sampleMade
  try dsimp only
  repeat' first
    | with_reducible assumption
    | with_reducible apply kept_corruptPath
    | with_reducible apply kept_markMade
    | with_reducible apply kept_resolvePos
    | with_reducible apply kept_id
    | intro _
    | split

theorem kept_passOn (x : Sample) (e : Entry) (c : Completion) (unit : Nat)
    (h : Kept p n o s) : Kept p n o (passOn x e c unit s) := by
  unfold passOn
  try dsimp only
  repeat' first
    | with_reducible assumption
    | with_reducible apply kept_freeBuf
    | with_reducible apply kept_modSample
    | with_reducible apply kept_carryCrc
    | with_reducible apply kept_sampleMade
    | intro _
    | split

theorem kept_fetchCured (x : Sample) (e : Entry)
    (h : Kept p n o s) : Kept p n o (fetchCured x e s) := by
  unfold fetchCured
  repeat' first
    | with_reducible assumption
    | with_reducible apply kept_recordErr
    | intro _
    | split

theorem kept_faultCured (h0 : Option (Nat × Nat)) (e : Entry)
    (h : Kept p n o s) : Kept p n o (faultCured h0 e s) := by
  unfold faultCured
  try dsimp only
  repeat' first
    | with_reducible assumption
    | with_reducible apply kept_faultRecord
    | with_reducible apply kept_suspect
    | intro _
    | split

theorem kept_outcome (x : Sample) (e : Entry) (c : Completion) (unit : Nat)
    (h : Kept p n o s) : Kept p n o (outcome x e c unit s) := by
  unfold outcome
  try dsimp only
  repeat' first
    | with_reducible assumption
    | with_reducible apply kept_passOn
    | with_reducible apply kept_fetchCured
    | with_reducible apply kept_recordErr
    | with_reducible apply kept_leavePath
    | with_reducible apply kept_remake
    | with_reducible apply kept_corruptPath
    | with_reducible apply kept_modSample
    | intro _
    | split

theorem kept_transit (x : Sample) (e : Entry) (unit : Nat)
    (h : Kept p n o s) : Kept p n o (transit x e unit s) := by
  unfold transit
  try dsimp only
  repeat' first
    | with_reducible assumption
    | with_reducible apply kept_recordErr
    | with_reducible apply kept_remake
    | with_reducible apply kept_corruptPath
    | intro _
    | split

theorem kept_memoryOutcome (e : Entry) (c : Completion) (unit : Nat)
    (h : Kept p n o s) : Kept p n o (memoryOutcome e c unit s) := by
  unfold memoryOutcome
  repeat' first
    | with_reducible assumption
    | with_reducible apply kept_outcome
    | with_reducible apply kept_faultCured
    | intro _
    | split

theorem kept_engineCompletion (k : Nat) (flips : Bytes)
    (h : Kept p n o s) : Kept p n o (engineCompletion k flips s) := by
  unfold engineCompletion
  try dsimp only
  repeat' first
    | with_reducible assumption
    | with_reducible apply kept_modQueue
    | with_reducible apply kept_traceEntry
    | with_reducible apply kept_countEntry
    | with_reducible apply kept_countRun
    | with_reducible apply kept_memoryOutcome
    | with_reducible apply kept_faultCured
    | with_reducible apply kept_dropSample
    | with_reducible apply kept_freeBufs
    | with_reducible apply kept_transit
    | with_reducible apply kept_outcome
    | intro _
    | split

theorem kept_execEngineCompletion (queue : Nat) (flips : Bytes)
    (h : Kept p n o s) : KeptRes p n o (execEngineCompletion queue flips s) := by
  unfold execEngineCompletion
  repeat' first
    | with_reducible assumption
    | with_reducible apply kept_live
    | with_reducible apply kept_whenB
    | with_reducible apply kept_engineCompletion
    | intro _

theorem kept_parityError (k : Nat) (access : Option StoreAccess)
    (h : Kept p n o s) : Kept p n o (parityError k access s) := by
  unfold parityError
  try dsimp only
  repeat' first
    | with_reducible assumption
    | with_reducible apply kept_engineFault
    | with_reducible apply kept_storeAccess
    | intro _
    | split

theorem kept_execEngineParityError (queue : Nat) (access : Option StoreAccess)
    (h : Kept p n o s) : KeptRes p n o (execEngineParityError queue access s) := by
  unfold execEngineParityError
  repeat' first
    | with_reducible assumption
    | with_reducible apply kept_live
    | with_reducible apply kept_whenB
    | with_reducible apply kept_parityError
    | intro _

theorem kept_execEngineHang (queue : Nat) (h : Kept p n o s) : KeptRes p n o (execEngineHang queue s) := by
  unfold execEngineHang
  repeat' first
    | with_reducible assumption
    | with_reducible apply kept_live
    | with_reducible apply kept_whenB
    | with_reducible apply kept_engineFault
    | intro _

theorem kept_modOldest (k : Nat) (f : Completion → Completion) (h : Kept p n o s) : Kept p n o (modOldest k f s) := by
  unfold modOldest
  repeat' first
    | with_reducible assumption
    | with_reducible apply kept_modQueue

theorem kept_startVote (k : Nat) (slot2 : Nat)
    (h : Kept p n o s) : Kept p n o (startVote k slot2 s) := by
  unfold startVote
  try dsimp only
  repeat' first
    | with_reducible assumption
    | with_reducible apply kept_traceEntry
    | with_reducible apply kept_countEntry
    | with_reducible apply kept_countRun
    | with_reducible apply kept_bump
    | with_reducible apply kept_modQueue
    | intro _
    | split
    | refine kept_fst (by assumption) ?_
    | refine kept_snd (by assumption) ?_
    | with_reducible refine kept_set ?_ rfl rfl rfl rfl rfl

theorem kept_execCheckMismatchVote (queue : Nat) (slot2 : Nat)
    (h : Kept p n o s) : KeptRes p n o (execCheckMismatchVote queue slot2 s) := by
  unfold execCheckMismatchVote
  repeat' first
    | with_reducible assumption
    | with_reducible apply kept_live
    | with_reducible apply kept_whenB
    | with_reducible apply kept_startVote
    | intro _

theorem kept_dissent (h0 : Option (Nat × Nat)) (slot : Nat) (slot2 : Nat) (slot3 : Nat) (agree : Nat) (e : Entry)
    (h : Kept p n o s) : Kept p n o (dissent h0 slot slot2 slot3 agree e s) := by
  unfold dissent
  try dsimp only
  repeat' first
    | with_reducible assumption
    | with_reducible apply kept_recordErr
    | with_reducible apply kept_suspect

theorem kept_dropVote (k : Nat) (h : Kept p n o s) : Kept p n o (dropVote k s) := by
  unfold dropVote
  repeat' first
    | with_reducible assumption
    | intro _
    | with_reducible refine kept_set ?_ rfl rfl rfl rfl rfl

theorem kept_threeWayRecord (k : Nat) (e : Entry) (unit : Nat) (h : Kept p n o s) : Kept p n o (threeWayRecord k e unit s).1 := by
  unfold threeWayRecord
  try dsimp only
  repeat' first
    | with_reducible assumption
    | with_reducible apply kept_recordErr
    | intro _
    | split

theorem kept_threeWay (k : Nat) (slot1 : Nat) (slot2 : Nat) (e : Entry)
    (h : Kept p n o s) : Kept p n o (threeWay k slot1 slot2 e s) := by
  unfold threeWay
  try dsimp only
  repeat' first
    | with_reducible assumption
    | with_reducible apply kept_threeWayRecord
    | with_reducible apply kept_suspect
    | with_reducible apply kept_bump
    | with_reducible apply kept_modOldest

theorem kept_voteResult (k : Nat) (result : Bytes) (core : Nat)
    (h : Kept p n o s) : Kept p n o (voteResult k result core s) := by
  unfold voteResult
  have h1 := kept_countRun (uSlot core) h
  generalize countRun (uSlot core) s = u at h1
  dsimp only
  repeat' first
    | with_reducible assumption
    | with_reducible apply kept_dropVote
    | with_reducible apply kept_modOldest
    | with_reducible apply kept_dissent
    | with_reducible apply kept_threeWay
    | intro _
    | split
    | refine kept_fst (by assumption) ?_
    | refine kept_snd (by assumption) ?_
    | with_reducible refine kept_set ?_ rfl rfl rfl rfl rfl

theorem kept_execVoteResult (queue : Nat) (result : Bytes) (core : Nat)
    (h : Kept p n o s) : KeptRes p n o (execVoteResult queue result core s) := by
  unfold execVoteResult
  repeat' first
    | with_reducible assumption
    | with_reducible apply kept_live
    | with_reducible apply kept_whenB
    | with_reducible apply kept_voteResult
    | intro _

theorem kept_suspectClear (unit : Nat) (h : Kept p n o s) : Kept p n o (suspectClear unit s) := by
  unfold suspectClear
  repeat' first
    | with_reducible assumption
    | intro _
    | split
    | refine kept_fst (by assumption) ?_
    | refine kept_snd (by assumption) ?_
    | with_reducible refine kept_set ?_ rfl rfl rfl rfl rfl

theorem kept_execSuspectClear (unit : Nat) (h : Kept p n o s) : KeptRes p n o (execSuspectClear unit s) := by
  unfold execSuspectClear
  repeat' first
    | with_reducible assumption
    | with_reducible apply kept_live
    | with_reducible apply kept_suspectClear
    | intro _

end Sys2Proof.Machine
end

