-- ==== Sys2Proof/Laws/KeepPoolOps.lean ====
section
/-! SUPPORT. What the operations of Machine/PoolOps.lean keep. -/

namespace Sys2Proof.Machine

variable {p : List Instr} {n : Nat} {o : List Output} {s : State}

theorem kept_tracePool (stack : Nat) (owner : Nat) (stage : Nat) (op : Nat)
    (h : Kept p n o s) : Kept p n o (tracePool stack owner stage op s) := by
  unfold tracePool
  repeat' first
    | with_reducible assumption
    | with_reducible apply kept_tickFree
    | with_reducible apply kept_traceRecord

theorem kept_placeCopies (w : PoolWait) (k : Nat) (cs : List (Nat × Nat)) (h : Kept p n o s) : Kept p n o (placeCopies w k cs s) := by
  induction cs generalizing s with
  | nil => exact h
  | cons c cs ih => exact ih (kept_modQueue _ _ h)

theorem kept_grantWait (w : PoolWait) (hs : List Nat)
    (h : Kept p n o s) : Kept p n o (grantWait w hs s) := by
  unfold grantWait
  try dsimp only
  repeat' first
    | with_reducible assumption
    | with_reducible apply kept_grantBufs
    | with_reducible apply kept_modBuf
    | with_reducible apply kept_placeCopies
    | intro _
    | split

theorem kept_countWait (w : PoolWait)
    (h : Kept p n o s) : Kept p n o (countWait w s) := by
  unfold countWait
  try dsimp only
  repeat' first
    | with_reducible assumption
    | intro _
    | split
    | refine kept_fst (by assumption) ?_
    | refine kept_snd (by assumption) ?_
    | with_reducible refine kept_set ?_ rfl rfl rfl rfl rfl

theorem kept_allocBufs (w : PoolWait) (filling : List Nat)
    (h : Kept p n o s) : Kept p n o (allocBufs w filling s) := by
  unfold allocBufs
  repeat' first
    | with_reducible assumption
    | with_reducible apply kept_grantWait
    | with_reducible apply kept_bump
    | with_reducible apply kept_countWait
    | intro _
    | split
    | refine kept_fst (by assumption) ?_
    | refine kept_snd (by assumption) ?_
    | with_reducible refine kept_set ?_ rfl rfl rfl rfl rfl

theorem kept_execPoolAlloc (owner : Nat) (cls : Nat) (stack : Nat) (bytes : Nat) (sample : Nat) (stage : Nat) (op : Nat) (filling : List Nat)
    (h : Kept p n o s) : KeptRes p n o (execPoolAlloc owner cls stack bytes sample stage op filling s) := by
  unfold execPoolAlloc
  repeat' first
    | with_reducible assumption
    | with_reducible apply kept_live
    | with_reducible apply kept_whenB
    | with_reducible apply kept_allocBufs
    | with_reducible apply kept_tracePool
    | intro _

theorem kept_allocGrant (cls : Nat) (stack : Nat) (filling : List Nat)
    (h : Kept p n o s) : Kept p n o (allocGrant cls stack filling s) := by
  unfold allocGrant
  repeat' first
    | with_reducible assumption
    | with_reducible apply kept_grantWait
    | intro _
    | split
    | refine kept_fst (by assumption) ?_
    | refine kept_snd (by assumption) ?_
    | with_reducible refine kept_set ?_ rfl rfl rfl rfl rfl

theorem kept_execAllocGrant (cls : Nat) (stack : Nat) (filling : List Nat)
    (h : Kept p n o s) : KeptRes p n o (execAllocGrant cls stack filling s) := by
  unfold execAllocGrant
  repeat' first
    | with_reducible assumption
    | with_reducible apply kept_live
    | with_reducible apply kept_whenB
    | with_reducible apply kept_allocGrant
    | intro _

theorem kept_poolFault (h0 : Nat) (owner : Nat) (stage : Nat) (op : Nat) (caller : Nat) (cause : Nat)
    (h : Kept p n o s) : Kept p n o (poolFault h0 owner stage op caller cause s) := by
  unfold poolFault
  repeat' first
    | with_reducible assumption
    | with_reducible apply kept_engineFault
    | with_reducible apply kept_bump
    | with_reducible apply kept_recordErr

theorem kept_onBuffer (h0 : Nat) (owner : Nat) (stage : Nat) (op : Nat) (caller : Nat) (cause : Nat) (f : PoolEntry → State → State) (h_f : ∀ a0 t, Kept p n o t → Kept p n o (f a0 t))
    (h : Kept p n o s) : Kept p n o (onBuffer h0 owner stage op caller cause f s) := by
  unfold onBuffer
  try dsimp only
  repeat' first
    | with_reducible assumption
    | with_reducible apply kept_tracePool
    | with_reducible apply kept_poolFault
    | with_reducible apply h_f
    | intro _
    | split

theorem kept_execPoolFree (handle : Nat) (owner : Nat) (stage : Nat) (op : Nat) (caller : Nat)
    (h : Kept p n o s) : KeptRes p n o (execPoolFree handle owner stage op caller s) := by
  unfold execPoolFree
  repeat' first
    | with_reducible assumption
    | with_reducible apply kept_live
    | with_reducible apply kept_whenB
    | with_reducible apply kept_onBuffer
    | with_reducible apply kept_freeChain
    | intro _

theorem kept_copyReaders (k owner stage op : Nat) (filling : List Nat) (m : Nat) (h : Kept p n o s) :
    Kept p n o (copyReaders k owner stage op filling m s) := by
  induction m generalizing s with
  | zero => exact h
  | succ m ih => exact ih (kept_allocBufs _ _ h)

theorem kept_shareBuf (k m stage op : Nat) (filling : List Nat) (e : PoolEntry) (h : Kept p n o s) :
    Kept p n o (shareBuf k m stage op filling e s) := by
  unfold shareBuf
  split
  · exact h
  · split
    · exact kept_modBuf _ _ (kept_set h rfl rfl rfl rfl rfl)
    · exact kept_copyReaders _ _ _ _ _ _ (kept_bumpBy _ _ _ _ h)

theorem kept_execPoolShare (handle : Nat) (n0 : Nat) (owner : Nat) (stage : Nat) (op : Nat) (caller : Nat) (filling : List Nat)
    (h : Kept p n o s) : KeptRes p n o (execPoolShare handle n0 owner stage op caller filling s) := by
  unfold execPoolShare
  repeat' first
    | with_reducible assumption
    | with_reducible apply kept_live
    | with_reducible apply kept_whenB
    | with_reducible apply kept_onBuffer
    | with_reducible apply kept_shareBuf
    | intro _

theorem kept_setRef (stack : Nat) (i : Nat) (n0 : Nat)
    (h : Kept p n o s) : Kept p n o (setRef stack i n0 s) := by
  unfold setRef
  repeat' first
    | with_reducible assumption
    | intro _
    | with_reducible refine kept_set ?_ rfl rfl rfl rfl rfl

theorem kept_addBuf (h0 : Nat) (k : Nat) (e : PoolEntry)
    (h : Kept p n o s) : Kept p n o (addBuf h0 k e s) := by
  unfold addBuf
  repeat' first
    | with_reducible assumption
    | with_reducible apply kept_setRef
    | intro _
    | split

theorem kept_execPoolAdd (handle : Nat) (k : Nat) (owner : Nat) (stage : Nat) (op : Nat) (caller : Nat)
    (h : Kept p n o s) : KeptRes p n o (execPoolAdd handle k owner stage op caller s) := by
  unfold execPoolAdd
  repeat' first
    | with_reducible assumption
    | with_reducible apply kept_live
    | with_reducible apply kept_whenB
    | with_reducible apply kept_onBuffer
    | with_reducible apply kept_addBuf
    | intro _

theorem kept_releaseBuf (h0 : Nat) (e : PoolEntry)
    (h : Kept p n o s) : Kept p n o (releaseBuf h0 e s) := by
  unfold releaseBuf
  try dsimp only
  repeat' first
    | with_reducible assumption
    | with_reducible apply kept_freeChain
    | with_reducible apply kept_setRef
    | with_reducible apply kept_tickFree
    | intro _
    | split

theorem kept_execPoolRelease (handle : Nat) (owner : Nat) (stage : Nat) (op : Nat) (caller : Nat)
    (h : Kept p n o s) : KeptRes p n o (execPoolRelease handle owner stage op caller s) := by
  unfold execPoolRelease
  repeat' first
    | with_reducible assumption
    | with_reducible apply kept_live
    | with_reducible apply kept_whenB
    | with_reducible apply kept_onBuffer
    | with_reducible apply kept_releaseBuf
    | intro _

end Sys2Proof.Machine
end

