-- ==== Sys2Proof/Laws/KeepStackMem.lean ====
section
/-! SUPPORT. What the operations of Machine/StackMem.lean keep. -/

namespace Sys2Proof.Machine

variable {p : List Instr} {n : Nat} {o : List Output} {s : State}

theorem kept_wordRecord (cause : Nat) (cls : Nat) (stack : Nat) (idx : Nat) (sym : Nat) (rd : Reader)
    (h : Kept p n o s) : Kept p n o (wordRecord cause cls stack idx sym rd s) := by
  unfold wordRecord
  repeat' first
    | with_reducible assumption
    | with_reducible apply kept_recordErrOn

theorem kept_channelRecord (cause : Nat) (cls : Nat) (stack : Nat) (idx : Nat) (rd : Reader)
    (h : Kept p n o s) : Kept p n o (channelRecord cause cls stack idx rd s) := by
  unfold channelRecord
  repeat' first
    | with_reducible assumption
    | with_reducible apply kept_recordErrOn

theorem kept_requeue (k : Nat) (h : Kept p n o s) : Kept p n o (requeue k s) := by
  unfold requeue
  try dsimp only
  repeat' first
    | with_reducible assumption
    | with_reducible apply kept_modSample
    | with_reducible apply kept_modQueue
    | with_reducible apply kept_foldl
    | intro _

theorem kept_remakeIn (stack : Nat)
    (h : Kept p n o s) : Kept p n o (remakeIn stack s) := by
  unfold remakeIn
  repeat' first
    | with_reducible assumption
    | with_reducible apply kept_remake
    | with_reducible apply kept_foldl
    | intro _

theorem kept_noteRetired (u : Nat) (cause : Nat) (parent : Nat)
    (h : Kept p n o s) : Kept p n o (noteRetired u cause parent s) := by
  unfold noteRetired
  repeat' first
    | with_reducible assumption
    | with_reducible apply kept_logRecord
    | intro _
    | split
    | with_reducible refine kept_set ?_ rfl rfl rfl rfl rfl

theorem kept_retireStack (stack : Nat) (cause : Nat)
    (h : Kept p n o s) : Kept p n o (retireStack stack cause s) := by
  unfold retireStack
  try dsimp only
  repeat' first
    | with_reducible assumption
    | with_reducible apply kept_recordErrOn
    | with_reducible apply kept_noteRetired
    | with_reducible apply kept_loseScheduleStack
    | with_reducible apply kept_dropStackBufs
    | with_reducible apply kept_remakeIn
    | with_reducible apply kept_requeue
    | with_reducible apply kept_foldl
    | intro _
    | split

theorem kept_noteStreak (bad : Bool) (stack : Nat) (idx : Nat) (h : Kept p n o s) : Kept p n o (noteStreak bad stack idx s) := by
  unfold noteStreak
  try dsimp only
  repeat' first
    | with_reducible assumption
    | with_reducible apply kept_retireStack
    | intro _
    | split
    | with_reducible refine kept_set ?_ rfl rfl rfl rfl rfl

theorem kept_notePersist (stack : Nat) (idx : Nat)
    (h : Kept p n o s) : Kept p n o (notePersist stack idx s) := by
  unfold notePersist
  try dsimp only
  repeat' first
    | with_reducible assumption
    | with_reducible apply kept_retireStack
    | intro _
    | split
    | with_reducible refine kept_set ?_ rfl rfl rfl rfl rfl

theorem kept_remapWord (stack : Nat) (idx : Nat) (sym : Nat) (poisoned : Bool)
    (h : Kept p n o s) : Kept p n o (remapWord stack idx sym poisoned s) := by
  unfold remapWord
  try dsimp only
  repeat' first
    | with_reducible assumption
    | with_reducible apply kept_tickFree
    | with_reducible apply kept_logRecord
    | with_reducible apply kept_wordRecord
    | with_reducible apply kept_notePersist
    | intro _
    | split
    | with_reducible refine kept_set ?_ rfl rfl rfl rfl rfl

theorem kept_correctWord (stack : Nat) (idx : Nat) (sym : Nat) (bs : Bytes) (again : List Nat) (rd : Reader)
    (h : Kept p n o s) : Kept p n o (correctWord stack idx sym bs again rd s) := by
  unfold correctWord
  try dsimp only
  repeat' first
    | with_reducible assumption
    | with_reducible apply kept_setWord
    | with_reducible apply kept_channelRecord
    | with_reducible apply kept_bump
    | with_reducible apply kept_remapWord
    | intro _
    | split

theorem kept_poisonWord (cause : Nat) (stack : Nat) (idx : Nat) (again : List Nat) (rd : Reader)
    (h : Kept p n o s) : Kept p n o (poisonWord cause stack idx again rd s) := by
  unfold poisonWord
  try dsimp only
  repeat' first
    | with_reducible assumption
    | with_reducible apply kept_setWord
    | with_reducible apply kept_wordRecord
    | with_reducible apply kept_bump
    | with_reducible apply kept_remapWord
    | intro _
    | split

theorem kept_misdirect (stack : Nat) (idx : Nat) (rd : Reader)
    (h : Kept p n o s) : Kept p n o (misdirect stack idx rd s) := by
  unfold misdirect
  repeat' first
    | with_reducible assumption
    | with_reducible apply kept_noteStreak
    | with_reducible apply kept_channelRecord
    | with_reducible apply kept_bump

theorem kept_decodeWord (stack idx : Nat) (f : WordFault) (rd : Reader) (h : Kept p n o s) :
    Kept p n o (decodeWord stack idx f rd s).1 := by
  have h0 := kept_WordFault_used f h
  unfold decodeWord
  dsimp only
  repeat' first
    | with_reducible exact h0
    | with_reducible apply kept_noteStreak
    | with_reducible apply kept_correctWord
    | with_reducible apply kept_poisonWord
    | with_reducible apply kept_misdirect
    | with_reducible apply kept_wordRecord
    | with_reducible apply kept_setWord
    | with_reducible apply kept_setRaw
    | with_reducible apply kept_bump
    | split

theorem kept_readWord (stack : Nat) (idx : Nat) (fs : List (Nat × WordFault)) (rd : Reader)
    (h : Kept p n o s) : Kept p n o (readWord stack idx fs rd s).1 := by
  unfold readWord
  try dsimp only
  repeat' first
    | with_reducible assumption
    | with_reducible apply kept_decodeWord
    | with_reducible apply kept_wordRecord
    | with_reducible apply kept_setWord
    | with_reducible apply kept_damageObjects
    | with_reducible apply kept_loseScheduleWord
    | intro _
    | split

theorem kept_failCommand (pair : Nat) (cid : Nat)
    (h : Kept p n o s) : Kept p n o (failCommand pair cid s) := by
  unfold failCommand
  repeat' first
    | with_reducible assumption
    | with_reducible apply kept_tickFree
    | with_reducible apply kept_refuse

theorem kept_poisonReader (r : Nat) (stack : Nat) (idx : Nat)
    (h : Kept p n o s) : Kept p n o (poisonReader r stack idx s) := by
  unfold poisonReader
  repeat' first
    | with_reducible assumption
    | with_reducible apply kept_failCommand
    | with_reducible apply kept_completeEntry
    | intro _
    | split

theorem kept_codeWordRead (stack0 : Nat) (idx : Nat) (faults : List (Nat × WordFault)) (reader : Nat)
    (h : Kept p n o s) : Kept p n o (codeWordRead stack0 idx faults reader s) := by
  unfold codeWordRead
  try dsimp only
  repeat' first
    | with_reducible assumption
    | with_reducible apply kept_readWord
    | with_reducible apply kept_poisonReader
    | intro _
    | split

theorem kept_execCodeWordRead (stack : Nat) (idx : Nat) (faults : List (Nat × WordFault)) (reader : Nat)
    (h : Kept p n o s) : KeptRes p n o (execCodeWordRead stack idx faults reader s) := by
  unfold execCodeWordRead
  repeat' first
    | with_reducible assumption
    | with_reducible apply kept_live
    | with_reducible apply kept_codeWordRead
    | intro _

theorem kept_narrowWrite (stack idx off : Nat) (data : Bytes) (f : WordFault) (rd : Reader) (h : Kept p n o s) :
    Kept p n o (narrowWrite stack idx off data f rd s).1 := by
  have h0 := kept_WordFault_used f h
  unfold narrowWrite
  dsimp only
  repeat' first
    | with_reducible exact h0
    | with_reducible apply kept_noteStreak
    | with_reducible apply kept_correctWord
    | with_reducible apply kept_poisonWord
    | with_reducible apply kept_misdirect
    | with_reducible apply kept_wordRecord
    | with_reducible apply kept_setWord
    | with_reducible apply kept_setRaw
    | with_reducible apply kept_bump
    | split

theorem kept_writeWord (stack : Nat) (idx : Nat) (off : Nat) (data : Bytes) (f : WordFault) (rd : Reader)
    (h : Kept p n o s) : Kept p n o (writeWord stack idx off data f rd s).1 := by
  unfold writeWord
  repeat' first
    | with_reducible assumption
    | with_reducible apply kept_setWord
    | with_reducible apply kept_narrowWrite
    | intro _
    | split

theorem kept_codeWordWrite (stack0 : Nat) (idx : Nat) (off : Nat) (data : Bytes) (fault : WordFault) (writer : Nat)
    (h : Kept p n o s) : Kept p n o (codeWordWrite stack0 idx off data fault writer s) := by
  unfold codeWordWrite
  try dsimp only
  repeat' first
    | with_reducible assumption
    | with_reducible apply kept_writeWord
    | with_reducible apply kept_poisonReader
    | intro _
    | split

theorem kept_execCodeWordWrite (stack : Nat) (idx : Nat) (off : Nat) (data : Bytes) (fault : WordFault) (writer : Nat)
    (h : Kept p n o s) : KeptRes p n o (execCodeWordWrite stack idx off data fault writer s) := by
  unfold execCodeWordWrite
  repeat' first
    | with_reducible assumption
    | with_reducible apply kept_live
    | with_reducible apply kept_codeWordWrite
    | intro _

theorem kept_scrubWord (stack idx : Nat) (f : WordFault) (h : Kept p n o s) : Kept p n o (scrubWord stack idx f s) := by
  have h0 := kept_WordFault_used f h
  unfold scrubWord
  dsimp only
  repeat' first
    | with_reducible exact h0
    | with_reducible apply kept_noteStreak
    | with_reducible apply kept_correctWord
    | with_reducible apply kept_poisonWord
    | with_reducible apply kept_misdirect
    | with_reducible apply kept_wordRecord
    | with_reducible apply kept_setWord
    | with_reducible apply kept_setRaw
    | with_reducible apply kept_bump
    | split

theorem kept_scrubStep (stack : Nat) (fault : WordFault)
    (h : Kept p n o s) : Kept p n o (scrubStep stack fault s) := by
  unfold scrubStep
  try dsimp only
  repeat' first
    | with_reducible assumption
    | with_reducible apply kept_setRaw
    | with_reducible apply kept_scrubWord
    | with_reducible apply kept_bump
    | intro _
    | split

theorem kept_execScrubStep (stack : Nat) (fault : WordFault)
    (h : Kept p n o s) : KeptRes p n o (execScrubStep stack fault s) := by
  unfold execScrubStep
  repeat' first
    | with_reducible assumption
    | with_reducible apply kept_live
    | with_reducible apply kept_scrubStep
    | intro _

theorem kept_scrubClean (stack : Nat) (lo : Nat) (hi : Nat)
    (h : Kept p n o s) : Kept p n o (scrubClean stack lo hi s) := by
  unfold scrubClean
  try dsimp only
  repeat' first
    | with_reducible assumption
    | with_reducible apply kept_bumpBy
    | intro _
    | with_reducible refine kept_set ?_ rfl rfl rfl rfl rfl

theorem kept_scrubSpan (stack hi : Nat) (fs : List (Nat × WordFault)) (lo : Nat) (h : Kept p n o s) :
    Kept p n o (scrubSpan stack hi fs lo s) := by
  induction fs generalizing lo s with
  | nil => exact kept_scrubClean _ _ _ h
  | cons f fs ih =>
    unfold scrubSpan
    dsimp only
    split
    · exact ih _ (kept_scrubWord _ _ _ (kept_scrubClean _ _ _ h))
    · exact ih _ h

theorem kept_scrubRange (n0 : Nat) (faults : List (Nat × WordFault)) (l : LongOp)
    (h : Kept p n o s) : Kept p n o (scrubRange n0 faults l s).1 := by
  unfold scrubRange
  try dsimp only
  repeat' first
    | with_reducible assumption
    | with_reducible apply kept_scrubSpan
    | with_reducible apply kept_foldl
    | intro _

theorem kept_scrubDone (faults : List (Nat × WordFault)) (l : LongOp)
    (h : Kept p n o s) : Kept p n o (scrubDone faults l s) := by
  unfold scrubDone
  try dsimp only
  repeat' first
    | with_reducible assumption
    | with_reducible apply kept_scrubRange
    | with_reducible apply kept_finish

theorem kept_execScrubPass (pair : Nat) (cid : Nat) (faults : List (Nat × WordFault))
    (h : Kept p 64 o s) : KeptRes p 64 o (execScrubPass pair cid faults s) := by
  unfold execScrubPass
  repeat' first
    | with_reducible assumption
    | exact kept_more (by with_reducible assumption) (by decide)
    | with_reducible apply kept_live
    | with_reducible apply kept_runLong
    | with_reducible apply kept_scrubDone
    | intro _

theorem kept_scrubSlice (faults : List (Nat × WordFault)) (n0 : Nat) (l : LongOp)
    (h : Kept p n o s) : Kept p n o (scrubSlice faults n0 l s).1 := by
  unfold scrubSlice
  repeat' first
    | with_reducible assumption
    | with_reducible apply kept_scrubRange

theorem kept_fillBuffer (h0 : Nat) (pattern : Bytes) (h : Kept p n o s) : Kept p n o (fillBuffer h0 pattern s) := by
  unfold fillBuffer
  try dsimp only
  repeat' first
    | with_reducible assumption
    | with_reducible apply kept_setWord
    | with_reducible apply kept_foldl
    | intro _

theorem kept_fillRange (n0 : Nat) (l : LongOp) (h : Kept p n o s) : Kept p n o (fillRange n0 l s).1 := by
  unfold fillRange
  try dsimp only
  repeat' first
    | with_reducible assumption
    | with_reducible apply kept_fillBuffer
    | with_reducible apply kept_foldl
    | intro _

theorem kept_fillDone (l : LongOp) (h : Kept p n o s) : Kept p n o (fillDone l s) := by
  unfold fillDone
  try dsimp only
  repeat' first
    | with_reducible assumption
    | with_reducible apply kept_fillRange
    | with_reducible apply kept_finish

theorem kept_execInitFill (pair : Nat) (cid : Nat) (h : Kept p 64 o s) : KeptRes p 64 o (execInitFill pair cid s) := by
  unfold execInitFill
  repeat' first
    | with_reducible assumption
    | exact kept_more (by with_reducible assumption) (by decide)
    | with_reducible apply kept_live
    | with_reducible apply kept_runLong
    | with_reducible apply kept_fillDone
    | intro _

theorem kept_fillSlice (n0 : Nat) (l : LongOp) (h : Kept p n o s) : Kept p n o (fillSlice n0 l s).1 := by
  unfold fillSlice
  repeat' first
    | with_reducible assumption
    | with_reducible apply kept_fillRange

end Sys2Proof.Machine
end

