-- ==== Sys2Proof/Laws/KeepFieldTest.lean ====
section
/-! SUPPORT. What the operations of Machine/FieldTest.lean keep. -/

namespace Sys2Proof.Machine

variable {p : List Instr} {n : Nat} {o : List Output} {s : State}

theorem kept_setCore (i : Nat) (v : Nat) (h : Kept p n o s) : Kept p n o (setCore i v s) := by
  unfold setCore
  repeat' first
    | with_reducible assumption
    | intro _
    | with_reducible refine kept_set ?_ rfl rfl rfl rfl rfl

theorem kept_takeIdentity (l : Nat) (slot : Nat) (h : Kept p n o s) : Kept p n o (takeIdentity l slot s) := by
  unfold takeIdentity
  repeat' first
    | with_reducible assumption
    | with_reducible apply kept_setCore
    | intro _
    | with_reducible refine kept_set ?_ rfl rfl rfl rfl rfl

theorem kept_becomeSpare (i : Nat) (h : Kept p n o s) : Kept p n o (becomeSpare i s) := by
  unfold becomeSpare
  repeat' first
    | with_reducible assumption
    | with_reducible apply kept_enterService
    | with_reducible apply kept_takeIdentity
    | with_reducible apply kept_setCore
    | intro _
    | split

theorem kept_requeueCore (l : Nat)
    (h : Kept p n o s) : Kept p n o (requeueCore l s) := by
  unfold requeueCore
  repeat' first
    | with_reducible assumption
    | with_reducible apply kept_requeue
    | with_reducible apply kept_foldl
    | intro _

theorem kept_loseIdentity (l : Nat)
    (h : Kept p n o s) : Kept p n o (loseIdentity l s) := by
  unfold loseIdentity
  repeat' first
    | with_reducible assumption
    | with_reducible apply kept_requeueCore
    | with_reducible apply kept_departService

theorem kept_releaseCore (i : Nat)
    (h : Kept p n o s) : Kept p n o (releaseCore i s) := by
  unfold releaseCore
  repeat' first
    | with_reducible assumption
    | with_reducible apply kept_takeIdentity
    | with_reducible apply kept_requeueCore
    | with_reducible apply kept_loseIdentity
    | intro _
    | split
    | refine kept_fst (by assumption) ?_
    | refine kept_snd (by assumption) ?_
    | with_reducible refine kept_set ?_ rfl rfl rfl rfl rfl

theorem kept_reissue (u : Nat) (h : Kept p n o s) : Kept p n o (reissue u s) := by
  unfold reissue
  repeat' first
    | with_reducible assumption
    | with_reducible apply kept_requeue
    | intro _
    | split

theorem kept_retireCluster (c : Nat) (h : Kept p n o s) : Kept p n o (retireCluster c s) := by
  unfold retireCluster
  try dsimp only
  repeat' first
    | with_reducible assumption
    | with_reducible apply kept_recordErr
    | with_reducible apply kept_requeue
    | with_reducible apply kept_foldl
    | intro _
    | split

theorem kept_retireUnit (u : Nat) (parent : Nat)
    (h : Kept p n o s) : Kept p n o (retireUnit u parent s) := by
  unfold retireUnit
  try dsimp only
  repeat' first
    | with_reducible assumption
    | with_reducible apply kept_noteRetired
    | with_reducible apply kept_recordErr
    | with_reducible apply kept_retireCluster
    | with_reducible apply kept_setCore
    | with_reducible apply kept_releaseCore
    | with_reducible apply kept_retireStack
    | with_reducible apply kept_departService
    | with_reducible apply kept_failMagazine
    | with_reducible apply kept_reissue
    | with_reducible apply kept_disablePort
    | intro _
    | split
    | refine kept_fst (by assumption) ?_
    | refine kept_snd (by assumption) ?_
    | with_reducible refine kept_set ?_ rfl rfl rfl rfl rfl

theorem kept_startTest (t : TestRun) (h : Kept p n o s) : Kept p n o (startTest t s) := by
  unfold startTest
  try dsimp only
  repeat' first
    | with_reducible assumption
    | with_reducible apply kept_setCore
    | with_reducible apply kept_reissue
    | with_reducible apply kept_departService
    | intro _
    | split
    | with_reducible refine kept_set ?_ rfl rfl rfl rfl rfl

theorem kept_keepRecord (r : TestRec) (h : Kept p n o s) : Kept p n o (keepRecord r s) := by
  unfold keepRecord
  try dsimp only
  repeat' first
    | with_reducible assumption
    | with_reducible apply kept_logRecord
    | intro _
    | split
    | with_reducible refine kept_set ?_ rfl rfl rfl rfl rfl

theorem kept_countTest (u : Nat) (outcome : Nat) (h : Kept p n o s) : Kept p n o (countTest u outcome s) := by
  unfold countTest
  try dsimp only
  repeat' first
    | with_reducible assumption
    | with_reducible apply kept_outcome
    | with_reducible apply kept_bump
    | intro _
    | split
    | refine kept_fst (by assumption) ?_
    | refine kept_snd (by assumption) ?_
    | with_reducible refine kept_set ?_ rfl rfl rfl rfl rfl

theorem kept_requalify (i : Nat) (t : TestRun)
    (h : Kept p n o s) : Kept p n o (requalify i t s) := by
  unfold requalify
  repeat' first
    | with_reducible assumption
    | with_reducible apply kept_departService
    | with_reducible apply kept_setCore
    | intro _
    | with_reducible refine kept_set ?_ rfl rfl rfl rfl rfl

theorem kept_afterTest (t : TestRun) (outcome : Nat) (held : Bool)
    (h : Kept p n o s) : Kept p n o (afterTest t outcome held s) := by
  unfold afterTest
  try dsimp only
  repeat' first
    | with_reducible assumption
    | with_reducible apply kept_outcome
    | with_reducible apply kept_retireUnit
    | with_reducible apply kept_requalify
    | with_reducible apply kept_releaseCore
    | with_reducible apply kept_setCore
    | with_reducible apply kept_becomeSpare
    | with_reducible apply kept_enterService
    | intro _
    | split
    | with_reducible refine kept_set ?_ rfl rfl rfl rfl rfl

theorem kept_finishTest (t : TestRun) (o0 : TestOut) (held : Bool) (h : Kept p n o s) : Kept p n o (finishTest t o0 held s) := by
  unfold finishTest
  try dsimp only
  repeat' first
    | with_reducible assumption
    | with_reducible apply kept_outcome
    | with_reducible apply kept_countTest
    | with_reducible apply kept_keepRecord
    | with_reducible apply kept_raiseEvent
    | with_reducible apply kept_afterTest
    | intro _
    | split

theorem kept_testComplete (o0 : TestOut)
    (h : Kept p n o s) : Kept p n o (testComplete o0 s) := by
  unfold testComplete
  repeat' first
    | with_reducible assumption
    | with_reducible apply kept_finishTest
    | intro _
    | split

theorem kept_execTestComplete (out : TestOut) (h : Kept p n o s) : KeptRes p n o (execTestComplete out s) := by
  unfold execTestComplete
  repeat' first
    | with_reducible assumption
    | with_reducible apply kept_live
    | with_reducible apply kept_testComplete
    | intro _

theorem kept_deferTest (c : Nat) (wait : Bool) (h : Kept p n o s) : Kept p n o (deferTest c wait s) := by
  unfold deferTest
  try dsimp only
  repeat' first
    | with_reducible assumption
    | with_reducible apply kept_bump
    | intro _
    | split
    | with_reducible refine kept_set ?_ rfl rfl rfl rfl rfl

theorem kept_leaveWait (c : Nat)
    (h : Kept p n o s) : Kept p n o (leaveWait c s) := by
  unfold leaveWait
  repeat' first
    | with_reducible assumption
    | intro _
    | with_reducible refine kept_set ?_ rfl rfl rfl rfl rfl

theorem kept_coreTestDue (i : Nat) (trigger : Nat) (parent : Nat) (temp : Int)
    (h : Kept p n o s) : Kept p n o (coreTestDue i trigger parent temp s) := by
  unfold coreTestDue
  try dsimp only
  repeat' first
    | with_reducible assumption
    | with_reducible apply kept_deferTest
    | with_reducible apply kept_leaveWait
    | with_reducible apply kept_startTest
    | intro _
    | split
    | with_reducible refine kept_set ?_ rfl rfl rfl rfl rfl

theorem kept_rotationDue (c : Nat) (temp : Int)
    (h : Kept p n o s) : Kept p n o (rotationDue c temp s) := by
  unfold rotationDue
  repeat' first
    | with_reducible assumption
    | with_reducible apply kept_leaveWait
    | with_reducible apply kept_coreTestDue
    | intro _
    | split

theorem kept_execRotationTestDue (cluster : Nat) (temp : Int)
    (h : Kept p n o s) : KeptRes p n o (execRotationTestDue cluster temp s) := by
  unfold execRotationTestDue
  repeat' first
    | with_reducible assumption
    | with_reducible apply kept_live
    | with_reducible apply kept_rotationDue
    | intro _

theorem kept_deferralRetry (c : Nat) (temp : Int)
    (h : Kept p n o s) : Kept p n o (deferralRetry c temp s) := by
  unfold deferralRetry
  repeat' first
    | with_reducible assumption
    | with_reducible apply kept_rotationDue
    | intro _
    | split
    | with_reducible refine kept_set ?_ rfl rfl rfl rfl rfl

theorem kept_execTestDeferralRetry (cluster : Nat) (temp : Int)
    (h : Kept p n o s) : KeptRes p n o (execTestDeferralRetry cluster temp s) := by
  unfold execTestDeferralRetry
  repeat' first
    | with_reducible assumption
    | with_reducible apply kept_live
    | with_reducible apply kept_deferralRetry
    | intro _

theorem kept_State_coreFlushed (c : Nat)
    (h : Kept p n o s) : Kept p n o (State.coreFlushed s c) := by
  unfold State.coreFlushed
  try dsimp only
  repeat' first
    | with_reducible assumption
    | with_reducible apply kept_settleMerge
    | with_reducible apply kept_engineFault
    | with_reducible apply kept_foldl
    | intro _
    | split

theorem kept_takeover (c : Nat)
    (h : Kept p n o s) : Kept p n o (takeover c s) := by
  unfold takeover
  try dsimp only
  repeat' first
    | with_reducible assumption
    | with_reducible apply kept_State_coreFlushed
    | with_reducible apply kept_takeIdentity
    | with_reducible apply kept_startTest
    | intro _
    | split
    | refine kept_fst (by assumption) ?_
    | refine kept_snd (by assumption) ?_
    | with_reducible refine kept_set ?_ rfl rfl rfl rfl rfl

theorem kept_execTakeover (cluster : Nat) (h : Kept p n o s) : KeptRes p n o (execTakeover cluster s) := by
  unfold execTakeover
  repeat' first
    | with_reducible assumption
    | with_reducible apply kept_live
    | with_reducible apply kept_takeover
    | intro _

theorem kept_suspectTest (u : Nat) (temp : Int) (h : Kept p n o s) : Kept p n o (suspectTest u temp s) := by
  unfold suspectTest
  try dsimp only
  repeat' first
    | with_reducible assumption
    | with_reducible apply kept_coreTestDue
    | with_reducible apply kept_startTest
    | intro _
    | split
    | refine kept_fst (by assumption) ?_
    | refine kept_snd (by assumption) ?_
    | with_reducible refine kept_set ?_ rfl rfl rfl rfl rfl

theorem kept_execSuspectTest (unit : Nat) (temp : Int) (h : Kept p n o s) : KeptRes p n o (execSuspectTest unit temp s) := by
  unfold execSuspectTest
  repeat' first
    | with_reducible assumption
    | with_reducible apply kept_live
    | with_reducible apply kept_suspectTest
    | intro _

theorem kept_requalRetest (i : Nat) (temp : Int) (dayPassed : Bool) (o0 : TestOut)
    (h : Kept p n o s) : Kept p n o (requalRetest i temp dayPassed o0 s) := by
  unfold requalRetest
  try dsimp only
  repeat' first
    | with_reducible assumption
    | with_reducible apply kept_outcome
    | with_reducible apply kept_countTest
    | with_reducible apply kept_keepRecord
    | with_reducible apply kept_enterService
    | with_reducible apply kept_becomeSpare
    | with_reducible apply kept_retireUnit
    | with_reducible apply kept_raiseEvent
    | intro _
    | split
    | with_reducible refine kept_set ?_ rfl rfl rfl rfl rfl

theorem kept_execRequalificationRetest (slot : Nat) (temp : Int) (dayPassed : Bool) (out : TestOut)
    (h : Kept p n o s) : KeptRes p n o (execRequalificationRetest slot temp dayPassed out s) := by
  unfold execRequalificationRetest
  repeat' first
    | with_reducible assumption
    | with_reducible apply kept_live
    | with_reducible apply kept_requalRetest
    | intro _

theorem kept_testRotationSet (c : Cmd) (h : Kept p n o s) : Kept p n o (testRotationSet c s) := by
  unfold testRotationSet
  try dsimp only
  repeat' first
    | with_reducible assumption
    | with_reducible apply kept_refuse
    | with_reducible apply kept_finishPlain
    | with_reducible apply kept_setRaw
    | with_reducible apply kept_foldl
    | intro _
    | split

theorem kept_execTestRotationSet (pair : Nat) (cid : Nat)
    (h : Kept p n o s) : KeptRes p n o (execTestRotationSet pair cid s) := by
  unfold execTestRotationSet
  repeat' first
    | with_reducible assumption
    | with_reducible apply kept_live
    | with_reducible apply kept_runCmd
    | with_reducible apply kept_testRotationSet
    | intro _

theorem kept_runTest (l : LongOp) (whole : Bool) (outs : List TestOut) (temp : Int) (u : Nat)
    (h : Kept p n o s) : Kept p n o (runTest l whole outs temp u s) := by
  unfold runTest
  try dsimp only
  repeat' first
    | with_reducible assumption
    | with_reducible apply kept_finishTest
    | with_reducible apply kept_releaseCore
    | with_reducible apply kept_startTest
    | intro _
    | split

theorem kept_testSome (n0 : Nat) (outs : List TestOut) (temp : Int) (l : LongOp)
    (h : Kept p n o s) : Kept p n o (testSome n0 outs temp l s).1 := by
  unfold testSome
  try dsimp only
  repeat' first
    | with_reducible assumption
    | with_reducible apply kept_runTest
    | with_reducible apply kept_foldl
    | intro _

theorem kept_testDone (outs : List TestOut) (temp : Int) (l : LongOp)
    (h : Kept p n o s) : Kept p n o (testDone outs temp l s) := by
  unfold testDone
  try dsimp only
  repeat' first
    | with_reducible assumption
    | with_reducible apply kept_testSome
    | with_reducible apply kept_finish

theorem kept_execTestRun (pair : Nat) (cid : Nat) (outs : List TestOut) (temp : Int)
    (h : Kept p 64 o s) : KeptRes p 64 o (execTestRun pair cid outs temp s) := by
  unfold execTestRun
  repeat' first
    | with_reducible assumption
    | exact kept_more (by with_reducible assumption) (by decide)
    | with_reducible apply kept_live
    | with_reducible apply kept_runLong
    | with_reducible apply kept_testDone
    | intro _

theorem kept_testSlice (n0 : Nat) (l : LongOp) (h : Kept p n o s) : Kept p n o (testSlice n0 l s).1 := by
  unfold testSlice
  try dsimp only
  repeat' first
    | with_reducible assumption
    | with_reducible apply kept_testSome

theorem kept_testResults (pcieOk : Bool) (c : Cmd) (h : Kept p n o s) : Kept p n o (testResults pcieOk c s) := by
  unfold testResults
  try dsimp only
  repeat' first
    | with_reducible assumption
    | with_reducible apply kept_refuse
    | with_reducible apply kept_replyData
    | intro _
    | split
    | with_reducible refine kept_set ?_ rfl rfl rfl rfl rfl

theorem kept_execTestResultsRead (pair : Nat) (cid : Nat) (pcieOk : Bool)
    (h : Kept p n o s) : KeptRes p n o (execTestResultsRead pair cid pcieOk s) := by
  unfold execTestResultsRead
  repeat' first
    | with_reducible assumption
    | with_reducible apply kept_live
    | with_reducible apply kept_runCmd
    | with_reducible apply kept_testResults
    | intro _

theorem kept_unitRetire (c : Cmd) (h : Kept p n o s) : Kept p n o (unitRetire c s) := by
  unfold unitRetire
  try dsimp only
  repeat' first
    | with_reducible assumption
    | with_reducible apply kept_refuse
    | with_reducible apply kept_finishPlain
    | with_reducible apply kept_retireUnit
    | intro _
    | split

theorem kept_execUnitRetire (pair : Nat) (cid : Nat) (h : Kept p n o s) : KeptRes p n o (execUnitRetire pair cid s) := by
  unfold execUnitRetire
  repeat' first
    | with_reducible assumption
    | with_reducible apply kept_live
    | with_reducible apply kept_runCmd
    | with_reducible apply kept_unitRetire
    | intro _

end Sys2Proof.Machine
end

