-- ==== Sys2Proof/Laws/KeepNotices.lean ====
section
/-! SUPPORT. What the operations of Machine/Notices.lean keep. -/

namespace Sys2Proof.Machine

variable {p : List Instr} {n : Nat} {o : List Output} {s : State}

theorem kept_modRun (pipe : Nat) (consumer : Nat) (f : ConsRun → ConsRun)
    (h : Kept p n o s) : Kept p n o (modRun pipe consumer f s) := by
  unfold modRun
  repeat' first
    | with_reducible assumption
    | with_reducible apply kept_modPipe

theorem kept_takeSlot (pipe : Nat) (consumer : Nat) (batch : Nat) (e : Nat × Nat)
    (h : Kept p n o s) : Kept p n o (takeSlot pipe consumer batch e s) := by
  unfold takeSlot
  try dsimp only
  repeat' first
    | with_reducible assumption
    | with_reducible apply kept_modRun
    | with_reducible apply kept_bump
    | intro _
    | split

theorem kept_takeSlots (m : Message) (h : Kept p n o s) : Kept p n o (takeSlots m s) := by
  unfold takeSlots
  repeat' first
    | with_reducible assumption
    | with_reducible apply kept_takeSlot
    | with_reducible apply kept_foldl
    | intro _
    | split

theorem kept_execSlotNotice (m : Message) (h : Kept p n o s) : KeptRes p n o (execSlotNotice m s) := by
  unfold execSlotNotice
  try dsimp only
  repeat' first
    | with_reducible assumption
    | with_reducible apply kept_live
    | with_reducible apply kept_whenB
    | with_reducible apply kept_freeSlot
    | with_reducible apply kept_takeSlots
    | intro _
    | split

theorem kept_takePiece (pipe : Nat) (epoch : Nat) (span : Nat) (e : Nat × Nat × Nat)
    (h : Kept p n o s) : Kept p n o (takePiece pipe epoch span e s) := by
  unfold takePiece
  repeat' first
    | with_reducible assumption
    | with_reducible apply kept_modPipe

theorem kept_takePieces (m : Message) (h : Kept p n o s) : Kept p n o (takePieces m s) := by
  unfold takePieces
  repeat' first
    | with_reducible assumption
    | with_reducible apply kept_takePiece
    | with_reducible apply kept_foldl
    | intro _

theorem kept_execPieceNotice (m : Message) (h : Kept p n o s) : KeptRes p n o (execPieceNotice m s) := by
  unfold execPieceNotice
  try dsimp only
  repeat' first
    | with_reducible assumption
    | with_reducible apply kept_live
    | with_reducible apply kept_whenB
    | with_reducible apply kept_freeSlot
    | with_reducible apply kept_takePieces
    | intro _
    | split

theorem kept_deliverNotice (node : Nat) (m : Message) (h : Kept p n o s) : Kept p n o (deliverNotice node m s) := by
  unfold deliverNotice
  repeat' first
    | with_reducible assumption
    | with_reducible apply kept_takeSlots
    | with_reducible apply kept_takePieces
    | with_reducible apply kept_sendMessage
    | intro _
    | split

theorem kept_sendNotice (node : Nat) (batch : Nat) (m : Message) (h : Kept p n o s) : Kept p n o (sendNotice node batch m s) := by
  unfold sendNotice
  repeat' first
    | with_reducible assumption
    | with_reducible apply kept_deliverNotice
    | intro _
    | split
    | with_reducible refine kept_set ?_ rfl rfl rfl rfl rfl

theorem kept_moveCursor (pipe : Nat) (h : Kept p n o s) : Kept p n o (moveCursor pipe s) := by
  unfold moveCursor
  repeat' first
    | with_reducible assumption
    | with_reducible apply kept_reachBoundaries
    | intro _
    | split

theorem kept_learnRelease (pipe : Nat) (consumer : Nat) (oldest : Nat) (writable : Nat)
    (h : Kept p n o s) : Kept p n o (learnRelease pipe consumer oldest writable s) := by
  unfold learnRelease
  repeat' first
    | with_reducible assumption
    | with_reducible apply kept_moveCursor
    | with_reducible apply kept_modRun

theorem kept_takeRelease (m : Message) (h : Kept p n o s) : Kept p n o (takeRelease m s) := by
  unfold takeRelease
  repeat' first
    | with_reducible assumption
    | with_reducible apply kept_learnRelease
    | with_reducible apply kept_foldl
    | intro _
    | split

theorem kept_execReleaseNotice (m : Message) (h : Kept p n o s) : KeptRes p n o (execReleaseNotice m s) := by
  unfold execReleaseNotice
  try dsimp only
  repeat' first
    | with_reducible assumption
    | with_reducible apply kept_live
    | with_reducible apply kept_whenB
    | with_reducible apply kept_freeSlot
    | with_reducible apply kept_takeRelease
    | intro _
    | split

theorem kept_sendRelease (pipe : Nat) (consumer : Nat) (batch : Nat)
    (h : Kept p n o s) : Kept p n o (sendRelease pipe consumer batch s) := by
  unfold sendRelease
  repeat' first
    | with_reducible assumption
    | with_reducible apply kept_sendAll
    | intro _
    | split

theorem kept_consumerWrite (k : Consumer) (key : Nat) (addr : Nat) (bs : Bytes) (batch : Nat)
    (h : Kept p n o s) : Kept p n o (consumerWrite k key addr bs batch s) := by
  unfold consumerWrite
  repeat' first
    | with_reducible assumption
    | with_reducible apply kept_postWork

theorem kept_batchRelease (pipe : Nat) (consumer : Nat)
    (h : Kept p n o s) : Kept p n o (batchRelease pipe consumer s) := by
  unfold batchRelease
  try dsimp only
  repeat' first
    | with_reducible assumption
    | with_reducible apply kept_consumerWrite
    | with_reducible apply kept_postWork
    | with_reducible apply kept_modRun
    | with_reducible apply kept_traceRecord
    | with_reducible apply kept_moveCursor
    | with_reducible apply kept_sendRelease
    | intro _
    | split

theorem kept_execBatchRelease (pipeline : Nat) (consumer : Nat)
    (h : Kept p n o s) : KeptRes p n o (execBatchRelease pipeline consumer s) := by
  unfold execBatchRelease
  repeat' first
    | with_reducible assumption
    | with_reducible apply kept_live
    | with_reducible apply kept_whenB
    | with_reducible apply kept_batchRelease
    | intro _

theorem kept_headReadTimer (pipe : Nat) (consumer : Nat) (h : Kept p n o s) : Kept p n o (headReadTimer pipe consumer s) := by
  unfold headReadTimer
  repeat' first
    | with_reducible assumption
    | with_reducible apply kept_postWork
    | intro _
    | split

theorem kept_execHeadReadTimer (pipeline : Nat) (consumer : Nat)
    (h : Kept p n o s) : KeptRes p n o (execHeadReadTimer pipeline consumer s) := by
  unfold execHeadReadTimer
  repeat' first
    | with_reducible assumption
    | with_reducible apply kept_live
    | with_reducible apply kept_whenB
    | with_reducible apply kept_headReadTimer
    | intro _

theorem kept_lowWaterCheck (pipe : Nat) (consumer : Nat) (h : Kept p n o s) : Kept p n o (lowWaterCheck pipe consumer s) := by
  unfold lowWaterCheck
  try dsimp only
  repeat' first
    | with_reducible assumption
    | with_reducible apply kept_modRun
    | with_reducible apply kept_traceRecord
    | with_reducible apply kept_raiseEvent
    | with_reducible apply kept_bump
    | intro _
    | split

theorem kept_headReadComplete (pipe : Nat) (consumer : Nat) (head : Nat)
    (h : Kept p n o s) : Kept p n o (headReadComplete pipe consumer head s) := by
  unfold headReadComplete
  try dsimp only
  repeat' first
    | with_reducible assumption
    | with_reducible apply kept_modRun
    | with_reducible apply kept_sendRelease
    | with_reducible apply kept_lowWaterCheck
    | intro _
    | split

theorem kept_execHeadReadComplete (pipeline : Nat) (consumer : Nat) (head : BitVec 64)
    (h : Kept p n o s) : KeptRes p n o (execHeadReadComplete pipeline consumer head s) := by
  unfold execHeadReadComplete
  repeat' first
    | with_reducible assumption
    | with_reducible apply kept_live
    | with_reducible apply kept_whenB
    | with_reducible apply kept_headReadComplete
    | intro _

end Sys2Proof.Machine
end

