-- ==== Sys2Proof/Laws/KeepFields.lean ====
section
/-! SUPPORT. What the operations of Machine/Fields.lean keep. -/

namespace Sys2Proof.Machine

variable {p : List Instr} {n : Nat} {o : List Output} {s : State}

theorem kept_keepPeriod (id : Nat) (v : Nat) (h : Kept p n o s) : Kept p n o (keepPeriod id v s) := by
  unfold keepPeriod
  repeat' first
    | with_reducible assumption
    | with_reducible apply kept_id
    | intro _
    | with_reducible refine kept_set ?_ rfl rfl rfl rfl rfl

theorem kept_clearRead (id : Nat) (h : Kept p n o s) : Kept p n o (clearRead id s) := by
  unfold clearRead
  repeat' first
    | with_reducible assumption
    | with_reducible apply kept_setRaw
    | with_reducible apply kept_keepPeriod
    | with_reducible apply kept_id
    | intro _
    | split

theorem kept_readFields (ids : List Nat) (h : Kept p n o s) : Kept p n o (readFields ids s).2 := by
  induction ids generalizing s with
  | nil => exact h
  | cons x t ih => exact ih (kept_tickFree (kept_clearRead _ h))

theorem kept_getFields (pcieOk : Bool) (c : Cmd) (h : Kept p n o s) : Kept p n o (getFields pcieOk c s) := by
  unfold getFields
  try dsimp only
  repeat' first
    | with_reducible assumption
    | with_reducible apply kept_refuse
    | with_reducible apply kept_readFields
    | with_reducible apply kept_replyData
    | with_reducible apply kept_id
    | intro _
    | split

theorem kept_execGetField (pair : Nat) (cid : Nat) (pcieOk : Bool)
    (h : Kept p n o s) : KeptRes p n o (execGetField pair cid pcieOk s) := by
  unfold execGetField
  repeat' first
    | with_reducible assumption
    | with_reducible apply kept_live
    | with_reducible apply kept_runCmd
    | with_reducible apply kept_getFields
    | intro _

theorem kept_modDecl (pipe : Nat) (f : Decl → Decl) (h : Kept p n o s) : Kept p n o (modDecl pipe f s) := by
  unfold modDecl
  repeat' first
    | with_reducible assumption
    | intro _
    | with_reducible refine kept_set ?_ rfl rfl rfl rfl rfl

theorem kept_writeField (e : Nat × Nat) (h : Kept p n o s) : Kept p n o (writeField e s) := by
  unfold writeField
  try dsimp only
  repeat' first
    | with_reducible assumption
    | with_reducible apply kept_modDecl
    | with_reducible apply kept_setRaw
    | intro _
    | split

theorem kept_switchSpread (h : Kept p n o s) : Kept p n o (switchSpread s) := by
  unfold switchSpread
  repeat' first
    | with_reducible assumption
    | with_reducible apply kept_gate
    | with_reducible apply kept_foldl

theorem kept_fieldEffects (ids : List Nat) (was : State) (h : Kept p n o s) : Kept p n o (fieldEffects ids was s) := by
  unfold fieldEffects
  try dsimp only
  repeat' first
    | with_reducible assumption
    | with_reducible apply kept_showAmber
    | with_reducible apply kept_emit
    | with_reducible apply kept_whenB
    | with_reducible apply kept_switchSpread
    | with_reducible apply kept_armWritten
    | with_reducible apply kept_driveWritten
    | with_reducible apply kept_foldl
    | with_reducible apply kept_id
    | intro _
    | split

theorem kept_setFields (c : Cmd) (h : Kept p n o s) : Kept p n o (setFields c s) := by
  unfold setFields
  try dsimp only
  repeat' first
    | with_reducible assumption
    | with_reducible apply kept_refuse
    | with_reducible apply kept_finish
    | with_reducible apply kept_writeField
    | with_reducible apply kept_finishPlain
    | with_reducible apply kept_fieldEffects
    | with_reducible apply kept_foldl
    | intro _
    | split

theorem kept_execSetField (pair : Nat) (cid : Nat) (h : Kept p n o s) : KeptRes p n o (execSetField pair cid s) := by
  unfold execSetField
  repeat' first
    | with_reducible assumption
    | with_reducible apply kept_live
    | with_reducible apply kept_runCmd
    | with_reducible apply kept_setFields
    | intro _

end Sys2Proof.Machine
end

