-- ==== Sys2Proof/Laws/KeepObserve.lean ====
section
/-! SUPPORT. What the operations of Machine/Observe.lean keep. -/

namespace Sys2Proof.Machine

variable {p : List Instr} {n : Nat} {o : List Output} {s : State}

theorem kept_countersRead (pcieOk : Bool) (c : Cmd)
    (h : Kept p n o s) : Kept p n o (countersRead pcieOk c s) := by
  unfold countersRead
  try dsimp only
  repeat' first
    | with_reducible assumption
    | with_reducible apply kept_refuse
    | with_reducible apply kept_replyData
    | intro _
    | split
    | refine kept_fst (by assumption) ?_
    | refine kept_snd (by assumption) ?_
    | with_reducible refine kept_set ?_ rfl rfl rfl rfl rfl

theorem kept_execCountersRead (pair : Nat) (cid : Nat) (pcieOk : Bool)
    (h : Kept p n o s) : KeptRes p n o (execCountersRead pair cid pcieOk s) := by
  unfold execCountersRead
  repeat' first
    | with_reducible assumption
    | with_reducible apply kept_live
    | with_reducible apply kept_runCmd
    | with_reducible apply kept_countersRead
    | intro _

theorem kept_traceConfig (c : Cmd) (h : Kept p n o s) : Kept p n o (traceConfig c s) := by
  unfold traceConfig
  repeat' first
    | with_reducible assumption
    | with_reducible apply kept_refuse
    | with_reducible apply kept_finishPlain
    | with_reducible apply kept_setRaw
    | intro _
    | split
    | with_reducible refine kept_set ?_ rfl rfl rfl rfl rfl

theorem kept_execTraceConfig (pair : Nat) (cid : Nat) (h : Kept p n o s) : KeptRes p n o (execTraceConfig pair cid s) := by
  unfold execTraceConfig
  repeat' first
    | with_reducible assumption
    | with_reducible apply kept_live
    | with_reducible apply kept_runCmd
    | with_reducible apply kept_traceConfig
    | intro _

theorem kept_newPeriod (h : Kept p n o s) : Kept p n o (newPeriod s) := by
  unfold newPeriod
  try dsimp only
  repeat' first
    | with_reducible assumption
    | with_reducible apply kept_foldl
    | intro _
    | with_reducible refine kept_set ?_ rfl rfl rfl rfl rfl

theorem kept_makeDailies (trigger : Nat) (h : Kept p n o s) : Kept p n o (makeDailies trigger s) := by
  unfold makeDailies
  repeat' first
    | with_reducible assumption
    | with_reducible apply kept_newPeriod
    | with_reducible apply kept_tickFree
    | with_reducible apply kept_logRecord

theorem kept_dailiesDone (pcieOk : Bool) (l : LongOp)
    (h : Kept p n o s) : Kept p n o (dailiesDone pcieOk l s) := by
  unfold dailiesDone
  try dsimp only
  repeat' first
    | with_reducible assumption
    | with_reducible apply kept_finish
    | with_reducible apply kept_makeDailies
    | with_reducible apply kept_emits
    | with_reducible apply kept_refuse
    | intro _
    | split

theorem kept_execDailiesRun (pair : Nat) (cid : Nat) (pcieOk : Bool)
    (h : Kept p 64 o s) : KeptRes p 64 o (execDailiesRun pair cid pcieOk s) := by
  unfold execDailiesRun
  repeat' first
    | with_reducible assumption
    | exact kept_more (by with_reducible assumption) (by decide)
    | with_reducible apply kept_live
    | with_reducible apply kept_runLong
    | with_reducible apply kept_dailiesDone
    | intro _

theorem kept_dailiesPeriod (h : Kept p n o s) : Kept p n o (dailiesPeriod s) := by
  unfold dailiesPeriod
  try dsimp only
  repeat' first
    | with_reducible assumption
    | with_reducible apply kept_raiseEvent
    | with_reducible apply kept_makeDailies

theorem kept_execDailiesPeriod (h : Kept p n o s) : KeptRes p n o (execDailiesPeriod s) := by
  unfold execDailiesPeriod
  repeat' first
    | with_reducible assumption
    | with_reducible apply kept_live
    | with_reducible apply kept_whenB
    | with_reducible apply kept_dailiesPeriod
    | intro _

theorem kept_eraseSector (h : Kept p n o s) : Kept p n o (eraseSector s) := by
  unfold eraseSector
  try dsimp only
  repeat' first
    | with_reducible assumption
    | intro _
    | with_reducible refine kept_set ?_ rfl rfl rfl rfl rfl

theorem kept_appendLog (void : Bool) (r : LogRec) (h : Kept p n o s) : Kept p n o (appendLog void r s) := by
  unfold appendLog
  try dsimp only
  repeat' first
    | with_reducible assumption
    | with_reducible apply kept_eraseSector
    | intro _
    | split
    | with_reducible refine kept_set ?_ rfl rfl rfl rfl rfl

theorem kept_logbookWrite (h : Kept p n o s) : Kept p n o (logbookWrite s) := by
  have hq := h.logQueue
  unfold logbookWrite
  split
  · exact h
  · rename_i r rest he
    rw [he, List.length_cons] at hq
    have h1 := kept_appendLog false r (kept_obs
      { s.obs with logQueue := rest ++ s.obs.logOver.take 1, logOver := s.obs.logOver.drop 1 }
      (by rw [List.length_append, List.length_take]; omega) h)
    dsimp only
    split
    · exact h1
    · exact kept_logRecord _ _ _ (kept_obs _ h1.logQueue h1)

theorem kept_execLogbookWrite (h : Kept p n o s) : KeptRes p n o (execLogbookWrite s) := by
  unfold execLogbookWrite
  repeat' first
    | with_reducible assumption
    | with_reducible apply kept_live
    | with_reducible apply kept_logbookWrite

theorem kept_logbookSome (k : Nat) (l : LongOp)
    (h : Kept p n o s) : Kept p n o (logbookSome k l s).1 := by
  unfold logbookSome
  try dsimp only
  repeat' first
    | with_reducible assumption
    | with_reducible apply kept_emit
    | intro _
    | split

theorem kept_logbookEnd (l : LongOp) (h : Kept p n o s) : Kept p n o (logbookEnd l s) := by
  unfold logbookEnd
  repeat' first
    | with_reducible assumption
    | with_reducible apply kept_finishPlain
    | with_reducible apply kept_finish
    | intro _
    | split

theorem kept_logbookDone (pcieOk : Bool) (l : LongOp) (h : Kept p n o s) : Kept p n o (logbookDone pcieOk l s) := by
  unfold logbookDone
  try dsimp only
  repeat' first
    | with_reducible assumption
    | with_reducible apply kept_logbookSome
    | with_reducible apply kept_logbookEnd
    | with_reducible apply kept_refuse
    | intro _
    | split

theorem kept_execLogbookRead (pair : Nat) (cid : Nat) (pcieOk : Bool)
    (h : Kept p 64 o s) : KeptRes p 64 o (execLogbookRead pair cid pcieOk s) := by
  unfold execLogbookRead
  repeat' first
    | with_reducible assumption
    | exact kept_more (by with_reducible assumption) (by decide)
    | with_reducible apply kept_live
    | with_reducible apply kept_runLong
    | with_reducible apply kept_logbookDone
    | intro _

end Sys2Proof.Machine
end

