-- ==== Sys2Proof/Laws/KeepPower.lean ====
section
/-! SUPPORT. What the operations of Machine/Power.lean keep. -/

namespace Sys2Proof.Machine

variable {p : List Instr} {n : Nat} {o : List Output} {s : State}

theorem kept_throttled (ds : List (Nat × Nat)) (was : State) (h : Kept p n o s) : Kept p n o (throttled ds was s) := by
  unfold throttled
  repeat' first
    | with_reducible assumption
    | with_reducible apply kept_bump
    | with_reducible apply kept_switchIfChanged
    | with_reducible apply kept_foldl
    | intro _
    | split

theorem kept_powerCapSample (watts : Nat) (below : Bool) (h : Kept p n o s) : Kept p n o (powerCapSample watts below s) := by
  unfold powerCapSample
  repeat' first
    | with_reducible assumption
    | with_reducible apply kept_throttled
    | intro _
    | with_reducible refine kept_set ?_ rfl rfl rfl rfl rfl

theorem kept_execPowerCapSample (watts : Nat) (below100ms : Bool)
    (h : Kept p n o s) : KeptRes p n o (execPowerCapSample watts below100ms s) := by
  unfold execPowerCapSample
  repeat' first
    | with_reducible assumption
    | with_reducible apply kept_live
    | with_reducible apply kept_powerCapSample
    | intro _

theorem kept_noteTemp (die : Nat) (temp : Int) (h : Kept p n o s) : Kept p n o (noteTemp die temp s) := by
  unfold noteTemp
  try dsimp only
  repeat' first
    | with_reducible assumption
    | intro _
    | split
    | refine kept_fst (by assumption) ?_
    | refine kept_snd (by assumption) ?_
    | with_reducible refine kept_set ?_ rfl rfl rfl rfl rfl

theorem kept_thresholdEvent (unit : Nat) (kind : Nat) (set : Nat) (index : Nat)
    (h : Kept p n o s) : Kept p n o (thresholdEvent unit kind set index s) := by
  unfold thresholdEvent
  try dsimp only
  repeat' first
    | with_reducible assumption
    | with_reducible apply kept_emit
    | with_reducible apply kept_raiseEvent

theorem kept_hotEvent (die : Nat) (temp : Int) (h : Kept p n o s) : Kept p n o (hotEvent die temp s) := by
  unfold hotEvent
  repeat' first
    | with_reducible assumption
    | with_reducible apply kept_thresholdEvent
    | intro _
    | split
    | with_reducible refine kept_set ?_ rfl rfl rfl rfl rfl

theorem kept_lowering (die : Nat) (temp : Int) (h : Kept p n o s) : Kept p n o (lowering die temp s) := by
  unfold lowering
  try dsimp only
  repeat' first
    | with_reducible assumption
    | intro _
    | split
    | with_reducible refine kept_set ?_ rfl rfl rfl rfl rfl

theorem kept_readTemp (die : Nat) (temp : Int) (h : Kept p n o s) : Kept p n o (readTemp die temp s) := by
  unfold readTemp
  try dsimp only
  repeat' first
    | with_reducible assumption
    | with_reducible apply kept_lowering
    | with_reducible apply kept_hotEvent
    | with_reducible apply kept_noteTemp
    | with_reducible apply kept_stopClocks
    | with_reducible apply kept_fatalStop
    | intro _
    | split

theorem kept_execThermalThreshold (die : Nat) (temp : Int)
    (h : Kept p n o s) : KeptRes p n o (execThermalThreshold die temp s) := by
  unfold execThermalThreshold
  repeat' first
    | with_reducible assumption
    | with_reducible apply kept_live
    | with_reducible apply kept_whenB
    | with_reducible apply kept_readTemp
    | intro _

theorem kept_setTherm (cluster : Nat) (d : Nat) (f : Nat) (h : Kept p n o s) : Kept p n o (setTherm cluster d f s) := by
  unfold setTherm
  repeat' first
    | with_reducible assumption
    | intro _
    | split
    | with_reducible refine kept_set ?_ rfl rfl rfl rfl rfl

theorem kept_moveTherm (down : Bool) (die : Nat) (h : Kept p n o s) : Kept p n o (moveTherm down die s) := by
  unfold moveTherm
  repeat' first
    | with_reducible assumption
    | with_reducible apply kept_throttled
    | with_reducible apply kept_setTherm
    | with_reducible apply kept_foldl
    | intro _

theorem kept_thermalStep (die : Nat) (temp : Int) (h : Kept p n o s) : Kept p n o (thermalStep die temp s) := by
  unfold thermalStep
  try dsimp only
  repeat' first
    | with_reducible assumption
    | with_reducible apply kept_readTemp
    | with_reducible apply kept_moveTherm
    | intro _
    | split

theorem kept_execThermalStep (die : Nat) (temp : Int) (h : Kept p n o s) : KeptRes p n o (execThermalStep die temp s) := by
  unfold execThermalStep
  repeat' first
    | with_reducible assumption
    | with_reducible apply kept_live
    | with_reducible apply kept_whenB
    | with_reducible apply kept_thermalStep
    | intro _

theorem kept_noteSlack (rail : Nat) (slackPs : Int) (h : Kept p n o s) : Kept p n o (noteSlack rail slackPs s) := by
  unfold noteSlack
  try dsimp only
  repeat' first
    | with_reducible assumption
    | with_reducible apply kept_foldl
    | intro _
    | split
    | refine kept_fst (by assumption) ?_
    | refine kept_snd (by assumption) ?_
    | with_reducible refine kept_set ?_ rfl rfl rfl rfl rfl

theorem kept_avsAdjust (rail : Nat) (slackPs : Int) (h : Kept p n o s) : Kept p n o (avsAdjust rail slackPs s) := by
  unfold avsAdjust
  try dsimp only
  repeat' first
    | with_reducible assumption
    | with_reducible apply kept_emit
    | with_reducible apply kept_noteSlack
    | intro _
    | with_reducible refine kept_set ?_ rfl rfl rfl rfl rfl

theorem kept_execAvsAdjust (rail : Nat) (slackPs : Int) (h : Kept p n o s) : KeptRes p n o (execAvsAdjust rail slackPs s) := by
  unfold execAvsAdjust
  repeat' first
    | with_reducible assumption
    | with_reducible apply kept_live
    | with_reducible apply kept_whenB
    | with_reducible apply kept_avsAdjust
    | intro _

theorem kept_noteDroop (cluster : Nat) (mv : Nat) (h : Kept p n o s) : Kept p n o (noteDroop cluster mv s) := by
  unfold noteDroop
  try dsimp only
  repeat' first
    | with_reducible assumption
    | intro _
    | split
    | refine kept_fst (by assumption) ?_
    | refine kept_snd (by assumption) ?_
    | with_reducible refine kept_set ?_ rfl rfl rfl rfl rfl

theorem kept_droopStretch (cluster : Nat) (mv : Nat) (h : Kept p n o s) : Kept p n o (droopStretch cluster mv s) := by
  unfold droopStretch
  repeat' first
    | with_reducible assumption
    | with_reducible apply kept_traceRecord
    | with_reducible apply kept_tickFree
    | with_reducible apply kept_noteDroop
    | intro _
    | split
    | with_reducible refine kept_set ?_ rfl rfl rfl rfl rfl

theorem kept_execDroopStretch (cluster : Nat) (lowestMv : Nat)
    (h : Kept p n o s) : KeptRes p n o (execDroopStretch cluster lowestMv s) := by
  unfold execDroopStretch
  repeat' first
    | with_reducible assumption
    | with_reducible apply kept_live
    | with_reducible apply kept_whenB
    | with_reducible apply kept_droopStretch
    | intro _

theorem kept_droopRecover (cluster : Nat) (h : Kept p n o s) : Kept p n o (droopRecover cluster s) := by
  unfold droopRecover
  repeat' first
    | with_reducible assumption
    | intro _
    | with_reducible refine kept_set ?_ rfl rfl rfl rfl rfl

theorem kept_execDroopRecover (cluster : Nat) (h : Kept p n o s) : KeptRes p n o (execDroopRecover cluster s) := by
  unfold execDroopRecover
  repeat' first
    | with_reducible assumption
    | with_reducible apply kept_live
    | with_reducible apply kept_droopRecover
    | intro _

theorem kept_gateEnd (k : Nat) (h : Kept p n o s) : Kept p n o (gateEnd k s) := by
  unfold gateEnd
  repeat' first
    | with_reducible assumption
    | intro _
    | split
    | with_reducible refine kept_set ?_ rfl rfl rfl rfl rfl

theorem kept_execDomainSwitchGateEnd (domain : Nat) (h : Kept p n o s) : KeptRes p n o (execDomainSwitchGateEnd domain s) := by
  unfold execDomainSwitchGateEnd
  repeat' first
    | with_reducible assumption
    | with_reducible apply kept_live
    | with_reducible apply kept_gateEnd
    | intro _

theorem kept_i3cRequest (kind : Nat) (arg : Nat) (h : Kept p n o s) : Kept p n o (i3cRequest kind arg s) := by
  unfold i3cRequest
  repeat' first
    | with_reducible assumption
    | with_reducible apply kept_emit
    | with_reducible apply kept_tickFree
    | intro _
    | split
    | refine kept_fst (by assumption) ?_
    | refine kept_snd (by assumption) ?_
    | with_reducible refine kept_set ?_ rfl rfl rfl rfl rfl

theorem kept_execI3cRequest (kind : Nat) (arg : Nat) (h : Kept p n o s) : KeptRes p n o (execI3cRequest kind arg s) := by
  unfold execI3cRequest
  repeat' first
    | with_reducible assumption
    | with_reducible apply kept_live
    | with_reducible apply kept_whenB
    | with_reducible apply kept_i3cRequest
    | intro _

theorem kept_setLed (on : Bool) (h : Kept p n o s) : Kept p n o (setLed on s) := by
  unfold setLed
  repeat' first
    | with_reducible assumption
    | with_reducible apply kept_emit
    | intro _
    | split
    | with_reducible refine kept_set ?_ rfl rfl rfl rfl rfl

theorem kept_execPldmLocateLed (on : Bool) (h : Kept p n o s) : KeptRes p n o (execPldmLocateLed on s) := by
  unfold execPldmLocateLed
  repeat' first
    | with_reducible assumption
    | with_reducible apply kept_live
    | with_reducible apply kept_whenB
    | with_reducible apply kept_setLed
    | intro _

theorem kept_crystalFailure (h : Kept p n o s) : Kept p n o (crystalFailure s) := by
  unfold crystalFailure
  repeat' first
    | with_reducible assumption
    | intro _
    | with_reducible refine kept_set ?_ rfl rfl rfl rfl rfl

theorem kept_execCrystalFailure (h : Kept p n o s) : KeptRes p n o (execCrystalFailure s) := by
  unfold execCrystalFailure
  repeat' first
    | with_reducible assumption
    | with_reducible apply kept_live
    | with_reducible apply kept_whenB
    | with_reducible apply kept_crystalFailure
    | intro _

end Sys2Proof.Machine
end

