-- ==== Sys2Proof/Laws/KeepBoot.lean ====
section
/-! SUPPORT. What the operations of Machine/Boot.lean keep. -/

namespace Sys2Proof.Machine

variable {p : List Instr} {n : Nat} {o : List Output} {s : State}

theorem kept_tearAll (h : Kept p n o s) : Kept p n o (tearAll s) := by
  unfold tearAll
  repeat' first
    | with_reducible assumption
    | with_reducible apply kept_tearWrite
    | with_reducible apply kept_foldl

theorem kept_heldInReset (h : Kept p n o s) : Kept p n o (heldInReset s) := by
  have h1 := kept_tearAll h
  exact ⟨h1.queue, h1.outs, Nat.zero_le _, rfl, rfl, h1.blocks, by simp [heldInReset, State.reset], Nat.zero_le _, Nat.zero_le _⟩

theorem kept_startBoot (cause : Nat) (rail : Nat) (h : Kept p n o s) : Kept p n o (startBoot cause rail s) := by
  unfold startBoot
  repeat' first
    | with_reducible assumption
    | intro _
    | with_reducible refine kept_set ?_ rfl rfl rfl rfl rfl

theorem kept_warmReset (cause : Nat) (h : Kept p n o s) : Kept p n o (warmReset cause s) := by
  unfold warmReset
  repeat' first
    | with_reducible assumption
    | with_reducible apply kept_startBoot
    | with_reducible apply kept_heldInReset

theorem kept_cutRecord (h : Kept p n o s) : Kept p n o (cutRecord s) := by
  unfold cutRecord
  repeat' first
    | with_reducible assumption
    | with_reducible apply kept_appendLog
    | with_reducible apply kept_tickFree
    | intro _
    | split

theorem kept_powerOn (pins : Nat) (h : Kept p n o s) : Kept p n o (powerOn pins s) := by
  unfold powerOn
  try dsimp only
  repeat' first
    | with_reducible assumption
    | with_reducible apply kept_heldInReset
    | with_reducible apply kept_startBoot
    | intro _
    | with_reducible refine kept_set ?_ rfl rfl rfl rfl rfl

theorem kept_execPowerOnReset (bifPins : Nat) (h : Kept p n o s) :
    KeptRes p n o (execPowerOnReset bifPins s) := by
  unfold execPowerOnReset
  refine ⟨_, rfl, ?_⟩
  split
  · exact h
  · exact kept_powerOn _ h

theorem kept_pwrgdFall (h : Kept p n o s) : Kept p n o (pwrgdFall s) := by
  unfold pwrgdFall
  try dsimp only
  repeat' first
    | with_reducible assumption
    | with_reducible apply kept_heldInReset
    | with_reducible apply kept_cutRecord
    | intro _
    | with_reducible refine kept_set ?_ rfl rfl rfl rfl rfl

theorem kept_execPwrgdFall  (h : Kept p n o s) :
    KeptRes p n o (execPwrgdFall s) := by
  unfold execPwrgdFall
  refine ⟨_, rfl, ?_⟩
  split
  · exact kept_pwrgdFall h
  · exact h

theorem kept_execWarmReset  (h : Kept p n o s) :
    KeptRes p n o (execWarmReset s) := by
  unfold execWarmReset
  refine ⟨_, rfl, ?_⟩
  split
  · exact kept_warmReset _ h
  · exact h

theorem kept_serviceButton (holdMs : Nat) (h : Kept p n o s) : Kept p n o (serviceButton holdMs s) := by
  unfold serviceButton
  repeat' first
    | with_reducible assumption
    | with_reducible apply kept_warmReset
    | with_reducible apply kept_setLed
    | intro _
    | split

theorem kept_execServiceButton (holdMs : Nat) (h : Kept p n o s) : KeptRes p n o (execServiceButton holdMs s) := by
  unfold execServiceButton
  repeat' first
    | with_reducible assumption
    | with_reducible apply kept_live
    | with_reducible apply kept_serviceButton
    | intro _

theorem kept_execPldmWarmReset (h : Kept p n o s) : KeptRes p n o (execPldmWarmReset s) := by
  unfold execPldmWarmReset
  repeat' first
    | with_reducible assumption
    | with_reducible apply kept_live
    | with_reducible apply kept_whenB
    | with_reducible apply kept_warmReset
    | intro _

theorem kept_activationReset (h : Kept p n o s) : Kept p n o (activationReset s) := by
  unfold activationReset
  try dsimp only
  repeat' first
    | with_reducible assumption
    | with_reducible apply kept_warmReset
    | intro _
    | with_reducible refine kept_set ?_ rfl rfl rfl rfl rfl

theorem kept_execActivationReset (h : Kept p n o s) : KeptRes p n o (execActivationReset s) := by
  unfold execActivationReset
  repeat' first
    | with_reducible assumption
    | with_reducible apply kept_live
    | with_reducible apply kept_whenB
    | with_reducible apply kept_activationReset
    | intro _

theorem kept_railEvent (rail : Nat) (r : Nat) (h : Kept p n o s) : Kept p n o (railEvent rail r s) := by
  unfold railEvent
  repeat' first
    | with_reducible assumption
    | with_reducible apply kept_thresholdEvent
    | intro _
    | split
    | with_reducible refine kept_set ?_ rfl rfl rfl rfl rfl

theorem kept_railBrown (rail : Nat) (r : Nat) (h : Kept p n o s) : Kept p n o (railBrown rail r s) := by
  unfold railBrown
  try dsimp only
  repeat' first
    | with_reducible assumption
    | intro _
    | split
    | with_reducible refine kept_set ?_ rfl rfl rfl rfl rfl

theorem kept_brownOut (rail : Nat) (h : Kept p n o s) : Kept p n o (brownOut rail s) := by
  unfold brownOut
  try dsimp only
  repeat' first
    | with_reducible assumption
    | with_reducible apply kept_heldInReset
    | with_reducible apply kept_cutRecord
    | intro _
    | with_reducible refine kept_set ?_ rfl rfl rfl rfl rfl

theorem kept_supplySample (rails : List Nat) (h : Kept p n o s) : Kept p n o (supplySample rails s) := by
  unfold supplySample
  try dsimp only
  repeat' first
    | with_reducible assumption
    | with_reducible apply kept_startBoot
    | with_reducible apply kept_railBrown
    | with_reducible apply kept_railEvent
    | with_reducible apply kept_brownOut
    | with_reducible apply kept_foldl
    | intro _
    | split
    | refine kept_fst (by assumption) ?_
    | refine kept_snd (by assumption) ?_
    | with_reducible refine kept_set ?_ rfl rfl rfl rfl rfl

theorem kept_execSupplySample (rails : List Nat) (h : Kept p n o s) :
    KeptRes p n o (execSupplySample rails s) := by
  unfold execSupplySample
  refine ⟨_, rfl, ?_⟩
  split
  · exact kept_supplySample _ h
  · exact h

theorem kept_fundamentalReset {p : List Instr} {n : Nat} {o : List Output} {s : State}
    (h : Kept p n o s) : Kept p n o (fundamentalReset s) := by
  unfold fundamentalReset
  try dsimp only
  repeat' first
    | with_reducible assumption
    | with_reducible apply kept_controllerReset
    | intro _
    | with_reducible refine kept_set ?_ rfl rfl rfl rfl rfl

theorem kept_execPcieFundamentalReset (h : Kept p n o s) : KeptRes p n o (execPcieFundamentalReset s) := by
  unfold execPcieFundamentalReset
  repeat' first
    | with_reducible assumption
    | with_reducible apply kept_live
    | with_reducible apply kept_whenB
    | with_reducible apply kept_fundamentalReset
    | intro _

theorem kept_perstDeassert (h : Kept p n o s) : Kept p n o (perstDeassert s) := by
  unfold perstDeassert
  repeat' first
    | with_reducible assumption
    | intro _
    | with_reducible refine kept_set ?_ rfl rfl rfl rfl rfl

theorem kept_execPerstDeassert (h : Kept p n o s) : KeptRes p n o (execPerstDeassert s) := by
  unfold execPerstDeassert
  repeat' first
    | with_reducible assumption
    | with_reducible apply kept_live
    | with_reducible apply kept_whenB
    | with_reducible apply kept_perstDeassert
    | intro _

theorem kept_haltBoot (cause : Nat) (h : Kept p n o s) : Kept p n o (haltBoot cause s) := by
  unfold haltBoot
  repeat' first
    | with_reducible assumption
    | with_reducible apply kept_emits
    | intro _
    | with_reducible refine kept_set ?_ rfl rfl rfl rfl rfl

theorem kept_nextStage (h : Kept p n o s) : Kept p n o (nextStage s) := by
  unfold nextStage
  repeat' first
    | with_reducible assumption
    | intro _
    | with_reducible refine kept_set ?_ rfl rfl rfl rfl rfl

theorem kept_lockPlls (h : Kept p n o s) : Kept p n o (lockPlls s) := by
  unfold lockPlls
  repeat' first
    | with_reducible assumption
    | with_reducible apply kept_gate
    | with_reducible apply kept_foldl

theorem kept_loadFirmware (h : Kept p n o s) : Kept p n o (loadFirmware s) := by
  unfold loadFirmware
  try dsimp only
  repeat' first
    | with_reducible assumption
    | with_reducible apply kept_nextStage
    | with_reducible apply kept_haltBoot
    | intro _
    | split
    | with_reducible refine kept_set ?_ rfl rfl rfl rfl rfl

theorem kept_trainStacks (failed : List Nat) (h : Kept p n o s) : Kept p n o (trainStacks failed s) := by
  have h1 : Kept p n o ((failed.filter fun k => decide (k < 8)).foldl
      (fun (t : State) (k : Nat) => retireStack k 0x020A t) s) :=
    kept_foldl _ (fun t k ht => kept_retireStack _ _ ht) h
  have h2 := kept_mem { ((failed.filter fun k => decide (k < 8)).foldl
    (fun (t : State) (k : Nat) => retireStack k 0x020A t) s).mem with words := [] } rfl h1
  unfold trainStacks
  dsimp only
  split
  · exact kept_haltBoot _ h2
  · exact kept_nextStage h2

theorem kept_reachStage8 (h : Kept p n o s) : Kept p n o (reachStage8 s) := by
  unfold reachStage8
  try dsimp only
  repeat' first
    | with_reducible assumption
    | with_reducible apply kept_nextStage
    | with_reducible apply kept_logRecord
    | intro _
    | with_reducible refine kept_set ?_ rfl rfl rfl rfl rfl

theorem kept_booted (h : Kept p n o s) : Kept p n o (booted s) := by
  unfold booted
  try dsimp only
  repeat' first
    | with_reducible assumption
    | with_reducible apply kept_serveAdmin
    | intro _
    | split
    | with_reducible refine kept_set ?_ rfl rfl rfl rfl rfl

theorem kept_bootStageEnd (ok : Bool) (cause : Nat) (failed : List Nat)
    (h : Kept p n o s) : Kept p n o (bootStageEnd ok cause failed s) := by
  unfold bootStageEnd
  try dsimp only
  repeat' first
    | with_reducible assumption
    | with_reducible apply kept_booted
    | with_reducible apply kept_haltBoot
    | with_reducible apply kept_nextStage
    | with_reducible apply kept_lockPlls
    | with_reducible apply kept_loadFirmware
    | with_reducible apply kept_trainStacks
    | with_reducible apply kept_reachStage8
    | intro _
    | split

theorem kept_execBootStageEnd (ok : Bool) (haltCause : Nat) (failedStacks : List Nat)
    (h : Kept p n o s) : KeptRes p n o (execBootStageEnd ok haltCause failedStacks s) := by
  unfold execBootStageEnd
  repeat' first
    | with_reducible assumption
    | with_reducible apply kept_live
    | with_reducible apply kept_bootStageEnd
    | intro _

theorem kept_bootWatchdog (h : Kept p n o s) : Kept p n o (bootWatchdog s) := by
  unfold bootWatchdog
  try dsimp only
  repeat' first
    | with_reducible assumption
    | with_reducible apply kept_warmReset
    | with_reducible apply kept_haltBoot
    | intro _
    | split
    | with_reducible refine kept_set ?_ rfl rfl rfl rfl rfl

theorem kept_execBootWatchdog (h : Kept p n o s) : KeptRes p n o (execBootWatchdog s) := by
  unfold execBootWatchdog
  repeat' first
    | with_reducible assumption
    | with_reducible apply kept_live
    | with_reducible apply kept_whenB
    | with_reducible apply kept_bootWatchdog
    | intro _

end Sys2Proof.Machine
end

