-- ==== Sys2Proof/Laws/KeepLockstep.lean ====
section
/-! SUPPORT. What the operations of Machine/Lockstep.lean keep. -/

namespace Sys2Proof.Machine

variable {p : List Instr} {n : Nat} {o : List Output} {s : State}

theorem kept_modLock (pipe : Nat) (f : Lockstep → Lockstep) (h : Kept p n o s) : Kept p n o (modLock pipe f s) := by
  unfold modLock
  repeat' first
    | with_reducible assumption
    | intro _
    | with_reducible refine kept_set ?_ rfl rfl rfl rfl rfl

theorem kept_lockstepConfig (c : Cmd) (h : Kept p n o s) : Kept p n o (lockstepConfig c s) := by
  unfold lockstepConfig
  try dsimp only
  repeat' first
    | with_reducible assumption
    | with_reducible apply kept_refuse
    | with_reducible apply kept_finishPlain
    | intro _
    | split
    | refine kept_fst (by assumption) ?_
    | refine kept_snd (by assumption) ?_
    | with_reducible refine kept_set ?_ rfl rfl rfl rfl rfl

theorem kept_execLockstepConfig (pair : Nat) (cid : Nat) (h : Kept p n o s) : KeptRes p n o (execLockstepConfig pair cid s) := by
  unfold execLockstepConfig
  repeat' first
    | with_reducible assumption
    | with_reducible apply kept_live
    | with_reducible apply kept_runCmd
    | with_reducible apply kept_lockstepConfig
    | intro _

theorem kept_lockMsg (kind : Nat) (pipe : Nat) (b : Nat) (value : Nat) (count : Nat) (body : Bytes) (k : Lockstep)
    (h : Kept p n o s) : Kept p n o (lockMsg kind pipe b value count body k s) := by
  unfold lockMsg
  repeat' first
    | with_reducible assumption
    | with_reducible apply kept_sendMessage

theorem kept_noteWait (pipe : Nat) (h : Kept p n o s) : Kept p n o (noteWait pipe s) := by
  unfold noteWait
  repeat' first
    | with_reducible assumption
    | with_reducible apply kept_tickFree
    | with_reducible apply kept_setRaw

theorem kept_releaseHeld (pipe : Nat) (p0 : Nat → Bool) (h : Kept p n o s) : Kept p n o (releaseHeld pipe p0 s) := by
  unfold releaseHeld
  repeat' first
    | with_reducible assumption
    | with_reducible apply kept_deliverNotice
    | with_reducible apply kept_modLock
    | with_reducible apply kept_foldl
    | intro _
    | split

theorem kept_compareDigests (pipe : Nat) (b : Nat) (h : Kept p n o s) : Kept p n o (compareDigests pipe b s) := by
  unfold compareDigests
  repeat' first
    | with_reducible assumption
    | with_reducible apply kept_releaseHeld
    | with_reducible apply kept_lockMsg
    | with_reducible apply kept_noteWait
    | with_reducible apply kept_modLock
    | intro _
    | split

theorem kept_digestReady (pipe : Nat) (b : Nat) (h : Kept p n o s) : Kept p n o (digestReady pipe b s) := by
  unfold digestReady
  try dsimp only
  repeat' first
    | with_reducible assumption
    | with_reducible apply kept_modLock
    | with_reducible apply kept_lockMsg
    | with_reducible apply kept_compareDigests
    | intro _
    | split

theorem kept_lockRecord (pipe : Nat) (b : Nat) (slot : Nat) (payload : Nat) (md : Nat) (ch : List (Nat × Nat × Nat × Nat))
    (h : Kept p n o s) : Kept p n o (lockRecord pipe b slot payload md ch s) := by
  unfold lockRecord
  repeat' first
    | with_reducible assumption
    | with_reducible apply kept_modLock
    | intro _
    | split

theorem kept_lockIn (kind : Nat) (role : Nat) (m : Message) (f : Lockstep → State → State) (h_f : ∀ a0 t, Kept p n o t → Kept p n o (f a0 t))
    (h : Kept p n o s) : Kept p n o (lockIn kind role m f s) := by
  unfold lockIn
  try dsimp only
  repeat' first
    | with_reducible assumption
    | with_reducible apply kept_freeSlot
    | with_reducible apply h_f
    | intro _
    | split

theorem kept_execDigest (m : Message) (h : Kept p n o s) : KeptRes p n o (execDigest m s) := by
  unfold execDigest
  repeat' first
    | with_reducible assumption
    | with_reducible apply kept_live
    | with_reducible apply kept_whenB
    | with_reducible apply kept_lockIn
    | with_reducible apply kept_compareDigests
    | with_reducible apply kept_modLock
    | intro _
    | split

theorem kept_execMatch (m : Message) (h : Kept p n o s) : KeptRes p n o (execMatch m s) := by
  unfold execMatch
  repeat' first
    | with_reducible assumption
    | with_reducible apply kept_live
    | with_reducible apply kept_whenB
    | with_reducible apply kept_lockIn
    | with_reducible apply kept_noteWait
    | with_reducible apply kept_modLock
    | intro _
    | split

theorem kept_sendRecords (pipe : Nat) (b : Nat) (k : Lockstep) (h : Kept p n o s) : Kept p n o (sendRecords pipe b k s) := by
  unfold sendRecords
  try dsimp only
  repeat' first
    | with_reducible assumption
    | with_reducible apply kept_lockMsg
    | with_reducible apply kept_foldl
    | intro _

theorem kept_execRecordsRequest (m : Message) (h : Kept p n o s) : KeptRes p n o (execRecordsRequest m s) := by
  unfold execRecordsRequest
  repeat' first
    | with_reducible assumption
    | with_reducible apply kept_live
    | with_reducible apply kept_whenB
    | with_reducible apply kept_lockIn
    | with_reducible apply kept_sendRecords
    | intro _

theorem kept_execChainRequest (m : Message) (h : Kept p n o s) : KeptRes p n o (execChainRequest m s) := by
  unfold execChainRequest
  try dsimp only
  repeat' first
    | with_reducible assumption
    | with_reducible apply kept_live
    | with_reducible apply kept_whenB
    | with_reducible apply kept_lockIn
    | with_reducible apply kept_lockMsg
    | intro _

theorem kept_diverge (pipe : Nat) (b : Nat) (slot : Nat) (stage : Nat) (op : Nat) (kind : Nat)
    (h : Kept p n o s) : Kept p n o (diverge pipe b slot stage op kind s) := by
  unfold diverge
  try dsimp only
  repeat' first
    | with_reducible assumption
    | with_reducible apply kept_modLock
    | with_reducible apply kept_traceRecord
    | with_reducible apply kept_logRecord
    | with_reducible apply kept_raiseEvent
    | with_reducible apply kept_enterFreeze
    | intro _
    | split
    | with_reducible refine kept_set ?_ rfl rfl rfl rfl rfl

theorem kept_primaryDiverges (pipe : Nat) (b : Nat) (slot : Nat) (stage : Nat) (op : Nat) (kind : Nat) (k : Lockstep)
    (h : Kept p n o s) : Kept p n o (primaryDiverges pipe b slot stage op kind k s) := by
  unfold primaryDiverges
  repeat' first
    | with_reducible assumption
    | with_reducible apply kept_diverge
    | with_reducible apply kept_lockMsg
    | intro _
    | split

theorem kept_searchRecords (pipe : Nat) (b : Nat) (k : Lockstep) (d : Decl)
    (h : Kept p n o s) : Kept p n o (searchRecords pipe b k d s) := by
  unfold searchRecords
  try dsimp only
  repeat' first
    | with_reducible assumption
    | with_reducible apply kept_primaryDiverges
    | with_reducible apply kept_lockMsg
    | with_reducible apply kept_modLock
    | intro _
    | split

theorem kept_execRecords (m : Message) (h : Kept p n o s) : KeptRes p n o (execRecords m s) := by
  unfold execRecords
  try dsimp only
  repeat' first
    | with_reducible assumption
    | with_reducible apply kept_live
    | with_reducible apply kept_whenB
    | with_reducible apply kept_lockIn
    | with_reducible apply kept_modLock
    | with_reducible apply kept_searchRecords
    | intro _
    | split

theorem kept_execChain (m : Message) (h : Kept p n o s) : KeptRes p n o (execChain m s) := by
  unfold execChain
  try dsimp only
  repeat' first
    | with_reducible assumption
    | with_reducible apply kept_live
    | with_reducible apply kept_whenB
    | with_reducible apply kept_lockIn
    | with_reducible apply kept_primaryDiverges
    | intro _
    | split

theorem kept_execFreeze (m : Message) (h : Kept p n o s) : KeptRes p n o (execFreeze m s) := by
  unfold execFreeze
  try dsimp only
  repeat' first
    | with_reducible assumption
    | with_reducible apply kept_live
    | with_reducible apply kept_whenB
    | with_reducible apply kept_lockIn
    | with_reducible apply kept_diverge
    | with_reducible apply kept_tickFree
    | intro _

theorem kept_execForward (m : Message) (h : Kept p n o s) : KeptRes p n o (execForward m s) := by
  unfold execForward
  try dsimp only
  repeat' first
    | with_reducible assumption
    | with_reducible apply kept_live
    | with_reducible apply kept_whenB
    | with_reducible apply kept_lockIn
    | with_reducible apply kept_spanResultTake
    | with_reducible apply kept_placementTake
    | intro _
    | split

theorem kept_lockstepTimeout (pipe : Nat) (h : Kept p n o s) : Kept p n o (lockstepTimeout pipe s) := by
  unfold lockstepTimeout
  try dsimp only
  repeat' first
    | with_reducible assumption
    | with_reducible apply kept_releaseHeld
    | with_reducible apply kept_raiseEvent
    | with_reducible apply kept_modLock
    | with_reducible apply kept_primaryDiverges
    | with_reducible apply kept_diverge
    | intro _
    | split

theorem kept_execLockstepTimeout (pipeline : Nat) (h : Kept p n o s) : KeptRes p n o (execLockstepTimeout pipeline s) := by
  unfold execLockstepTimeout
  repeat' first
    | with_reducible assumption
    | with_reducible apply kept_live
    | with_reducible apply kept_whenB
    | with_reducible apply kept_lockstepTimeout
    | intro _

end Sys2Proof.Machine
end

