-- ==== Sys2Proof/Laws/KeepTables.lean ====
section
/-! SUPPORT. What the operations of Machine/Tables.lean keep. -/

namespace Sys2Proof.Machine

variable {p : List Instr} {n : Nat} {o : List Output} {s : State}

theorem kept_tableUnloadDone (l : LongOp) (h : Kept p n o s) : Kept p n o (tableUnloadDone l s) := by
  unfold tableUnloadDone
  try dsimp only
  repeat' first
    | with_reducible assumption
    | with_reducible apply kept_finishPlain
    | with_reducible apply kept_refuse
    | intro _
    | split
    | with_reducible refine kept_set ?_ rfl rfl rfl rfl rfl

theorem kept_tableDone (l : LongOp)
    (h : Kept p n o s) : Kept p n o (tableDone l s) := by
  unfold tableDone
  try dsimp only
  repeat' first
    | with_reducible assumption
    | with_reducible apply kept_tableUnloadDone
    | with_reducible apply kept_refuse
    | with_reducible apply kept_finish
    | with_reducible apply kept_storeObject
    | intro _
    | split
    | with_reducible refine kept_set ?_ rfl rfl rfl rfl rfl

theorem kept_execTokenTableLoad (pair : Nat) (cid : Nat)
    (h : Kept p 64 o s) : KeptRes p 64 o (execTokenTableLoad pair cid s) := by
  unfold execTokenTableLoad
  repeat' first
    | with_reducible assumption
    | exact kept_more (by with_reducible assumption) (by decide)
    | with_reducible apply kept_live
    | with_reducible apply kept_runLong
    | with_reducible apply kept_tableDone
    | intro _

theorem kept_bytesSlice (units : Nat) (l : LongOp) (h : Kept p n o s) : Kept p n o (bytesSlice units l s).1 := by
  unfold bytesSlice
  try dsimp only
  repeat' first
    | with_reducible assumption

end Sys2Proof.Machine
end

