-- ==== Sys2Proof/Laws/KeepToken.lean ====
section
/-! SUPPORT. What the operations of Machine/Token.lean keep. -/

namespace Sys2Proof.Machine

variable {p : List Instr} {n : Nat} {o : List Output} {s : State}

theorem kept_execTokenize (queue : Nat) (h : Kept p n o s) : KeptRes p n o (execTokenize queue s) := by
  unfold execTokenize
  repeat' first
    | with_reducible assumption
    | with_reducible apply kept_live
    | with_reducible apply kept_runPure
    | intro _

theorem kept_grammarTrace (k : Nat) (e : Entry) (x : Sample) (mode : Nat) (pt : Option GPoint)
    (h : Kept p n o s) : Kept p n o (grammarTrace k e x mode pt s) := by
  unfold grammarTrace
  repeat' first
    | with_reducible assumption
    | with_reducible apply kept_traceRecord
    | intro _
    | split

theorem kept_grammarOp (k : Nat) (e : Entry) (p0 : Pipeline) (x : Sample)
    (h : Kept p n o s) : Kept p n o (grammarOp k e p0 x s).2 := by
  unfold grammarOp
  try dsimp only
  repeat' first
    | with_reducible assumption
    | with_reducible apply kept_grammarTrace
    | intro _
    | split

theorem kept_execGrammar (queue : Nat) (h : Kept p n o s) : KeptRes p n o (execGrammar queue s) := by
  unfold execGrammar
  repeat' first
    | with_reducible assumption
    | with_reducible apply kept_live
    | with_reducible apply kept_whenB
    | with_reducible apply kept_runEntry
    | with_reducible apply kept_grammarOp
    | intro _

theorem kept_execTokenMask (queue : Nat) (h : Kept p n o s) : KeptRes p n o (execTokenMask queue s) := by
  unfold execTokenMask
  repeat' first
    | with_reducible assumption
    | with_reducible apply kept_live
    | with_reducible apply kept_runPure
    | intro _

end Sys2Proof.Machine
end

