-- ==== Sys2Proof/Laws/KeepDelivery.lean ====
section
/-! SUPPORT. What the operations of Machine/Delivery.lean keep. -/

namespace Sys2Proof.Machine

variable {p : List Instr} {n : Nat} {o : List Output} {s : State}

theorem kept_postBytes (pipe : Nat) (k : Consumer) (addr : Nat) (bs : Bytes) (b : Nat)
    (h : Kept p n o s) : Kept p n o (postBytes pipe k addr bs b s) := by
  unfold postBytes
  repeat' first
    | with_reducible assumption
    | with_reducible apply kept_consumerWrite
    | intro _
    | split

theorem kept_postFlush (pipe : Nat) (k : Consumer) (b : Nat) (h : Kept p n o s) : Kept p n o (postFlush pipe k b s) := by
  unfold postFlush
  repeat' first
    | with_reducible assumption
    | with_reducible apply kept_postWork
    | intro _
    | split

theorem kept_holdSlot (pipe : Nat) (c : Nat) (b : Nat) (sl : Nat) (state : Nat)
    (h : Kept p n o s) : Kept p n o (holdSlot pipe c b sl state s) := by
  unfold holdSlot
  repeat' first
    | with_reducible assumption
    | with_reducible apply kept_modRun

theorem kept_writeSample (pipe : Nat) (p0 : Pipeline) (c : Nat) (k : Consumer) (x : Sample) (b : Nat) (sl : Nat)
    (h : Kept p n o s) : Kept p n o (writeSample pipe p0 c k x b sl s) := by
  unfold writeSample
  try dsimp only
  repeat' first
    | with_reducible assumption
    | with_reducible apply kept_postFlush
    | with_reducible apply kept_postBytes
    | with_reducible apply kept_digestReady
    | with_reducible apply kept_lockRecord
    | with_reducible apply kept_holdSlot
    | with_reducible apply kept_dropSample
    | with_reducible apply kept_freeBufs

theorem kept_writePiece (pipe : Nat) (key : Nat) (y : Nat × Nat × Nat × Nat × Nat × Bool)
    (h : Kept p n o s) : Kept p n o (writePiece pipe key y s) := by
  unfold writePiece
  try dsimp only
  repeat' first
    | with_reducible assumption
    | with_reducible apply kept_modSample
    | with_reducible apply kept_postBytes
    | with_reducible apply kept_modRun
    | with_reducible apply kept_postFlush
    | with_reducible apply kept_digestReady
    | with_reducible apply kept_lockRecord
    | intro _
    | split

theorem kept_retireDocs (pipe : Nat) (h : Kept p n o s) : Kept p n o (retireDocs pipe s) := by
  unfold retireDocs
  repeat' first
    | with_reducible assumption
    | with_reducible apply kept_dropSample
    | with_reducible apply kept_freeBufs
    | with_reducible apply kept_foldl
    | intro _
    | split

theorem kept_postSequence (pipe : Nat) (p0 : Pipeline) (k : Consumer) (q : SeqRec)
    (h : Kept p n o s) : Kept p n o (postSequence pipe p0 k q s) := by
  unfold postSequence
  try dsimp only
  repeat' first
    | with_reducible assumption
    | with_reducible apply kept_postBytes

theorem kept_writeSequence (pipe : Nat) (unit : Nat)
    (h : Kept p n o s) : Kept p n o (writeSequence pipe unit s) := by
  unfold writeSequence
  try dsimp only
  repeat' first
    | with_reducible assumption
    | with_reducible apply kept_retireDocs
    | with_reducible apply kept_modPipe
    | with_reducible apply kept_postSequence
    | with_reducible apply kept_postFlush
    | with_reducible apply kept_postBytes
    | with_reducible apply kept_holdSlot
    | intro _
    | split

theorem kept_slotWrite (key : Nat) (h : Kept p n o s) : Kept p n o (slotWrite key s) := by
  unfold slotWrite
  repeat' first
    | with_reducible assumption
    | with_reducible apply kept_writeSequence
    | with_reducible apply kept_writePiece
    | with_reducible apply kept_dropSample
    | with_reducible apply kept_freeBufs
    | with_reducible apply kept_writeSample
    | with_reducible apply kept_foldl
    | intro _
    | split

theorem kept_execSlotWrite (sample : Nat) (h : Kept p n o s) : KeptRes p n o (execSlotWrite sample s) := by
  unfold execSlotWrite
  repeat' first
    | with_reducible assumption
    | with_reducible apply kept_live
    | with_reducible apply kept_whenB
    | with_reducible apply kept_slotWrite
    | intro _

theorem kept_sendNotices (pipe : Nat) (c : Nat) (b : Nat) (slots : List (Nat × Nat)) (notes : List PieceNote)
    (h : Kept p n o s) : Kept p n o (sendNotices pipe c b slots notes s) := by
  unfold sendNotices
  try dsimp only
  repeat' first
    | with_reducible assumption
    | with_reducible apply kept_sendNotice
    | with_reducible apply kept_retireDocs
    | with_reducible apply kept_modPipe
    | with_reducible apply kept_foldl
    | intro _
    | split

theorem kept_sendReady (all : Bool) (pipe : Nat) (c : Nat) (b : Nat)
    (h : Kept p n o s) : Kept p n o (sendReady all pipe c b s) := by
  unfold sendReady
  try dsimp only
  repeat' first
    | with_reducible assumption
    | with_reducible apply kept_sendNotices
    | with_reducible apply kept_modRun
    | intro _
    | split

theorem kept_markReady (pipe : Nat) (c : Nat) (b : Nat)
    (h : Kept p n o s) : Kept p n o (markReady pipe c b s) := by
  unfold markReady
  repeat' first
    | with_reducible assumption
    | with_reducible apply kept_modRun

theorem kept_slotNoticeSend (pipe : Nat) (c : Nat) (b : Nat) (status : Nat)
    (h : Kept p n o s) : Kept p n o (slotNoticeSend pipe c b status s) := by
  unfold slotNoticeSend
  repeat' first
    | with_reducible assumption
    | with_reducible apply kept_sendReady
    | with_reducible apply kept_markReady
    | with_reducible apply kept_modRun
    | intro _
    | split

theorem kept_execSlotNoticeSend (pipeline : Nat) (consumer : Nat) (batch : Nat) (flushStatus : Nat)
    (h : Kept p n o s) : KeptRes p n o (execSlotNoticeSend pipeline consumer batch flushStatus s) := by
  unfold execSlotNoticeSend
  repeat' first
    | with_reducible assumption
    | with_reducible apply kept_live
    | with_reducible apply kept_whenB
    | with_reducible apply kept_slotNoticeSend
    | intro _

theorem kept_execNoticeCoalesceTimer (pipeline : Nat) (consumer : Nat) (batch : Nat)
    (h : Kept p n o s) : KeptRes p n o (execNoticeCoalesceTimer pipeline consumer batch s) := by
  unfold execNoticeCoalesceTimer
  repeat' first
    | with_reducible assumption
    | with_reducible apply kept_live
    | with_reducible apply kept_whenB
    | with_reducible apply kept_sendReady
    | intro _

theorem kept_execDeliver (queue : Nat) (h : Kept p n o s) : KeptRes p n o (execDeliver queue s) := by
  unfold execDeliver
  repeat' first
    | with_reducible assumption
    | with_reducible apply kept_live
    | with_reducible apply kept_runPure
    | intro _

end Sys2Proof.Machine
end

