-- ==== Sys2Proof/Laws/KeepErrors.lean ====
section
/-! SUPPORT. What the operations of Machine/Errors.lean keep. -/

namespace Sys2Proof.Machine

variable {p : List Instr} {n : Nat} {o : List Output} {s : State}

theorem kept_emptyOut (gone : List ErrRec) (die : Nat) (h : Kept p n o s) : Kept p n o (emptyOut gone die s) :=
  kept_putRing die _ (Nat.le_trans (List.length_filter_le _ _) (h.ringOf die)) h

theorem kept_errorRingRead (pcieOk : Bool) (bad : List Nat) (c : Cmd)
    (h : Kept p n o s) : Kept p n o (errorRingRead pcieOk bad c s) := by
  unfold errorRingRead
  try dsimp only
  repeat' first
    | with_reducible assumption
    | with_reducible apply kept_refuse
    | with_reducible apply kept_replyData
    | with_reducible apply kept_emptyOut
    | with_reducible apply kept_foldl
    | intro _
    | split

theorem kept_execErrorRingRead (pair : Nat) (cid : Nat) (pcieOk : Bool) (badWords : List Nat)
    (h : Kept p n o s) : KeptRes p n o (execErrorRingRead pair cid pcieOk badWords s) := by
  unfold execErrorRingRead
  repeat' first
    | with_reducible assumption
    | with_reducible apply kept_live
    | with_reducible apply kept_runCmd
    | with_reducible apply kept_errorRingRead
    | intro _

theorem kept_execPackageFatalError (die : Nat) (cause : Nat) (linkUp : Bool)
    (h : Kept p n o s) : KeptRes p n o (execPackageFatalError die cause linkUp s) := by
  unfold execPackageFatalError
  repeat' first
    | with_reducible assumption
    | with_reducible apply kept_live
    | with_reducible apply kept_whenB
    | with_reducible apply kept_fatalStop
    | intro _

end Sys2Proof.Machine
end

