-- ==== Sys2Proof/Laws/KeepMedia.lean ====
section
/-! SUPPORT. What the operations of Machine/Media.lean keep. -/

namespace Sys2Proof.Machine

variable {p : List Instr} {n : Nat} {o : List Output} {s : State}

theorem kept_execImageDecode (queue : Nat) (h : Kept p n o s) : KeptRes p n o (execImageDecode queue s) := by
  unfold execImageDecode
  repeat' first
    | with_reducible assumption
    | with_reducible apply kept_live
    | with_reducible apply kept_runPure
    | intro _

theorem kept_execVideoDecode (queue : Nat) (h : Kept p n o s) : KeptRes p n o (execVideoDecode queue s) := by
  unfold execVideoDecode
  repeat' first
    | with_reducible assumption
    | with_reducible apply kept_live
    | with_reducible apply kept_runPure
    | intro _

theorem kept_execAudioDecode (queue : Nat) (h : Kept p n o s) : KeptRes p n o (execAudioDecode queue s) := by
  unfold execAudioDecode
  repeat' first
    | with_reducible assumption
    | with_reducible apply kept_live
    | with_reducible apply kept_runPure
    | intro _

end Sys2Proof.Machine
end

