-- ==== Sys2Proof/Laws/KeepStageFetch.lean ====
section
/-! SUPPORT. What the operations of Machine/StageFetch.lean keep. -/

namespace Sys2Proof.Machine

variable {p : List Instr} {n : Nat} {o : List Output} {s : State}

theorem kept_keepHeader (r : Run) (reel : Reel)
    (h : Kept p n o s) : Kept p n o (keepHeader r reel s) := by
  unfold keepHeader
  repeat' first
    | with_reducible assumption
    | intro _
    | split
    | with_reducible refine kept_set ?_ rfl rfl rfl rfl rfl

theorem kept_withSlate (x : Sample) (f : Sample → State → Completion × State) (h_f : ∀ a0 t, Kept p n o t → Kept p n o (f a0 t).2)
    (h : Kept p n o s) : Kept p n o (withSlate x f s).2 := by
  unfold withSlate
  try dsimp only
  repeat' first
    | with_reducible assumption
    | with_reducible apply kept_flashReads
    | with_reducible apply kept_keepHeader
    | with_reducible apply kept_modSample
    | with_reducible apply h_f
    | intro _
    | split

theorem kept_slatePredicate (e : Entry) (p0 : Pipeline) (x : Sample)
    (h : Kept p n o s) : Kept p n o (slatePredicate e p0 x s).2 := by
  unfold slatePredicate
  repeat' first
    | with_reducible assumption
    | with_reducible apply kept_withSlate
    | intro _

theorem kept_execSlatePredicate (queue : Nat) (h : Kept p n o s) : KeptRes p n o (execSlatePredicate queue s) := by
  unfold execSlatePredicate
  repeat' first
    | with_reducible assumption
    | with_reducible apply kept_live
    | with_reducible apply kept_whenB
    | with_reducible apply kept_runEntry
    | with_reducible apply kept_slatePredicate
    | intro _

theorem kept_blockDecompress (e : Entry) (u1 : Pipeline) (x : Sample)
    (h : Kept p n o s) : Kept p n o (blockDecompress e u1 x s).2 := by
  unfold blockDecompress
  try dsimp only
  repeat' first
    | with_reducible assumption
    | with_reducible apply kept_withSlate
    | with_reducible apply kept_flashReads
    | intro _
    | split

theorem kept_execBlockDecompress (queue : Nat) (h : Kept p n o s) : KeptRes p n o (execBlockDecompress queue s) := by
  unfold execBlockDecompress
  repeat' first
    | with_reducible assumption
    | with_reducible apply kept_live
    | with_reducible apply kept_whenB
    | with_reducible apply kept_runEntry
    | with_reducible apply kept_blockDecompress
    | intro _

theorem kept_execCrcVerify (queue : Nat) (h : Kept p n o s) : KeptRes p n o (execCrcVerify queue s) := by
  unfold execCrcVerify
  repeat' first
    | with_reducible assumption
    | with_reducible apply kept_live
    | with_reducible apply kept_runPure
    | intro _

theorem kept_fetchRepeat (key : Nat) (k : Nat)
    (h : Kept p n o s) : Kept p n o (fetchRepeat key k s) := by
  unfold fetchRepeat
  try dsimp only
  repeat' first
    | with_reducible assumption
    | with_reducible apply kept_placeEntry
    | with_reducible apply kept_modSample
    | with_reducible apply kept_freeBufs
    | intro _
    | split

theorem kept_execFetchRepeat (sample : Nat) (queue : Nat)
    (h : Kept p n o s) : KeptRes p n o (execFetchRepeat sample queue s) := by
  unfold execFetchRepeat
  repeat' first
    | with_reducible assumption
    | with_reducible apply kept_live
    | with_reducible apply kept_whenB
    | with_reducible apply kept_fetchRepeat
    | intro _

theorem kept_writeSink (key : Nat) (b : Bytes) (entry : Bytes)
    (h : Kept p n o s) : Kept p n o (writeSink key b entry s) := by
  unfold writeSink
  try dsimp only
  repeat' first
    | with_reducible assumption
    | with_reducible apply kept_emits
    | intro _
    | with_reducible refine kept_set ?_ rfl rfl rfl rfl rfl

theorem kept_sinkFault (e : Entry) (unit : Nat) (key : Nat) (h : Kept p n o s) : Kept p n o (sinkFault e unit key s) := by
  unfold sinkFault
  repeat' first
    | with_reducible assumption
    | with_reducible apply kept_recordErr
    | intro _
    | with_reducible refine kept_set ?_ rfl rfl rfl rfl rfl

theorem kept_failWaits (key : Nat) (work : Entry → Pipeline → Sample → Nat)
    (h : Kept p n o s) : Kept p n o (failWaits key work s) := by
  unfold failWaits
  try dsimp only
  repeat' first
    | with_reducible assumption
    | with_reducible apply kept_completeEntry
    | with_reducible apply kept_foldl
    | intro _
    | split
    | refine kept_fst (by assumption) ?_
    | refine kept_snd (by assumption) ?_
    | with_reducible refine kept_set ?_ rfl rfl rfl rfl rfl

theorem kept_runSink (op : Nat) (k : Nat) (pcieOk : Bool) (f : Entry → Pipeline → Sample → List Bytes × Completion)
    (h : Kept p n o s) : Kept p n o (runSink op k pcieOk f s) := by
  unfold runSink
  try dsimp only
  repeat' first
    | with_reducible assumption
    | with_reducible apply kept_completeEntry
    | with_reducible apply kept_failWaits
    | with_reducible apply kept_sinkFault
    | with_reducible apply kept_writeSink
    | with_reducible apply kept_foldl
    | intro _
    | split
    | refine kept_fst (by assumption) ?_
    | refine kept_snd (by assumption) ?_
    | with_reducible refine kept_set ?_ rfl rfl rfl rfl rfl

theorem kept_drainSink (key : Nat) (b : Bytes) (work : Entry → Pipeline → Sample → Nat) (ws : List (Nat × Bytes))
    (h : Kept p n o s) : Kept p n o (drainSink key b work ws s) := by
  induction ws generalizing s with
  | nil => exact h
  | cons w ws ih =>
    unfold drainSink
    dsimp only
    split
    · have h0 : Kept p n o { s with eng := { s.eng with sinkWait := s.eng.sinkWait.erase w } } :=
        kept_set h rfl rfl rfl rfl rfl
      have h1 := kept_writeSink key b w.2 h0
      refine ih ?_
      split
      · exact h1
      · split
        · exact h1
        · split
          · exact kept_completeEntry _ _ _ h1
          · exact kept_completeEntry _ _ _ h1
    · exact ih h

theorem kept_execMinhash (queue : Nat) (pcieOk : Bool) (h : Kept p n o s) : KeptRes p n o (execMinhash queue pcieOk s) := by
  unfold execMinhash
  repeat' first
    | with_reducible assumption
    | with_reducible apply kept_live
    | with_reducible apply kept_whenB
    | with_reducible apply kept_runSink
    | intro _

theorem kept_execSampleDigest (queue : Nat) (pcieOk : Bool)
    (h : Kept p n o s) : KeptRes p n o (execSampleDigest queue pcieOk s) := by
  unfold execSampleDigest
  repeat' first
    | with_reducible assumption
    | with_reducible apply kept_live
    | with_reducible apply kept_whenB
    | with_reducible apply kept_runSink
    | intro _

theorem kept_sinkHeadPoll (pipe : Nat) (inst : Nat) (head : Nat) (pcieOk : Bool)
    (h : Kept p n o s) : Kept p n o (sinkHeadPoll pipe inst head pcieOk s) := by
  unfold sinkHeadPoll
  try dsimp only
  repeat' first
    | with_reducible assumption
    | with_reducible apply kept_emit
    | with_reducible apply kept_drainSink
    | with_reducible apply kept_failWaits
    | with_reducible apply kept_sinkFault
    | intro _
    | split
    | refine kept_fst (by assumption) ?_
    | refine kept_snd (by assumption) ?_
    | with_reducible refine kept_set ?_ rfl rfl rfl rfl rfl

theorem kept_execSinkHeadPoll (pipeline : Nat) (instance_ : Nat) (head : Nat) (pcieOk : Bool)
    (h : Kept p n o s) : KeptRes p n o (execSinkHeadPoll pipeline instance_ head pcieOk s) := by
  unfold execSinkHeadPoll
  repeat' first
    | with_reducible assumption
    | with_reducible apply kept_live
    | with_reducible apply kept_whenB
    | with_reducible apply kept_sinkHeadPoll
    | intro _

end Sys2Proof.Machine
end

