-- ==== Sys2Proof/Laws/KeepMemCmd.lean ====
section
/-! SUPPORT. What the operations of Machine/MemCmd.lean keep. -/

namespace Sys2Proof.Machine

variable {p : List Instr} {n : Nat} {o : List Output} {s : State}

/-- A fold over an access keeps it where each of its steps does. -/
theorem kept_accesses {β : Type} {f : Access → β → Access} (l : List β)
    (hf : ∀ r x, Kept p n o r.state → Kept p n o (f r x).state) (r : Access) (h : Kept p n o r.state) :
    Kept p n o (l.foldl f r).state := by
  induction l generalizing r with
  | nil => exact h
  | cons x l ih => exact ih _ (hf r x h)

theorem kept_readStack (a m : Nat) (fs : List (Nat × WordFault)) (rd : Reader) (h : Kept p n o s) :
    Kept p n o (readStack a m fs rd s).state := by
  refine kept_accesses _ (fun r w hr => ?_) _ h
  have h1 := kept_readWord (s.servingStack (addrStack a) w.1) w.1 fs rd hr
  split
  · exact hr
  · dsimp only
    split <;> exact h1

theorem kept_writeStack (narrow : Bool) (a : Nat) (bs : Bytes) (fs : List (Nat × WordFault)) (rd : Reader) (h : Kept p n o s) :
    Kept p n o (writeStack narrow a bs fs rd s).state := by
  refine kept_accesses _ (fun r w hr => ?_) _ h
  split
  · exact hr
  · exact kept_writeWord _ _ _ _ _ _ hr

theorem kept_memBad (m : Nat) (h : Kept p n o s) : Kept p n o (memBad s m).state := h

theorem kept_memOutside (n0 : Nat)
    (h : Kept p n o s) : Kept p n o (memOutside s n0).state := by
  unfold memOutside
  repeat' first
    | with_reducible assumption
    | with_reducible apply kept_memBad

theorem kept_memPoison (idx m : Nat) (h : Kept p n o s) : Kept p n o (memPoison s idx m).state := h

theorem kept_memDone (n0 : Nat) (written : Bytes) (result : Option Nat)
    (h : Kept p n o s) : Kept p n o (memDone s n0 written result).state := by
  unfold memDone
  repeat' first
    | with_reducible assumption
    | with_reducible apply kept_memBad

theorem kept_withSource (c : Bytes) (a : Nat) (n0 : Nat) (pre : Nat) (m : MemArgs) (check : Bool) (f : Bytes → State → MemRun) (h_f : ∀ a0 t, Kept p n o t → Kept p n o (f a0 t).state)
    (h : Kept p n o s) : Kept p n o (withSource c a n0 pre m check f s).state := by
  unfold withSource
  try dsimp only
  repeat' first
    | with_reducible assumption
    | with_reducible apply kept_memOutside
    | with_reducible apply kept_readStack
    | with_reducible apply kept_memPoison
    | with_reducible apply kept_memBad
    | with_reducible apply h_f
    | intro _
    | split

theorem kept_toDest (narrow : Bool) (a : Nat) (bs : Bytes) (total : Nat) (result : Option Nat) (m : MemArgs)
    (h : Kept p n o s) : Kept p n o (toDest narrow a bs total result m s).state := by
  unfold toDest
  try dsimp only
  repeat' first
    | with_reducible assumption
    | with_reducible apply kept_memOutside
    | with_reducible apply kept_writeStack
    | with_reducible apply kept_memPoison
    | with_reducible apply kept_memDone
    | intro _
    | split

theorem kept_withResultWord (c : Bytes) (m : MemArgs) (r : MemRun) (h : Kept p n o r.state) :
    Kept p n o (withResultWord c m r).state := by
  unfold withResultWord
  dsimp only
  split
  · exact h
  · split
    · exact h
    · exact kept_toDest _ _ _ _ _ _ h

theorem kept_outsideRecord (e : Entry) (rd : Reader)
    (h : Kept p n o s) : Kept p n o (outsideRecord e rd s) := by
  unfold outsideRecord
  repeat' first
    | with_reducible assumption
    | with_reducible apply kept_recordErr

theorem kept_runMemory (mop : Nat) (k : Nat) (cmd : Bytes) (faults : List (Nat × WordFault)) (f : Bytes → MemArgs → State → MemRun) (h_f : ∀ a0 a1 t, Kept p n o t → Kept p n o (f a0 a1 t).state)
    (h : Kept p n o s) : Kept p n o (runMemory mop k cmd faults f s) := by
  unfold runMemory
  try dsimp only
  repeat' first
    | with_reducible assumption
    | with_reducible apply kept_modQueue
    | with_reducible apply kept_withResultWord
    | with_reducible apply kept_outsideRecord
    | with_reducible apply kept_completeEntry
    | with_reducible apply kept_tickFree
    | with_reducible apply h_f
    | intro _
    | split

theorem kept_memCopy (c : Bytes) (m : MemArgs)
    (h : Kept p n o s) : Kept p n o (memCopy c m s).state := by
  unfold memCopy
  repeat' first
    | with_reducible assumption
    | with_reducible apply kept_withSource
    | with_reducible apply kept_toDest
    | intro _

theorem kept_execCopy (queue : Nat) (cmd : Bytes) (faults : List (Nat × WordFault))
    (h : Kept p n o s) : KeptRes p n o (execCopy queue cmd faults s) := by
  unfold execCopy
  repeat' first
    | with_reducible assumption
    | with_reducible apply kept_live
    | with_reducible apply kept_whenB
    | with_reducible apply kept_runMemory
    | with_reducible apply kept_memCopy
    | intro _

theorem kept_memFill (c : Bytes) (m : MemArgs)
    (h : Kept p n o s) : Kept p n o (memFill c m s).state := by
  unfold memFill
  repeat' first
    | with_reducible assumption
    | with_reducible apply kept_toDest

theorem kept_execFill (queue : Nat) (cmd : Bytes) (faults : List (Nat × WordFault))
    (h : Kept p n o s) : KeptRes p n o (execFill queue cmd faults s) := by
  unfold execFill
  repeat' first
    | with_reducible assumption
    | with_reducible apply kept_live
    | with_reducible apply kept_whenB
    | with_reducible apply kept_runMemory
    | with_reducible apply kept_memFill
    | intro _

/-- A gather keeps it whether it ends well or not. -/
theorem kept_gatherExtents (m : MemArgs) (pre : Nat) (xs : List (Nat × Nat)) (acc : Bytes) (h : Kept p n o s) :
    (∀ r, gatherExtents m pre xs s acc = .error r → Kept p n o r.state) ∧
    (∀ b t, gatherExtents m pre xs s acc = .ok (b, t) → Kept p n o t) := by
  induction xs generalizing acc s with
  | nil => exact ⟨fun r hr => (by cases hr), fun b t hb => (by cases hb; exact h)⟩
  | cons x xs ih =>
    unfold gatherExtents
    dsimp only
    split
    · exact ⟨fun r hr => (by cases hr; exact kept_memOutside _ h), fun b t hb => (by cases hb)⟩
    · split
      · exact ⟨fun r hr => (by cases hr; exact kept_memPoison _ _ (kept_readStack _ _ _ _ h)), fun b t hb => (by cases hb)⟩
      · exact ih _ (kept_readStack _ _ _ _ h)

theorem kept_memGather (c : Bytes) (m : MemArgs) (h : Kept p n o s) : Kept p n o (memGather c m s).state := by
  refine kept_withSource _ _ _ _ _ _ _ (fun l t ht => ?_) h
  split
  · exact kept_memOutside _ ht
  · split
    · exact (kept_gatherExtents _ _ _ _ ht).1 _ (by assumption)
    · have hu := (kept_gatherExtents _ _ _ _ ht).2 _ _ (by assumption)
      split
      · exact kept_memBad _ hu
      · exact kept_toDest _ _ _ _ _ _ hu

theorem kept_execGather (queue : Nat) (cmd : Bytes) (faults : List (Nat × WordFault))
    (h : Kept p n o s) : KeptRes p n o (execGather queue cmd faults s) := by
  unfold execGather
  repeat' first
    | with_reducible assumption
    | with_reducible apply kept_live
    | with_reducible apply kept_whenB
    | with_reducible apply kept_runMemory
    | with_reducible apply kept_memGather
    | intro _

theorem kept_scatterExtents (m : MemArgs) (total : Nat) (xs : List (Nat × Nat)) (bs out : Bytes) (h : Kept p n o s) :
    Kept p n o (scatterExtents m total xs bs out s).state := by
  induction xs generalizing bs out s with
  | nil => exact h
  | cons x xs ih =>
    unfold scatterExtents
    dsimp only
    split
    · exact kept_memOutside _ h
    · split
      · exact kept_memPoison _ _ (kept_writeStack _ _ _ _ _ h)
      · exact ih _ _ (kept_writeStack _ _ _ _ _ h)

theorem kept_memScatter (c : Bytes) (m : MemArgs) (h : Kept p n o s) : Kept p n o (memScatter c m s).state := by
  refine kept_withSource _ _ _ _ _ _ _ (fun bs t ht => ?_) h
  refine kept_withSource _ _ _ _ _ _ _ (fun l u hu => ?_) ht
  split
  · exact kept_memOutside _ hu
  · exact kept_scatterExtents _ _ _ _ _ hu

theorem kept_execScatter (queue : Nat) (cmd : Bytes) (faults : List (Nat × WordFault))
    (h : Kept p n o s) : KeptRes p n o (execScatter queue cmd faults s) := by
  unfold execScatter
  repeat' first
    | with_reducible assumption
    | with_reducible apply kept_live
    | with_reducible apply kept_whenB
    | with_reducible apply kept_runMemory
    | with_reducible apply kept_memScatter
    | intro _

theorem kept_memSha (c : Bytes) (bs : Bytes) (m : MemArgs)
    (h : Kept p n o s) : Kept p n o (memSha c bs m s).state := by
  unfold memSha
  try dsimp only
  repeat' first
    | with_reducible assumption
    | with_reducible apply kept_toDest
    | with_reducible apply kept_withSource
    | intro _
    | split
    | refine kept_fst (by assumption) ?_
    | refine kept_snd (by assumption) ?_
    | with_reducible refine kept_set ?_ rfl rfl rfl rfl rfl

theorem kept_memHash (c : Bytes) (m : MemArgs)
    (h : Kept p n o s) : Kept p n o (memHash c m s).state := by
  unfold memHash
  repeat' first
    | with_reducible assumption
    | with_reducible apply kept_withSource
    | with_reducible apply kept_memDone
    | with_reducible apply kept_memSha
    | with_reducible apply kept_memOutside
    | intro _
    | split

theorem kept_execHash (queue : Nat) (cmd : Bytes) (faults : List (Nat × WordFault))
    (h : Kept p n o s) : KeptRes p n o (execHash queue cmd faults s) := by
  unfold execHash
  repeat' first
    | with_reducible assumption
    | with_reducible apply kept_live
    | with_reducible apply kept_whenB
    | with_reducible apply kept_runMemory
    | with_reducible apply kept_memHash
    | intro _

theorem kept_memAtomic (c : Bytes) (m : MemArgs)
    (h : Kept p n o s) : Kept p n o (memAtomic c m s).state := by
  unfold memAtomic
  try dsimp only
  repeat' first
    | with_reducible assumption
    | with_reducible apply kept_withSource
    | with_reducible apply kept_toDest
    | with_reducible apply kept_memOutside
    | intro _
    | split

theorem kept_execAtomic (queue : Nat) (cmd : Bytes) (faults : List (Nat × WordFault))
    (h : Kept p n o s) : KeptRes p n o (execAtomic queue cmd faults s) := by
  unfold execAtomic
  repeat' first
    | with_reducible assumption
    | with_reducible apply kept_live
    | with_reducible apply kept_whenB
    | with_reducible apply kept_runMemory
    | with_reducible apply kept_memAtomic
    | intro _

theorem kept_memScan (c : Bytes) (m : MemArgs)
    (h : Kept p n o s) : Kept p n o (memScan c m s).state := by
  unfold memScan
  repeat' first
    | with_reducible assumption
    | with_reducible apply kept_memOutside
    | with_reducible apply kept_withSource
    | with_reducible apply kept_toDest
    | intro _
    | split

theorem kept_execPredicateScan (queue : Nat) (cmd : Bytes) (faults : List (Nat × WordFault))
    (h : Kept p n o s) : KeptRes p n o (execPredicateScan queue cmd faults s) := by
  unfold execPredicateScan
  repeat' first
    | with_reducible assumption
    | with_reducible apply kept_live
    | with_reducible apply kept_whenB
    | with_reducible apply kept_runMemory
    | with_reducible apply kept_memScan
    | intro _

theorem kept_memCompress (c : Bytes) (m : MemArgs)
    (h : Kept p n o s) : Kept p n o (memCompress c m s).state := by
  unfold memCompress
  try dsimp only
  repeat' first
    | with_reducible assumption
    | with_reducible apply kept_withSource
    | with_reducible apply kept_toDest
    | intro _

theorem kept_execCompress (queue : Nat) (cmd : Bytes) (faults : List (Nat × WordFault))
    (h : Kept p n o s) : KeptRes p n o (execCompress queue cmd faults s) := by
  unfold execCompress
  repeat' first
    | with_reducible assumption
    | with_reducible apply kept_live
    | with_reducible apply kept_whenB
    | with_reducible apply kept_runMemory
    | with_reducible apply kept_memCompress
    | intro _

theorem kept_memDecompress (c : Bytes) (m : MemArgs)
    (h : Kept p n o s) : Kept p n o (memDecompress c m s).state := by
  unfold memDecompress
  repeat' first
    | with_reducible assumption
    | with_reducible apply kept_withSource
    | with_reducible apply kept_memBad
    | with_reducible apply kept_toDest
    | intro _
    | split

theorem kept_execDecompress (queue : Nat) (cmd : Bytes) (faults : List (Nat × WordFault))
    (h : Kept p n o s) : KeptRes p n o (execDecompress queue cmd faults s) := by
  unfold execDecompress
  repeat' first
    | with_reducible assumption
    | with_reducible apply kept_live
    | with_reducible apply kept_whenB
    | with_reducible apply kept_runMemory
    | with_reducible apply kept_memDecompress
    | intro _

end Sys2Proof.Machine
end

