-- ==== Sys2Proof/Laws/KeepTransform.lean ====
section
/-! SUPPORT. What the operations of Machine/Transform.lean keep. -/

namespace Sys2Proof.Machine

variable {p : List Instr} {n : Nat} {o : List Output} {s : State}

theorem kept_execCropResample (queue : Nat) (h : Kept p n o s) : KeptRes p n o (execCropResample queue s) := by
  unfold execCropResample
  repeat' first
    | with_reducible assumption
    | with_reducible apply kept_live
    | with_reducible apply kept_runPure
    | intro _

theorem kept_execFlip (queue : Nat) (h : Kept p n o s) : KeptRes p n o (execFlip queue s) := by
  unfold execFlip
  repeat' first
    | with_reducible assumption
    | with_reducible apply kept_live
    | with_reducible apply kept_runPure
    | intro _

theorem kept_execAffineWarp (queue : Nat) (h : Kept p n o s) : KeptRes p n o (execAffineWarp queue s) := by
  unfold execAffineWarp
  repeat' first
    | with_reducible assumption
    | with_reducible apply kept_live
    | with_reducible apply kept_runPure
    | intro _

theorem kept_execColourJitter (queue : Nat) (h : Kept p n o s) : KeptRes p n o (execColourJitter queue s) := by
  unfold execColourJitter
  repeat' first
    | with_reducible assumption
    | with_reducible apply kept_live
    | with_reducible apply kept_runPure
    | intro _

theorem kept_execNormalize (queue : Nat) (h : Kept p n o s) : KeptRes p n o (execNormalize queue s) := by
  unfold execNormalize
  repeat' first
    | with_reducible assumption
    | with_reducible apply kept_live
    | with_reducible apply kept_runPure
    | intro _

theorem kept_execAudioGain (queue : Nat) (h : Kept p n o s) : KeptRes p n o (execAudioGain queue s) := by
  unfold execAudioGain
  repeat' first
    | with_reducible assumption
    | with_reducible apply kept_live
    | with_reducible apply kept_runPure
    | intro _

theorem kept_execConvert (queue : Nat) (h : Kept p n o s) : KeptRes p n o (execConvert queue s) := by
  unfold execConvert
  repeat' first
    | with_reducible assumption
    | with_reducible apply kept_live
    | with_reducible apply kept_runPure
    | intro _

theorem kept_execExpression (queue : Nat) (h : Kept p n o s) : KeptRes p n o (execExpression queue s) := by
  unfold execExpression
  repeat' first
    | with_reducible assumption
    | with_reducible apply kept_live
    | with_reducible apply kept_runPure
    | intro _

end Sys2Proof.Machine
end

