-- ==== Sys2Proof/Laws/KeepModel.lean ====
section
/-! SUPPORT. What the operations of Machine/Model.lean keep. -/

namespace Sys2Proof.Machine

variable {p : List Instr} {n : Nat} {o : List Output} {s : State}

theorem kept_modelDone (l : LongOp)
    (h : Kept p n o s) : Kept p n o (modelDone l s) := by
  unfold modelDone
  try dsimp only
  repeat' first
    | with_reducible assumption
    | with_reducible apply kept_finish
    | with_reducible apply kept_refuse
    | with_reducible apply kept_storeObject
    | intro _
    | split
    | with_reducible refine kept_set ?_ rfl rfl rfl rfl rfl

theorem kept_execModelPackageLoad (pair : Nat) (cid : Nat)
    (h : Kept p 64 o s) : KeptRes p 64 o (execModelPackageLoad pair cid s) := by
  unfold execModelPackageLoad
  repeat' first
    | with_reducible assumption
    | exact kept_more (by with_reducible assumption) (by decide)
    | with_reducible apply kept_live
    | with_reducible apply kept_runLong
    | with_reducible apply kept_modelDone
    | intro _

theorem kept_execScoreModel (queue : Nat) (h : Kept p n o s) : KeptRes p n o (execScoreModel queue s) := by
  unfold execScoreModel
  repeat' first
    | with_reducible assumption
    | with_reducible apply kept_live
    | with_reducible apply kept_runPure
    | intro _

theorem kept_execEmbedModel (queue : Nat) (h : Kept p n o s) : KeptRes p n o (execEmbedModel queue s) := by
  unfold execEmbedModel
  repeat' first
    | with_reducible assumption
    | with_reducible apply kept_live
    | with_reducible apply kept_runPure
    | intro _

theorem kept_filterOp (e : Entry) (p0 : Pipeline) (x : Sample) (h : Kept p n o s) : Kept p n o (filterOp e p0 x s).2 := by
  unfold filterOp
  try dsimp only
  repeat' first
    | with_reducible assumption
    | with_reducible apply kept_tickFree
    | intro _
    | split

theorem kept_execScoreFilter (queue : Nat) (h : Kept p n o s) : KeptRes p n o (execScoreFilter queue s) := by
  unfold execScoreFilter
  repeat' first
    | with_reducible assumption
    | with_reducible apply kept_live
    | with_reducible apply kept_whenB
    | with_reducible apply kept_runEntry
    | with_reducible apply kept_filterOp
    | intro _

end Sys2Proof.Machine
end

