-- ==== Sys2Proof/Laws/KeepWorkSlice.lean ====
section
/-! SUPPORT. What the operations of Machine/WorkSlice.lean keep. -/

namespace Sys2Proof.Machine

variable {p : List Instr} {n : Nat} {o : List Output} {s : State}

theorem kept_pauseWith {p : List Instr} {o : List Output} {r : State × LongOp × Nat} (h : Kept p 63 o r.1) :
    Kept p 64 o (pauseWith r) := kept_pauseLong _ _ h

theorem kept_stageSlice (n0 : Nat) (l : LongOp) (h : Kept p 63 o s) : Kept p 64 o (stageSlice n0 l s) := by
  unfold stageSlice
  repeat' first
    | with_reducible assumption
    | exact kept_more (by with_reducible assumption) (by decide)
    | with_reducible apply kept_refuseStaged
    | with_reducible apply kept_pauseLong
    | exact kept_stageSome (by assumption) h
    | refine kept_stageSome (by assumption) ?_
    | intro _
    | split

theorem kept_catalogSlice (n0 : Nat) (l : LongOp) (h : Kept p 63 o s) : Kept p 64 o (catalogSlice n0 l s) := by
  unfold catalogSlice
  try dsimp only
  repeat' first
    | with_reducible assumption
    | exact kept_more (by with_reducible assumption) (by decide)
    | with_reducible apply kept_loadSome
    | with_reducible apply kept_refuse
    | with_reducible apply kept_pauseLong
    | intro _
    | split

theorem kept_magSlice (l : LongOp) (m : Option Magazine) (same : Nat) (f : State → State) (h_f : ∀ t, Kept p 63 o t → Kept p 64 o (f t))
    (h : Kept p 63 o s) : Kept p 64 o (magSlice l m same f s) := by
  unfold magSlice
  repeat' first
    | with_reducible assumption
    | exact kept_more (by with_reducible assumption) (by decide)
    | with_reducible apply kept_refuse
    | with_reducible apply kept_pauseLong
    | with_reducible apply h_f
    | intro _
    | split

theorem kept_formatSlice (n0 : Nat) (l : LongOp)
    (h : Kept p 63 o s) : Kept p 64 o (formatSlice n0 l s) := by
  unfold formatSlice
  try dsimp only
  repeat' first
    | with_reducible assumption
    | exact kept_more (by with_reducible assumption) (by decide)
    | with_reducible apply kept_magSlice
    | with_reducible apply kept_pauseLong
    | intro _

theorem kept_foldSlice (n0 : Nat) (l : LongOp) (h : Kept p 63 o s) : Kept p 64 o (foldSlice n0 l s) := by
  unfold foldSlice
  try dsimp only
  repeat' first
    | with_reducible assumption
    | exact kept_more (by with_reducible assumption) (by decide)
    | with_reducible apply kept_magSlice
    | with_reducible apply kept_foldSome
    | with_reducible apply kept_wearCheck
    | with_reducible apply kept_pauseLong
    | intro _
    | split

theorem kept_rebuildSlice (n0 : Nat) (weak : List Nat) (l : LongOp) (h : Kept p 63 o s) : Kept p 64 o (rebuildSlice n0 weak l s) := by
  unfold rebuildSlice
  try dsimp only
  repeat' first
    | with_reducible assumption
    | exact kept_more (by with_reducible assumption) (by decide)
    | with_reducible apply kept_magSlice
    | with_reducible apply kept_rebuildScan
    | with_reducible apply kept_pauseLong
    | with_reducible apply kept_finish
    | intro _
    | split

theorem kept_logbookSlice (n0 : Nat) (l : LongOp) (h : Kept p 63 o s) : Kept p 64 o (logbookSlice n0 l s) := by
  unfold logbookSlice
  try dsimp only
  repeat' first
    | with_reducible assumption
    | with_reducible apply kept_logbookSome
    | with_reducible apply kept_pauseLong

theorem kept_oneSlice (n0 : Nat) (faults : List (Nat × WordFault)) (l : LongOp)
    (h : Kept p 63 o s) : Kept p 64 o (oneSlice n0 faults l s) := by
  unfold oneSlice
  repeat' first
    | with_reducible assumption
    | with_reducible apply kept_stageSlice
    | with_reducible apply kept_catalogSlice
    | with_reducible apply kept_pauseWith
    | with_reducible apply kept_bytesSlice
    | with_reducible apply kept_formatSlice
    | with_reducible apply kept_foldSlice
    | with_reducible apply kept_rebuildSlice
    | with_reducible apply kept_pauseLong
    | with_reducible apply kept_logbookSlice
    | with_reducible apply kept_scrubSlice
    | with_reducible apply kept_fillSlice
    | with_reducible apply kept_testSlice
    | intro _
    | split

theorem kept_workSliceEnd (pair cid units : Nat) (faults : List (Nat × WordFault)) (h : Kept p 64 o s) :
    Kept p 64 o (workSliceEnd pair cid units faults s) := by
  unfold workSliceEnd
  split
  · exact h
  · split
    · exact h
    · refine kept_runCmd _ _ _ _ (fun c t ht => ?_) h
      split
      · exact kept_refuse _ _ _ ht
      · rename_i he
        split
        · exact ht
        · exact kept_oneSlice _ _ _ (longEnter_room he ht)

theorem kept_execWorkSliceEnd (pair : Nat) (cid : Nat) (units : Nat) (faults : List (Nat × WordFault))
    (h : Kept p 64 o s) : KeptRes p 64 o (execWorkSliceEnd pair cid units faults s) := by
  unfold execWorkSliceEnd
  repeat' first
    | with_reducible assumption
    | exact kept_more (by with_reducible assumption) (by decide)
    | with_reducible apply kept_live
    | with_reducible apply kept_workSliceEnd
    | intro _

end Sys2Proof.Machine
end

