-- ==== Sys2Proof/WellFormed.lean ====
section
/-! DEFINITION. The well-formed commands: the operands that name a part of the device name one that exists. The machine
itself ignores a command that names a unit it does not have, so nothing rests on this but statements that say so. -/

namespace Sys2Proof

/-- The ring pair a command's row names (R31). -/
def Instr.pair? : Instr → Option Nat
  | .commandFetch p _ _ _ | .completionWrite p _ _ | .coalesceTimer p | .workSliceEnd p _ _ _ | .sqTailDoorbell _ p _
  | .cqHeadDoorbell _ p _ | .identify p _ _ | .createRingPair p _ | .deleteRingPair p _ | .resetRingPair p _ _
  | .getEvent p _ | .getField p _ _ | .setField p _ | .firmwareStage p _ | .firmwareActivate p _ | .catalogLoad p _
  | .catalogUnload p _ | .catalogLookup p _ _ | .routingSummaryLoad p _ | .pipelineDeclare p _ | .pipelineStart p _
  | .pipelineStop p _ | .pipelineDelete p _ | .modelPackageLoad p _ | .shotRecordsLoad p _ | .tokenTableLoad p _
  | .consumerAttach p _ | .pipelineCheckpoint p _ _ | .pipelineRestore p _ | .read p _ _ | .write p _ | .flush p _
  | .trim p _ | .volumeCreate p _ | .volumeDelete p _ | .magazineFormat p _ | .fold p _ | .rebuild p _ _ _
  | .magazineEject p _ | .reelOpen p _ | .reelSamples p _ | .reelSeal p _ _ | .wearReport p _ _ | .topologyLoad p _
  | .peerIdentityLoad p _ | .regionRegister p _ | .regionRevoke p _ | .qpCreate p _ | .qpModifyReady p _
  | .qpModifyReset p _ | .qpModifyError p _ | .qpModifyQuery p _ _ | .qpDestroy p _ | .callSheetLoad p _
  | .shaperFlowSet p _ | .policerSet p _ | .errorRingRead p _ _ _ | .countersRead p _ _ | .traceConfig p _
  | .lockstepConfig p _ | .dailiesRun p _ _ | .logbookRead p _ _ | .clapperFreezeNow p _ | .clapperFreezeAt p _
  | .clapperRelease p _ _ | .operatingPointSet p _ | .scrubPass p _ _ | .initFill p _ | .testRotationSet p _
  | .testRun p _ _ _ | .testResultsRead p _ _ | .unitRetire p _ | .attestReport p _ _ | .certRead p _ _
  | .flashProgramComplete p _ _ => some p
  | _ => none

/-- The sub-link whose BAR0 a command accesses (R30). -/
def Instr.sublink? : Instr → Option Nat
  | .ctrlEnable k | .controllerReset k | .admDepthWrite k _ | .registerWrite k _ _ _ | .sqTailDoorbell k _ _
  | .cqHeadDoorbell k _ _ | .eventStatusWrite k _ | .eventMaskWrite k _ | .refusalRead k | .ringErrorRead k
  | .timebaseRead k _ _ => some k
  | _ => none

/-- The Yilanric port a command concerns (R313). -/
def Instr.port? : Instr → Option Nat
  | .portStateAdvance k _ _ _ | .portBoundExpiry k | .portRetryTimer k | .flit k _ | .replay k _ | .replayLimit k _
  | .disable k | .identityExchange k _ _ _ | .timeReady k | .timeProbe k _ | .writePacket k _ _ | .readReq k _ _ _
  | .readResp k _ | .send k _ _ | .flushPacket k _ _ | .ack k _ | .nak k _ | .contextFetchComplete k _
  | .vc3MessageStart k _ | .gateTransition k | .callSheetActivate k => some k
  | _ => none

/-- The magazine bay a command concerns (R279). -/
def Instr.bay? : Instr → Option Nat
  | .presenceRise k | .insertionDebounce k _ _ _ _ _ _ | .magazineReady k | .attentionButton k | .ejectWindowExpiry k
  | .ejectPowerOff k | .ejectInhibitTimeout k | .surpriseRemoval k | .magazinePowerFault k | .backgroundFold k _
  | .garbageCollection k _ | .staticWearLevelling k | .safeRemoval k => some k
  | _ => none

/-- The ring pair, where there is one, is one of the 256. -/
def Instr.pairOk (i : Instr) : Bool := i.pair?.all fun p => decide (p < 256)

/-- The sub-link, where there is one, is one of the 4. -/
def Instr.sublinkOk (i : Instr) : Bool := i.sublink?.all fun k => decide (k < 4)

/-- The port, where there is one, is one of the 18. -/
def Instr.portOk (i : Instr) : Bool := i.port?.all fun k => decide (k < 18)

/-- The bay, where there is one, is one of the 8. -/
def Instr.bayOk (i : Instr) : Bool := i.bay?.all fun k => decide (k < 8)

/-- A well-formed command. -/
def Instr.wf (i : Instr) : Bool := i.pairOk && i.sublinkOk && i.portOk && i.bayOk

end Sys2Proof
end

