-- ==== Sys2Proof/Laws/PerInstr.lean ====
section
/-! SUPPORT. What well-formedness says of each command: its operands that name a part of the device name one that exists. -/

namespace Sys2Proof.Laws.Wf

open Sys2Proof

/-- A command is well formed exactly when the ring pair, sub-link, port and bay that it names, where it names one, exist. -/
def Statement (i : Instr) : Prop :=
  i.wf = true ↔ (∀ p, i.pair? = some p → p < 256) ∧ (∀ k, i.sublink? = some k → k < 4) ∧ (∀ k, i.port? = some k → k < 18) ∧
    ∀ k, i.bay? = some k → k < 8

theorem all_lt (o : Option Nat) (n : Nat) : (o.all fun p => decide (p < n)) = true ↔ ∀ p, o = some p → p < n := by
  cases o <;> simp

theorem of_checks (i : Instr) : Statement i := by
  simp only [Statement, Instr.wf, Instr.pairOk, Instr.sublinkOk, Instr.portOk, Instr.bayOk, Bool.and_eq_true, all_lt, and_assoc]

theorem ctrlEnable a : Statement (.ctrlEnable a) := of_checks _
theorem controllerReset a : Statement (.controllerReset a) := of_checks _
theorem admDepthWrite a b : Statement (.admDepthWrite a b) := of_checks _
theorem registerWrite a b c d : Statement (.registerWrite a b c d) := of_checks _
theorem sqTailDoorbell a b c : Statement (.sqTailDoorbell a b c) := of_checks _
theorem cqHeadDoorbell a b c : Statement (.cqHeadDoorbell a b c) := of_checks _
theorem eventStatusWrite a b : Statement (.eventStatusWrite a b) := of_checks _
theorem eventMaskWrite a b : Statement (.eventMaskWrite a b) := of_checks _
theorem refusalRead a : Statement (.refusalRead a) := of_checks _
theorem ringErrorRead a : Statement (.ringErrorRead a) := of_checks _
theorem timebaseRead a b c : Statement (.timebaseRead a b c) := of_checks _
theorem commandFetch a b c d : Statement (.commandFetch a b c d) := of_checks _
theorem completionWrite a b c : Statement (.completionWrite a b c) := of_checks _
theorem coalesceTimer a : Statement (.coalesceTimer a) := of_checks _
theorem workSliceEnd a b c d : Statement (.workSliceEnd a b c d) := of_checks _
theorem identify a b c : Statement (.identify a b c) := of_checks _
theorem createRingPair a b : Statement (.createRingPair a b) := of_checks _
theorem deleteRingPair a b : Statement (.deleteRingPair a b) := of_checks _
theorem resetRingPair a b c : Statement (.resetRingPair a b c) := of_checks _
theorem getEvent a b : Statement (.getEvent a b) := of_checks _
theorem getField a b c : Statement (.getField a b c) := of_checks _
theorem setField a b : Statement (.setField a b) := of_checks _
theorem firmwareStage a b : Statement (.firmwareStage a b) := of_checks _
theorem firmwareActivate a b : Statement (.firmwareActivate a b) := of_checks _
theorem activationReset : Statement (.activationReset) := of_checks _
theorem catalogLoad a b : Statement (.catalogLoad a b) := of_checks _
theorem catalogUnload a b : Statement (.catalogUnload a b) := of_checks _
theorem catalogLookup a b c : Statement (.catalogLookup a b c) := of_checks _
theorem routingSummaryLoad a b : Statement (.routingSummaryLoad a b) := of_checks _
theorem pipelineDeclare a b : Statement (.pipelineDeclare a b) := of_checks _
theorem pipelineStart a b : Statement (.pipelineStart a b) := of_checks _
theorem pipelineStop a b : Statement (.pipelineStop a b) := of_checks _
theorem pipelineDelete a b : Statement (.pipelineDelete a b) := of_checks _
theorem modelPackageLoad a b : Statement (.modelPackageLoad a b) := of_checks _
theorem shotRecordsLoad a b : Statement (.shotRecordsLoad a b) := of_checks _
theorem tokenTableLoad a b : Statement (.tokenTableLoad a b) := of_checks _
theorem consumerAttach a b : Statement (.consumerAttach a b) := of_checks _
theorem pipelineCheckpoint a b c : Statement (.pipelineCheckpoint a b c) := of_checks _
theorem pipelineRestore a b : Statement (.pipelineRestore a b) := of_checks _
theorem read a b c : Statement (.read a b c) := of_checks _
theorem write a b : Statement (.write a b) := of_checks _
theorem flush a b : Statement (.flush a b) := of_checks _
theorem trim a b : Statement (.trim a b) := of_checks _
theorem volumeCreate a b : Statement (.volumeCreate a b) := of_checks _
theorem volumeDelete a b : Statement (.volumeDelete a b) := of_checks _
theorem magazineFormat a b : Statement (.magazineFormat a b) := of_checks _
theorem fold a b : Statement (.fold a b) := of_checks _
theorem rebuild a b c d : Statement (.rebuild a b c d) := of_checks _
theorem magazineEject a b : Statement (.magazineEject a b) := of_checks _
theorem reelOpen a b : Statement (.reelOpen a b) := of_checks _
theorem reelSamples a b : Statement (.reelSamples a b) := of_checks _
theorem reelSeal a b c : Statement (.reelSeal a b c) := of_checks _
theorem wearReport a b c : Statement (.wearReport a b c) := of_checks _
theorem topologyLoad a b : Statement (.topologyLoad a b) := of_checks _
theorem peerIdentityLoad a b : Statement (.peerIdentityLoad a b) := of_checks _
theorem regionRegister a b : Statement (.regionRegister a b) := of_checks _
theorem regionRevoke a b : Statement (.regionRevoke a b) := of_checks _
theorem revokeDrainComplete a : Statement (.revokeDrainComplete a) := of_checks _
theorem qpCreate a b : Statement (.qpCreate a b) := of_checks _
theorem qpModifyReady a b : Statement (.qpModifyReady a b) := of_checks _
theorem qpModifyReset a b : Statement (.qpModifyReset a b) := of_checks _
theorem qpModifyError a b : Statement (.qpModifyError a b) := of_checks _
theorem qpModifyQuery a b c : Statement (.qpModifyQuery a b c) := of_checks _
theorem qpDestroy a b : Statement (.qpDestroy a b) := of_checks _
theorem callSheetLoad a b : Statement (.callSheetLoad a b) := of_checks _
theorem shaperFlowSet a b : Statement (.shaperFlowSet a b) := of_checks _
theorem policerSet a b : Statement (.policerSet a b) := of_checks _
theorem errorRingRead a b c d : Statement (.errorRingRead a b c d) := of_checks _
theorem countersRead a b c : Statement (.countersRead a b c) := of_checks _
theorem traceConfig a b : Statement (.traceConfig a b) := of_checks _
theorem lockstepConfig a b : Statement (.lockstepConfig a b) := of_checks _
theorem dailiesRun a b c : Statement (.dailiesRun a b c) := of_checks _
theorem logbookRead a b c : Statement (.logbookRead a b c) := of_checks _
theorem clapperFreezeNow a b : Statement (.clapperFreezeNow a b) := of_checks _
theorem clapperFreezeAt a b : Statement (.clapperFreezeAt a b) := of_checks _
theorem clapperRelease a b c : Statement (.clapperRelease a b c) := of_checks _
theorem operatingPointSet a b : Statement (.operatingPointSet a b) := of_checks _
theorem scrubPass a b c : Statement (.scrubPass a b c) := of_checks _
theorem initFill a b : Statement (.initFill a b) := of_checks _
theorem testRotationSet a b : Statement (.testRotationSet a b) := of_checks _
theorem testRun a b c d : Statement (.testRun a b c d) := of_checks _
theorem testResultsRead a b c : Statement (.testResultsRead a b c) := of_checks _
theorem unitRetire a b : Statement (.unitRetire a b) := of_checks _
theorem attestReport a b c : Statement (.attestReport a b c) := of_checks _
theorem certRead a b c : Statement (.certRead a b c) := of_checks _
theorem scheduleComplete a b : Statement (.scheduleComplete a b) := of_checks _
theorem schedule a b : Statement (.schedule a b) := of_checks _
theorem scheduleWindowRebuild a b c d : Statement (.scheduleWindowRebuild a b c d) := of_checks _
theorem poolAlloc a b c d e f g h : Statement (.poolAlloc a b c d e f g h) := of_checks _
theorem allocGrant a b c : Statement (.allocGrant a b c) := of_checks _
theorem poolFree a b c d e : Statement (.poolFree a b c d e) := of_checks _
theorem poolShare a b c d e f g : Statement (.poolShare a b c d e f g) := of_checks _
theorem poolAdd a b c d e f : Statement (.poolAdd a b c d e f) := of_checks _
theorem poolRelease a b c d e : Statement (.poolRelease a b c d e) := of_checks _
theorem engineEntryIssue a b : Statement (.engineEntryIssue a b) := of_checks _
theorem engineCompletion a b : Statement (.engineCompletion a b) := of_checks _
theorem blockDecompress a : Statement (.blockDecompress a) := of_checks _
theorem crcVerify a : Statement (.crcVerify a) := of_checks _
theorem fetchRepeat a b : Statement (.fetchRepeat a b) := of_checks _
theorem slatePredicate a : Statement (.slatePredicate a) := of_checks _
theorem minhash a b : Statement (.minhash a b) := of_checks _
theorem sinkHeadPoll a b c d : Statement (.sinkHeadPoll a b c d) := of_checks _
theorem imageDecode a : Statement (.imageDecode a) := of_checks _
theorem videoDecode a : Statement (.videoDecode a) := of_checks _
theorem audioDecode a : Statement (.audioDecode a) := of_checks _
theorem cropResample a : Statement (.cropResample a) := of_checks _
theorem flip a : Statement (.flip a) := of_checks _
theorem affineWarp a : Statement (.affineWarp a) := of_checks _
theorem colourJitter a : Statement (.colourJitter a) := of_checks _
theorem normalize a : Statement (.normalize a) := of_checks _
theorem convert a : Statement (.convert a) := of_checks _
theorem expression a : Statement (.expression a) := of_checks _
theorem audioGain a : Statement (.audioGain a) := of_checks _
theorem scoreModel a : Statement (.scoreModel a) := of_checks _
theorem embedModel a : Statement (.embedModel a) := of_checks _
theorem tokenize a : Statement (.tokenize a) := of_checks _
theorem grammar a : Statement (.grammar a) := of_checks _
theorem tokenMask a : Statement (.tokenMask a) := of_checks _
theorem scoreFilter a : Statement (.scoreFilter a) := of_checks _
theorem splice a b c : Statement (.splice a b c) := of_checks _
theorem deliver a : Statement (.deliver a) := of_checks _
theorem sampleDigest a b : Statement (.sampleDigest a b) := of_checks _
theorem copy a b c : Statement (.copy a b c) := of_checks _
theorem fill a b c : Statement (.fill a b c) := of_checks _
theorem gather a b c : Statement (.gather a b c) := of_checks _
theorem scatter a b c : Statement (.scatter a b c) := of_checks _
theorem hash a b c : Statement (.hash a b c) := of_checks _
theorem atomic a b c : Statement (.atomic a b c) := of_checks _
theorem predicateScan a b c : Statement (.predicateScan a b c) := of_checks _
theorem compress a b c : Statement (.compress a b c) := of_checks _
theorem decompress a b c : Statement (.decompress a b c) := of_checks _
theorem engineParityError a b : Statement (.engineParityError a b) := of_checks _
theorem engineHang a : Statement (.engineHang a) := of_checks _
theorem checkMismatchVote a b : Statement (.checkMismatchVote a b) := of_checks _
theorem voteResult a b c : Statement (.voteResult a b c) := of_checks _
theorem suspectClear a : Statement (.suspectClear a) := of_checks _
theorem slotWrite a : Statement (.slotWrite a) := of_checks _
theorem slotNoticeSend a b c d : Statement (.slotNoticeSend a b c d) := of_checks _
theorem noticeCoalesceTimer a b c : Statement (.noticeCoalesceTimer a b c) := of_checks _
theorem slotNotice a : Statement (.slotNotice a) := of_checks _
theorem releaseNotice a : Statement (.releaseNotice a) := of_checks _
theorem spanReport a : Statement (.spanReport a) := of_checks _
theorem spanResult a : Statement (.spanResult a) := of_checks _
theorem placement a : Statement (.placement a) := of_checks _
theorem pieceNotice a : Statement (.pieceNotice a) := of_checks _
theorem spanFetchStart a b c : Statement (.spanFetchStart a b c) := of_checks _
theorem batchRelease a b : Statement (.batchRelease a b) := of_checks _
theorem headReadTimer a b : Statement (.headReadTimer a b) := of_checks _
theorem headReadComplete a b c : Statement (.headReadComplete a b c) := of_checks _
theorem codeWordRead a b c d : Statement (.codeWordRead a b c d) := of_checks _
theorem codeWordWrite a b c d e f : Statement (.codeWordWrite a b c d e f) := of_checks _
theorem scrubStep a b : Statement (.scrubStep a b) := of_checks _
theorem presenceRise a : Statement (.presenceRise a) := of_checks _
theorem insertionDebounce a b c d e f g : Statement (.insertionDebounce a b c d e f g) := of_checks _
theorem magazineReady a : Statement (.magazineReady a) := of_checks _
theorem attentionButton a : Statement (.attentionButton a) := of_checks _
theorem ejectWindowExpiry a : Statement (.ejectWindowExpiry a) := of_checks _
theorem ejectPowerOff a : Statement (.ejectPowerOff a) := of_checks _
theorem ejectInhibitTimeout a : Statement (.ejectInhibitTimeout a) := of_checks _
theorem surpriseRemoval a : Statement (.surpriseRemoval a) := of_checks _
theorem magazinePowerFault a : Statement (.magazinePowerFault a) := of_checks _
theorem programInhibitSet a b : Statement (.programInhibitSet a b) := of_checks _
theorem programInhibitClear : Statement (.programInhibitClear) := of_checks _
theorem flashAbort a b : Statement (.flashAbort a b) := of_checks _
theorem flashReadComplete a b c : Statement (.flashReadComplete a b c) := of_checks _
theorem flashProgramComplete a b c : Statement (.flashProgramComplete a b c) := of_checks _
theorem programFail a b c : Statement (.programFail a b c) := of_checks _
theorem stripeVerify a b : Statement (.stripeVerify a b) := of_checks _
theorem backgroundFold a b : Statement (.backgroundFold a b) := of_checks _
theorem garbageCollection a b : Statement (.garbageCollection a b) := of_checks _
theorem staticWearLevelling a : Statement (.staticWearLevelling a) := of_checks _
theorem relocationSwitch a b : Statement (.relocationSwitch a b) := of_checks _
theorem interfaceRetrainTimer : Statement (.interfaceRetrainTimer) := of_checks _
theorem portStateAdvance a b c d : Statement (.portStateAdvance a b c d) := of_checks _
theorem portBoundExpiry a : Statement (.portBoundExpiry a) := of_checks _
theorem portRetryTimer a : Statement (.portRetryTimer a) := of_checks _
theorem flit a b : Statement (.flit a b) := of_checks _
theorem replay a b : Statement (.replay a b) := of_checks _
theorem replayLimit a b : Statement (.replayLimit a b) := of_checks _
theorem disable a : Statement (.disable a) := of_checks _
theorem identityExchange a b c d : Statement (.identityExchange a b c d) := of_checks _
theorem timeReady a : Statement (.timeReady a) := of_checks _
theorem timeProbeTimer : Statement (.timeProbeTimer) := of_checks _
theorem timeProbe a b : Statement (.timeProbe a b) := of_checks _
theorem workRequestPost a b c d e f : Statement (.workRequestPost a b c d e f) := of_checks _
theorem writePacket a b c : Statement (.writePacket a b c) := of_checks _
theorem readReq a b c d : Statement (.readReq a b c d) := of_checks _
theorem readResp a b : Statement (.readResp a b) := of_checks _
theorem send a b c : Statement (.send a b c) := of_checks _
theorem flushPacket a b c : Statement (.flushPacket a b c) := of_checks _
theorem ack a b : Statement (.ack a b) := of_checks _
theorem nak a b : Statement (.nak a b) := of_checks _
theorem ackTimer a : Statement (.ackTimer a) := of_checks _
theorem retryTimer a : Statement (.retryTimer a) := of_checks _
theorem nakBackoffExpiry a : Statement (.nakBackoffExpiry a) := of_checks _
theorem contextFetchComplete a b : Statement (.contextFetchComplete a b) := of_checks _
theorem wheelSlot : Statement (.wheelSlot) := of_checks _
theorem overflowSlot : Statement (.overflowSlot) := of_checks _
theorem vc3MessageStart a b : Statement (.vc3MessageStart a b) := of_checks _
theorem gateTransition a : Statement (.gateTransition a) := of_checks _
theorem callSheetActivate a : Statement (.callSheetActivate a) := of_checks _
theorem packageFatalError a b c : Statement (.packageFatalError a b c) := of_checks _
theorem rotationTestDue a b : Statement (.rotationTestDue a b) := of_checks _
theorem takeover a : Statement (.takeover a) := of_checks _
theorem testComplete a : Statement (.testComplete a) := of_checks _
theorem testDeferralRetry a b : Statement (.testDeferralRetry a b) := of_checks _
theorem requalificationRetest a b c d : Statement (.requalificationRetest a b c d) := of_checks _
theorem suspectTest a b : Statement (.suspectTest a b) := of_checks _
theorem digest a : Statement (.digest a) := of_checks _
theorem match_ a : Statement (.match_ a) := of_checks _
theorem recordsRequest a : Statement (.recordsRequest a) := of_checks _
theorem records a : Statement (.records a) := of_checks _
theorem chainRequest a : Statement (.chainRequest a) := of_checks _
theorem chain a : Statement (.chain a) := of_checks _
theorem freeze a : Statement (.freeze a) := of_checks _
theorem forward a : Statement (.forward a) := of_checks _
theorem lockstepTimeout a : Statement (.lockstepTimeout a) := of_checks _
theorem clapperPinAssert : Statement (.clapperPinAssert) := of_checks _
theorem clapperPinDeassert : Statement (.clapperPinDeassert) := of_checks _
theorem clapperAtReached : Statement (.clapperAtReached) := of_checks _
theorem dailiesPeriod : Statement (.dailiesPeriod) := of_checks _
theorem logbookWrite : Statement (.logbookWrite) := of_checks _
theorem powerOnReset a : Statement (.powerOnReset a) := of_checks _
theorem pwrgdFall : Statement (.pwrgdFall) := of_checks _
theorem supplySample a : Statement (.supplySample a) := of_checks _
theorem warmReset : Statement (.warmReset) := of_checks _
theorem serviceButton a : Statement (.serviceButton a) := of_checks _
theorem pcieFundamentalReset : Statement (.pcieFundamentalReset) := of_checks _
theorem perstDeassert : Statement (.perstDeassert) := of_checks _
theorem bootStageEnd a b c : Statement (.bootStageEnd a b c) := of_checks _
theorem bootWatchdog : Statement (.bootWatchdog) := of_checks _
theorem powerCapSample a b : Statement (.powerCapSample a b) := of_checks _
theorem thermalThreshold a b : Statement (.thermalThreshold a b) := of_checks _
theorem thermalStep a b : Statement (.thermalStep a b) := of_checks _
theorem avsAdjust a b : Statement (.avsAdjust a b) := of_checks _
theorem domainSwitchGateEnd a : Statement (.domainSwitchGateEnd a) := of_checks _
theorem droopStretch a b : Statement (.droopStretch a b) := of_checks _
theorem droopRecover a : Statement (.droopRecover a) := of_checks _
theorem i3cRequest a b : Statement (.i3cRequest a b) := of_checks _
theorem pldmWarmReset : Statement (.pldmWarmReset) := of_checks _
theorem pldmLocateLed a : Statement (.pldmLocateLed a) := of_checks _
theorem safeRemoval a : Statement (.safeRemoval a) := of_checks _
theorem crystalFailure : Statement (.crystalFailure) := of_checks _
theorem visibilityReadComplete a : Statement (.visibilityReadComplete a) := of_checks _

end Sys2Proof.Laws.Wf
end

