-- ==== Sys2Proof/Laws/State.lean ====
section
/-! SUPPORT. What each shared update of the state leaves alone, one lemma for each field, so that no proof unfolds a record update. -/

namespace Sys2Proof.Machine

section
variable (s : State)

/-! `emit` -/

@[simp] theorem emit_pending (o : Output) : (emit o s).pending = s.pending := rfl
@[simp] theorem emit_tb (o : Output) : (emit o s).tb = s.tb := rfl
@[simp] theorem emit_freeTick (o : Output) : (emit o s).freeTick = s.freeTick := rfl
@[simp] theorem emit_fields (o : Output) : (emit o s).fields = s.fields := rfl
@[simp] theorem emit_gone (o : Output) : (emit o s).gone = s.gone := rfl
@[simp] theorem emit_ken (o : Output) : (emit o s).ken = s.ken := rfl
@[simp] theorem emit_cat (o : Output) : (emit o s).cat = s.cat := rfl
@[simp] theorem emit_pipes (o : Output) : (emit o s).pipes = s.pipes := rfl
@[simp] theorem emit_slots (o : Output) : (emit o s).slots = s.slots := rfl
@[simp] theorem emit_eng (o : Output) : (emit o s).eng = s.eng := rfl
@[simp] theorem emit_mem (o : Output) : (emit o s).mem = s.mem := rfl
@[simp] theorem emit_pool (o : Output) : (emit o s).pool = s.pool := rfl
@[simp] theorem emit_flash (o : Output) : (emit o s).flash = s.flash := rfl
@[simp] theorem emit_fab (o : Output) : (emit o s).fab = s.fab := rfl
@[simp] theorem emit_rdma (o : Output) : (emit o s).rdma = s.rdma := rfl
@[simp] theorem emit_shaper (o : Output) : (emit o s).shaper = s.shaper := rfl
@[simp] theorem emit_errs (o : Output) : (emit o s).errs = s.errs := rfl
@[simp] theorem emit_ftest (o : Output) : (emit o s).ftest = s.ftest := rfl
@[simp] theorem emit_lock (o : Output) : (emit o s).lock = s.lock := rfl
@[simp] theorem emit_clap (o : Output) : (emit o s).clap = s.clap := rfl
@[simp] theorem emit_obs (o : Output) : (emit o s).obs = s.obs := rfl
@[simp] theorem emit_pow (o : Output) : (emit o s).pow = s.pow := rfl

/-! `emits` -/

@[simp] theorem emits_pending (os : List Output) : (emits os s).pending = s.pending := rfl
@[simp] theorem emits_tb (os : List Output) : (emits os s).tb = s.tb := rfl
@[simp] theorem emits_freeTick (os : List Output) : (emits os s).freeTick = s.freeTick := rfl
@[simp] theorem emits_fields (os : List Output) : (emits os s).fields = s.fields := rfl
@[simp] theorem emits_gone (os : List Output) : (emits os s).gone = s.gone := rfl
@[simp] theorem emits_ken (os : List Output) : (emits os s).ken = s.ken := rfl
@[simp] theorem emits_cat (os : List Output) : (emits os s).cat = s.cat := rfl
@[simp] theorem emits_pipes (os : List Output) : (emits os s).pipes = s.pipes := rfl
@[simp] theorem emits_slots (os : List Output) : (emits os s).slots = s.slots := rfl
@[simp] theorem emits_eng (os : List Output) : (emits os s).eng = s.eng := rfl
@[simp] theorem emits_mem (os : List Output) : (emits os s).mem = s.mem := rfl
@[simp] theorem emits_pool (os : List Output) : (emits os s).pool = s.pool := rfl
@[simp] theorem emits_flash (os : List Output) : (emits os s).flash = s.flash := rfl
@[simp] theorem emits_fab (os : List Output) : (emits os s).fab = s.fab := rfl
@[simp] theorem emits_rdma (os : List Output) : (emits os s).rdma = s.rdma := rfl
@[simp] theorem emits_shaper (os : List Output) : (emits os s).shaper = s.shaper := rfl
@[simp] theorem emits_errs (os : List Output) : (emits os s).errs = s.errs := rfl
@[simp] theorem emits_ftest (os : List Output) : (emits os s).ftest = s.ftest := rfl
@[simp] theorem emits_lock (os : List Output) : (emits os s).lock = s.lock := rfl
@[simp] theorem emits_clap (os : List Output) : (emits os s).clap = s.clap := rfl
@[simp] theorem emits_obs (os : List Output) : (emits os s).obs = s.obs := rfl
@[simp] theorem emits_pow (os : List Output) : (emits os s).pow = s.pow := rfl

/-! `tickFree` -/

@[simp] theorem tickFree_pending : (tickFree s).pending = s.pending := rfl
@[simp] theorem tickFree_tb : (tickFree s).tb = s.tb := rfl
@[simp] theorem tickFree_out : (tickFree s).out = s.out := rfl
@[simp] theorem tickFree_fields : (tickFree s).fields = s.fields := rfl
@[simp] theorem tickFree_gone : (tickFree s).gone = s.gone := rfl
@[simp] theorem tickFree_ken : (tickFree s).ken = s.ken := rfl
@[simp] theorem tickFree_cat : (tickFree s).cat = s.cat := rfl
@[simp] theorem tickFree_pipes : (tickFree s).pipes = s.pipes := rfl
@[simp] theorem tickFree_slots : (tickFree s).slots = s.slots := rfl
@[simp] theorem tickFree_eng : (tickFree s).eng = s.eng := rfl
@[simp] theorem tickFree_mem : (tickFree s).mem = s.mem := rfl
@[simp] theorem tickFree_pool : (tickFree s).pool = s.pool := rfl
@[simp] theorem tickFree_flash : (tickFree s).flash = s.flash := rfl
@[simp] theorem tickFree_fab : (tickFree s).fab = s.fab := rfl
@[simp] theorem tickFree_rdma : (tickFree s).rdma = s.rdma := rfl
@[simp] theorem tickFree_shaper : (tickFree s).shaper = s.shaper := rfl
@[simp] theorem tickFree_errs : (tickFree s).errs = s.errs := rfl
@[simp] theorem tickFree_ftest : (tickFree s).ftest = s.ftest := rfl
@[simp] theorem tickFree_lock : (tickFree s).lock = s.lock := rfl
@[simp] theorem tickFree_clap : (tickFree s).clap = s.clap := rfl
@[simp] theorem tickFree_obs : (tickFree s).obs = s.obs := rfl
@[simp] theorem tickFree_pow : (tickFree s).pow = s.pow := rfl

/-! `setRaw` -/

@[simp] theorem setRaw_pending (b i n v : Nat) : (setRaw b i n v s).pending = s.pending := rfl
@[simp] theorem setRaw_tb (b i n v : Nat) : (setRaw b i n v s).tb = s.tb := rfl
@[simp] theorem setRaw_freeTick (b i n v : Nat) : (setRaw b i n v s).freeTick = s.freeTick := rfl
@[simp] theorem setRaw_out (b i n v : Nat) : (setRaw b i n v s).out = s.out := rfl
@[simp] theorem setRaw_gone (b i n v : Nat) : (setRaw b i n v s).gone = s.gone := rfl
@[simp] theorem setRaw_ken (b i n v : Nat) : (setRaw b i n v s).ken = s.ken := rfl
@[simp] theorem setRaw_cat (b i n v : Nat) : (setRaw b i n v s).cat = s.cat := rfl
@[simp] theorem setRaw_pipes (b i n v : Nat) : (setRaw b i n v s).pipes = s.pipes := rfl
@[simp] theorem setRaw_slots (b i n v : Nat) : (setRaw b i n v s).slots = s.slots := rfl
@[simp] theorem setRaw_eng (b i n v : Nat) : (setRaw b i n v s).eng = s.eng := rfl
@[simp] theorem setRaw_mem (b i n v : Nat) : (setRaw b i n v s).mem = s.mem := rfl
@[simp] theorem setRaw_pool (b i n v : Nat) : (setRaw b i n v s).pool = s.pool := rfl
@[simp] theorem setRaw_flash (b i n v : Nat) : (setRaw b i n v s).flash = s.flash := rfl
@[simp] theorem setRaw_fab (b i n v : Nat) : (setRaw b i n v s).fab = s.fab := rfl
@[simp] theorem setRaw_rdma (b i n v : Nat) : (setRaw b i n v s).rdma = s.rdma := rfl
@[simp] theorem setRaw_shaper (b i n v : Nat) : (setRaw b i n v s).shaper = s.shaper := rfl
@[simp] theorem setRaw_errs (b i n v : Nat) : (setRaw b i n v s).errs = s.errs := rfl
@[simp] theorem setRaw_ftest (b i n v : Nat) : (setRaw b i n v s).ftest = s.ftest := rfl
@[simp] theorem setRaw_lock (b i n v : Nat) : (setRaw b i n v s).lock = s.lock := rfl
@[simp] theorem setRaw_clap (b i n v : Nat) : (setRaw b i n v s).clap = s.clap := rfl
@[simp] theorem setRaw_obs (b i n v : Nat) : (setRaw b i n v s).obs = s.obs := rfl
@[simp] theorem setRaw_pow (b i n v : Nat) : (setRaw b i n v s).pow = s.pow := rfl

/-! `bumpBy` -/

@[simp] theorem bumpBy_pending (b i n v : Nat) : (bumpBy b i n v s).pending = s.pending := rfl
@[simp] theorem bumpBy_tb (b i n v : Nat) : (bumpBy b i n v s).tb = s.tb := rfl
@[simp] theorem bumpBy_freeTick (b i n v : Nat) : (bumpBy b i n v s).freeTick = s.freeTick := rfl
@[simp] theorem bumpBy_out (b i n v : Nat) : (bumpBy b i n v s).out = s.out := rfl
@[simp] theorem bumpBy_gone (b i n v : Nat) : (bumpBy b i n v s).gone = s.gone := rfl
@[simp] theorem bumpBy_ken (b i n v : Nat) : (bumpBy b i n v s).ken = s.ken := rfl
@[simp] theorem bumpBy_cat (b i n v : Nat) : (bumpBy b i n v s).cat = s.cat := rfl
@[simp] theorem bumpBy_pipes (b i n v : Nat) : (bumpBy b i n v s).pipes = s.pipes := rfl
@[simp] theorem bumpBy_slots (b i n v : Nat) : (bumpBy b i n v s).slots = s.slots := rfl
@[simp] theorem bumpBy_eng (b i n v : Nat) : (bumpBy b i n v s).eng = s.eng := rfl
@[simp] theorem bumpBy_mem (b i n v : Nat) : (bumpBy b i n v s).mem = s.mem := rfl
@[simp] theorem bumpBy_pool (b i n v : Nat) : (bumpBy b i n v s).pool = s.pool := rfl
@[simp] theorem bumpBy_flash (b i n v : Nat) : (bumpBy b i n v s).flash = s.flash := rfl
@[simp] theorem bumpBy_fab (b i n v : Nat) : (bumpBy b i n v s).fab = s.fab := rfl
@[simp] theorem bumpBy_rdma (b i n v : Nat) : (bumpBy b i n v s).rdma = s.rdma := rfl
@[simp] theorem bumpBy_shaper (b i n v : Nat) : (bumpBy b i n v s).shaper = s.shaper := rfl
@[simp] theorem bumpBy_errs (b i n v : Nat) : (bumpBy b i n v s).errs = s.errs := rfl
@[simp] theorem bumpBy_ftest (b i n v : Nat) : (bumpBy b i n v s).ftest = s.ftest := rfl
@[simp] theorem bumpBy_lock (b i n v : Nat) : (bumpBy b i n v s).lock = s.lock := rfl
@[simp] theorem bumpBy_clap (b i n v : Nat) : (bumpBy b i n v s).clap = s.clap := rfl
@[simp] theorem bumpBy_obs (b i n v : Nat) : (bumpBy b i n v s).obs = s.obs := rfl
@[simp] theorem bumpBy_pow (b i n v : Nat) : (bumpBy b i n v s).pow = s.pow := rfl

/-! `bump` -/

@[simp] theorem bump_pending (b i n : Nat) : (bump b i n s).pending = s.pending := rfl
@[simp] theorem bump_tb (b i n : Nat) : (bump b i n s).tb = s.tb := rfl
@[simp] theorem bump_freeTick (b i n : Nat) : (bump b i n s).freeTick = s.freeTick := rfl
@[simp] theorem bump_out (b i n : Nat) : (bump b i n s).out = s.out := rfl
@[simp] theorem bump_gone (b i n : Nat) : (bump b i n s).gone = s.gone := rfl
@[simp] theorem bump_ken (b i n : Nat) : (bump b i n s).ken = s.ken := rfl
@[simp] theorem bump_cat (b i n : Nat) : (bump b i n s).cat = s.cat := rfl
@[simp] theorem bump_pipes (b i n : Nat) : (bump b i n s).pipes = s.pipes := rfl
@[simp] theorem bump_slots (b i n : Nat) : (bump b i n s).slots = s.slots := rfl
@[simp] theorem bump_eng (b i n : Nat) : (bump b i n s).eng = s.eng := rfl
@[simp] theorem bump_mem (b i n : Nat) : (bump b i n s).mem = s.mem := rfl
@[simp] theorem bump_pool (b i n : Nat) : (bump b i n s).pool = s.pool := rfl
@[simp] theorem bump_flash (b i n : Nat) : (bump b i n s).flash = s.flash := rfl
@[simp] theorem bump_fab (b i n : Nat) : (bump b i n s).fab = s.fab := rfl
@[simp] theorem bump_rdma (b i n : Nat) : (bump b i n s).rdma = s.rdma := rfl
@[simp] theorem bump_shaper (b i n : Nat) : (bump b i n s).shaper = s.shaper := rfl
@[simp] theorem bump_errs (b i n : Nat) : (bump b i n s).errs = s.errs := rfl
@[simp] theorem bump_ftest (b i n : Nat) : (bump b i n s).ftest = s.ftest := rfl
@[simp] theorem bump_lock (b i n : Nat) : (bump b i n s).lock = s.lock := rfl
@[simp] theorem bump_clap (b i n : Nat) : (bump b i n s).clap = s.clap := rfl
@[simp] theorem bump_obs (b i n : Nat) : (bump b i n s).obs = s.obs := rfl
@[simp] theorem bump_pow (b i n : Nat) : (bump b i n s).pow = s.pow := rfl

/-! `modCmds` -/

@[simp] theorem modCmds_pending (p : Cmd → Bool) (f : Cmd → Cmd) : (modCmds p f s).pending = s.pending := rfl
@[simp] theorem modCmds_tb (p : Cmd → Bool) (f : Cmd → Cmd) : (modCmds p f s).tb = s.tb := rfl
@[simp] theorem modCmds_freeTick (p : Cmd → Bool) (f : Cmd → Cmd) : (modCmds p f s).freeTick = s.freeTick := rfl
@[simp] theorem modCmds_out (p : Cmd → Bool) (f : Cmd → Cmd) : (modCmds p f s).out = s.out := rfl
@[simp] theorem modCmds_fields (p : Cmd → Bool) (f : Cmd → Cmd) : (modCmds p f s).fields = s.fields := rfl
@[simp] theorem modCmds_gone (p : Cmd → Bool) (f : Cmd → Cmd) : (modCmds p f s).gone = s.gone := rfl
@[simp] theorem modCmds_cat (p : Cmd → Bool) (f : Cmd → Cmd) : (modCmds p f s).cat = s.cat := rfl
@[simp] theorem modCmds_pipes (p : Cmd → Bool) (f : Cmd → Cmd) : (modCmds p f s).pipes = s.pipes := rfl
@[simp] theorem modCmds_slots (p : Cmd → Bool) (f : Cmd → Cmd) : (modCmds p f s).slots = s.slots := rfl
@[simp] theorem modCmds_eng (p : Cmd → Bool) (f : Cmd → Cmd) : (modCmds p f s).eng = s.eng := rfl
@[simp] theorem modCmds_mem (p : Cmd → Bool) (f : Cmd → Cmd) : (modCmds p f s).mem = s.mem := rfl
@[simp] theorem modCmds_pool (p : Cmd → Bool) (f : Cmd → Cmd) : (modCmds p f s).pool = s.pool := rfl
@[simp] theorem modCmds_flash (p : Cmd → Bool) (f : Cmd → Cmd) : (modCmds p f s).flash = s.flash := rfl
@[simp] theorem modCmds_fab (p : Cmd → Bool) (f : Cmd → Cmd) : (modCmds p f s).fab = s.fab := rfl
@[simp] theorem modCmds_rdma (p : Cmd → Bool) (f : Cmd → Cmd) : (modCmds p f s).rdma = s.rdma := rfl
@[simp] theorem modCmds_shaper (p : Cmd → Bool) (f : Cmd → Cmd) : (modCmds p f s).shaper = s.shaper := rfl
@[simp] theorem modCmds_errs (p : Cmd → Bool) (f : Cmd → Cmd) : (modCmds p f s).errs = s.errs := rfl
@[simp] theorem modCmds_ftest (p : Cmd → Bool) (f : Cmd → Cmd) : (modCmds p f s).ftest = s.ftest := rfl
@[simp] theorem modCmds_lock (p : Cmd → Bool) (f : Cmd → Cmd) : (modCmds p f s).lock = s.lock := rfl
@[simp] theorem modCmds_clap (p : Cmd → Bool) (f : Cmd → Cmd) : (modCmds p f s).clap = s.clap := rfl
@[simp] theorem modCmds_obs (p : Cmd → Bool) (f : Cmd → Cmd) : (modCmds p f s).obs = s.obs := rfl
@[simp] theorem modCmds_pow (p : Cmd → Bool) (f : Cmd → Cmd) : (modCmds p f s).pow = s.pow := rfl
@[simp] theorem modCmds_ken_bifMode (p : Cmd → Bool) (f : Cmd → Cmd) : (modCmds p f s).ken.bifMode = s.ken.bifMode := rfl
@[simp] theorem modCmds_ken_en (p : Cmd → Bool) (f : Cmd → Cmd) : (modCmds p f s).ken.en = s.ken.en := rfl
@[simp] theorem modCmds_ken_rdy (p : Cmd → Bool) (f : Cmd → Cmd) : (modCmds p f s).ken.rdy = s.ken.rdy := rfl
@[simp] theorem modCmds_ken_booted (p : Cmd → Bool) (f : Cmd → Cmd) : (modCmds p f s).ken.booted = s.ken.booted := rfl
@[simp] theorem modCmds_ken_bootStage (p : Cmd → Bool) (f : Cmd → Cmd) : (modCmds p f s).ken.bootStage = s.ken.bootStage := rfl
@[simp] theorem modCmds_ken_haltCause (p : Cmd → Bool) (f : Cmd → Cmd) : (modCmds p f s).ken.haltCause = s.ken.haltCause := rfl
@[simp] theorem modCmds_ken_fatal (p : Cmd → Bool) (f : Cmd → Cmd) : (modCmds p f s).ken.fatal = s.ken.fatal := rfl
@[simp] theorem modCmds_ken_frozen (p : Cmd → Bool) (f : Cmd → Cmd) : (modCmds p f s).ken.frozen = s.ken.frozen := rfl
@[simp] theorem modCmds_ken_admSqLog2 (p : Cmd → Bool) (f : Cmd → Cmd) : (modCmds p f s).ken.admSqLog2 = s.ken.admSqLog2 := rfl
@[simp] theorem modCmds_ken_admCqLog2 (p : Cmd → Bool) (f : Cmd → Cmd) : (modCmds p f s).ken.admCqLog2 = s.ken.admCqLog2 := rfl
@[simp] theorem modCmds_ken_admSqBase (p : Cmd → Bool) (f : Cmd → Cmd) : (modCmds p f s).ken.admSqBase = s.ken.admSqBase := rfl
@[simp] theorem modCmds_ken_admCqBase (p : Cmd → Bool) (f : Cmd → Cmd) : (modCmds p f s).ken.admCqBase = s.ken.admCqBase := rfl
@[simp] theorem modCmds_ken_evStatus (p : Cmd → Bool) (f : Cmd → Cmd) : (modCmds p f s).ken.evStatus = s.ken.evStatus := rfl
@[simp] theorem modCmds_ken_evMask (p : Cmd → Bool) (f : Cmd → Cmd) : (modCmds p f s).ken.evMask = s.ken.evMask := rfl
@[simp] theorem modCmds_ken_refusal (p : Cmd → Bool) (f : Cmd → Cmd) : (modCmds p f s).ken.refusal = s.ken.refusal := rfl
@[simp] theorem modCmds_ken_ringError (p : Cmd → Bool) (f : Cmd → Cmd) : (modCmds p f s).ken.ringError = s.ken.ringError := rfl
@[simp] theorem modCmds_ken_fatalInfo (p : Cmd → Bool) (f : Cmd → Cmd) : (modCmds p f s).ken.fatalInfo = s.ken.fatalInfo := rfl
@[simp] theorem modCmds_ken_tbLatch (p : Cmd → Bool) (f : Cmd → Cmd) : (modCmds p f s).ken.tbLatch = s.ken.tbLatch := rfl
@[simp] theorem modCmds_ken_msixTable (p : Cmd → Bool) (f : Cmd → Cmd) : (modCmds p f s).ken.msixTable = s.ken.msixTable := rfl
@[simp] theorem modCmds_ken_msixPba (p : Cmd → Bool) (f : Cmd → Cmd) : (modCmds p f s).ken.msixPba = s.ken.msixPba := rfl
@[simp] theorem modCmds_ken_rings (p : Cmd → Bool) (f : Cmd → Cmd) : (modCmds p f s).ken.rings = s.ken.rings := rfl
@[simp] theorem modCmds_ken_nextOrd (p : Cmd → Bool) (f : Cmd → Cmd) : (modCmds p f s).ken.nextOrd = s.ken.nextOrd := rfl
@[simp] theorem modCmds_ken_longOps (p : Cmd → Bool) (f : Cmd → Cmd) : (modCmds p f s).ken.longOps = s.ken.longOps := rfl
@[simp] theorem modCmds_ken_nextHandle (p : Cmd → Bool) (f : Cmd → Cmd) : (modCmds p f s).ken.nextHandle = s.ken.nextHandle := rfl
@[simp] theorem modCmds_ken_events (p : Cmd → Bool) (f : Cmd → Cmd) : (modCmds p f s).ken.events = s.ken.events := rfl

/-! `finishWith` -/

@[simp] theorem finishWith_pending (pair cid st r h : Nat) : (finishWith pair cid st r h s).pending = s.pending := rfl
@[simp] theorem finishWith_tb (pair cid st r h : Nat) : (finishWith pair cid st r h s).tb = s.tb := rfl
@[simp] theorem finishWith_freeTick (pair cid st r h : Nat) : (finishWith pair cid st r h s).freeTick = s.freeTick := rfl
@[simp] theorem finishWith_out (pair cid st r h : Nat) : (finishWith pair cid st r h s).out = s.out := rfl
@[simp] theorem finishWith_fields (pair cid st r h : Nat) : (finishWith pair cid st r h s).fields = s.fields := rfl
@[simp] theorem finishWith_gone (pair cid st r h : Nat) : (finishWith pair cid st r h s).gone = s.gone := rfl
@[simp] theorem finishWith_cat (pair cid st r h : Nat) : (finishWith pair cid st r h s).cat = s.cat := rfl
@[simp] theorem finishWith_pipes (pair cid st r h : Nat) : (finishWith pair cid st r h s).pipes = s.pipes := rfl
@[simp] theorem finishWith_slots (pair cid st r h : Nat) : (finishWith pair cid st r h s).slots = s.slots := rfl
@[simp] theorem finishWith_eng (pair cid st r h : Nat) : (finishWith pair cid st r h s).eng = s.eng := rfl
@[simp] theorem finishWith_mem (pair cid st r h : Nat) : (finishWith pair cid st r h s).mem = s.mem := rfl
@[simp] theorem finishWith_pool (pair cid st r h : Nat) : (finishWith pair cid st r h s).pool = s.pool := rfl
@[simp] theorem finishWith_flash (pair cid st r h : Nat) : (finishWith pair cid st r h s).flash = s.flash := rfl
@[simp] theorem finishWith_fab (pair cid st r h : Nat) : (finishWith pair cid st r h s).fab = s.fab := rfl
@[simp] theorem finishWith_rdma (pair cid st r h : Nat) : (finishWith pair cid st r h s).rdma = s.rdma := rfl
@[simp] theorem finishWith_shaper (pair cid st r h : Nat) : (finishWith pair cid st r h s).shaper = s.shaper := rfl
@[simp] theorem finishWith_errs (pair cid st r h : Nat) : (finishWith pair cid st r h s).errs = s.errs := rfl
@[simp] theorem finishWith_ftest (pair cid st r h : Nat) : (finishWith pair cid st r h s).ftest = s.ftest := rfl
@[simp] theorem finishWith_lock (pair cid st r h : Nat) : (finishWith pair cid st r h s).lock = s.lock := rfl
@[simp] theorem finishWith_clap (pair cid st r h : Nat) : (finishWith pair cid st r h s).clap = s.clap := rfl
@[simp] theorem finishWith_obs (pair cid st r h : Nat) : (finishWith pair cid st r h s).obs = s.obs := rfl
@[simp] theorem finishWith_pow (pair cid st r h : Nat) : (finishWith pair cid st r h s).pow = s.pow := rfl
@[simp] theorem finishWith_ken_bifMode (pair cid st r h : Nat) : (finishWith pair cid st r h s).ken.bifMode = s.ken.bifMode := rfl
@[simp] theorem finishWith_ken_en (pair cid st r h : Nat) : (finishWith pair cid st r h s).ken.en = s.ken.en := rfl
@[simp] theorem finishWith_ken_rdy (pair cid st r h : Nat) : (finishWith pair cid st r h s).ken.rdy = s.ken.rdy := rfl
@[simp] theorem finishWith_ken_booted (pair cid st r h : Nat) : (finishWith pair cid st r h s).ken.booted = s.ken.booted := rfl
@[simp] theorem finishWith_ken_bootStage (pair cid st r h : Nat) : (finishWith pair cid st r h s).ken.bootStage = s.ken.bootStage := rfl
@[simp] theorem finishWith_ken_haltCause (pair cid st r h : Nat) : (finishWith pair cid st r h s).ken.haltCause = s.ken.haltCause := rfl
@[simp] theorem finishWith_ken_fatal (pair cid st r h : Nat) : (finishWith pair cid st r h s).ken.fatal = s.ken.fatal := rfl
@[simp] theorem finishWith_ken_frozen (pair cid st r h : Nat) : (finishWith pair cid st r h s).ken.frozen = s.ken.frozen := rfl
@[simp] theorem finishWith_ken_admSqLog2 (pair cid st r h : Nat) : (finishWith pair cid st r h s).ken.admSqLog2 = s.ken.admSqLog2 := rfl
@[simp] theorem finishWith_ken_admCqLog2 (pair cid st r h : Nat) : (finishWith pair cid st r h s).ken.admCqLog2 = s.ken.admCqLog2 := rfl
@[simp] theorem finishWith_ken_admSqBase (pair cid st r h : Nat) : (finishWith pair cid st r h s).ken.admSqBase = s.ken.admSqBase := rfl
@[simp] theorem finishWith_ken_admCqBase (pair cid st r h : Nat) : (finishWith pair cid st r h s).ken.admCqBase = s.ken.admCqBase := rfl
@[simp] theorem finishWith_ken_evStatus (pair cid st r h : Nat) : (finishWith pair cid st r h s).ken.evStatus = s.ken.evStatus := rfl
@[simp] theorem finishWith_ken_evMask (pair cid st r h : Nat) : (finishWith pair cid st r h s).ken.evMask = s.ken.evMask := rfl
@[simp] theorem finishWith_ken_refusal (pair cid st r h : Nat) : (finishWith pair cid st r h s).ken.refusal = s.ken.refusal := rfl
@[simp] theorem finishWith_ken_ringError (pair cid st r h : Nat) : (finishWith pair cid st r h s).ken.ringError = s.ken.ringError := rfl
@[simp] theorem finishWith_ken_fatalInfo (pair cid st r h : Nat) : (finishWith pair cid st r h s).ken.fatalInfo = s.ken.fatalInfo := rfl
@[simp] theorem finishWith_ken_tbLatch (pair cid st r h : Nat) : (finishWith pair cid st r h s).ken.tbLatch = s.ken.tbLatch := rfl
@[simp] theorem finishWith_ken_msixTable (pair cid st r h : Nat) : (finishWith pair cid st r h s).ken.msixTable = s.ken.msixTable := rfl
@[simp] theorem finishWith_ken_msixPba (pair cid st r h : Nat) : (finishWith pair cid st r h s).ken.msixPba = s.ken.msixPba := rfl
@[simp] theorem finishWith_ken_rings (pair cid st r h : Nat) : (finishWith pair cid st r h s).ken.rings = s.ken.rings := rfl
@[simp] theorem finishWith_ken_nextOrd (pair cid st r h : Nat) : (finishWith pair cid st r h s).ken.nextOrd = s.ken.nextOrd := rfl
@[simp] theorem finishWith_ken_longOps (pair cid st r h : Nat) : (finishWith pair cid st r h s).ken.longOps = s.ken.longOps := rfl
@[simp] theorem finishWith_ken_nextHandle (pair cid st r h : Nat) : (finishWith pair cid st r h s).ken.nextHandle = s.ken.nextHandle := rfl
@[simp] theorem finishWith_ken_events (pair cid st r h : Nat) : (finishWith pair cid st r h s).ken.events = s.ken.events := rfl

/-! `finish` -/

@[simp] theorem finish_pending (pair cid st r : Nat) : (finish pair cid st r s).pending = s.pending := rfl
@[simp] theorem finish_tb (pair cid st r : Nat) : (finish pair cid st r s).tb = s.tb := rfl
@[simp] theorem finish_freeTick (pair cid st r : Nat) : (finish pair cid st r s).freeTick = s.freeTick := rfl
@[simp] theorem finish_out (pair cid st r : Nat) : (finish pair cid st r s).out = s.out := rfl
@[simp] theorem finish_fields (pair cid st r : Nat) : (finish pair cid st r s).fields = s.fields := rfl
@[simp] theorem finish_gone (pair cid st r : Nat) : (finish pair cid st r s).gone = s.gone := rfl
@[simp] theorem finish_cat (pair cid st r : Nat) : (finish pair cid st r s).cat = s.cat := rfl
@[simp] theorem finish_pipes (pair cid st r : Nat) : (finish pair cid st r s).pipes = s.pipes := rfl
@[simp] theorem finish_slots (pair cid st r : Nat) : (finish pair cid st r s).slots = s.slots := rfl
@[simp] theorem finish_eng (pair cid st r : Nat) : (finish pair cid st r s).eng = s.eng := rfl
@[simp] theorem finish_mem (pair cid st r : Nat) : (finish pair cid st r s).mem = s.mem := rfl
@[simp] theorem finish_pool (pair cid st r : Nat) : (finish pair cid st r s).pool = s.pool := rfl
@[simp] theorem finish_flash (pair cid st r : Nat) : (finish pair cid st r s).flash = s.flash := rfl
@[simp] theorem finish_fab (pair cid st r : Nat) : (finish pair cid st r s).fab = s.fab := rfl
@[simp] theorem finish_rdma (pair cid st r : Nat) : (finish pair cid st r s).rdma = s.rdma := rfl
@[simp] theorem finish_shaper (pair cid st r : Nat) : (finish pair cid st r s).shaper = s.shaper := rfl
@[simp] theorem finish_errs (pair cid st r : Nat) : (finish pair cid st r s).errs = s.errs := rfl
@[simp] theorem finish_ftest (pair cid st r : Nat) : (finish pair cid st r s).ftest = s.ftest := rfl
@[simp] theorem finish_lock (pair cid st r : Nat) : (finish pair cid st r s).lock = s.lock := rfl
@[simp] theorem finish_clap (pair cid st r : Nat) : (finish pair cid st r s).clap = s.clap := rfl
@[simp] theorem finish_obs (pair cid st r : Nat) : (finish pair cid st r s).obs = s.obs := rfl
@[simp] theorem finish_pow (pair cid st r : Nat) : (finish pair cid st r s).pow = s.pow := rfl
@[simp] theorem finish_ken_bifMode (pair cid st r : Nat) : (finish pair cid st r s).ken.bifMode = s.ken.bifMode := rfl
@[simp] theorem finish_ken_en (pair cid st r : Nat) : (finish pair cid st r s).ken.en = s.ken.en := rfl
@[simp] theorem finish_ken_rdy (pair cid st r : Nat) : (finish pair cid st r s).ken.rdy = s.ken.rdy := rfl
@[simp] theorem finish_ken_booted (pair cid st r : Nat) : (finish pair cid st r s).ken.booted = s.ken.booted := rfl
@[simp] theorem finish_ken_bootStage (pair cid st r : Nat) : (finish pair cid st r s).ken.bootStage = s.ken.bootStage := rfl
@[simp] theorem finish_ken_haltCause (pair cid st r : Nat) : (finish pair cid st r s).ken.haltCause = s.ken.haltCause := rfl
@[simp] theorem finish_ken_fatal (pair cid st r : Nat) : (finish pair cid st r s).ken.fatal = s.ken.fatal := rfl
@[simp] theorem finish_ken_frozen (pair cid st r : Nat) : (finish pair cid st r s).ken.frozen = s.ken.frozen := rfl
@[simp] theorem finish_ken_admSqLog2 (pair cid st r : Nat) : (finish pair cid st r s).ken.admSqLog2 = s.ken.admSqLog2 := rfl
@[simp] theorem finish_ken_admCqLog2 (pair cid st r : Nat) : (finish pair cid st r s).ken.admCqLog2 = s.ken.admCqLog2 := rfl
@[simp] theorem finish_ken_admSqBase (pair cid st r : Nat) : (finish pair cid st r s).ken.admSqBase = s.ken.admSqBase := rfl
@[simp] theorem finish_ken_admCqBase (pair cid st r : Nat) : (finish pair cid st r s).ken.admCqBase = s.ken.admCqBase := rfl
@[simp] theorem finish_ken_evStatus (pair cid st r : Nat) : (finish pair cid st r s).ken.evStatus = s.ken.evStatus := rfl
@[simp] theorem finish_ken_evMask (pair cid st r : Nat) : (finish pair cid st r s).ken.evMask = s.ken.evMask := rfl
@[simp] theorem finish_ken_refusal (pair cid st r : Nat) : (finish pair cid st r s).ken.refusal = s.ken.refusal := rfl
@[simp] theorem finish_ken_ringError (pair cid st r : Nat) : (finish pair cid st r s).ken.ringError = s.ken.ringError := rfl
@[simp] theorem finish_ken_fatalInfo (pair cid st r : Nat) : (finish pair cid st r s).ken.fatalInfo = s.ken.fatalInfo := rfl
@[simp] theorem finish_ken_tbLatch (pair cid st r : Nat) : (finish pair cid st r s).ken.tbLatch = s.ken.tbLatch := rfl
@[simp] theorem finish_ken_msixTable (pair cid st r : Nat) : (finish pair cid st r s).ken.msixTable = s.ken.msixTable := rfl
@[simp] theorem finish_ken_msixPba (pair cid st r : Nat) : (finish pair cid st r s).ken.msixPba = s.ken.msixPba := rfl
@[simp] theorem finish_ken_rings (pair cid st r : Nat) : (finish pair cid st r s).ken.rings = s.ken.rings := rfl
@[simp] theorem finish_ken_nextOrd (pair cid st r : Nat) : (finish pair cid st r s).ken.nextOrd = s.ken.nextOrd := rfl
@[simp] theorem finish_ken_longOps (pair cid st r : Nat) : (finish pair cid st r s).ken.longOps = s.ken.longOps := rfl
@[simp] theorem finish_ken_nextHandle (pair cid st r : Nat) : (finish pair cid st r s).ken.nextHandle = s.ken.nextHandle := rfl
@[simp] theorem finish_ken_events (pair cid st r : Nat) : (finish pair cid st r s).ken.events = s.ken.events := rfl

/-! `finishPlain` -/

@[simp] theorem finishPlain_pending (pair cid st : Nat) : (finishPlain pair cid st s).pending = s.pending := rfl
@[simp] theorem finishPlain_tb (pair cid st : Nat) : (finishPlain pair cid st s).tb = s.tb := rfl
@[simp] theorem finishPlain_freeTick (pair cid st : Nat) : (finishPlain pair cid st s).freeTick = s.freeTick := rfl
@[simp] theorem finishPlain_out (pair cid st : Nat) : (finishPlain pair cid st s).out = s.out := rfl
@[simp] theorem finishPlain_fields (pair cid st : Nat) : (finishPlain pair cid st s).fields = s.fields := rfl
@[simp] theorem finishPlain_gone (pair cid st : Nat) : (finishPlain pair cid st s).gone = s.gone := rfl
@[simp] theorem finishPlain_cat (pair cid st : Nat) : (finishPlain pair cid st s).cat = s.cat := rfl
@[simp] theorem finishPlain_pipes (pair cid st : Nat) : (finishPlain pair cid st s).pipes = s.pipes := rfl
@[simp] theorem finishPlain_slots (pair cid st : Nat) : (finishPlain pair cid st s).slots = s.slots := rfl
@[simp] theorem finishPlain_eng (pair cid st : Nat) : (finishPlain pair cid st s).eng = s.eng := rfl
@[simp] theorem finishPlain_mem (pair cid st : Nat) : (finishPlain pair cid st s).mem = s.mem := rfl
@[simp] theorem finishPlain_pool (pair cid st : Nat) : (finishPlain pair cid st s).pool = s.pool := rfl
@[simp] theorem finishPlain_flash (pair cid st : Nat) : (finishPlain pair cid st s).flash = s.flash := rfl
@[simp] theorem finishPlain_fab (pair cid st : Nat) : (finishPlain pair cid st s).fab = s.fab := rfl
@[simp] theorem finishPlain_rdma (pair cid st : Nat) : (finishPlain pair cid st s).rdma = s.rdma := rfl
@[simp] theorem finishPlain_shaper (pair cid st : Nat) : (finishPlain pair cid st s).shaper = s.shaper := rfl
@[simp] theorem finishPlain_errs (pair cid st : Nat) : (finishPlain pair cid st s).errs = s.errs := rfl
@[simp] theorem finishPlain_ftest (pair cid st : Nat) : (finishPlain pair cid st s).ftest = s.ftest := rfl
@[simp] theorem finishPlain_lock (pair cid st : Nat) : (finishPlain pair cid st s).lock = s.lock := rfl
@[simp] theorem finishPlain_clap (pair cid st : Nat) : (finishPlain pair cid st s).clap = s.clap := rfl
@[simp] theorem finishPlain_obs (pair cid st : Nat) : (finishPlain pair cid st s).obs = s.obs := rfl
@[simp] theorem finishPlain_pow (pair cid st : Nat) : (finishPlain pair cid st s).pow = s.pow := rfl
@[simp] theorem finishPlain_ken_bifMode (pair cid st : Nat) : (finishPlain pair cid st s).ken.bifMode = s.ken.bifMode := rfl
@[simp] theorem finishPlain_ken_en (pair cid st : Nat) : (finishPlain pair cid st s).ken.en = s.ken.en := rfl
@[simp] theorem finishPlain_ken_rdy (pair cid st : Nat) : (finishPlain pair cid st s).ken.rdy = s.ken.rdy := rfl
@[simp] theorem finishPlain_ken_booted (pair cid st : Nat) : (finishPlain pair cid st s).ken.booted = s.ken.booted := rfl
@[simp] theorem finishPlain_ken_bootStage (pair cid st : Nat) : (finishPlain pair cid st s).ken.bootStage = s.ken.bootStage := rfl
@[simp] theorem finishPlain_ken_haltCause (pair cid st : Nat) : (finishPlain pair cid st s).ken.haltCause = s.ken.haltCause := rfl
@[simp] theorem finishPlain_ken_fatal (pair cid st : Nat) : (finishPlain pair cid st s).ken.fatal = s.ken.fatal := rfl
@[simp] theorem finishPlain_ken_frozen (pair cid st : Nat) : (finishPlain pair cid st s).ken.frozen = s.ken.frozen := rfl
@[simp] theorem finishPlain_ken_admSqLog2 (pair cid st : Nat) : (finishPlain pair cid st s).ken.admSqLog2 = s.ken.admSqLog2 := rfl
@[simp] theorem finishPlain_ken_admCqLog2 (pair cid st : Nat) : (finishPlain pair cid st s).ken.admCqLog2 = s.ken.admCqLog2 := rfl
@[simp] theorem finishPlain_ken_admSqBase (pair cid st : Nat) : (finishPlain pair cid st s).ken.admSqBase = s.ken.admSqBase := rfl
@[simp] theorem finishPlain_ken_admCqBase (pair cid st : Nat) : (finishPlain pair cid st s).ken.admCqBase = s.ken.admCqBase := rfl
@[simp] theorem finishPlain_ken_evStatus (pair cid st : Nat) : (finishPlain pair cid st s).ken.evStatus = s.ken.evStatus := rfl
@[simp] theorem finishPlain_ken_evMask (pair cid st : Nat) : (finishPlain pair cid st s).ken.evMask = s.ken.evMask := rfl
@[simp] theorem finishPlain_ken_refusal (pair cid st : Nat) : (finishPlain pair cid st s).ken.refusal = s.ken.refusal := rfl
@[simp] theorem finishPlain_ken_ringError (pair cid st : Nat) : (finishPlain pair cid st s).ken.ringError = s.ken.ringError := rfl
@[simp] theorem finishPlain_ken_fatalInfo (pair cid st : Nat) : (finishPlain pair cid st s).ken.fatalInfo = s.ken.fatalInfo := rfl
@[simp] theorem finishPlain_ken_tbLatch (pair cid st : Nat) : (finishPlain pair cid st s).ken.tbLatch = s.ken.tbLatch := rfl
@[simp] theorem finishPlain_ken_msixTable (pair cid st : Nat) : (finishPlain pair cid st s).ken.msixTable = s.ken.msixTable := rfl
@[simp] theorem finishPlain_ken_msixPba (pair cid st : Nat) : (finishPlain pair cid st s).ken.msixPba = s.ken.msixPba := rfl
@[simp] theorem finishPlain_ken_rings (pair cid st : Nat) : (finishPlain pair cid st s).ken.rings = s.ken.rings := rfl
@[simp] theorem finishPlain_ken_nextOrd (pair cid st : Nat) : (finishPlain pair cid st s).ken.nextOrd = s.ken.nextOrd := rfl
@[simp] theorem finishPlain_ken_longOps (pair cid st : Nat) : (finishPlain pair cid st s).ken.longOps = s.ken.longOps := rfl
@[simp] theorem finishPlain_ken_nextHandle (pair cid st : Nat) : (finishPlain pair cid st s).ken.nextHandle = s.ken.nextHandle := rfl
@[simp] theorem finishPlain_ken_events (pair cid st : Nat) : (finishPlain pair cid st s).ken.events = s.ken.events := rfl

/-! `refuse` -/

@[simp] theorem refuse_pending (pair cid st : Nat) : (refuse pair cid st s).pending = s.pending := rfl
@[simp] theorem refuse_tb (pair cid st : Nat) : (refuse pair cid st s).tb = s.tb := rfl
@[simp] theorem refuse_freeTick (pair cid st : Nat) : (refuse pair cid st s).freeTick = s.freeTick := rfl
@[simp] theorem refuse_out (pair cid st : Nat) : (refuse pair cid st s).out = s.out := rfl
@[simp] theorem refuse_fields (pair cid st : Nat) : (refuse pair cid st s).fields = s.fields := rfl
@[simp] theorem refuse_gone (pair cid st : Nat) : (refuse pair cid st s).gone = s.gone := rfl
@[simp] theorem refuse_cat (pair cid st : Nat) : (refuse pair cid st s).cat = s.cat := rfl
@[simp] theorem refuse_pipes (pair cid st : Nat) : (refuse pair cid st s).pipes = s.pipes := rfl
@[simp] theorem refuse_slots (pair cid st : Nat) : (refuse pair cid st s).slots = s.slots := rfl
@[simp] theorem refuse_eng (pair cid st : Nat) : (refuse pair cid st s).eng = s.eng := rfl
@[simp] theorem refuse_mem (pair cid st : Nat) : (refuse pair cid st s).mem = s.mem := rfl
@[simp] theorem refuse_pool (pair cid st : Nat) : (refuse pair cid st s).pool = s.pool := rfl
@[simp] theorem refuse_flash (pair cid st : Nat) : (refuse pair cid st s).flash = s.flash := rfl
@[simp] theorem refuse_fab (pair cid st : Nat) : (refuse pair cid st s).fab = s.fab := rfl
@[simp] theorem refuse_rdma (pair cid st : Nat) : (refuse pair cid st s).rdma = s.rdma := rfl
@[simp] theorem refuse_shaper (pair cid st : Nat) : (refuse pair cid st s).shaper = s.shaper := rfl
@[simp] theorem refuse_errs (pair cid st : Nat) : (refuse pair cid st s).errs = s.errs := rfl
@[simp] theorem refuse_ftest (pair cid st : Nat) : (refuse pair cid st s).ftest = s.ftest := rfl
@[simp] theorem refuse_lock (pair cid st : Nat) : (refuse pair cid st s).lock = s.lock := rfl
@[simp] theorem refuse_clap (pair cid st : Nat) : (refuse pair cid st s).clap = s.clap := rfl
@[simp] theorem refuse_obs (pair cid st : Nat) : (refuse pair cid st s).obs = s.obs := rfl
@[simp] theorem refuse_pow (pair cid st : Nat) : (refuse pair cid st s).pow = s.pow := rfl
@[simp] theorem refuse_ken_bifMode (pair cid st : Nat) : (refuse pair cid st s).ken.bifMode = s.ken.bifMode := rfl
@[simp] theorem refuse_ken_en (pair cid st : Nat) : (refuse pair cid st s).ken.en = s.ken.en := rfl
@[simp] theorem refuse_ken_rdy (pair cid st : Nat) : (refuse pair cid st s).ken.rdy = s.ken.rdy := rfl
@[simp] theorem refuse_ken_booted (pair cid st : Nat) : (refuse pair cid st s).ken.booted = s.ken.booted := rfl
@[simp] theorem refuse_ken_bootStage (pair cid st : Nat) : (refuse pair cid st s).ken.bootStage = s.ken.bootStage := rfl
@[simp] theorem refuse_ken_haltCause (pair cid st : Nat) : (refuse pair cid st s).ken.haltCause = s.ken.haltCause := rfl
@[simp] theorem refuse_ken_fatal (pair cid st : Nat) : (refuse pair cid st s).ken.fatal = s.ken.fatal := rfl
@[simp] theorem refuse_ken_frozen (pair cid st : Nat) : (refuse pair cid st s).ken.frozen = s.ken.frozen := rfl
@[simp] theorem refuse_ken_admSqLog2 (pair cid st : Nat) : (refuse pair cid st s).ken.admSqLog2 = s.ken.admSqLog2 := rfl
@[simp] theorem refuse_ken_admCqLog2 (pair cid st : Nat) : (refuse pair cid st s).ken.admCqLog2 = s.ken.admCqLog2 := rfl
@[simp] theorem refuse_ken_admSqBase (pair cid st : Nat) : (refuse pair cid st s).ken.admSqBase = s.ken.admSqBase := rfl
@[simp] theorem refuse_ken_admCqBase (pair cid st : Nat) : (refuse pair cid st s).ken.admCqBase = s.ken.admCqBase := rfl
@[simp] theorem refuse_ken_evStatus (pair cid st : Nat) : (refuse pair cid st s).ken.evStatus = s.ken.evStatus := rfl
@[simp] theorem refuse_ken_evMask (pair cid st : Nat) : (refuse pair cid st s).ken.evMask = s.ken.evMask := rfl
@[simp] theorem refuse_ken_refusal (pair cid st : Nat) : (refuse pair cid st s).ken.refusal = s.ken.refusal := rfl
@[simp] theorem refuse_ken_ringError (pair cid st : Nat) : (refuse pair cid st s).ken.ringError = s.ken.ringError := rfl
@[simp] theorem refuse_ken_fatalInfo (pair cid st : Nat) : (refuse pair cid st s).ken.fatalInfo = s.ken.fatalInfo := rfl
@[simp] theorem refuse_ken_tbLatch (pair cid st : Nat) : (refuse pair cid st s).ken.tbLatch = s.ken.tbLatch := rfl
@[simp] theorem refuse_ken_msixTable (pair cid st : Nat) : (refuse pair cid st s).ken.msixTable = s.ken.msixTable := rfl
@[simp] theorem refuse_ken_msixPba (pair cid st : Nat) : (refuse pair cid st s).ken.msixPba = s.ken.msixPba := rfl
@[simp] theorem refuse_ken_rings (pair cid st : Nat) : (refuse pair cid st s).ken.rings = s.ken.rings := rfl
@[simp] theorem refuse_ken_nextOrd (pair cid st : Nat) : (refuse pair cid st s).ken.nextOrd = s.ken.nextOrd := rfl
@[simp] theorem refuse_ken_longOps (pair cid st : Nat) : (refuse pair cid st s).ken.longOps = s.ken.longOps := rfl
@[simp] theorem refuse_ken_nextHandle (pair cid st : Nat) : (refuse pair cid st s).ken.nextHandle = s.ken.nextHandle := rfl
@[simp] theorem refuse_ken_events (pair cid st : Nat) : (refuse pair cid st s).ken.events = s.ken.events := rfl

/-! `markRunning` -/

@[simp] theorem markRunning_pending (pair cid : Nat) : (markRunning pair cid s).pending = s.pending := rfl
@[simp] theorem markRunning_tb (pair cid : Nat) : (markRunning pair cid s).tb = s.tb := rfl
@[simp] theorem markRunning_freeTick (pair cid : Nat) : (markRunning pair cid s).freeTick = s.freeTick := rfl
@[simp] theorem markRunning_out (pair cid : Nat) : (markRunning pair cid s).out = s.out := rfl
@[simp] theorem markRunning_fields (pair cid : Nat) : (markRunning pair cid s).fields = s.fields := rfl
@[simp] theorem markRunning_gone (pair cid : Nat) : (markRunning pair cid s).gone = s.gone := rfl
@[simp] theorem markRunning_cat (pair cid : Nat) : (markRunning pair cid s).cat = s.cat := rfl
@[simp] theorem markRunning_pipes (pair cid : Nat) : (markRunning pair cid s).pipes = s.pipes := rfl
@[simp] theorem markRunning_slots (pair cid : Nat) : (markRunning pair cid s).slots = s.slots := rfl
@[simp] theorem markRunning_eng (pair cid : Nat) : (markRunning pair cid s).eng = s.eng := rfl
@[simp] theorem markRunning_mem (pair cid : Nat) : (markRunning pair cid s).mem = s.mem := rfl
@[simp] theorem markRunning_pool (pair cid : Nat) : (markRunning pair cid s).pool = s.pool := rfl
@[simp] theorem markRunning_flash (pair cid : Nat) : (markRunning pair cid s).flash = s.flash := rfl
@[simp] theorem markRunning_fab (pair cid : Nat) : (markRunning pair cid s).fab = s.fab := rfl
@[simp] theorem markRunning_rdma (pair cid : Nat) : (markRunning pair cid s).rdma = s.rdma := rfl
@[simp] theorem markRunning_shaper (pair cid : Nat) : (markRunning pair cid s).shaper = s.shaper := rfl
@[simp] theorem markRunning_errs (pair cid : Nat) : (markRunning pair cid s).errs = s.errs := rfl
@[simp] theorem markRunning_ftest (pair cid : Nat) : (markRunning pair cid s).ftest = s.ftest := rfl
@[simp] theorem markRunning_lock (pair cid : Nat) : (markRunning pair cid s).lock = s.lock := rfl
@[simp] theorem markRunning_clap (pair cid : Nat) : (markRunning pair cid s).clap = s.clap := rfl
@[simp] theorem markRunning_obs (pair cid : Nat) : (markRunning pair cid s).obs = s.obs := rfl
@[simp] theorem markRunning_pow (pair cid : Nat) : (markRunning pair cid s).pow = s.pow := rfl
@[simp] theorem markRunning_ken_bifMode (pair cid : Nat) : (markRunning pair cid s).ken.bifMode = s.ken.bifMode := rfl
@[simp] theorem markRunning_ken_en (pair cid : Nat) : (markRunning pair cid s).ken.en = s.ken.en := rfl
@[simp] theorem markRunning_ken_rdy (pair cid : Nat) : (markRunning pair cid s).ken.rdy = s.ken.rdy := rfl
@[simp] theorem markRunning_ken_booted (pair cid : Nat) : (markRunning pair cid s).ken.booted = s.ken.booted := rfl
@[simp] theorem markRunning_ken_bootStage (pair cid : Nat) : (markRunning pair cid s).ken.bootStage = s.ken.bootStage := rfl
@[simp] theorem markRunning_ken_haltCause (pair cid : Nat) : (markRunning pair cid s).ken.haltCause = s.ken.haltCause := rfl
@[simp] theorem markRunning_ken_fatal (pair cid : Nat) : (markRunning pair cid s).ken.fatal = s.ken.fatal := rfl
@[simp] theorem markRunning_ken_frozen (pair cid : Nat) : (markRunning pair cid s).ken.frozen = s.ken.frozen := rfl
@[simp] theorem markRunning_ken_admSqLog2 (pair cid : Nat) : (markRunning pair cid s).ken.admSqLog2 = s.ken.admSqLog2 := rfl
@[simp] theorem markRunning_ken_admCqLog2 (pair cid : Nat) : (markRunning pair cid s).ken.admCqLog2 = s.ken.admCqLog2 := rfl
@[simp] theorem markRunning_ken_admSqBase (pair cid : Nat) : (markRunning pair cid s).ken.admSqBase = s.ken.admSqBase := rfl
@[simp] theorem markRunning_ken_admCqBase (pair cid : Nat) : (markRunning pair cid s).ken.admCqBase = s.ken.admCqBase := rfl
@[simp] theorem markRunning_ken_evStatus (pair cid : Nat) : (markRunning pair cid s).ken.evStatus = s.ken.evStatus := rfl
@[simp] theorem markRunning_ken_evMask (pair cid : Nat) : (markRunning pair cid s).ken.evMask = s.ken.evMask := rfl
@[simp] theorem markRunning_ken_refusal (pair cid : Nat) : (markRunning pair cid s).ken.refusal = s.ken.refusal := rfl
@[simp] theorem markRunning_ken_ringError (pair cid : Nat) : (markRunning pair cid s).ken.ringError = s.ken.ringError := rfl
@[simp] theorem markRunning_ken_fatalInfo (pair cid : Nat) : (markRunning pair cid s).ken.fatalInfo = s.ken.fatalInfo := rfl
@[simp] theorem markRunning_ken_tbLatch (pair cid : Nat) : (markRunning pair cid s).ken.tbLatch = s.ken.tbLatch := rfl
@[simp] theorem markRunning_ken_msixTable (pair cid : Nat) : (markRunning pair cid s).ken.msixTable = s.ken.msixTable := rfl
@[simp] theorem markRunning_ken_msixPba (pair cid : Nat) : (markRunning pair cid s).ken.msixPba = s.ken.msixPba := rfl
@[simp] theorem markRunning_ken_rings (pair cid : Nat) : (markRunning pair cid s).ken.rings = s.ken.rings := rfl
@[simp] theorem markRunning_ken_nextOrd (pair cid : Nat) : (markRunning pair cid s).ken.nextOrd = s.ken.nextOrd := rfl
@[simp] theorem markRunning_ken_longOps (pair cid : Nat) : (markRunning pair cid s).ken.longOps = s.ken.longOps := rfl
@[simp] theorem markRunning_ken_nextHandle (pair cid : Nat) : (markRunning pair cid s).ken.nextHandle = s.ken.nextHandle := rfl
@[simp] theorem markRunning_ken_events (pair cid : Nat) : (markRunning pair cid s).ken.events = s.ken.events := rfl

/-! `retireCmd` -/

@[simp] theorem retireCmd_pending (c : Cmd) : (retireCmd c s).pending = s.pending := rfl
@[simp] theorem retireCmd_tb (c : Cmd) : (retireCmd c s).tb = s.tb := rfl
@[simp] theorem retireCmd_freeTick (c : Cmd) : (retireCmd c s).freeTick = s.freeTick := rfl
@[simp] theorem retireCmd_out (c : Cmd) : (retireCmd c s).out = s.out := rfl
@[simp] theorem retireCmd_fields (c : Cmd) : (retireCmd c s).fields = s.fields := rfl
@[simp] theorem retireCmd_gone (c : Cmd) : (retireCmd c s).gone = s.gone := rfl
@[simp] theorem retireCmd_cat (c : Cmd) : (retireCmd c s).cat = s.cat := rfl
@[simp] theorem retireCmd_pipes (c : Cmd) : (retireCmd c s).pipes = s.pipes := rfl
@[simp] theorem retireCmd_slots (c : Cmd) : (retireCmd c s).slots = s.slots := rfl
@[simp] theorem retireCmd_eng (c : Cmd) : (retireCmd c s).eng = s.eng := rfl
@[simp] theorem retireCmd_mem (c : Cmd) : (retireCmd c s).mem = s.mem := rfl
@[simp] theorem retireCmd_pool (c : Cmd) : (retireCmd c s).pool = s.pool := rfl
@[simp] theorem retireCmd_flash (c : Cmd) : (retireCmd c s).flash = s.flash := rfl
@[simp] theorem retireCmd_fab (c : Cmd) : (retireCmd c s).fab = s.fab := rfl
@[simp] theorem retireCmd_rdma (c : Cmd) : (retireCmd c s).rdma = s.rdma := rfl
@[simp] theorem retireCmd_shaper (c : Cmd) : (retireCmd c s).shaper = s.shaper := rfl
@[simp] theorem retireCmd_errs (c : Cmd) : (retireCmd c s).errs = s.errs := rfl
@[simp] theorem retireCmd_ftest (c : Cmd) : (retireCmd c s).ftest = s.ftest := rfl
@[simp] theorem retireCmd_lock (c : Cmd) : (retireCmd c s).lock = s.lock := rfl
@[simp] theorem retireCmd_clap (c : Cmd) : (retireCmd c s).clap = s.clap := rfl
@[simp] theorem retireCmd_obs (c : Cmd) : (retireCmd c s).obs = s.obs := rfl
@[simp] theorem retireCmd_pow (c : Cmd) : (retireCmd c s).pow = s.pow := rfl
@[simp] theorem retireCmd_ken_bifMode (c : Cmd) : (retireCmd c s).ken.bifMode = s.ken.bifMode := rfl
@[simp] theorem retireCmd_ken_en (c : Cmd) : (retireCmd c s).ken.en = s.ken.en := rfl
@[simp] theorem retireCmd_ken_rdy (c : Cmd) : (retireCmd c s).ken.rdy = s.ken.rdy := rfl
@[simp] theorem retireCmd_ken_booted (c : Cmd) : (retireCmd c s).ken.booted = s.ken.booted := rfl
@[simp] theorem retireCmd_ken_bootStage (c : Cmd) : (retireCmd c s).ken.bootStage = s.ken.bootStage := rfl
@[simp] theorem retireCmd_ken_haltCause (c : Cmd) : (retireCmd c s).ken.haltCause = s.ken.haltCause := rfl
@[simp] theorem retireCmd_ken_fatal (c : Cmd) : (retireCmd c s).ken.fatal = s.ken.fatal := rfl
@[simp] theorem retireCmd_ken_frozen (c : Cmd) : (retireCmd c s).ken.frozen = s.ken.frozen := rfl
@[simp] theorem retireCmd_ken_admSqLog2 (c : Cmd) : (retireCmd c s).ken.admSqLog2 = s.ken.admSqLog2 := rfl
@[simp] theorem retireCmd_ken_admCqLog2 (c : Cmd) : (retireCmd c s).ken.admCqLog2 = s.ken.admCqLog2 := rfl
@[simp] theorem retireCmd_ken_admSqBase (c : Cmd) : (retireCmd c s).ken.admSqBase = s.ken.admSqBase := rfl
@[simp] theorem retireCmd_ken_admCqBase (c : Cmd) : (retireCmd c s).ken.admCqBase = s.ken.admCqBase := rfl
@[simp] theorem retireCmd_ken_evStatus (c : Cmd) : (retireCmd c s).ken.evStatus = s.ken.evStatus := rfl
@[simp] theorem retireCmd_ken_evMask (c : Cmd) : (retireCmd c s).ken.evMask = s.ken.evMask := rfl
@[simp] theorem retireCmd_ken_refusal (c : Cmd) : (retireCmd c s).ken.refusal = s.ken.refusal := rfl
@[simp] theorem retireCmd_ken_ringError (c : Cmd) : (retireCmd c s).ken.ringError = s.ken.ringError := rfl
@[simp] theorem retireCmd_ken_fatalInfo (c : Cmd) : (retireCmd c s).ken.fatalInfo = s.ken.fatalInfo := rfl
@[simp] theorem retireCmd_ken_tbLatch (c : Cmd) : (retireCmd c s).ken.tbLatch = s.ken.tbLatch := rfl
@[simp] theorem retireCmd_ken_msixTable (c : Cmd) : (retireCmd c s).ken.msixTable = s.ken.msixTable := rfl
@[simp] theorem retireCmd_ken_msixPba (c : Cmd) : (retireCmd c s).ken.msixPba = s.ken.msixPba := rfl
@[simp] theorem retireCmd_ken_rings (c : Cmd) : (retireCmd c s).ken.rings = s.ken.rings := rfl
@[simp] theorem retireCmd_ken_nextOrd (c : Cmd) : (retireCmd c s).ken.nextOrd = s.ken.nextOrd := rfl
@[simp] theorem retireCmd_ken_longOps (c : Cmd) : (retireCmd c s).ken.longOps = s.ken.longOps := rfl
@[simp] theorem retireCmd_ken_nextHandle (c : Cmd) : (retireCmd c s).ken.nextHandle = s.ken.nextHandle := rfl
@[simp] theorem retireCmd_ken_events (c : Cmd) : (retireCmd c s).ken.events = s.ken.events := rfl

/-! `modRing` -/

@[simp] theorem modRing_pending (pair : Nat) (f : RingPair → RingPair) : (modRing pair f s).pending = s.pending := rfl
@[simp] theorem modRing_tb (pair : Nat) (f : RingPair → RingPair) : (modRing pair f s).tb = s.tb := rfl
@[simp] theorem modRing_freeTick (pair : Nat) (f : RingPair → RingPair) : (modRing pair f s).freeTick = s.freeTick := rfl
@[simp] theorem modRing_out (pair : Nat) (f : RingPair → RingPair) : (modRing pair f s).out = s.out := rfl
@[simp] theorem modRing_fields (pair : Nat) (f : RingPair → RingPair) : (modRing pair f s).fields = s.fields := rfl
@[simp] theorem modRing_gone (pair : Nat) (f : RingPair → RingPair) : (modRing pair f s).gone = s.gone := rfl
@[simp] theorem modRing_cat (pair : Nat) (f : RingPair → RingPair) : (modRing pair f s).cat = s.cat := rfl
@[simp] theorem modRing_pipes (pair : Nat) (f : RingPair → RingPair) : (modRing pair f s).pipes = s.pipes := rfl
@[simp] theorem modRing_slots (pair : Nat) (f : RingPair → RingPair) : (modRing pair f s).slots = s.slots := rfl
@[simp] theorem modRing_eng (pair : Nat) (f : RingPair → RingPair) : (modRing pair f s).eng = s.eng := rfl
@[simp] theorem modRing_mem (pair : Nat) (f : RingPair → RingPair) : (modRing pair f s).mem = s.mem := rfl
@[simp] theorem modRing_pool (pair : Nat) (f : RingPair → RingPair) : (modRing pair f s).pool = s.pool := rfl
@[simp] theorem modRing_flash (pair : Nat) (f : RingPair → RingPair) : (modRing pair f s).flash = s.flash := rfl
@[simp] theorem modRing_fab (pair : Nat) (f : RingPair → RingPair) : (modRing pair f s).fab = s.fab := rfl
@[simp] theorem modRing_rdma (pair : Nat) (f : RingPair → RingPair) : (modRing pair f s).rdma = s.rdma := rfl
@[simp] theorem modRing_shaper (pair : Nat) (f : RingPair → RingPair) : (modRing pair f s).shaper = s.shaper := rfl
@[simp] theorem modRing_errs (pair : Nat) (f : RingPair → RingPair) : (modRing pair f s).errs = s.errs := rfl
@[simp] theorem modRing_ftest (pair : Nat) (f : RingPair → RingPair) : (modRing pair f s).ftest = s.ftest := rfl
@[simp] theorem modRing_lock (pair : Nat) (f : RingPair → RingPair) : (modRing pair f s).lock = s.lock := rfl
@[simp] theorem modRing_clap (pair : Nat) (f : RingPair → RingPair) : (modRing pair f s).clap = s.clap := rfl
@[simp] theorem modRing_obs (pair : Nat) (f : RingPair → RingPair) : (modRing pair f s).obs = s.obs := rfl
@[simp] theorem modRing_pow (pair : Nat) (f : RingPair → RingPair) : (modRing pair f s).pow = s.pow := rfl
@[simp] theorem modRing_ken_bifMode (pair : Nat) (f : RingPair → RingPair) : (modRing pair f s).ken.bifMode = s.ken.bifMode := rfl
@[simp] theorem modRing_ken_en (pair : Nat) (f : RingPair → RingPair) : (modRing pair f s).ken.en = s.ken.en := rfl
@[simp] theorem modRing_ken_rdy (pair : Nat) (f : RingPair → RingPair) : (modRing pair f s).ken.rdy = s.ken.rdy := rfl
@[simp] theorem modRing_ken_booted (pair : Nat) (f : RingPair → RingPair) : (modRing pair f s).ken.booted = s.ken.booted := rfl
@[simp] theorem modRing_ken_bootStage (pair : Nat) (f : RingPair → RingPair) : (modRing pair f s).ken.bootStage = s.ken.bootStage := rfl
@[simp] theorem modRing_ken_haltCause (pair : Nat) (f : RingPair → RingPair) : (modRing pair f s).ken.haltCause = s.ken.haltCause := rfl
@[simp] theorem modRing_ken_fatal (pair : Nat) (f : RingPair → RingPair) : (modRing pair f s).ken.fatal = s.ken.fatal := rfl
@[simp] theorem modRing_ken_frozen (pair : Nat) (f : RingPair → RingPair) : (modRing pair f s).ken.frozen = s.ken.frozen := rfl
@[simp] theorem modRing_ken_admSqLog2 (pair : Nat) (f : RingPair → RingPair) : (modRing pair f s).ken.admSqLog2 = s.ken.admSqLog2 := rfl
@[simp] theorem modRing_ken_admCqLog2 (pair : Nat) (f : RingPair → RingPair) : (modRing pair f s).ken.admCqLog2 = s.ken.admCqLog2 := rfl
@[simp] theorem modRing_ken_admSqBase (pair : Nat) (f : RingPair → RingPair) : (modRing pair f s).ken.admSqBase = s.ken.admSqBase := rfl
@[simp] theorem modRing_ken_admCqBase (pair : Nat) (f : RingPair → RingPair) : (modRing pair f s).ken.admCqBase = s.ken.admCqBase := rfl
@[simp] theorem modRing_ken_evStatus (pair : Nat) (f : RingPair → RingPair) : (modRing pair f s).ken.evStatus = s.ken.evStatus := rfl
@[simp] theorem modRing_ken_evMask (pair : Nat) (f : RingPair → RingPair) : (modRing pair f s).ken.evMask = s.ken.evMask := rfl
@[simp] theorem modRing_ken_refusal (pair : Nat) (f : RingPair → RingPair) : (modRing pair f s).ken.refusal = s.ken.refusal := rfl
@[simp] theorem modRing_ken_ringError (pair : Nat) (f : RingPair → RingPair) : (modRing pair f s).ken.ringError = s.ken.ringError := rfl
@[simp] theorem modRing_ken_fatalInfo (pair : Nat) (f : RingPair → RingPair) : (modRing pair f s).ken.fatalInfo = s.ken.fatalInfo := rfl
@[simp] theorem modRing_ken_tbLatch (pair : Nat) (f : RingPair → RingPair) : (modRing pair f s).ken.tbLatch = s.ken.tbLatch := rfl
@[simp] theorem modRing_ken_msixTable (pair : Nat) (f : RingPair → RingPair) : (modRing pair f s).ken.msixTable = s.ken.msixTable := rfl
@[simp] theorem modRing_ken_msixPba (pair : Nat) (f : RingPair → RingPair) : (modRing pair f s).ken.msixPba = s.ken.msixPba := rfl
@[simp] theorem modRing_ken_cmds (pair : Nat) (f : RingPair → RingPair) : (modRing pair f s).ken.cmds = s.ken.cmds := rfl
@[simp] theorem modRing_ken_nextOrd (pair : Nat) (f : RingPair → RingPair) : (modRing pair f s).ken.nextOrd = s.ken.nextOrd := rfl
@[simp] theorem modRing_ken_longOps (pair : Nat) (f : RingPair → RingPair) : (modRing pair f s).ken.longOps = s.ken.longOps := rfl
@[simp] theorem modRing_ken_nextHandle (pair : Nat) (f : RingPair → RingPair) : (modRing pair f s).ken.nextHandle = s.ken.nextHandle := rfl
@[simp] theorem modRing_ken_events (pair : Nat) (f : RingPair → RingPair) : (modRing pair f s).ken.events = s.ken.events := rfl

/-! `modQueue` -/

@[simp] theorem modQueue_pending (k : Nat) (f : EQueue → EQueue) : (modQueue k f s).pending = s.pending := rfl
@[simp] theorem modQueue_tb (k : Nat) (f : EQueue → EQueue) : (modQueue k f s).tb = s.tb := rfl
@[simp] theorem modQueue_freeTick (k : Nat) (f : EQueue → EQueue) : (modQueue k f s).freeTick = s.freeTick := rfl
@[simp] theorem modQueue_out (k : Nat) (f : EQueue → EQueue) : (modQueue k f s).out = s.out := rfl
@[simp] theorem modQueue_fields (k : Nat) (f : EQueue → EQueue) : (modQueue k f s).fields = s.fields := rfl
@[simp] theorem modQueue_gone (k : Nat) (f : EQueue → EQueue) : (modQueue k f s).gone = s.gone := rfl
@[simp] theorem modQueue_ken (k : Nat) (f : EQueue → EQueue) : (modQueue k f s).ken = s.ken := rfl
@[simp] theorem modQueue_cat (k : Nat) (f : EQueue → EQueue) : (modQueue k f s).cat = s.cat := rfl
@[simp] theorem modQueue_pipes (k : Nat) (f : EQueue → EQueue) : (modQueue k f s).pipes = s.pipes := rfl
@[simp] theorem modQueue_slots (k : Nat) (f : EQueue → EQueue) : (modQueue k f s).slots = s.slots := rfl
@[simp] theorem modQueue_mem (k : Nat) (f : EQueue → EQueue) : (modQueue k f s).mem = s.mem := rfl
@[simp] theorem modQueue_pool (k : Nat) (f : EQueue → EQueue) : (modQueue k f s).pool = s.pool := rfl
@[simp] theorem modQueue_flash (k : Nat) (f : EQueue → EQueue) : (modQueue k f s).flash = s.flash := rfl
@[simp] theorem modQueue_fab (k : Nat) (f : EQueue → EQueue) : (modQueue k f s).fab = s.fab := rfl
@[simp] theorem modQueue_rdma (k : Nat) (f : EQueue → EQueue) : (modQueue k f s).rdma = s.rdma := rfl
@[simp] theorem modQueue_shaper (k : Nat) (f : EQueue → EQueue) : (modQueue k f s).shaper = s.shaper := rfl
@[simp] theorem modQueue_errs (k : Nat) (f : EQueue → EQueue) : (modQueue k f s).errs = s.errs := rfl
@[simp] theorem modQueue_ftest (k : Nat) (f : EQueue → EQueue) : (modQueue k f s).ftest = s.ftest := rfl
@[simp] theorem modQueue_lock (k : Nat) (f : EQueue → EQueue) : (modQueue k f s).lock = s.lock := rfl
@[simp] theorem modQueue_clap (k : Nat) (f : EQueue → EQueue) : (modQueue k f s).clap = s.clap := rfl
@[simp] theorem modQueue_obs (k : Nat) (f : EQueue → EQueue) : (modQueue k f s).obs = s.obs := rfl
@[simp] theorem modQueue_pow (k : Nat) (f : EQueue → EQueue) : (modQueue k f s).pow = s.pow := rfl

/-! `putCompletion` -/

@[simp] theorem putCompletion_pending (k : Nat) (e : Entry) (c : Completion) : (putCompletion k e c s).pending = s.pending := rfl
@[simp] theorem putCompletion_tb (k : Nat) (e : Entry) (c : Completion) : (putCompletion k e c s).tb = s.tb := rfl
@[simp] theorem putCompletion_freeTick (k : Nat) (e : Entry) (c : Completion) : (putCompletion k e c s).freeTick = s.freeTick := rfl
@[simp] theorem putCompletion_out (k : Nat) (e : Entry) (c : Completion) : (putCompletion k e c s).out = s.out := rfl
@[simp] theorem putCompletion_fields (k : Nat) (e : Entry) (c : Completion) : (putCompletion k e c s).fields = s.fields := rfl
@[simp] theorem putCompletion_gone (k : Nat) (e : Entry) (c : Completion) : (putCompletion k e c s).gone = s.gone := rfl
@[simp] theorem putCompletion_ken (k : Nat) (e : Entry) (c : Completion) : (putCompletion k e c s).ken = s.ken := rfl
@[simp] theorem putCompletion_cat (k : Nat) (e : Entry) (c : Completion) : (putCompletion k e c s).cat = s.cat := rfl
@[simp] theorem putCompletion_pipes (k : Nat) (e : Entry) (c : Completion) : (putCompletion k e c s).pipes = s.pipes := rfl
@[simp] theorem putCompletion_slots (k : Nat) (e : Entry) (c : Completion) : (putCompletion k e c s).slots = s.slots := rfl
@[simp] theorem putCompletion_mem (k : Nat) (e : Entry) (c : Completion) : (putCompletion k e c s).mem = s.mem := rfl
@[simp] theorem putCompletion_pool (k : Nat) (e : Entry) (c : Completion) : (putCompletion k e c s).pool = s.pool := rfl
@[simp] theorem putCompletion_flash (k : Nat) (e : Entry) (c : Completion) : (putCompletion k e c s).flash = s.flash := rfl
@[simp] theorem putCompletion_fab (k : Nat) (e : Entry) (c : Completion) : (putCompletion k e c s).fab = s.fab := rfl
@[simp] theorem putCompletion_rdma (k : Nat) (e : Entry) (c : Completion) : (putCompletion k e c s).rdma = s.rdma := rfl
@[simp] theorem putCompletion_shaper (k : Nat) (e : Entry) (c : Completion) : (putCompletion k e c s).shaper = s.shaper := rfl
@[simp] theorem putCompletion_errs (k : Nat) (e : Entry) (c : Completion) : (putCompletion k e c s).errs = s.errs := rfl
@[simp] theorem putCompletion_ftest (k : Nat) (e : Entry) (c : Completion) : (putCompletion k e c s).ftest = s.ftest := rfl
@[simp] theorem putCompletion_lock (k : Nat) (e : Entry) (c : Completion) : (putCompletion k e c s).lock = s.lock := rfl
@[simp] theorem putCompletion_clap (k : Nat) (e : Entry) (c : Completion) : (putCompletion k e c s).clap = s.clap := rfl
@[simp] theorem putCompletion_obs (k : Nat) (e : Entry) (c : Completion) : (putCompletion k e c s).obs = s.obs := rfl
@[simp] theorem putCompletion_pow (k : Nat) (e : Entry) (c : Completion) : (putCompletion k e c s).pow = s.pow := rfl

/-! `setWord` -/

@[simp] theorem setWord_pending (stack idx : Nat) (w : WordContent) : (setWord stack idx w s).pending = s.pending := rfl
@[simp] theorem setWord_tb (stack idx : Nat) (w : WordContent) : (setWord stack idx w s).tb = s.tb := rfl
@[simp] theorem setWord_freeTick (stack idx : Nat) (w : WordContent) : (setWord stack idx w s).freeTick = s.freeTick := rfl
@[simp] theorem setWord_out (stack idx : Nat) (w : WordContent) : (setWord stack idx w s).out = s.out := rfl
@[simp] theorem setWord_fields (stack idx : Nat) (w : WordContent) : (setWord stack idx w s).fields = s.fields := rfl
@[simp] theorem setWord_gone (stack idx : Nat) (w : WordContent) : (setWord stack idx w s).gone = s.gone := rfl
@[simp] theorem setWord_ken (stack idx : Nat) (w : WordContent) : (setWord stack idx w s).ken = s.ken := rfl
@[simp] theorem setWord_cat (stack idx : Nat) (w : WordContent) : (setWord stack idx w s).cat = s.cat := rfl
@[simp] theorem setWord_pipes (stack idx : Nat) (w : WordContent) : (setWord stack idx w s).pipes = s.pipes := rfl
@[simp] theorem setWord_slots (stack idx : Nat) (w : WordContent) : (setWord stack idx w s).slots = s.slots := rfl
@[simp] theorem setWord_eng (stack idx : Nat) (w : WordContent) : (setWord stack idx w s).eng = s.eng := rfl
@[simp] theorem setWord_pool (stack idx : Nat) (w : WordContent) : (setWord stack idx w s).pool = s.pool := rfl
@[simp] theorem setWord_flash (stack idx : Nat) (w : WordContent) : (setWord stack idx w s).flash = s.flash := rfl
@[simp] theorem setWord_fab (stack idx : Nat) (w : WordContent) : (setWord stack idx w s).fab = s.fab := rfl
@[simp] theorem setWord_rdma (stack idx : Nat) (w : WordContent) : (setWord stack idx w s).rdma = s.rdma := rfl
@[simp] theorem setWord_shaper (stack idx : Nat) (w : WordContent) : (setWord stack idx w s).shaper = s.shaper := rfl
@[simp] theorem setWord_errs (stack idx : Nat) (w : WordContent) : (setWord stack idx w s).errs = s.errs := rfl
@[simp] theorem setWord_ftest (stack idx : Nat) (w : WordContent) : (setWord stack idx w s).ftest = s.ftest := rfl
@[simp] theorem setWord_lock (stack idx : Nat) (w : WordContent) : (setWord stack idx w s).lock = s.lock := rfl
@[simp] theorem setWord_clap (stack idx : Nat) (w : WordContent) : (setWord stack idx w s).clap = s.clap := rfl
@[simp] theorem setWord_obs (stack idx : Nat) (w : WordContent) : (setWord stack idx w s).obs = s.obs := rfl
@[simp] theorem setWord_pow (stack idx : Nat) (w : WordContent) : (setWord stack idx w s).pow = s.pow := rfl

/-! `modMag` -/

@[simp] theorem modMag_pending (sn : Nat) (f : Magazine → Magazine) : (modMag sn f s).pending = s.pending := rfl
@[simp] theorem modMag_tb (sn : Nat) (f : Magazine → Magazine) : (modMag sn f s).tb = s.tb := rfl
@[simp] theorem modMag_freeTick (sn : Nat) (f : Magazine → Magazine) : (modMag sn f s).freeTick = s.freeTick := rfl
@[simp] theorem modMag_out (sn : Nat) (f : Magazine → Magazine) : (modMag sn f s).out = s.out := rfl
@[simp] theorem modMag_fields (sn : Nat) (f : Magazine → Magazine) : (modMag sn f s).fields = s.fields := rfl
@[simp] theorem modMag_gone (sn : Nat) (f : Magazine → Magazine) : (modMag sn f s).gone = s.gone := rfl
@[simp] theorem modMag_ken (sn : Nat) (f : Magazine → Magazine) : (modMag sn f s).ken = s.ken := rfl
@[simp] theorem modMag_cat (sn : Nat) (f : Magazine → Magazine) : (modMag sn f s).cat = s.cat := rfl
@[simp] theorem modMag_pipes (sn : Nat) (f : Magazine → Magazine) : (modMag sn f s).pipes = s.pipes := rfl
@[simp] theorem modMag_slots (sn : Nat) (f : Magazine → Magazine) : (modMag sn f s).slots = s.slots := rfl
@[simp] theorem modMag_eng (sn : Nat) (f : Magazine → Magazine) : (modMag sn f s).eng = s.eng := rfl
@[simp] theorem modMag_mem (sn : Nat) (f : Magazine → Magazine) : (modMag sn f s).mem = s.mem := rfl
@[simp] theorem modMag_pool (sn : Nat) (f : Magazine → Magazine) : (modMag sn f s).pool = s.pool := rfl
@[simp] theorem modMag_fab (sn : Nat) (f : Magazine → Magazine) : (modMag sn f s).fab = s.fab := rfl
@[simp] theorem modMag_rdma (sn : Nat) (f : Magazine → Magazine) : (modMag sn f s).rdma = s.rdma := rfl
@[simp] theorem modMag_shaper (sn : Nat) (f : Magazine → Magazine) : (modMag sn f s).shaper = s.shaper := rfl
@[simp] theorem modMag_errs (sn : Nat) (f : Magazine → Magazine) : (modMag sn f s).errs = s.errs := rfl
@[simp] theorem modMag_ftest (sn : Nat) (f : Magazine → Magazine) : (modMag sn f s).ftest = s.ftest := rfl
@[simp] theorem modMag_lock (sn : Nat) (f : Magazine → Magazine) : (modMag sn f s).lock = s.lock := rfl
@[simp] theorem modMag_clap (sn : Nat) (f : Magazine → Magazine) : (modMag sn f s).clap = s.clap := rfl
@[simp] theorem modMag_obs (sn : Nat) (f : Magazine → Magazine) : (modMag sn f s).obs = s.obs := rfl
@[simp] theorem modMag_pow (sn : Nat) (f : Magazine → Magazine) : (modMag sn f s).pow = s.pow := rfl

/-! `trimRange` -/

@[simp] theorem trimRange_pending (volume block count : Nat) : (trimRange volume block count s).pending = s.pending := rfl
@[simp] theorem trimRange_tb (volume block count : Nat) : (trimRange volume block count s).tb = s.tb := rfl
@[simp] theorem trimRange_freeTick (volume block count : Nat) : (trimRange volume block count s).freeTick = s.freeTick := rfl
@[simp] theorem trimRange_out (volume block count : Nat) : (trimRange volume block count s).out = s.out := rfl
@[simp] theorem trimRange_fields (volume block count : Nat) : (trimRange volume block count s).fields = s.fields := rfl
@[simp] theorem trimRange_gone (volume block count : Nat) : (trimRange volume block count s).gone = s.gone := rfl
@[simp] theorem trimRange_ken (volume block count : Nat) : (trimRange volume block count s).ken = s.ken := rfl
@[simp] theorem trimRange_cat (volume block count : Nat) : (trimRange volume block count s).cat = s.cat := rfl
@[simp] theorem trimRange_pipes (volume block count : Nat) : (trimRange volume block count s).pipes = s.pipes := rfl
@[simp] theorem trimRange_slots (volume block count : Nat) : (trimRange volume block count s).slots = s.slots := rfl
@[simp] theorem trimRange_eng (volume block count : Nat) : (trimRange volume block count s).eng = s.eng := rfl
@[simp] theorem trimRange_mem (volume block count : Nat) : (trimRange volume block count s).mem = s.mem := rfl
@[simp] theorem trimRange_pool (volume block count : Nat) : (trimRange volume block count s).pool = s.pool := rfl
@[simp] theorem trimRange_fab (volume block count : Nat) : (trimRange volume block count s).fab = s.fab := rfl
@[simp] theorem trimRange_rdma (volume block count : Nat) : (trimRange volume block count s).rdma = s.rdma := rfl
@[simp] theorem trimRange_shaper (volume block count : Nat) : (trimRange volume block count s).shaper = s.shaper := rfl
@[simp] theorem trimRange_errs (volume block count : Nat) : (trimRange volume block count s).errs = s.errs := rfl
@[simp] theorem trimRange_ftest (volume block count : Nat) : (trimRange volume block count s).ftest = s.ftest := rfl
@[simp] theorem trimRange_lock (volume block count : Nat) : (trimRange volume block count s).lock = s.lock := rfl
@[simp] theorem trimRange_clap (volume block count : Nat) : (trimRange volume block count s).clap = s.clap := rfl
@[simp] theorem trimRange_obs (volume block count : Nat) : (trimRange volume block count s).obs = s.obs := rfl
@[simp] theorem trimRange_pow (volume block count : Nat) : (trimRange volume block count s).pow = s.pow := rfl

/-! What they write -/

@[simp] theorem emit_out (o : Output) : (emit o s).out = s.out ++ [o] := rfl
@[simp] theorem emits_out (os : List Output) : (emits os s).out = s.out ++ os := rfl
@[simp] theorem tickFree_freeTick : (tickFree s).freeTick = s.freeTick + 1 := rfl
theorem setRaw_raw (b i n v d : Nat) : (setRaw b i n v s).raw b i n d = v := by
  simp [State.raw, setRaw, tgetD, tget_tput]
theorem setRaw_raw_other (b i n v b' i' n' d : Nat) (h : fieldId b' i' n' ≠ fieldId b i n) :
    (setRaw b i n v s).raw b' i' n' d = s.raw b' i' n' d := by
  simp [State.raw, setRaw, tgetD, tget_tput_other _ _ h]
theorem setWord_word (stack idx : Nat) (w : WordContent) : (setWord stack idx w s).word stack idx = some w := by
  simp [State.word, setWord, tget_tput]
theorem setWord_word_other (stack idx stack' idx' : Nat) (w : WordContent) (h : wordKey stack' idx' ≠ wordKey stack idx) :
    (setWord stack idx w s).word stack' idx' = s.word stack' idx' := by
  simp [State.word, setWord, tget_tput_other _ _ h]
theorem modQueue_queue (k : Nat) (f : EQueue → EQueue) : (modQueue k f s).queue k = f (s.queue k) := by
  simp [modQueue, State.queue, tgetD, tget_tput]

/-- Every command of a ring pair that runs is outstanding under the pair and CMD_ID that its row names. -/
theorem findCmd_ids {pair cid : Nat} {c : Cmd} (h : s.findCmd pair cid = some c) :
    c.pair = pair ∧ c.cid = cid ∧ c.phase ≠ .finished := by
  have hp := List.find?_some h
  simp [Cmd.isOpen] at hp
  exact ⟨hp.1.1, hp.1.2, hp.2⟩

end

/-- A little-endian field has as many bytes as were asked for. -/
@[simp] theorem putLE_length (n v : Nat) : (putLE n v).length = n := by
  induction n generalizing v with
  | zero => rfl
  | succ n ih => simp [putLE, ih]

/-- A running part runs a command's effect. -/
theorem live_of_alive {f : State → State} {s : State} (h : s.alive = true) : live f s = .next (f s) := by simp [live, h]

/-- A stopped part leaves the state. -/
theorem live_of_not_alive {f : State → State} {s : State} (h : s.alive = false) : live f s = .next s := by simp [live, h]

/-- What running a command can do: nothing, a refusal, or the command's own effect. -/
theorem runCmd_cases (op pair cid : Nat) (f : Cmd → State → State) (s : State) :
    runCmd op pair cid f s = s ∨ runCmd op pair cid f s = refuse pair cid stPackageFatal s ∨
      runCmd op pair cid f s = refuse pair cid stFrozen s ∨
      ∃ c, s.findCmd pair cid = some c ∧ c.opcode = op ∧ s.mayStart c = true ∧ runCmd op pair cid f s = f c s := by
  unfold runCmd
  split
  · exact .inl rfl
  · rename_i c hc
    split
    · rename_i h
      simp only [Bool.and_eq_true, beq_iff_eq] at h
      split
      · exact .inr (.inl rfl)
      · split
        · exact .inr (.inr (.inl rfl))
        · exact .inr (.inr (.inr ⟨c, hc, h.1, h.2, rfl⟩))
    · exact .inl rfl

end Sys2Proof.Machine
end

