-- ==== Sys2Proof/Tests/Slice0.lean ====
section
/-! SUPPORT. Tests: terms that WellFormed refuses, words of the table that decode, and for each hypothesis of a statement a state
and operands that meet it. -/

namespace Sys2Proof.Tests

open Sys2Proof Sys2Proof.Machine

set_option Elab.async false

/-! ### States to start from -/

/-- A ring of depth 16 with `n` entries submitted. -/
def ringWith (storage fence : Bool) (n : Nat) : RingPair := { newRing storage fence 0x10000 0x20000 4 4 0 0 0 with sqTail := n }

/-- The registers of a node that has booted, with CTRL.EN set and ring pairs 0 (admin), 1 (general), 2 (storage) and 3 (FENCE). -/
def upKen : Kenlet := { Kenlet.atReset with
  en := true, rdy := true, booted := true, bootStage := 8
  rings := [(0, ringWith false false 0), (1, ringWith false false 0), (2, ringWith true false 0), (3, ringWith false true 0)] }

/-- Powered, out of PERST#. -/
def upPow : Power := { Power.atReset with pwrgd := true, perst := false }

/-- A node that has booted and serves its rings. -/
def up : State := { State.reset with ken := upKen, pow := upPow }

/-- The same with other registers. -/
def upK (k : Kenlet) : State := { up with ken := k }

/-- The same at a boot stage, before BOOTED. -/
def atStage (n : Nat) : State := upK { Kenlet.atReset with bootStage := n }

/-- A submission entry: opcode, DATA_FORM, DATA_LEN, and parameters at their offsets. -/
def entry (op form len : Nat) (ps : List (Nat × Bytes)) : Bytes :=
  ps.foldl (fun e p => patch e p.1 p.2)
    (putLE 2 op ++ putLE 2 5 ++ zeros 12 ++ putLE 8 0 ++ putLE 4 len ++ [BitVec.ofNat 8 form] ++ zeros 99)

/-- An outstanding command of a pair, CMD_ID 5. -/
def cmdOf (pair op : Nat) (e d : Bytes) : Cmd :=
  { pair := pair, cid := 5, ord := 0, opcode := op, entry := e, list := [], data := some d, phase := .waiting, status := 0, result := 0,
    handle := 0, tbDone := 0, wait := [] }

/-- The commands of a state replaced. -/
def withCmds (cs : List Cmd) (s : State) : State := { s with ken := { s.ken with cmds := cs } }

/-- The long operation that a new sliced command starts. -/
def longOf (c : Cmd) (target : Nat) : LongOp :=
  { opcode := c.opcode, pair := c.pair, target := target, entry := c.entry, data := c.data.getD [], progress := 0, paused := false,
    handle := 0, cid := c.cid, removed := false }

/-- The state that a command leads to. -/
def after (i : Instr) (s : State) : State :=
  match exec i s with
  | .next t => t
  | _ => s

/-- A declaration over dataset 1, with given operators. -/
def declOf (ops : List OpE) : Decl :=
  { batch := 4, epochs := 1, tail := 0, corrupt := 0, shotMode := 0, datasets := [1], stages := [⟨0, 1, 0, 0, ops.length⟩], ops := ops,
    params := zeros 64, outputBytes := 65536, opcat := 0, seed := zeros 32, raw := [] }

/-- A pipeline in a state, with given operators. -/
def pipeOf (st : Nat) (ops : List OpE) : Pipeline :=
  { decl := declOf ops, state := st, cursor := 0, prioInUse := 8, consumers := [], runs := [], stop := none, checkpoints := [],
    template := none, shots := [], made := [], schedules := [], started := 0, boundary := 0, spans := [], seqs := [],
    placed := [], anchor := (0, 0, 0), back := [] }

/-- Pipeline 0 in a state. -/
def withPipe (p : Pipeline) (s : State) : State := { s with pipes := [(0, p)] }

/-- A command with an opcode and no data. -/
def plainCmd (pair op : Nat) : Cmd := cmdOf pair op (entry op 0 0 []) []

/-- One waiting command of the admin pair. -/
def anyCmd : Cmd := cmdOf 0 0x0004 (entry 0x0004 0 0 []) []

/-- A node that PACKAGE_FATAL has stopped, with one command. -/
def fatalWith (c : Cmd) : State := withCmds [c] (upK { upKen with fatal := true })

/-- A frozen node, with one command. -/
def frozenWith (c : Cmd) : State := withCmds [c] (upK { upKen with frozen := true })

/-- The admin pair with an entry submitted. -/
def oneSubmitted : State := upK { upKen with rings := [(0, ringWith false false 1)] }

/-- A finished command. -/
def doneCmd (pair : Nat) : Cmd := { plainCmd pair 0x0004 with phase := .finished }

/-- Power-up with an outstanding command as the only one. -/
def withCmd (c : Cmd) : State := withCmds [c] up

/-- A sliced command of the admin pair: FIRMWARE_STAGE of 4 bytes. -/
def stageCmd (kind flags off : Nat) : Cmd :=
  cmdOf 0 0x0007 (entry 0x0007 1 4 [(32, putLE 1 kind), (33, putLE 1 flags), (40, putLE 8 off)]) [1, 2, 3, 4]

/-- Its long operation. -/
def stageOp (kind flags off : Nat) : LongOp := longOf (stageCmd kind flags off) (2 ^ 22 + 2)

/-- A command with one byte of parameters. -/
def byteCmd (pair op v : Nat) : Cmd := cmdOf pair op (entry op 0 0 [(32, putLE 1 v)]) []

/-- CREATE_RING_PAIR of a pair, with a depth of 2^log2. -/
def createCmd (pair log2 : Nat) : Cmd :=
  cmdOf 0 1 (entry 1 0 0 [(40, putLE 8 4096), (48, putLE 1 pair), (49, putLE 1 log2), (50, putLE 1 log2), (51, putLE 1 3)]) []

/-- IDENTIFY with its buffer. -/
def identifyCmd : Cmd := cmdOf 0 0 (entry 0 1 4096 []) []

/-- GET_FIELD of one field. -/
def getFieldCmd (id : Nat) : Cmd := cmdOf 0 5 (entry 5 1 8 [(32, putLE 1 1), (40, putLE 4 id)]) []

/-- SET_FIELD of one field. -/
def setFieldCmd (id v : Nat) : Cmd := cmdOf 0 6 (entry 6 0 0 [(32, putLE 1 1), (40, putLE 4 id), (44, putLE 4 v)]) []

/-- A started GET_EVENT of pair 0 with a CMD_ID. -/
def waitingEvent (cid : Nat) : Cmd := { plainCmd 0 4 with cid := cid, phase := .running }

/-- What the dies of a small magazine report. -/
def smallDie : DieReport :=
  { bitsPerCell := 4, slcMode := true, pageData := 16384, pageSpare := 2048, planes := 2, luns := 1, dieBytes := 2 ^ 37, dieBlocks := 64,
    endurance := 1000, uniform := true }

/-- A magazine, serial 1, in a state. -/
def magOf (st : Nat) : Magazine :=
  { sn := 1, state := st, powered := true, prior := 3, ejecting := false, ejectBy := none, quiescing := false, formatted := true,
    geo := smallDie, diesPerChannel := 2, userBlocks := 1000, spares := 1, sparesUsed := [], rates := [], hostWritten := 0,
    flashWritten := 0, retired := 0, lost := 0, hist := [], wsn := 0, formats := 1 }

/-- A magazine of 8 stripes, all of them the reserve of garbage collection. -/
def fullMag : Magazine := { magOf 3 with geo := { smallDie with dieBlocks := 16 } }

/-- Magazine 1 in bay 0, in a state, with volume 0 of 100 blocks on it. -/
def flashOf (m : Magazine) : Flash := { Flash.atReset with magazines := [(0, m)], volumes := [(0, ⟨1, 0, 100, false⟩)] }

/-- A pool that holds a landing buffer for flash reads. -/
def landingPool : Pool := { Pool.atReset with entries := [(5, { owner := 16, link := 0, crc := 0, ref := none })] }

/-- A node with that buffer. -/
def landed (s : State) : State := { s with pool := landingPool }

/-- A node with that magazine and a command. -/
def storing (m : Magazine) (cs : List Cmd) : State := { withCmds cs up with flash := flashOf m }

/-- A storage command of volume 0, BLOCK 0, a COUNT, of one block of data. -/
def blockCmd (op form count : Nat) : Cmd :=
  cmdOf 2 op (entry op form (form * 4096) [(48, putLE 4 count)]) (zeros 4096)

/-- A command with a byte at offset 32 and a second at 33. -/
def twoByteCmd (pair op a b : Nat) : Cmd := cmdOf pair op (entry op 0 0 [(32, putLE 1 a), (33, putLE 1 b)]) []

/-- VOLUME_CREATE of volume 127, the rest of the magazine. -/
def createVolume : Cmd := cmdOf 2 0x0304 (entry 0x0304 0 0 [(32, putLE 2 127), (40, putLE 8 900)]) []

/-- A magazine command on bay 0. -/
def bayCmd (op : Nat) : Cmd := byteCmd 2 op 0

/-- A magazine not yet formatted. -/
def freshMag : Magazine := { magOf 2 with formatted := false }

/-- The node while the program-inhibit condition holds. -/
def inhibited (m : Magazine) (cs : List Cmd) : State := { storing m cs with flash := { flashOf m with inhibit := true } }

/-- The same without a volume. -/
def noVolume (f : Flash) : Flash := { f with volumes := [] }

/-- REBUILD of volume 0, with one block of host buffer. -/
def rebuildCmd : Cmd := cmdOf 2 0x0308 (entry 0x0308 1 16 [(48, putLE 8 100)]) []

/-- A reel of dataset 1 on volume 0. -/
def reelOf (sealed : Bool) : Reel :=
  { start := 0, dataset := 1, first := 0, slateCap := 64, blockCap := 256, codec := 0, level := 1, sealed := sealed, slates := 0, blocks := 0,
    nextUnit := 3, tbOpen := 0, fw := 0, footer := 0 }

/-- REEL_APPEND with a SUBOP and its data. -/
def reelCmd (subop form len : Nat) (d : Bytes) : Cmd :=
  cmdOf 2 0x030A (entry 0x030A form len ([(32, putLE 1 subop), (34, putLE 1 1), (38, putLE 2 1)] ++
    if subop = 0 then [(64, putLE 4 64), (68, putLE 4 256)] else if subop = 1 then [(72, putLE 4 1)] else [])) d

/-- A node that holds the reel. -/
def reeling (sealed : Bool) (c : Cmd) : State :=
  { storing (magOf 3) [c] with cat := { CatalogState.atReset with reels := [(0, reelOf sealed)] } }

/-- The slate of an absent sample, number 0 of dataset 1. -/
def absentSlate : Bytes := putLE 8 (2 ^ 48) ++ zeros 56

/-- WEAR_REPORT of a bay. -/
def reportCmd (bay : Nat) : Cmd := cmdOf 2 0x030B (entry 0x030B 1 128 [(32, putLE 1 bay)]) []

/-- WEAR_REPORT of every bay. -/
def reportAll : Cmd := cmdOf 2 0x030B (entry 0x030B 1 1024 [(32, putLE 1 0xFF)]) []

/-- A magazine of one stripe. -/
def tinyMag : Magazine := { magOf 3 with geo := { smallDie with dieBlocks := 2 }, userBlocks := 10 }

/-- A stripe of the magazine. -/
def stripeOf (slc closed verified : Bool) (held : List Nat) : Stripe :=
  { slc := slc, cls := 3, closed := closed, verified := verified, closedTb := 0
    held := held.map fun k => { key := k, wsn := 0, cls := 3, crc := 0, src := none }, lostDies := [], parity := [] }

/-- Its stripe is in SLC mode and holds block 0 of volume 0, and no other is free. -/
def fullFlash : Flash := { flashOf tinyMag with stripes := [(2 ^ 32, stripeOf true true true [0])], home := [(0, 2 ^ 32)] }

/-- The node with one command. -/
def up8 (c : Cmd) : State := withCmds [c] up

/-- The node with a magazine and no command. -/
def mag (m : Magazine) : State := storing m []

/-- The node with other flash. -/
def withFlash (f : Flash) : State := { up with flash := f }

/-- Block 0 of volume 0 is read at an attempt. -/
def reads (attempt : Nat) : List (Option FlashRead) :=
  List.replicate attempt none ++ [some { volume := 0, block := 0, wsn := 0, cls := 0, crc := crc32c [], data := [] }]

/-- Block 0 of volume 0 lies in stripe 0 of the magazine. -/
def holding (st : Stripe) : Flash := { flashOf (magOf 3) with stripes := [(2 ^ 32, st)], home := [(0, 2 ^ 32)] }

/-- A magazine of 16 stripes in one group. -/
def bigMag : Magazine := { magOf 3 with geo := { smallDie with dieBlocks := 32 } }

/-- Garbage collection runs, and a stripe holds less than it did. -/
def gcFlash : Flash :=
  { flashOf bigMag with gcOn := [256], stripes := [(2 ^ 32, stripeOf false true true [0, 1])], home := [(0, 2 ^ 32)] }

/-- Erase counts far apart: one stripe worn, the others not. -/
def wornFlash : Flash := { holding (stripeOf false true true [0]) with wear := [(2 ^ 32, 1001)] }

/-- A catalog of dataset 1, version 7, of one sample. -/
def catOne : Catalog := { version := 7, size := 1, runs := [⟨0, 1, 0, 0, 0⟩] }

/-- A node that holds it. -/
def catalogued (cs : List Cmd) : State :=
  { withCmds cs up with cat := { CatalogState.atReset with committed := [(1, catOne)], summaries := [(1, [⟨0, 7, 1, [⟨0, 1, 0⟩]⟩])] } }

/-- A command with a dataset at offset 32. -/
def datasetCmd (op h : Nat) : Cmd := cmdOf 1 op (entry op 0 0 [(32, putLE 2 h)]) []

/-- A catalog slice without runs, the only one of dataset 1, version 7, one sample. -/
def sliceOne : Bytes :=
  withCrc (putLE 4 0x53435A45 ++ putLE 2 1 ++ zeros 2 ++ putLE 8 7 ++ putLE 8 1 ++ zeros 4 ++ putLE 4 1 ++ zeros 8 ++ putLE 8 1 ++ zeros 4
    ++ putLE 4 (crc32c []) ++ zeros 4)

/-- CATALOG_LOAD of that slice. -/
def loadCmd (flags : Nat) : Cmd :=
  cmdOf 1 0x0100 (entry 0x0100 1 64 [(32, putLE 2 1), (40, putLE 8 7), (48, putLE 8 1), (56, putLE 1 flags)]) sliceOne

/-- ROUTING_SUMMARY_LOAD of one entry, from batch 1. -/
def summaryCmd : Cmd :=
  cmdOf 1 0x0103 (entry 0x0103 1 16 [(32, putLE 2 1), (40, putLE 8 7), (48, putLE 4 1), (56, putLE 8 1)]) (putLE 8 0 ++ putLE 6 1 ++ putLE 2 3)

/-- CATALOG_LOOKUP of sample 0 of dataset 1. -/
def lookupCmd : Cmd := cmdOf 1 0x0102 (entry 0x0102 1 32 [(32, putLE 2 1)]) []

/-- What the slice stages. -/
def stagedOne : Staged := { pair := 1, version := 7, size := 1, slices := [⟨0, 1, 0, 1, []⟩] }

/-- The OPCAT version stands in a declaration, so its bytes are symbolic. -/
theorem field_putLE (a b : Bytes) (n v : Nat) : field (a ++ (putLE n v ++ b)) a.length n = v % 2 ^ (8 * n) := by
  have h : ∀ (n v : Nat), leVal (putLE n v) = v % 2 ^ (8 * n) := by
    intro n
    induction n with
    | zero => intro v; simp [putLE, leVal, Nat.mod_one]
    | succ n ih =>
      intro v
      have e : 2 ^ (8 * (n + 1)) = 256 * 2 ^ (8 * n) := by rw [show 8 * (n + 1) = 8 * n + 8 by omega, Nat.pow_add]; omega
      have := ih (v / 256)
      simp only [putLE, leVal, this, BitVec.toNat_ofNat, e, Nat.mod_mul]
  have l : ∀ (n v : Nat), (putLE n v).length = n := by
    intro n; induction n with
    | zero => intro v; rfl
    | succ n ih => intro v; simp [putLE, ih]
  simp [field, sub, List.drop_left', List.take_left', l, h]

/-- The first command of a list is found. -/
theorem findCmd_head (c : Cmd) (cs : List Cmd) (s : State) (p n : Nat) (h : c.isOpen p n = true) :
    (withCmds (c :: cs) s).findCmd p n = some c := by
  simp only [State.findCmd, withCmds, List.find?_cons, h]

/-- An option that holds a value holds the one it gives. -/
theorem some_getD {α : Type} (o : Option α) (x : α) (h : o.isSome = true) : o = some (o.getD x) := by
  cases o with
  | none => cases h
  | some a => rfl

/-- The declaration before its OPCAT version: pipeline 0, batch 4, one epoch, dataset 1, two stages, two operators. -/
def declHead : Bytes :=
  putLE 4 0x44505A45 ++ putLE 2 1 ++ [0, 0] ++ zeros 32 ++ putLE 4 4 ++ putLE 4 1 ++ zeros 4 ++ putLE 2 1 ++ [2, 0] ++ putLE 2 2 ++ zeros 2 ++
    putLE 4 0 ++ putLE 4 64

/-- A FETCH stage with FETCH_ASSEMBLE and a DELIVER stage with the operator 0x0702. -/
def declTail : Bytes :=
  zeros 56 ++ putLE 2 1 ++ zeros 6 ++ (putLE 2 1 ++ [1, 4] ++ putLE 2 0 ++ [1] ++ zeros 9) ++ (putLE 2 2 ++ [8, 4] ++ putLE 2 1 ++ [1] ++ zeros 9) ++
    (putLE 2 0x0101 ++ putLE 2 1 ++ zeros 28) ++ (putLE 2 0x0702 ++ putLE 2 2 ++ zeros 28)

/-- The declaration. -/
def declBytes : Bytes := declHead ++ (putLE 4 (Config.opcatVersion State.reset.firmware) ++ declTail)

/-- Its OPCAT version is read back. -/
theorem declRead_opcat (n : Nat) (d : Bytes) (k : Decl) (h : parseDecl n d = some k) : k.opcat = field d 68 4 := by
  unfold parseDecl at h
  dsimp only at h
  split at h
  · split at h
    · cases h; rfl
    · cases h
  · cases h

/-- PIPELINE_DECLARE of pipeline 0. -/
def declareCmd : Cmd := cmdOf 1 0x0200 (entry 0x0200 1 232 []) declBytes

/-- What it declares. -/
def declRead : Decl := (parseDecl (declareCmd.p8 32) declBytes).getD (declOf [])

/-- A consumer of slot 0. -/
def consumerOf (buffers log2 : Nat) : Consumer :=
  { slotFirst := 0, slotCount := 1, assembler := 0, qp := 1, bufKey := 0, bufAddr := 0, slotBytes := 65536, buffers := buffers,
    ringLog2 := log2, ringKey := 0, ringAddr := 0, doorbell := 0 }

/-- A declared pipeline of dataset 1, one sample a batch, with its consumer. -/
def servedPipe (st : Nat) : Pipeline := { pipeOf st [] with decl := { declOf [] with batch := 1 }, consumers := [(0, consumerOf 8 3)] }

/-- The fabric state of node 0. -/
def nodeZero : Fabric := { Fabric.atReset with nodeId := 0 }

/-- PIPELINE_STOP with a MODE and a batch. -/
def stopCmd (mode batch : Nat) : Cmd := cmdOf 1 0x0202 (entry 0x0202 0 0 [(33, putLE 1 mode), (40, putLE 8 batch)]) []

/-- PIPELINE_CHECKPOINT with its buffer. -/
def checkpointCmd : Cmd := cmdOf 1 0x0208 (entry 0x0208 1 160 []) []

/-- SHOT_RECORDS_LOAD of a kind and count, of zeros. -/
def shotCmd (kind n len : Nat) : Cmd := cmdOf 1 0x0205 (entry 0x0205 1 len [(33, putLE 1 kind), (36, putLE 4 n)]) (zeros len)

/-- A declared pipeline that takes shots in a mode. -/
def shotPipe (mode : Nat) : Pipeline := { pipeOf 1 [] with decl := { declOf [] with shotMode := mode } }

/-- CONSUMER_ATTACH of every slot. -/
def attachCmd (detach : Nat) : Cmd :=
  cmdOf 1 0x0207 (entry 0x0207 0 0 [(33, putLE 1 detach), (40, putLE 4 4), (64, putLE 4 65536), (68, putLE 2 8), (70, putLE 1 1)]) []

/-- What an offset past a prefix reads. -/
theorem sub_right (a b : Bytes) (k n : Nat) : sub (a ++ b) (a.length + k) n = sub b k n := by
  rw [sub, ← List.drop_drop, List.drop_left]; rfl

/-- What an offset within a prefix reads. -/
theorem sub_left (a b : Bytes) (k n : Nat) (h : k + n ≤ a.length) : sub (a ++ b) k n = sub a k n := by
  have e : k - a.length = 0 := by omega
  have f : n - (a.length - k) = 0 := by omega
  simp [sub, List.drop_append, List.take_append, e, f]

/-- The length of a fitted run. -/
theorem fitTo_length (n : Nat) (b : Bytes) : (fitTo n b).length = n := by simp [fitTo, zeros]; omega

/-- The length of a little-endian field. -/
theorem putLE_length (n v : Nat) : (putLE n v).length = n := by
  induction n generalizing v with
  | zero => rfl
  | succ n ih => simp [putLE, ih]

/-- The four parts of a checkpoint record that a restore compares: firmware release, OPCAT version and two digests. -/
def recordParts (s : State) (p : Pipeline) : Bytes :=
  putLE 4 (Config.fwRelease s.firmware) ++ (putLE 4 (Config.opcatVersion s.firmware) ++ (p.decl.digest ++ s.catalogDigest p.decl))

/-- The head of a record of pipeline 0. -/
def recordHead : Bytes := putLE 4 0x4B435A45 ++ putLE 2 1 ++ [0, 0]

/-- The record of a checkpoint of pipeline 0, its cursor at 0. -/
def record (s : State) (p : Pipeline) : Bytes := withCrc ((recordHead ++ recordParts s p) ++ zeros 44)

/-- The length of the compared parts. -/
theorem recordParts_length (s : State) (p : Pipeline) : (recordParts s p).length = 104 := by
  simp [recordParts, putLE_length, Decl.digest, State.catalogDigest, fitTo_length]

/-- A record passes the checks of a restore, where a catalog of the pipeline is not loaded. -/
theorem record_restores (s : State) (p : Pipeline) (h : p.decl.datasets.all (fun h => thas s.cat.committed h) = false) :
    s.restoreStatus 0 p (record s p) = stOk := by
  have hl : recordHead.length = 8 := rfl
  have pl := recordParts_length s p
  have al : (recordHead ++ recordParts s p).length = 112 := by rw [List.length_append, hl, pl]
  have bl : ((recordHead ++ recordParts s p) ++ zeros 44).length = 156 := by rw [List.length_append, al]; rfl
  have tk : (record s p).take 156 = (recordHead ++ recordParts s p) ++ zeros 44 := by rw [← bl]; exact List.take_left
  have head : ∀ k n, k + n ≤ 8 → sub (record s p) k n = sub recordHead k n := by
    intro k n hk
    rw [record, withCrc, sub_left _ _ _ _ (by omega), sub_left _ _ _ _ (by omega), sub_left _ _ _ _ (by omega)]
  have part : ∀ k n, k + n ≤ 104 → sub (record s p) (8 + k) n = sub (recordParts s p) k n := by
    intro k n hk
    rw [record, withCrc, sub_left _ _ _ _ (by omega), sub_left _ _ _ _ (by omega)]
    exact sub_right recordHead (recordParts s p) k n
  have tail : ∀ k n, k + n ≤ 44 → sub (record s p) (112 + k) n = sub (zeros 44) k n := by
    intro k n hk
    rw [record, withCrc, sub_left _ _ _ _ (by omega), ← al]
    exact sub_right _ _ k n
  have crc : field (record s p) 156 4 = crc32c (((recordHead ++ recordParts s p) ++ zeros 44)) := by
    have := field_putLE ((recordHead ++ recordParts s p) ++ zeros 44) [] 4 (crc32c ((recordHead ++ recordParts s p) ++ zeros 44))
    rw [bl, List.append_nil] at this
    rw [record, withCrc, this]
    exact Nat.mod_eq_of_lt (BitVec.isLt _)
  have fw : field (record s p) 8 4 = Config.fwRelease s.firmware % 2 ^ 32 := by
    rw [field, part 0 4 (by omega)]
    exact field_putLE [] _ 4 _
  have op : field (record s p) 12 4 = Config.opcatVersion s.firmware % 2 ^ 32 := by
    rw [field, part 4 4 (by omega)]
    have := field_putLE (putLE 4 (Config.fwRelease s.firmware)) (p.decl.digest ++ s.catalogDigest p.decl) 4 (Config.opcatVersion s.firmware)
    rw [putLE_length] at this
    exact this
  have dl : p.decl.digest.length = 48 := fitTo_length 48 _
  have cl : (s.catalogDigest p.decl).length = 48 := fitTo_length 48 _
  have dg : sub (record s p) 16 48 = p.decl.digest := by
    rw [part 8 48 (by omega), recordParts]
    simp [sub, List.drop_append, List.take_append, putLE_length, dl]
  have cg : sub (record s p) 64 48 = s.catalogDigest p.decl := by
    rw [part 56 48 (by omega), recordParts]
    rw [show (56 : Nat) = (putLE 4 (Config.fwRelease s.firmware)).length + 52 by rw [putLE_length], sub_right,
      show (52 : Nat) = (putLE 4 (Config.opcatVersion s.firmware)).length + 48 by rw [putLE_length], sub_right,
      show (48 : Nat) = p.decl.digest.length + 0 by rw [dl], sub_right, dl]
    exact List.take_of_length_le (by rw [List.drop_zero, cl])
  have m0 : field (record s p) 0 4 = 0x4B435A45 := by rw [field, head 0 4 (by omega)]; rfl
  have m1 : field (record s p) 4 2 = 1 := by rw [field, head 4 2 (by omega)]; rfl
  have b6 : byteAt (record s p) 6 = 0 := rfl
  have b7 : byteAt (record s p) 7 = 0 := rfl
  have z : zeroAt (record s p) 128 28 = true := by rw [zeroAt, tail 16 28 (by omega)]; rfl
  simp only [State.restoreStatus, tk, crc, fw, op, dg, cg, m0, m1, b6, b7, z, h]
  simp

/-- The node with an ended pipeline of dataset 1. -/
def restoringBase : State := withPipe (pipeOf 5 []) up

/-- PIPELINE_RESTORE of its record. -/
def restoreCmd : Cmd := cmdOf 1 0x0209 (entry 0x0209 1 160 []) (record restoringBase (pipeOf 5 []))

/-- The node with that command. -/
def restoring : State := withPipe (pipeOf 5 []) (withCmd restoreCmd)

/-- A merge table of byte tokens alone: 257 identifiers. -/
def byteTable : Bytes :=
  withCrc (putLE 4 0x4B545A45 ++ putLE 2 1 ++ [0, 1] ++ putLE 4 257 ++ putLE 4 0 ++ putLE 4 0 ++ putLE 4 0 ++ zeros 32 ++ putLE 4 (crc32c []))

/-- TOKEN_TABLE_LOAD of a kind, with its image or UNLOAD. -/
def tableCmd (kind unload : Nat) (d : Bytes) : Cmd :=
  cmdOf 1 0x0206 (entry 0x0206 (if d.isEmpty then 0 else 1) d.length [(33, putLE 1 kind), (34, putLE 1 unload)]) d

/-- A model of one layer, type 7, without weights; its signature is zeros. -/
def modelBytes : Bytes :=
  (putLE 4 0x4D505A45 ++ putLE 2 1 ++ putLE 2 1 ++ zeros 4 ++ putLE 4 1 ++ putLE 4 1 ++ putLE 4 1 ++ putLE 4 1 ++ zeros 100) ++
    ([7, 0, 0, 0, 0, 0] ++ putLE 2 0xFFFF ++ zeros 4 ++ putLE 4 1 ++ putLE 4 0 ++ putLE 4 1 ++ zeros 40) ++ zeros 96

/-- MODEL_PACKAGE_LOAD, with its image or UNLOAD. -/
def modelCmd (unload : Nat) (d : Bytes) : Cmd :=
  cmdOf 1 0x0204 (entry 0x0204 (if d.isEmpty then 0 else 1) d.length [(33, putLE 1 unload)]) d

/-- An automaton of no states. -/
def emptyAutomaton : Automaton := { symbols := 0, start := 0, finalEmpty := false, states := [], crc := 0 }

/-- Every slot 0 taken. -/
def slotted (c : Cmd) : State :=
  { withCmd c with slots := { Slots.atReset with
    merges := [(0, mergeImage byteTable)], automata := [(0, emptyAutomaton)], models := [(0, packageOf modelBytes)] } }

/-- The data of a TOPOLOGY_LOAD: every port disabled, every node unreachable. -/
def topoData : Bytes :=
  (List.replicate 18 ([0, 0, 0, 0, 4] ++ zeros 11)).flatten ++ (List.replicate 8192 [0xFF, 3, 0, 0]).flatten

/-- Every route entry of it is in range. -/
theorem topoRoutes_ok : (topoRoutes topoData).all (routeOk ((topoPorts topoData).map parsePortEntry)) = true := by
  have p : ∀ n, pieces 4 n (List.replicate n ([0xFF, 3, 0, 0] : Bytes)).flatten = List.replicate n [0xFF, 3, 0, 0] := by
    intro n
    induction n with
    | zero => rfl
    | succ n ih =>
      rw [List.replicate_succ, List.flatten_cons, pieces]
      simp only [List.cons_append, List.isEmpty_cons, List.take_succ_cons, List.take_zero, List.drop_succ_cons, List.drop_zero,
        List.nil_append, Bool.false_eq_true, if_false, ih]
  have l : ((List.replicate 18 (([0, 0, 0, 0, 4] : Bytes) ++ zeros 11)).flatten).length = 288 := by decide +kernel
  have e : topoData.drop 288 = (List.replicate 8192 ([0xFF, 3, 0, 0] : Bytes)).flatten := List.drop_left' l
  rw [topoRoutes, e, p, List.map_replicate, List.all_replicate]
  simp [routeOk, leVal, bits]

/-- TOPOLOGY_LOAD of it, the node the time root. -/
def topoCmd : Cmd := cmdOf 1 0x0400 (entry 0x0400 1 33056 [(36, putLE 1 0xFF)]) topoData

/-- A command with parameters and data. -/
def fabCmd (op len : Nat) (ps : List (Nat × Bytes)) : Cmd := cmdOf 1 op (entry op (if len = 0 then 0 else 1) len ps) (zeros len)

/-- One page of 4096 bytes registered. -/
def regionOf (r : Option (Nat × Nat)) : Region :=
  { gen := 1, base := 0, length := 4096, firstOffset := 0, pageLog2 := 12, access := 3, peer := 0xFFFF, pages := [0], revoking := r }

/-- Region 0 in a state. -/
def withRegion (g : Region) (s : State) : State := { s with rdma := { s.rdma with regions := [(0, g)] } }

/-- REGION_REGISTER of one byte. -/
def registerCmd : Cmd := fabCmd 0x0402 8 [(40, putLE 8 1), (52, putLE 1 12), (53, putLE 1 1), (54, putLE 2 0xFFFF)]

/-- A queue pair of a kind in a state. -/
def qpOf (kind st : Nat) : Qp := { freshQp kind 7 0 with state := st }

/-- Queue pair 1 in a state. -/
def withQp (q : Qp) (s : State) : State := { s with rdma := { s.rdma with qps := [(1, q)] } }

/-- QP_MODIFY of queue pair 1 with an action. -/
def modifyCmd (a len : Nat) : Cmd :=
  cmdOf 1 0x0405 (entry 0x0405 (if len = 0 then 0 else 1) len [(32, putLE 4 1), (36, putLE 1 a)]) []

/-- CALL_SHEET_LOAD of one window, always open, of 1 ms. -/
def sheetCmd : Cmd :=
  { fabCmd 0x0407 8 [(34, putLE 2 1), (36, putLE 4 1000000)] with data := some (putLE 4 1000000 ++ [1, 0, 0, 0]) }

/-- QP_CREATE of a CONTROL queue pair. -/
def controlCmd : Cmd := fabCmd 0x0404 0 [(32, putLE 4 1), (36, putLE 1 1), (37, putLE 1 15)]

/-- No stack serves, so the pool gives no buffer. -/
def stackless (s : State) : State := { s with gone := (List.range 16).map uStack }

/-- A queue-pair table of 1024 entries. -/
def withTable (s : State) : State := { s with fields := [(fieldId 0x0B 0 3, 1024)] }

/-- Port 0 in a training state. -/
def portAt (st : Nat) : Port := { freshPort with state := st, lanes := 4 }

/-- A node with port 0 so. -/
def linked (p : Port) : State := { up with fab := { Fabric.atReset with ports := [(0, p)], entries := [(0, ⟨9, 3, true, 2⟩)], timePort := 0 } }

/-- A CRC that is neither `x` nor its inverse. -/
def badCrc (x : Nat) : Nat := if x ≠ 0 ∧ x ≠ 2 ^ 64 - 1 then 0 else 1

/-- A flit of a type before its CRC. -/
def rawFlit (type seq : Nat) : Flit :=
  { type := type, vc := 0, valid := 0, dest := 0, hops := 0, seq := seq, ack := 0, creditVc := 0, creditCount := 0, payload := zeros 240,
    crc := 0 }

/-- A flit of a type, sound or damaged. -/
def flitOf (type seq : Nat) (ok : Bool) : Flit :=
  { rawFlit type seq with crc := if ok then crc64 (rawFlit type seq).head else badCrc (crc64 (rawFlit type seq).head) }

/-- The CRC does not count in itself. -/
theorem head_crc (f : Flit) (n : Nat) : ({ f with crc := n } : Flit).head = f.head := rfl

/-- Whether a flit with a CRC is sound. -/
theorem crcOk_with (f : Flit) (n : Nat) : ({ f with crc := n } : Flit).crcOk = (n == crc64 f.head) := by
  unfold Flit.crcOk
  rw [head_crc]

/-- Whether it is stomped. -/
theorem stomped_with (f : Flit) (n : Nat) : ({ f with crc := n } : Flit).stomped = (n == 2 ^ 64 - 1 - crc64 f.head) := by
  unfold Flit.stomped
  rw [head_crc]

/-- A sound one is sound. -/
theorem flitOf_ok (type seq : Nat) : (flitOf type seq true).crcOk = true := by
  rw [flitOf, crcOk_with, if_pos rfl]
  exact beq_self_eq_true _

/-- A damaged one is neither sound nor stomped. -/
theorem flitOf_bad (type seq : Nat) : (flitOf type seq false).crcOk = false ∧ (flitOf type seq false).stomped = false := by
  rw [flitOf, crcOk_with, stomped_with]
  have l : crc64 (rawFlit type seq).head < 2 ^ 64 := BitVec.isLt _
  generalize crc64 (rawFlit type seq).head = x at l
  simp only [badCrc, Bool.false_eq_true, if_false]
  split <;> simp <;> omega

/-- A probe, asking or answered. -/
def probeOf (t4 : Nat) : Probe := { t1 := 1, t2 := 2, t3 := 3, t4 := t4, peerAligned := true, peerHoldover := false, peerDepth := 1 }

/-- A run of probes on port 0. -/
def probing (n : Nat) : State :=
  let s := linked (portAt 7)
  { s with fab := { s.fab with probes := [(0, List.replicate n (probeOf 4))] } }

/-- A packet for queue pair 1, in sequence. -/
def packetOf (op : Nat) (d : Bytes) : Packet :=
  Packet.sealed { opcode := op, flags := 0, srcNode := 9, destQp := 1, srcQp := 2, psn := 0, key := 1, length := d.length, addr := 0,
                  msgLen := d.length, aethPsn := 0, syndrome := 0, hint := 0, data := d, icrc := 0 }

/-- A node with port 0 ACTIVE, queue pair 1 and region 0. -/
def connected (q : Qp) : State := withRegion (regionOf none) (withQp q (linked (portAt 7)))

/-- The same without a region. -/
def keyless (q : Qp) : State := withQp q (linked (portAt 7))

/-- A READ_REQ with one byte of body. -/
def readPacket : Packet := { packetOf 2 [] with data := [1] }.sealed

/-- A requester with a request unanswered. -/
def unanswered (retries : Nat) : Qp := { qpOf 0 1 with sndPsn := 1, postPsn := 1, retries := retries }

/-- A context fetch of queue pair 1 pending for port 0. -/
def fetching : State :=
  let s := withQp { qpOf 0 1 with resident := false } up
  { s with rdma := { s.rdma with fetches := [(0, 1)] } }

/-- A call sheet, closed for all its cycle, or open. -/
def sheetOf (isOpen : Bool) : Sheet := { cycle := 1000, base := 0, activateAt := 0, entries := [(1000, isOpen)] }

/-- A node with other shaper state, port 0 ACTIVE and node 9 reached through it. -/
def shaping (h : Shaper) : State :=
  let s := linked (portAt 7)
  { s with shaper := h, fab := { s.fab with routes := [(9, 0)], loaded := true, nodeId := 0 } }

/-- A whole message that waits for port 0 on VC3. -/
def relayedMsg : OutMsg := { source := 2, vc := 3, dest := 9, flits := [] }

/-- A sample of pipeline 0, dataset 1, position 0, in a slot, its entry the first of queue 1024. -/
def sampleOf (pos : Nat) : Sample :=
  { newSample 0 1 0 0 pos 0 (some pos) with slate := zeros 64, phase := .issued, place := some (1024, 0) }

/-- An engine entry of an operator for that sample. -/
def entryOf (op pos : Nat) : Entry :=
  { op := op, stage := 1, pipeline := 0, engine := 1, sample := pos, instance_ := 0, budget := 0, seq := 0, attempts := 0, fault := 0,
    first := 0, tb := 0, raw := [], runOn := none }

/-- A pipeline that runs, the sample and its entry in queue 1024. -/
def runningOn (p : Pipeline) (op pos : Nat) : State :=
  { withPipe p up with eng := { Engines.atReset with
    queues := [(1024, ⟨1, [entryOf op pos], []⟩)], samples := [(pos, sampleOf pos)] } }

/-- A pipeline whose first operator has a parameter block. -/
def tuned (op : Nat) (b : Bytes) : Pipeline :=
  { pipeOf 3 [] with decl := { declOf [⟨op, 1, 0, b.length, 0, 0, 0⟩] with params := b, stages := [⟨1, 1, 1, 0, 1⟩] } }

/-- A memory command: MOP, FLAGS, SRC, DST, LEN, AUX, RESULT. -/
def memBytes (mop src dst len aux result : Nat) : Bytes :=
  zeros 4 ++ [0xFF, 0x81, BitVec.ofNat 8 mop, 0] ++ putLE 8 src ++ putLE 8 dst ++ putLE 4 len ++ putLE 4 aux ++ putLE 8 0 ++ putLE 8 0 ++
    putLE 4 0 ++ putLE 4 result ++ zeros 8

/-- Its entry in queue 1024. -/
def memEntry (cmd : Bytes) : Entry := { entryOf 0 0 with pipeline := 0xFF, instance_ := 0xFFFF, raw := cmd }

/-- Stack memory with one word of zeros. -/
def oneWord : StackMem := { StackMem.atReset with words := [(0, .data (zeros 64))] }

/-- That command is the oldest of the queue. -/
def memState (cmd : Bytes) : State :=
  { up with mem := oneWord, eng := { Engines.atReset with queues := [(1024, ⟨1, [memEntry cmd], []⟩)] } }

/-- Every memory operation has a command that can run. -/
theorem witness_memoryCommandsRun : ∀ o ∈ (List.range 9).map (· + 1), MemRuns (memState (memBytes o 0 128 64 1 0)) 1024 o (memBytes o 0 128 64 1 0)
    (memEntry (memBytes o 0 128 64 1 0)) := by decide +kernel

/-- A pool with one buffer of pipeline 0, its chain link none. -/
def poolOf (ref : Option Nat) : Pool := { Pool.atReset with entries := [(5, { owner := 0, link := 0, crc := 0, ref := ref })] }

/-- A sample that waits for FETCH_ASSEMBLE. -/
def readySample : Sample := { sampleOf 0 with phase := .ready, place := none }

/-- It, its pipeline and a buffer. -/
def readyState : State :=
  { withPipe (pipeOf 3 []) up with pool := poolOf none, eng := { Engines.atReset with samples := [(0, readySample)] } }

/-- A queue with an executed entry of a sample. -/
def executedOn (x : Sample) (k : Nat) (e : Entry) (c : Completion) : State :=
  { withPipe (pipeOf 3 []) up with eng := { Engines.atReset with queues := [(k, ⟨1, [e], [c]⟩)], samples := [(0, x)] } }

/-- The same of a sample under way. -/
def executed (k : Nat) (e : Entry) (c : Completion) : State := executedOn (sampleOf 0) k e c

/-- A sample whose carried CRC does not fit its data. -/
def damagedSample : Sample := { sampleOf 0 with crc := 1 }

/-- A discarded sample. -/
def discardedSample : Sample := { sampleOf 0 with phase := .discarded }

/-- A sink ring without room, and MINHASH of a sample waiting for it. -/
def fullSink : State :=
  let s := runningOn (pipeOf 3 []) 0x0104 0
  { s with eng := { s.eng with sinks := [(0, (1, 0))], sinkWait := [(1024, [])] } }

/-- A fetched sample. -/
def fetched : Sample := { sampleOf 0 with phase := .completed, place := none, writer := uSe 9 }

/-- A vote on queue 1024 with its results so far. -/
def voting (rs : List (Nat × Bytes)) : State :=
  let s := executed 1024 (entryOf 0x0301 0) { doneC 0 with code := 5 }
  { s with eng := { s.eng with votes := [⟨1024, 0, 1, rs⟩] } }

/-- The schedule of epoch 0, one position, complete or not. -/
def scheduleOf (complete : Bool) : Schedule :=
  { epoch := 0, validBelow := 0, positions := [0], built := true, complete := complete, units := [], heads := [], moved := [], waiting := [] }

/-- A pipeline with its epoch's schedule. -/
def scheduled (e : Schedule) : Pipeline := { pipeOf 2 [] with schedules := [e] }

/-- Window 0 of that schedule lies in a pool buffer, after the loss of a stack. -/
def movedSchedule : Schedule := { scheduleOf false with moved := [(0, 5)] }

/-- A request for one small buffer of stack 0. -/
def smallWait : PoolWait := { owner := 0, cls := 0, stack := 0, bytes := 100, sample := 0, stage := 0, op := 0, copyOf := none }

/-- A node with such a request waiting. -/
def withWait : State := { up with pool := { Pool.atReset with waits := [smallWait] } }

/-- A node with buffer 5 allocated, and reference counts. -/
def withBuf (ref : Option Nat) (refs : Table Nat) : State := { up with pool := { poolOf ref with refs := refs } }

/-- Every reference count of stack 0 is in use. -/
theorem refs_used : 131072 ≤ (tracePool 0 0 0 0 (withBuf none (List.replicate 131072 (0, 2)))).refsUsed 0 := by
  rw [State.refsUsed, show (tracePool 0 0 0 0 (withBuf none (List.replicate 131072 (0, 2)))).pool.refs = List.replicate 131072 (0, 2) from rfl,
    List.filter_replicate, if_pos (by decide), List.length_replicate]

/-- Window 0 written again, while its stacks serve. -/
def rewritten : Schedule × State :=
  let s := withPipe (scheduled (scheduleOf false)) (catalogued [])
  let fresh := (s.ownedPositions 0 (scheduled (scheduleOf false)).decl 0).filter fun n => windowOf n == 0
  (writeWindow ((scheduleOf false).renewed 0 fresh) 0 s).getD (scheduleOf false, up)

/-- What a consumer's delivery stands at: batch 0 to release, some entries in its ring. -/
def runAt (ring : List Nat) (finals : Table (List (Nat × Nat))) : ConsRun :=
  { oldest := 0, writable := 8, tail := ring.length, head := 0, ring := ring, finals := finals, held := [], heldPieces := [],
    ready := [], readyPieces := [], stopped := false, armed := true }

/-- A running pipeline with consumer 0, direct or ledger. -/
def delivering (ledger : Bool) (r : ConsRun) : Pipeline :=
  let p := servedPipe 3
  { p with runs := [(0, r)], decl := { p.decl with corrupt := if ledger then 1 else 0 } }

/-- Node 0 with that pipeline. -/
def deliverState (ledger : Bool) (r : ConsRun) : State := { withPipe (delivering ledger r) (catalogued []) with fab := nodeZero }

/-- A message about pipeline 0 from node 9, without entries. -/
def messageOf (kind : Nat) : Message :=
  let m : Message := { kind := kind, pipeline := 0, consumer := 0, sender := 9, count := 0, index := 0, value := 0, body := [], crc := 0 }
  { m with crc := m.crcOf }

/-- A sample that is done. -/
def doneSample : Sample := { sampleOf 0 with phase := .done, place := none }

/-- Lockstep of pipeline 0 with node 9. -/
def lockOf (role : Nat) (searching : Option (Nat × Option Nat)) : Lockstep :=
  { role := role, partner := 9, asNode := 0, onLoss := 1, drive := false, timeout := 10, lsState := 1, matched := 0, lowest := 0,
    slotRecs := [], chains := [], digests := [], partnerCounts := [], partnerRecs := [], heldMsgs := [], searching := searching,
    divBatch := 0, divSlot := 0, divStage := 0, divOperator := 0, divKind := 0 }

/-- A node in lockstep. -/
def locked (role : Nat) (searching : Option (Nat × Option Nat)) : State :=
  { withPipe (pipeOf 3 []) up with lock := [(0, lockOf role searching)] }

/-- FORWARD of a message of a kind. -/
def forwardOf (kind : Nat) : Message :=
  let m : Message := { messageOf 0x47 with body := (messageOf kind).bytes }
  { m with crc := m.crcOf }

/-- LOCKSTEP_SET of pipeline 0 with node 9. -/
def lockCmd : Cmd := cmdOf 1 0x0503 (entry 0x0503 0 0 [(34, putLE 2 9)]) []

/-- A queue pair of kind CONTROL to node 9. -/
def controlPair : Qp := { qpOf 1 1 with remoteNode := 9 }

/-- CLAPPER with an ACTION and a time. -/
def clapCmd (action at_ : Nat) : Cmd := cmdOf 1 0x0506 (entry 0x0506 0 0 [(32, putLE 1 action), (40, putLE 8 at_)]) []

/-- A frozen node with that command, its field 1 of block 0x12 set or not. -/
def thawing (fields : Table Nat) : State := { withCmds [clapCmd 2 0] (upK { upKen with frozen := true }) with fields := fields }

/-- A word of a stack with its content, in the area of block buffers. -/
def wordAt (idx : Nat) (w : WordContent) : State := { up with mem := { StackMem.atReset with words := [(idx, w)] } }

/-- A command on a set of stacks. -/
def stackCmd (op : Nat) : Cmd := byteCmd 0 op 1

/-- A command with a buffer and parameters. -/
def bufCmd (op len : Nat) (ps : List (Nat × Bytes)) : Cmd := cmdOf 1 op (entry op 1 len ps) []

/-- A node with field-test state. -/
def testedWith (f : FieldTest) : State := { up with ftest := f }

/-- The core slots 0 to 3 tested later than the spare, slot 4. -/
def spareOldest : State := testedWith { FieldTest.atReset with lastTest := [(0, 5), (1, 5), (2, 5), (3, 5)] }

/-- A test in progress of unit 0. -/
def testNow : TestRun :=
  { unit := 0, trigger := 1, extended := false, nominal := false, seqNo := 0, tbStart := 0, tempStart := 0, parent := 0 }

/-- Core slot 0 requalifies, with passes so far. -/
def requalifying (n : Nat) : State :=
  testedWith { FieldTest.atReset with slots := [(0, 3)], passes := [(0, { count := n, failed := testNow })] }

/-- What a unit's patterns gave. -/
def outOf (pattern : Nat) : TestOut :=
  { unit := 0, failPattern := pattern, repeatFails := false, signature := 0, expected := 0, tempPeak := 0 }

/-- Does an outcome go on? -/
def goes : Host.Outcome State Fault Refusal → Bool
  | .next _ => true
  | _ => false

/-- A command that goes on leads to the state that follows it. -/
theorem exec_after (i : Instr) (s : State) (h : goes (exec i s) = true) : exec i s = .next (after i s) := by
  unfold after
  cases e : exec i s with
  | next t => rfl
  | fault f => rw [e] at h; cases h
  | refused r => rw [e] at h; cases h

/-- The invariant of a small state. -/
theorem up_inv : Invariant up :=
  ⟨by decide +kernel, by decide +kernel, by decide +kernel, by decide +kernel, by decide +kernel, by decide +kernel⟩

/-- StepsKeepTheInvariant has a state and a step that meet its hypotheses. -/
theorem witness_stepsKeepTheInvariant_1 : ∃ s t : State, Invariant s ∧ step s = .next t := ⟨up, _, up_inv, rfl⟩

/-- A ring pair with entries submitted. -/
def submitted (pair : Nat) (storage : Bool) (cs : List Cmd) : State :=
  withCmds cs (upK { upKen with rings := [(pair, ringWith storage false 1)] })

/-- An entry with another CMD_ID. -/
def entryId (op cid : Nat) : Bytes := patch (entry op 0 0 []) 2 (putLE 2 cid)

/-- The row that fetches GET_EVENT. -/
def fetchGeneral : Instr := .commandFetch 0 (some (entry 4 0 0 [])) none none

/-- The row that fetches FLUSH from a storage pair. -/
def fetchStorage : Instr := .commandFetch 2 (some (entry 0x0302 0 0 [])) none none

/-- The first command of a list that is not empty is in it. -/
theorem headD_mem (l : List Cmd) (x : Cmd) (h : l.isEmpty = false) : l.headD x ∈ l := by
  cases l with
  | nil => cases h
  | cons a t => simp

/-- A command later than the first of its pair, with ORDERED. -/
def orderedCmd : Cmd := { plainCmd 1 0x0101 with ord := 1, cid := 6, entry := patch (entry 0x0101 0 0 []) 4 (putLE 2 1) }

/-- A read-only volume. -/
def readOnly (c : Cmd) : State := { storing (magOf 3) [c] with flash := { flashOf (magOf 3) with volumes := [(0, ⟨1, 0, 100, true⟩)] } }

/-- The same with a reel on it. -/
def readOnlyReel (c : Cmd) : State := { readOnly c with cat := { CatalogState.atReset with reels := [(0, reelOf false)] } }

/-! ### Terms that WellFormed refuses -/

/-- Ring pair 256. -/
theorem test_wf_pair : (Instr.identify 256 0 true).wf = false := by decide +kernel

/-- Sub-link 4. -/
theorem test_wf_sublink : (Instr.refusalRead 4).wf = false := by decide +kernel

/-- Port 18. -/
theorem test_wf_port : (Instr.disable 18).wf = false := by decide +kernel

/-- Bay 8. -/
theorem test_wf_bay : (Instr.presenceRise 8).wf = false := by decide +kernel

/-- The last of each is accepted. -/
theorem test_wf_accepts : (Instr.identify 255 0 true).wf = true ∧ (Instr.refusalRead 3).wf = true ∧ (Instr.disable 17).wf = true ∧
    (Instr.presenceRise 7).wf = true := by decide +kernel

/-- The table gives no row any bits. -/
theorem test_no_word (n w : Nat) : decodeTableWord n w = none := rfl

/-! ### Values from outside the model -/

/-- The check value of CRC-32C: that of the digits 1 to 9. -/
theorem test_crc32c : crc32c (ascii "123456789") = 0xE3069283 := by decide +kernel

/-- R45 and R47: entries of 128 bytes, completions of 32. -/
theorem test_entry_sizes : (entry 4 0 0 []).length = 128 ∧ (completionEntry anyCmd (ringWith false false 0)).length = 32 := by decide +kernel

/-- R41: a tail not below the depth stops the pair, with an error of cause 1. -/
theorem test_bad_tail : ((after (.sqTailDoorbell 0 0 16) up).ken.rings.map fun kv => kv.2.stopped) = [true, false, false, false] := by
  decide +kernel

theorem witness_barWritesTakeEffect_1 : ∃ (s : State), s.barUp = true ∧ s.ken.en = false ∧ s.ken.booted = false :=
  ⟨upK { upKen with en := false, booted := false }, by decide +kernel⟩

theorem witness_barWritesTakeEffect_2 : ∃ (s : State), s.barUp = true ∧ s.ken.en = false ∧ s.ken.booted = true :=
  ⟨upK { upKen with en := false }, by decide +kernel⟩

theorem witness_barWritesTakeEffect_3 : ∃ (s : State) (v : BitVec 32), s.barUp = true ∧ s.ken.en = false ∧ 4 ≤ bits v.toNat 4 0 ∧
    bits v.toNat 4 0 ≤ 16 ∧ 4 ≤ bits v.toNat 20 16 ∧ bits v.toNat 20 16 ≤ 16 :=
  ⟨upK { upKen with en := false }, 0x00100004#32, by decide +kernel⟩

theorem witness_barWritesTakeEffect_4 : ∃ (s : State), s.barUp = true ∧ s.ken.en = true :=
  ⟨up, by decide +kernel⟩

theorem witness_barWritesTakeEffect_5 : ∃ (s : State) (v : BitVec 32), s.barUp = true ∧ s.ken.en = false ∧ (bits v.toNat 4 0 < 4 ∨ 16 <
    bits v.toNat 4 0 ∨ bits v.toNat 20 16 < 4 ∨ 16 < bits v.toNat 20 16) :=
  ⟨upK { upKen with en := false }, 0x00110003#32, by decide +kernel⟩

theorem witness_barWritesTakeEffect_6 : ∃ (s : State) (sub : Nat), BarAccess s sub ∧ s.ken.events = [] :=
  ⟨up, 0, by decide +kernel⟩

theorem witness_barWritesTakeEffect_7 : ∃ (s : State) (sub : Nat), BarAccess s sub ∧ s.ken.events ≠ [] :=
  ⟨upK { upKen with events := [⟨1, 0, 0, 0⟩] }, 0, by decide +kernel⟩

theorem witness_barWritesTakeEffect_8 : ∃ (s : State) (sub : Nat) (v : BitVec 32), BarAccess s sub ∧
    s.ken.evStatus &&& s.ken.evMask &&& ~~~ v.setWidth 5 = 0 :=
  ⟨up, 0, 0#32, by decide +kernel⟩

theorem witness_barWritesTakeEffect_9 : ∃ (s : State) (sub : Nat) (v : BitVec 32), BarAccess s sub ∧
    s.ken.evStatus &&& s.ken.evMask &&& ~~~ v.setWidth 5 ≠ 0 :=
  ⟨upK { upKen with evStatus := 1, evMask := 1 }, 0, 0#32, by decide +kernel⟩

theorem witness_barWritesTakeEffect_10 : ∃ (s : State), s.barUp = true ∧ 0 < s.sublinks ∧ s.ken.en = false :=
  ⟨upK { upKen with en := false }, by decide +kernel⟩

theorem witness_barWritesTakeEffect_11 : ∃ (s : State), s.barUp = true ∧ 0 < s.sublinks ∧ s.ken.en = true :=
  ⟨up, by decide +kernel⟩

theorem witness_timebaseReadsAreCoherent_1 : ∃ (s : State) (sub : Nat), BarAccess s sub :=
  ⟨up, 0, by decide +kernel⟩

theorem witness_timebaseReadsAreCoherent_2 : ∃ (s : State) (sub half : Nat), BarAccess s sub ∧ tget s.ken.tbLatch sub = some half :=
  ⟨upK { upKen with tbLatch := [(0, 7)] }, 0, 7, by decide +kernel⟩

theorem witness_readsThatClear_1 : ∃ (s : State) (sub : Nat), BarAccess s sub :=
  ⟨up, 0, by decide +kernel⟩

theorem witness_controllerResetEndsCommands_1 : ∃ (s : State), s.barUp = true ∧ s.ken.en = true ∧ s.ken.cmds = [] :=
  ⟨up, by decide +kernel⟩

theorem witness_finishingACommand_1 : ∃ (s : State) (pair cid : Nat) (c : Cmd), s.findCmd pair cid = some c :=
  ⟨withCmds [anyCmd] up, 0, 5, anyCmd, by decide +kernel⟩

theorem witness_finishingACommand_2 : ∃ (s : State) (pair cid : Nat) (x : Cmd), x ∈ s.ken.cmds ∧ x.isOpen pair cid = false :=
  ⟨withCmds [anyCmd] up, 0, 6, anyCmd, by decide +kernel⟩

theorem witness_finishingACommand_3 : ∃ (s : State) (pair cid : Nat) (c : Cmd), s.findCmd pair cid = some c :=
  ⟨withCmds [anyCmd] up, 0, 5, anyCmd, by decide +kernel⟩

theorem witness_finishingACommand_4 : ∃ (s : State) (pair cid : Nat) (x : Cmd), x ∈ s.ken.cmds ∧ x.isOpen pair cid = false :=
  ⟨withCmds [anyCmd] up, 0, 6, anyCmd, by decide +kernel⟩

theorem witness_stoppedPartRefuses_1 : ∃ (s : State) (pair cid : Nat) (c : Cmd), s.alive = true ∧ s.findCmd pair cid = some c ∧
    s.mayStart c = true ∧ s.ken.fatal = true ∧ c.opcode = 0x0001 :=
  ⟨fatalWith (plainCmd 0 0x0001), 0, 5, plainCmd 0 0x0001, by decide +kernel⟩

theorem witness_stoppedPartRefuses_2 : ∃ (s : State) (pair cid : Nat) (c : Cmd), s.alive = true ∧ s.findCmd pair cid = some c ∧
    s.mayStart c = true ∧ s.ken.fatal = true ∧ c.opcode = 0x0101 :=
  ⟨fatalWith (plainCmd 1 0x0101), 1, 5, plainCmd 1 0x0101, by decide +kernel⟩

theorem witness_stoppedPartRefuses_3 : ∃ (s : State) (pair cid : Nat) (c : Cmd), s.alive = true ∧ s.findCmd pair cid = some c ∧
    s.mayStart c = true ∧ s.ken.fatal = true ∧ c.opcode = 0x0201 :=
  ⟨fatalWith (plainCmd 1 0x0201), 1, 5, plainCmd 1 0x0201, by decide +kernel⟩

theorem witness_stoppedPartRefuses_4 : ∃ (s : State) (pair cid : Nat) (c : Cmd), s.alive = true ∧ s.findCmd pair cid = some c ∧
    s.mayStart c = true ∧ s.ken.fatal = true ∧ c.opcode = 0x0301 :=
  ⟨fatalWith (plainCmd 2 0x0301), 2, 5, plainCmd 2 0x0301, by decide +kernel⟩

theorem witness_stoppedPartRefuses_5 : ∃ (s : State) (pair cid : Nat) (c : Cmd), s.alive = true ∧ s.findCmd pair cid = some c ∧
    s.mayStart c = true ∧ s.ken.fatal = true ∧ c.opcode = 0x0404 :=
  ⟨fatalWith (plainCmd 1 0x0404), 1, 5, plainCmd 1 0x0404, by decide +kernel⟩

theorem witness_stoppedPartRefuses_6 : ∃ (s : State) (pair cid : Nat) (c : Cmd), s.alive = true ∧ s.findCmd pair cid = some c ∧
    s.mayStart c = true ∧ s.ken.fatal = true ∧ c.opcode = 0x0603 :=
  ⟨fatalWith (plainCmd 1 0x0603), 1, 5, plainCmd 1 0x0603, by decide +kernel⟩

theorem witness_stoppedPartRefuses_7 : ∃ (s : State) (pair cid : Nat) (c : Cmd), s.alive = true ∧ s.findCmd pair cid = some c ∧
    s.mayStart c = true ∧ s.ken.fatal = false ∧ s.ken.frozen = true ∧ s.serves c.opcode c.entry = false ∧ c.opcode = 0x0001 :=
  ⟨frozenWith (plainCmd 0 0x0001), 0, 5, plainCmd 0 0x0001, by decide +kernel⟩

theorem witness_stoppedPartRefuses_8 : ∃ (s : State) (pair cid : Nat) (c : Cmd), s.alive = true ∧ s.findCmd pair cid = some c ∧
    s.mayStart c = true ∧ s.ken.fatal = false ∧ s.ken.frozen = true ∧ s.serves c.opcode c.entry = false ∧ c.opcode = 0x0101 :=
  ⟨frozenWith (plainCmd 1 0x0101), 1, 5, plainCmd 1 0x0101, by decide +kernel⟩

theorem witness_stoppedPartRefuses_9 : ∃ (s : State) (pair cid : Nat) (c : Cmd), s.alive = true ∧ s.findCmd pair cid = some c ∧
    s.mayStart c = true ∧ s.ken.fatal = false ∧ s.ken.frozen = true ∧ s.serves c.opcode c.entry = false ∧ c.opcode = 0x0201 :=
  ⟨frozenWith (plainCmd 1 0x0201), 1, 5, plainCmd 1 0x0201, by decide +kernel⟩

theorem witness_stoppedPartRefuses_10 : ∃ (s : State) (pair cid : Nat) (c : Cmd), s.alive = true ∧ s.findCmd pair cid = some c ∧
    s.mayStart c = true ∧ s.ken.fatal = false ∧ s.ken.frozen = true ∧ s.serves c.opcode c.entry = false ∧ c.opcode = 0x0301 :=
  ⟨frozenWith (plainCmd 2 0x0301), 2, 5, plainCmd 2 0x0301, by decide +kernel⟩

theorem witness_stoppedPartRefuses_11 : ∃ (s : State) (pair cid : Nat) (c : Cmd), s.alive = true ∧ s.findCmd pair cid = some c ∧
    s.mayStart c = true ∧ s.ken.fatal = false ∧ s.ken.frozen = true ∧ s.serves c.opcode c.entry = false ∧ c.opcode = 0x0404 :=
  ⟨frozenWith (plainCmd 1 0x0404), 1, 5, plainCmd 1 0x0404, by decide +kernel⟩

theorem witness_stoppedPartRefuses_12 : ∃ (s : State) (pair cid : Nat) (c : Cmd), s.alive = true ∧ s.findCmd pair cid = some c ∧
    s.mayStart c = true ∧ s.ken.fatal = false ∧ s.ken.frozen = true ∧ s.serves c.opcode c.entry = false ∧ c.opcode = 0x0603 :=
  ⟨frozenWith (plainCmd 1 0x0603), 1, 5, plainCmd 1 0x0603, by decide +kernel⟩

theorem witness_ringsMove_1 : ∃ (s : State) (sub pair : Nat) (v : BitVec 32) (r : RingPair), s.alive = true ∧
    tget s.ken.rings pair = some r ∧ s.doorbellHits sub pair = true ∧ r.stopped = false ∧ v.toNat < 2 ^ r.sqLog2 :=
  ⟨up, 0, 0, 15#32, ringWith false false 0, by decide +kernel⟩

theorem witness_ringsMove_2 : ∃ (s : State) (sub pair : Nat) (v : BitVec 32) (r : RingPair), s.alive = true ∧
    tget s.ken.rings pair = some r ∧ s.doorbellHits sub pair = true ∧ r.stopped = false ∧ 2 ^ r.sqLog2 ≤ v.toNat :=
  ⟨up, 0, 0, 16#32, ringWith false false 0, by decide +kernel⟩

theorem witness_ringsMove_3 : ∃ (s : State) (sub pair : Nat) (v : BitVec 32) (r : RingPair), s.alive = true ∧
    tget s.ken.rings pair = some r ∧ s.doorbellHits sub pair = true ∧ v.toNat < 2 ^ r.cqLog2 :=
  ⟨up, 0, 0, 15#32, ringWith false false 0, by decide +kernel⟩

theorem witness_ringsMove_4 : ∃ (s : State) (sub pair : Nat) (v : BitVec 32) (r : RingPair), s.alive = true ∧
    tget s.ken.rings pair = some r ∧ s.doorbellHits sub pair = true ∧ 2 ^ r.cqLog2 ≤ v.toNat :=
  ⟨up, 0, 0, 16#32, ringWith false false 0, by decide +kernel⟩

theorem witness_ringsMove_5 : ∃ (s : State) (pair : Nat) (r : RingPair), s.alive = true ∧ tget s.ken.rings pair = some r ∧
    s.canFetch pair r = true :=
  ⟨oneSubmitted, 0, ringWith false false 1, by decide +kernel⟩

theorem witness_ringsMove_6 : ∃ (s : State) (pair : Nat) (r : RingPair), s.alive = true ∧ tget s.ken.rings pair = some r ∧
    s.canFetch pair r = true :=
  ⟨oneSubmitted, 0, ringWith false false 1, by decide +kernel⟩

theorem witness_ringsMove_7 : ∃ (s : State) (pair cid : Nat) (r : RingPair) (c : Cmd), s.alive = true ∧ tget s.ken.rings pair = some r ∧
    s.completable pair cid r.fence = some c ∧ r.stopped = false ∧ r.cqFree ≠ 0 ∧ s.pcieClock = true :=
  ⟨withCmd (doneCmd 0), 0, 5, ringWith false false 0, doneCmd 0, by decide +kernel⟩

theorem witness_ringsMove_8 : ∃ (s : State) (pair : Nat) (r : RingPair), s.alive = true ∧ tget s.ken.rings pair = some r ∧
    0 < r.unsignalled :=
  ⟨upK { upKen with rings := [(0, { ringWith false false 0 with unsignalled := 1 })] }, 0,
    { ringWith false false 0 with unsignalled := 1 }, by decide +kernel⟩

theorem witness_ringsMove_9 : ∃ (s : State) (op pair cid : Nat) (c : Cmd) (l : LongOp),
    Enters s op pair cid c (sliceTarget op c s) (sliceCheck op c s) l ∧ sliced op = true ∧ ((op ≠ 0x0307 ∧
    op ≠ 0x0308) ∨ s.landing = true) :=
  ⟨withCmd (stageCmd 0 0 0), 0x0007, 0, 5, stageCmd 0 0 0, stageOp 0 0 0, by decide +kernel⟩

theorem witness_phaseInvertsOnWrap_1 : ∃ (r : RingPair), r.cqTail + 1 < 2 ^ r.cqLog2 :=
  ⟨{ ringWith false false 0 with cqTail := 14 }, by decide +kernel⟩

theorem witness_phaseInvertsOnWrap_2 : ∃ (r : RingPair), r.cqTail + 1 = 2 ^ r.cqLog2 :=
  ⟨{ ringWith false false 0 with cqTail := 15 }, by decide +kernel⟩

theorem witness_phaseInvertsOnWrap_3 : ∃ (c : Cmd), c.status < 2 ^ 15 :=
  ⟨doneCmd 0, by decide +kernel⟩

theorem witness_phaseInvertsOnWrap_4 : ∃ (s : State) (pair cid : Nat) (r : RingPair) (c : Cmd), s.alive = true ∧
    tget s.ken.rings pair = some r ∧ s.completable pair cid r.fence = some c ∧ r.stopped = false ∧ r.cqFree ≠ 0 ∧ s.pcieClock = true :=
  ⟨withCmd (doneCmd 0), 0, 5, ringWith false false 0, doneCmd 0, by decide +kernel⟩

theorem witness_deleteRingPair_1 : ∃ (s : State) (pair cid : Nat) (c : Cmd), Ready s 0x0002 pair cid c ∧ c.p8 32 = 0 :=
  ⟨withCmd (byteCmd 0 2 0), 0, 5, byteCmd 0 2 0, by decide +kernel⟩

theorem witness_deleteRingPair_2 : ∃ (s : State) (pair cid : Nat) (c : Cmd), Ready s 0x0002 pair cid c ∧ c.p8 32 ≠ 0 ∧
    thas s.ken.rings (c.p8 32) = false :=
  ⟨withCmd (byteCmd 0 2 9), 0, 5, byteCmd 0 2 9, by decide +kernel⟩

theorem witness_deleteRingPair_3 : ∃ (s : State) (pair cid : Nat) (c : Cmd), Ready s 0x0002 pair cid c ∧ c.p8 32 ≠ 0 ∧
    thas s.ken.rings (c.p8 32) = true ∧ (s.outstanding (c.p8 32) ≠ [] ∨ ∃ l ∈ s.ken.longOps, l.pair = c.p8 32) :=
  ⟨withCmds [byteCmd 0 2 1, plainCmd 1 0x0101] up, 0, 5, byteCmd 0 2 1, by decide +kernel⟩

theorem witness_deleteRingPair_4 : ∃ (s : State) (pair cid : Nat) (c : Cmd), Ready s 0x0002 pair cid c ∧ c.p8 32 ≠ 0 ∧
    thas s.ken.rings (c.p8 32) = true ∧ s.outstanding (c.p8 32) = [] ∧ (∀ l ∈ s.ken.longOps, l.pair ≠ c.p8 32) :=
  ⟨withCmd (byteCmd 0 2 1), 0, 5, byteCmd 0 2 1, by decide +kernel⟩

theorem witness_adminCommandsWork_1 : ∃ (s : State) (pair cid : Nat) (c : Cmd), Ready s 0x0000 pair cid c ∧ c.exactBuf 4096 = true :=
  ⟨withCmd identifyCmd, 0, 5, identifyCmd, by decide +kernel⟩

theorem witness_adminCommandsWork_2 : ∃ (s : State) (pair cid : Nat) (c : Cmd), Ready s 0x0001 pair cid c ∧ c.p8 48 ≠ 0 ∧ 4 ≤ c.p8 49 ∧
    c.p8 49 ≤ 16 ∧ 4 ≤ c.p8 50 ∧ c.p8 50 ≤ 16 ∧ c.p8 51 ≤ 3 ∧ c.p16 52 ≤ 511 ∧ c.p64 32 % 4096 = 0 ∧ c.p64 40 % 4096 = 0 ∧
    s.vectorSublink (c.p16 52) = s.pairSublink (c.p8 48) ∧ thas s.ken.rings (c.p8 48) = false :=
  ⟨withCmd (createCmd 255 4), 0, 5, createCmd 255 4, by decide +kernel⟩

theorem witness_adminCommandsWork_3 : ∃ (s : State) (pair cid : Nat) (c : Cmd), Ready s 0x0001 pair cid c ∧ c.p8 48 ≠ 0 ∧ 4 ≤ c.p8 49 ∧
    c.p8 49 ≤ 16 ∧ 4 ≤ c.p8 50 ∧ c.p8 50 ≤ 16 ∧ c.p8 51 ≤ 3 ∧ c.p16 52 ≤ 511 ∧ c.p64 32 % 4096 = 0 ∧ c.p64 40 % 4096 = 0 ∧
    s.vectorSublink (c.p16 52) = s.pairSublink (c.p8 48) ∧ thas s.ken.rings (c.p8 48) = true :=
  ⟨withCmd (createCmd 1 16), 0, 5, createCmd 1 16, by decide +kernel⟩

theorem witness_adminCommandsWork_4 : ∃ (s : State) (pair cid : Nat) (c : Cmd) (r : RingPair), Ready s 0x0003 pair cid c ∧ c.p8 32 ≠ 0 ∧
    tget s.ken.rings (c.p8 32) = some r ∧ r.resetLost = none ∧ s.outstanding (c.p8 32) = [] :=
  ⟨withCmd (byteCmd 0 3 1), 0, 5, byteCmd 0 3 1, ringWith false false 0, by decide +kernel⟩

theorem witness_adminCommandsWork_5 : ∃ (s : State) (pair cid : Nat) (c : Cmd) (e : Event) (rest : List Event),
    Ready s 0x0004 pair cid c ∧ s.ken.events = e :: rest :=
  ⟨withCmds [plainCmd 0 4] (upK { upKen with events := [⟨1, 0, 0, 0⟩] }), 0, 5, plainCmd 0 4, ⟨1, 0, 0, 0⟩, [], by decide +kernel⟩

theorem witness_adminCommandsWork_6 : ∃ (s : State) (pair cid : Nat) (c : Cmd), Ready s 0x0004 pair cid c ∧ s.ken.events = [] ∧
    (s.ken.cmds.filter fun x => x.opcode == 0x0004 && x.phase == .running).length < 16 :=
  ⟨withCmd (plainCmd 0 4), 0, 5, plainCmd 0 4, by decide +kernel⟩

theorem witness_adminCommandsWork_7 : ∃ (s : State) (pair cid : Nat) (c : Cmd), Ready s 0x0004 pair cid c ∧ s.ken.events = [] ∧
    16 ≤ (s.ken.cmds.filter fun x => x.opcode == 0x0004 && x.phase == .running).length :=
  ⟨withCmds (plainCmd 0 4 :: (List.range 16).map fun i => waitingEvent (16 + i)) up, 0, 5, plainCmd 0 4, by decide +kernel⟩

theorem witness_adminCommandsWork_8 : ∃ (s : State) (pair cid : Nat) (c : Cmd) (r : Bytes × State), Ready s 0x0005 pair cid c ∧
    c.fieldCountOk = true ∧ c.minBuf (8 * c.p8 32) = true ∧ (∀ e ∈ c.fieldEntries, e.2 = 0) ∧ (∀ e ∈ c.fieldEntries,
    (s.fieldSpec e.1).isSome = true) ∧ r = readFields (c.fieldEntries.map Prod.fst) s :=
  by refine ⟨withCmd (getFieldCmd 0x12000001), 0, 5, getFieldCmd 0x12000001, _, ?_, ?_, ?_, ?_, ?_, rfl⟩ <;> decide +kernel

theorem witness_adminCommandsWork_9 : ∃ (s : State) (pair cid : Nat) (c : Cmd), Ready s 0x0006 pair cid c ∧ c.fieldCountOk = true ∧
    (∀ e ∈ c.fieldEntries, s.entryBusy e = false) ∧ (∀ e ∈ c.fieldEntries, s.entryOk e = true) ∧ (∀ e ∈ c.fieldEntries,
    (c.fieldEntries.foldl (fun t e => writeField e t) s).jointOk e.1 = true) :=
  ⟨withCmd (setFieldCmd 0x12000001 1), 0, 5, setFieldCmd 0x12000001 1, by decide +kernel⟩

theorem witness_adminCommandsWork_10 : ∃ (s : State) (pair cid : Nat) (c : Cmd) (i : Nat), Ready s 0x0006 pair cid c ∧
    c.fieldCountOk = true ∧ c.fieldEntries.findIdx? s.entryBusy = some i :=
  ⟨withPipe (pipeOf 3 []) (withCmd (setFieldCmd 0x02000004 1)), 0, 5, setFieldCmd 0x02000004 1, 0, by decide +kernel⟩

theorem witness_adminCommandsWork_11 : ∃ (s : State) (pair cid : Nat) (c : Cmd) (i : Nat), Ready s 0x0006 pair cid c ∧
    c.fieldCountOk = true ∧ (∀ e ∈ c.fieldEntries, s.entryBusy e = false) ∧ (c.fieldEntries.findIdx? fun e => !s.entryOk e) = some i :=
  ⟨withCmd (setFieldCmd 0x12000001 2), 0, 5, setFieldCmd 0x12000001 2, 0, by decide +kernel⟩

theorem witness_firmwareAndIdentityCommandsWork_1 : ∃ (s : State) (pair cid : Nat) (c : Cmd) (l l1 : LongOp) (s1 : State),
    Enters s 0x0007 pair cid c (stageTarget c s) (stageCheck c s) l ∧ stageSome l.data.length l (dropLong l.handle s) = some (l1, s1) ∧
    bitOf (byteAt l.entry 33) 1 = false :=
  ⟨withCmd (stageCmd 0 0 0), 0, 5, stageCmd 0 0 0, stageOp 0 0 0, { stageOp 0 0 0 with progress := 4 }, putStaged 0 [1, 2, 3,
    4] (withCmd (stageCmd 0 0 0)), by decide +kernel⟩

theorem witness_firmwareAndIdentityCommandsWork_2 : ∃ (s : State) (pair cid : Nat) (c : Cmd) (l l1 : LongOp) (s1 : State),
    Enters s 0x0007 pair cid c (stageTarget c s) (stageCheck c s) l ∧ stageSome l.data.length l (dropLong l.handle s) = some (l1, s1) ∧
    bitOf (byteAt l.entry 33) 1 = true ∧ byteAt l.entry 32 = 0 :=
  ⟨withCmd (stageCmd 0 2 0), 0, 5, stageCmd 0 2 0, stageOp 0 2 0, { stageOp 0 2 0 with progress := 4 }, putStaged 0 [1, 2, 3,
    4] (withCmd (stageCmd 0 2 0)), by decide +kernel⟩

theorem witness_firmwareAndIdentityCommandsWork_3 : ∃ (s : State) (pair cid : Nat) (c : Cmd) (l l1 : LongOp) (s1 : State),
    Enters s 0x0007 pair cid c (stageTarget c s) (stageCheck c s) l ∧ stageSome l.data.length l (dropLong l.handle s) = some (l1, s1) ∧
    bitOf (byteAt l.entry 33) 1 = true ∧ byteAt l.entry 32 ≠ 0 ∧ s1.pow.modelCert = [] :=
  ⟨withCmd (stageCmd 1 2 0), 0, 5, stageCmd 1 2 0, stageOp 1 2 0, { stageOp 1 2 0 with progress := 4 }, putStaged 1 [1, 2, 3,
    4] (withCmd (stageCmd 1 2 0)), by decide +kernel⟩

theorem witness_firmwareAndIdentityCommandsWork_4 : ∃ (s : State) (pair cid : Nat) (c : Cmd) (l : LongOp),
    Enters s 0x0007 pair cid c (stageTarget c s) (stageCheck c s) l ∧ stageSome l.data.length l (dropLong l.handle s) = none :=
  ⟨withCmd (stageCmd 0 0 1), 0, 5, stageCmd 0 0 1, stageOp 0 0 1, by decide +kernel⟩

theorem witness_firmwareAndIdentityCommandsWork_5 : ∃ (s : State) (pair cid : Nat) (c : Cmd), Ready s 0x0008 pair cid c ∧
    s.pow.stagedOk = false :=
  ⟨withCmd (plainCmd 0 8), 0, 5, plainCmd 0 8, by decide +kernel⟩

theorem witness_firmwareAndIdentityCommandsWork_6 : ∃ (s : State) (pair cid : Nat) (c : Cmd), Ready s 0x0008 pair cid c ∧
    s.pow.stagedOk = true ∧ (∀ kv ∈ s.pipes, kv.2.active = false) ∧ (∀ l ∈ s.ken.longOps, l.paused = false) :=
  ⟨{ withCmd (plainCmd 0 8) with pow := { upPow with stagedOk := true } }, 0, 5, plainCmd 0 8, by decide +kernel⟩

theorem witness_firmwareAndIdentityCommandsWork_7 : ∃ (s : State) (pair cid : Nat) (c : Cmd) (d : Bytes), Ready s 0x0701 pair cid c ∧
    c.p8 32 ≤ 2 ∧ c.minBuf 4096 = true ∧ s.certificate (c.p8 32) = some d :=
  ⟨withCmd (cmdOf 1 0x0701 (entry 0x0701 1 4096 []) []), 1, 5, cmdOf 1 0x0701 (entry 0x0701 1 4096 []) [], Config.deviceCert,
    ⟨by decide +kernel, by decide +kernel, by decide +kernel, rfl⟩⟩

theorem witness_firmwareAndIdentityCommandsWork_8 : ∃ (s : State) (pair cid : Nat) (c : Cmd), Ready s 0x0700 pair cid c ∧
    c.exactBuf 512 = true :=
  ⟨withCmd (cmdOf 1 0x0700 (entry 0x0700 1 512 []) []), 1, 5, cmdOf 1 0x0700 (entry 0x0700 1 512 []) [], by decide +kernel⟩

theorem witness_firmwareAndIdentityCommandsWork_9 : ∃ (s : State) (pair cid : Nat) (c : Cmd), Ready s 0x0507 pair cid c ∧ c.p8 32 ≤ 1 ∧
    c.p16 34 ≠ 0 ∧ freqOk (c.p8 32) (c.p16 36) = true :=
  ⟨withCmd (cmdOf 1 0x0507 (entry 0x0507 0 0 [(34, putLE 2 1), (36, putLE 2 400)]) []), 1, 5, cmdOf 1 0x0507 (entry 0x0507 0 0 [(34,
    putLE 2 1), (36, putLE 2 400)]) [], by decide +kernel⟩

theorem witness_resetsStartTheBoot_1 : ∃ (s s' : State) (cause : Nat), s' = warmReset cause s :=
  ⟨up, warmReset 2 up, 2, rfl⟩

theorem witness_resetsStartTheBoot_2 : ∃ (s : State), s.pow.pwrgd = false :=
  ⟨State.reset, by decide +kernel⟩

theorem witness_resetsStartTheBoot_3 : ∃ (s : State), s.resettable = true :=
  ⟨up, by decide +kernel⟩

theorem witness_resetsStartTheBoot_4 : ∃ (s : State) (holdMs : Nat), s.alive = true ∧ 8000 ≤ holdMs :=
  ⟨up, 8000, by decide +kernel⟩

theorem witness_resetsStartTheBoot_5 : ∃ (s : State) (holdMs : Nat), s.alive = true ∧ 50 ≤ holdMs ∧ holdMs ≤ 2000 :=
  ⟨up, 50, by decide +kernel⟩

theorem witness_resetsStartTheBoot_6 : ∃ (s : State), s.alive = true ∧ s.pow.activating = true :=
  ⟨{ up with pow := { upPow with activating := true } }, by decide +kernel⟩

theorem witness_resetsStartTheBoot_7 : ∃ (s : State), s.alive = true ∧ 1 ≤ s.ken.bootStage ∧ s.ken.bootStage < 8 ∧
    s.bankReached s.pow.bankBooted = true ∧ s.pow.wdBoots + 1 < 3 :=
  ⟨atStage 7, by decide +kernel⟩

theorem witness_resetsStartTheBoot_8 : ∃ (s : State), s.alive = true ∧ 1 ≤ s.ken.bootStage ∧ s.ken.bootStage < 8 ∧
    s.bankReached s.pow.bankBooted = true ∧ 3 ≤ s.pow.wdBoots + 1 :=
  ⟨{ atStage 7 with pow := { upPow with wdBoots := 2 } }, by decide +kernel⟩

theorem witness_resetsStartTheBoot_9 : ∃ (s : State), s.alive = true ∧ 1 ≤ s.ken.bootStage ∧ s.ken.bootStage < 8 ∧
    s.bankReached s.pow.bankBooted = false :=
  ⟨{ atStage 1 with pow := { upPow with bankBooted := 1 } }, by decide +kernel⟩

theorem witness_bootStagesAdvance_1 : ∃ (s : State), s.alive = true ∧ 1 ≤ s.ken.bootStage ∧ s.ken.bootStage ≤ 3 :=
  ⟨atStage 1, by decide +kernel⟩

theorem witness_bootStagesAdvance_2 : ∃ (s : State), s.alive = true ∧ s.ken.bootStage = 4 :=
  ⟨atStage 4, by decide +kernel⟩

theorem witness_bootStagesAdvance_3 : ∃ (s : State), s.alive = true ∧ s.ken.bootStage = 5 :=
  ⟨atStage 5, by decide +kernel⟩

theorem witness_bootStagesAdvance_4 : ∃ (s : State), s.alive = true ∧ s.ken.bootStage = 6 :=
  ⟨atStage 6, by decide +kernel⟩

theorem witness_bootStagesAdvance_5 : ∃ (s : State), s.alive = true ∧ s.ken.bootStage = 7 :=
  ⟨atStage 7, by decide +kernel⟩

theorem witness_bootStagesAdvance_6 : ∃ (s : State), s.alive = true ∧ s.ken.bootStage = 8 ∧ s.ken.booted = false ∧ s.ken.en = false :=
  ⟨atStage 8, by decide +kernel⟩

theorem witness_bootStagesAdvance_7 : ∃ (s : State), s.alive = true ∧ s.ken.bootStage = 8 ∧ s.ken.booted = false ∧ s.ken.en = true :=
  ⟨upK { upKen with booted := false }, by decide +kernel⟩

theorem witness_bootStagesAdvance_8 : ∃ (s : State) (cause : Nat), s.alive = true ∧ 1 ≤ s.ken.bootStage ∧ s.ken.bootStage < 8 ∧
    cause ∈ stageHalts s.ken.bootStage :=
  ⟨atStage 5, 7, by decide +kernel⟩

theorem witness_powerAndPins_1 : ∃ (s : State), s.pow.pwrgd = true :=
  ⟨up, by decide +kernel⟩

theorem witness_powerAndPins_2 : ∃ (s : State), s.alive = true ∧ s.pow.perst = false :=
  ⟨up, by decide +kernel⟩

theorem witness_powerAndPins_3 : ∃ (s : State), s.alive = true ∧ s.pow.perst = true :=
  ⟨{ up with pow := { upPow with perst := true } }, by decide +kernel⟩

theorem witness_powerAndPins_4 : ∃ (s : State) (rails : List Nat) (rail : Nat), s.pow.pwrgd = true ∧ s.pow.clocks = true ∧
    s.pow.browned = some rail ∧ (∀ r ∈ rails, 960 < r) :=
  ⟨{ up with pow := { upPow with browned := some 0 } }, [961], 0, by decide +kernel⟩

theorem witness_powerAndPins_5 : ∃ (s : State) (rails : List Nat), s.pow.pwrgd = true ∧ s.pow.clocks = true ∧ s.pow.browned = none ∧
    s.pow.brownCount = [] ∧ s.pow.railLow = [] ∧ (∀ r ∈ rails, 950 ≤ r) :=
  ⟨up, [950], by decide +kernel⟩

theorem witness_powerAndPins_6 : ∃ (s : State) (r rail : Nat), s.pow.pwrgd = true ∧ s.pow.clocks = true ∧ s.pow.browned = none ∧
    s.pow.brownCount = [(0, 9)] ∧ r < 880 ∧ rail = 0 :=
  ⟨{ up with pow := { upPow with brownCount := [(0, 9)] } }, 879, 0, by decide +kernel⟩

theorem witness_powerAndPins_7 : ∃ (s : State), s.alive = true ∧ s.onCrystal = true :=
  ⟨up, by decide +kernel⟩

theorem witness_powerAndPins_8 : ∃ (s : State), s.alive = true ∧ 1 ≤ s.ken.bootStage :=
  ⟨up, by decide +kernel⟩

theorem witness_powerAndPins_9 : ∃ (s : State), s.alive = true ∧ 1 ≤ s.ken.bootStage :=
  ⟨up, by decide +kernel⟩

theorem witness_powerAndPins_10 : ∃ (s : State) (kind arg v : Nat), s.alive = true ∧ 1 ≤ s.ken.bootStage ∧ kind ≠ 0 ∧
    s.sensor kind arg = some v :=
  ⟨up, 1, 0, 0, by decide +kernel⟩

theorem witness_monitorsAct_1 : ∃ (s : State), s.alive = true :=
  ⟨up, by decide +kernel⟩

theorem witness_monitorsAct_2 : ∃ (s : State) (die : Nat) (temp : ℤ), s.alive = true ∧ die < 12 ∧ temp < 800 ∧ die ∉ s.pow.dieHot :=
  ⟨up, 0, 799, by decide +kernel⟩

theorem witness_monitorsAct_3 : ∃ (s : State) (die : Nat) (temp : ℤ), s.alive = true ∧ die < 12 ∧ 840 ≤ temp ∧ temp < 920 :=
  ⟨up, 0, 919, by decide +kernel⟩

theorem witness_monitorsAct_4 : ∃ (s : State) (die : Nat) (temp : ℤ), s.alive = true ∧ die < 12 ∧
    die ∈ (readTemp die temp s).pow.throttling :=
  ⟨up, 0, 850, by decide +kernel⟩

theorem witness_monitorsAct_5 : ∃ (s : State) (die : Nat) (temp : ℤ), s.alive = true ∧ die < 12 ∧
    die ∉ (readTemp die temp s).pow.throttling ∧ temp < 784 :=
  ⟨up, 0, 783, by decide +kernel⟩

theorem witness_monitorsAct_6 : ∃ (s : State) (die : Nat) (temp : ℤ), s.alive = true ∧ die < 12 ∧
    die ∉ (readTemp die temp s).pow.throttling ∧ 784 ≤ temp :=
  ⟨up, 11, 784, by decide +kernel⟩

theorem witness_monitorsAct_7 : ∃ (s : State) (rail : Nat), s.alive = true ∧ rail < 5 ∧ 4 ≤ s.ken.bootStage :=
  ⟨up, 4, by decide +kernel⟩

theorem witness_monitorsAct_8 : ∃ (s : State) (cluster mv : Nat), s.alive = true ∧ cluster < 16 ∧ mv + 40 ≤ s.setPoint (railOf cluster) ∧
    cluster ∉ s.pow.stretched ∧ s.obs.traceOn = false :=
  ⟨up, 15, 0, by decide +kernel⟩

theorem witness_monitorsAct_9 : ∃ (s : State), s.alive = true :=
  ⟨up, by decide +kernel⟩

theorem witness_monitorsAct_10 : ∃ (s : State) (k : Nat), s.alive = true ∧ 16 ≤ k :=
  ⟨up, 16, by decide +kernel⟩

theorem witness_storageCommandsWork_1 : ∃ (s : State) (pair cid : Nat) (c : Cmd) (u : State), Ready s 0x0300 pair cid c ∧ c.count ≠ 0 ∧
    c.count ≤ 2048 ∧ c.volume ≤ 127 ∧ c.p8 34 = 0 ∧ c.dataIs (c.count * 4096) = true ∧ s.volStatus c.volume c.block c.count false = stOk ∧
    s.landing = true ∧ u = readRun c.volume c.block c.count s :=
  by refine ⟨landed (storing (magOf 3) [blockCmd 0x0300 1 1]), 2, 5, blockCmd 0x0300 1 1, _, ?_, ?_, ?_, ?_, ?_, ?_, ?_, ?_,
    rfl⟩ <;> decide +kernel

theorem witness_storageCommandsWork_2 : ∃ (s : State) (pair cid : Nat) (c : Cmd), Ready s 0x0300 pair cid c ∧ c.count ≠ 0 ∧
    c.count ≤ 2048 ∧ c.volume ≤ 127 ∧ c.p8 34 = 0 ∧ c.dataIs (c.count * 4096) = true ∧ s.volStatus c.volume c.block c.count false = stOk ∧
    s.landing = false :=
  ⟨storing (magOf 3) [blockCmd 0x0300 1 1], 2, 5, blockCmd 0x0300 1 1, by decide +kernel⟩

theorem witness_storageCommandsWork_3 : ∃ (s : State) (pair cid : Nat) (c : Cmd) (d : Bytes), Ready s 0x0301 pair cid c ∧ c.count ≠ 0 ∧
    c.count ≤ 2048 ∧ c.volume ≤ 127 ∧ c.p8 34 ≤ 3 ∧ c.dataIs (c.count * 4096) = true ∧ s.volStatus c.volume c.block c.count true = stOk ∧
    c.data = some d :=
  ⟨storing (magOf 3) [blockCmd 0x0301 1 1], 2, 5, blockCmd 0x0301 1 1, zeros 4096, by decide +kernel⟩

theorem witness_storageCommandsWork_4 : ∃ (s : State) (pair cid : Nat) (c : Cmd), Ready s 0x0301 pair cid c ∧ c.count ≠ 0 ∧
    c.count ≤ 2048 ∧ c.volume ≤ 127 ∧ c.p8 34 ≤ 3 ∧ c.dataIs (c.count * 4096) = true ∧ s.volStatus c.volume c.block c.count true = stOk ∧
    c.data = none :=
  ⟨storing (magOf 3) [{ blockCmd 0x0301 1 1 with data := none }], 2, 5, { blockCmd 0x0301 1 1 with data := none }, by decide +kernel⟩

theorem witness_storageCommandsWork_5 : ∃ (s : State) (pair cid : Nat) (c : Cmd), s.alive = true ∧
    (s.ken.cmds.find? fun c => c.writing && c.pair == pair && c.cid == cid) = some c ∧ s.hostRoom c.volume c.count = true ∧
    s.ken.fatal = false :=
  ⟨storing (magOf 3) [{ blockCmd 0x0301 1 1 with phase := .running }], 2, 5, { blockCmd 0x0301 1 1 with phase := .running },
    by decide +kernel⟩

theorem witness_storageCommandsWork_6 : ∃ (s : State) (pair cid : Nat) (c : Cmd), s.alive = true ∧
    (s.ken.cmds.find? fun c => c.writing && c.pair == pair && c.cid == cid) = some c ∧ s.hostRoom c.volume c.count = false :=
  ⟨storing fullMag [{ blockCmd 0x0301 1 1 with phase := .running }], 2, 5, { blockCmd 0x0301 1 1 with phase := .running },
    by decide +kernel⟩

theorem witness_storageCommandsWork_7 : ∃ (s : State) (pair cid : Nat) (c : Cmd), Ready s 0x0302 pair cid c ∧
    s.volStatus c.volume 0 0 false = stOk :=
  ⟨storing (magOf 3) [blockCmd 0x0302 0 0], 2, 5, blockCmd 0x0302 0 0, by decide +kernel⟩

theorem witness_storageCommandsWork_8 : ∃ (s : State) (pair cid : Nat) (c : Cmd), Ready s 0x0303 pair cid c ∧ c.count ≠ 0 ∧
    c.volume ≤ 127 ∧ c.p8 34 = 0 ∧ s.volStatus c.volume c.block c.count true = stOk :=
  ⟨storing (magOf 3) [blockCmd 0x0303 0 100], 2, 5, blockCmd 0x0303 0 100, by decide +kernel⟩

theorem witness_storageCommandsWork_9 : ∃ (s : State) (pair cid : Nat) (c : Cmd) (m : Magazine), Ready s 0x0304 pair cid c ∧
    c.volume ≤ 127 ∧ c.p8 34 ≤ 7 ∧ c.p64 40 ≠ 0 ∧ thas s.flash.volumes c.volume = false ∧ tget s.flash.magazines (c.p8 34) = some m ∧
    m.state = 3 ∧ (s.volumesOn m.sn).length < 16 ∧ ((tvals (s.volumesOn m.sn)).map Volume.blocks).sum + c.p64 40 ≤ m.userBlocks :=
  ⟨storing (magOf 3) [createVolume], 2, 5, createVolume, magOf 3, by decide +kernel⟩

theorem witness_storageCommandsWork_10 : ∃ (s : State) (pair cid : Nat) (c : Cmd) (v : Volume), Ready s 0x0305 pair cid c ∧
    tget s.flash.volumes c.volume = some v ∧ s.volumeBusy c c.volume = false ∧ s.openReels c.volume = false ∧
    s.runsOnVolume c.volume = false :=
  ⟨storing (magOf 3) [blockCmd 0x0305 0 0], 2, 5, blockCmd 0x0305 0 0, ⟨1, 0, 100, false⟩, by decide +kernel⟩

theorem witness_magazineAndReelCommandsWork_1 : ∃ (s : State) (pair cid : Nat) (c : Cmd) (l : LongOp) (m : Magazine),
    Enters s 0x0306 pair cid c (magTarget c s) (formatCheck c s) l ∧ tget s.flash.magazines (byteAt l.entry 32) = some m ∧
    l.removed = false ∧ s.flash.inhibit = true :=
  ⟨{ inhibited (magOf 3) [bayCmd 0x0306] with flash := noVolume (inhibited (magOf 3) []).flash }, 2, 5, bayCmd 0x0306,
    longOf (bayCmd 0x0306) (uMagazine 0), magOf 3, by decide +kernel⟩

theorem witness_magazineAndReelCommandsWork_2 : ∃ (s : State) (pair cid : Nat) (c : Cmd) (l : LongOp) (m : Magazine),
    Enters s 0x0306 pair cid c (magTarget c s) (formatCheck c s) l ∧ tget s.flash.magazines (byteAt l.entry 32) = some m ∧
    l.removed = false ∧ s.flash.inhibit = false ∧ m.formatted = true :=
  ⟨{ storing (magOf 3) [bayCmd 0x0306] with flash := noVolume (flashOf (magOf 3)) }, 2, 5, bayCmd 0x0306,
    longOf (bayCmd 0x0306) (uMagazine 0), magOf 3, by decide +kernel⟩

theorem witness_magazineAndReelCommandsWork_3 : ∃ (s : State) (pair cid : Nat) (c : Cmd) (l : LongOp) (m : Magazine),
    Enters s 0x0306 pair cid c (magTarget c s) (formatCheck c s) l ∧ tget s.flash.magazines (byteAt l.entry 32) = some m ∧
    l.removed = false ∧ s.flash.inhibit = false ∧ m.formatted = false :=
  ⟨{ storing (magOf 3) [bayCmd 0x0306] with flash := noVolume (flashOf freshMag) }, 2, 5, bayCmd 0x0306,
    longOf (bayCmd 0x0306) (uMagazine 0), freshMag, by decide +kernel⟩

theorem witness_magazineAndReelCommandsWork_4 : ∃ (s : State) (pair cid : Nat) (c : Cmd) (l : LongOp) (m : Magazine),
    Enters s 0x0307 pair cid c (magTarget c s) (foldCheck c s) l ∧ s.landing = true ∧
    tget s.flash.magazines (byteAt l.entry 32) = some m ∧ l.removed = false ∧ s.flash.inhibit = true :=
  ⟨landed (inhibited (magOf 3) [bayCmd 0x0307]), 2, 5, bayCmd 0x0307, longOf (bayCmd 0x0307) (uMagazine 0), magOf 3, by decide +kernel⟩

theorem witness_magazineAndReelCommandsWork_5 : ∃ (s : State) (pair cid : Nat) (c : Cmd) (l : LongOp) (m : Magazine) (u : State),
    Enters s 0x0307 pair cid c (magTarget c s) (foldCheck c s) l ∧ s.landing = true ∧
    tget s.flash.magazines (byteAt l.entry 32) = some m ∧ l.removed = false ∧ s.flash.inhibit = false ∧ u = wearCheck m.sn (dropLong
    l.handle s) (foldSome l ((dropLong l.handle s).slcUsed m.sn) (dropLong l.handle s)) ∧
    u.foldLeft (byteAt l.entry 32) (byteAt l.entry 33) m = 0 :=
  by refine ⟨landed (storing (magOf 4) [bayCmd 0x0307]), 2, 5, bayCmd 0x0307, longOf (bayCmd 0x0307) (uMagazine 0), magOf 4, _, ?_, ?_,
    ?_, ?_, ?_, rfl, ?_⟩ <;> decide +kernel

theorem witness_magazineAndReelCommandsWork_6 : ∃ (s : State) (pair cid : Nat) (c : Cmd) (l : LongOp) (m : Magazine) (u : State),
    Enters s 0x0307 pair cid c (magTarget c s) (foldCheck c s) l ∧ s.landing = true ∧
    tget s.flash.magazines (byteAt l.entry 32) = some m ∧ l.removed = false ∧ s.flash.inhibit = false ∧ u = wearCheck m.sn (dropLong
    l.handle s) (foldSome l ((dropLong l.handle s).slcUsed m.sn) (dropLong l.handle s)) ∧
    u.foldLeft (byteAt l.entry 32) (byteAt l.entry 33) m ≠ 0 :=
  by refine ⟨landed { storing tinyMag [bayCmd 0x0307] with flash := fullFlash }, 2, 5, bayCmd 0x0307,
    longOf (bayCmd 0x0307) (uMagazine 0), tinyMag, _, ?_, ?_, ?_, ?_, ?_, rfl, ?_⟩ <;> decide +kernel

theorem witness_magazineAndReelCommandsWork_7 : ∃ (s : State) (pair cid : Nat) (c : Cmd) (l : LongOp) (v : Volume) (b : Nat) (m :
    Magazine) (weak : List Nat), Enters s 0x0308 pair cid c (rebuildTarget c s) (rebuildCheck c s) l ∧ s.landing = true ∧
    tget s.flash.volumes (field l.entry 32 2) = some v ∧ s.volMag v = some (b, m) ∧ l.removed = false ∧ s.flash.inhibit = true ∧
    weak ≠ [] :=
  ⟨landed (inhibited (magOf 3) [rebuildCmd]), 2, 5, rebuildCmd, longOf rebuildCmd (uMagazine 0), ⟨1, 0, 100, false⟩, 0, magOf 3, [0],
    by decide +kernel⟩

theorem witness_magazineAndReelCommandsWork_8 : ∃ (s : State) (pair cid : Nat) (c : Cmd) (l : LongOp) (v : Volume) (b : Nat) (m :
    Magazine) (weak : List Nat) (r : State × LongOp × Bool), Enters s 0x0308 pair cid c (rebuildTarget c s) (rebuildCheck c s) l ∧
    s.landing = true ∧ tget s.flash.volumes (field l.entry 32 2) = some v ∧ s.volMag v = some (b, m) ∧ l.removed = false ∧
    (s.flash.inhibit = false ∨ weak = []) ∧ r = rebuildScan l true weak ((dropLong l.handle s).rebuildCount l.entry) (dropLong l.handle
    s) :=
  by refine ⟨landed (storing (magOf 3) [rebuildCmd]), 2, 5, rebuildCmd, longOf rebuildCmd (uMagazine 0), ⟨1, 0, 100, false⟩, 0, magOf 3,
    [], _, ?_, ?_, ?_, ?_, ?_, ?_, rfl⟩ <;> decide +kernel

theorem witness_magazineAndReelCommandsWork_9 : ∃ (s : State) (pair cid : Nat) (c : Cmd) (m : Magazine), Ready s 0x0309 pair cid c ∧
    tget s.flash.magazines (c.p8 32) = some m ∧ (m.state = 3 ∨ m.state = 4) :=
  ⟨storing (magOf 4) [bayCmd 0x0309], 2, 5, bayCmd 0x0309, magOf 4, by decide +kernel⟩

theorem witness_magazineAndReelCommandsWork_10 : ∃ (s : State) (pair cid : Nat) (c : Cmd), Ready s 0x030B pair cid c ∧ c.p8 32 ≤ 7 ∧
    c.exactBuf 128 = true :=
  ⟨up8 (reportCmd 7), 2, 5, reportCmd 7, by decide +kernel⟩

theorem witness_magazineAndReelCommandsWork_11 : ∃ (s : State) (pair cid : Nat) (c : Cmd) (r : Reel), Ready s 0x030A pair cid c ∧
    c.p8 32 = 0 ∧ c.openFields = true ∧ s.reelBusy c = false ∧ thas s.flash.volumes c.reelVolume = true ∧
    thas s.cat.reels c.reelKey = false ∧ s.openCount < 256 ∧ s.reelCount c.reelVolume < 1048576 ∧
    r = c.newReel s.tb (Config.fwRelease s.firmware) ∧ s.volStatus c.reelVolume r.start r.payloadOffset true = stOk ∧
    s.hostRoom c.reelVolume r.payloadOffset = true :=
  by refine ⟨storing (magOf 3) [reelCmd 0 0 0 []], 2, 5, reelCmd 0 0 0 [], _, ?_, ?_, ?_, ?_, ?_, ?_, ?_, ?_, rfl, ?_⟩ <;> decide +kernel

theorem witness_magazineAndReelCommandsWork_12 : ∃ (s : State) (pair cid : Nat) (c : Cmd), Ready s 0x030A pair cid c ∧ c.p8 32 = 1 ∧
    tget s.cat.reels c.reelKey = none :=
  ⟨storing (magOf 3) [reelCmd 1 1 64 absentSlate], 2, 5, reelCmd 1 1 64 absentSlate, by decide +kernel⟩

theorem witness_magazineAndReelCommandsWork_13 : ∃ (s : State) (pair cid : Nat) (c : Cmd) (r : Reel), Ready s 0x030A pair cid c ∧
    c.p8 32 = 1 ∧ tget s.cat.reels c.reelKey = some r ∧ s.reelBusy c = false ∧ r.sealed = true :=
  ⟨reeling true (reelCmd 1 1 64 absentSlate), 2, 5, reelCmd 1 1 64 absentSlate, reelOf true, by decide +kernel⟩

theorem witness_magazineAndReelCommandsWork_14 : ∃ (s : State) (pair cid : Nat) (c : Cmd) (r : Reel) (d : Bytes) (sls : List Bytes) (xs :
    List (Bool × Bytes)) (bl : List Bytes) (z : Bytes × Bytes × Nat), Ready s 0x030A pair cid c ∧ c.p8 32 = 1 ∧
    tget s.cat.reels c.reelKey = some r ∧ s.reelBusy c = false ∧ r.sealed = false ∧ c.hasData = true ∧ c.p16 38 = r.dataset ∧
    c.data = some d ∧ sls = pieces 64 (c.p32 72) d ∧ sls.length = c.p32 72 ∧
    d.length = roundUp (64 * c.p32 72 + (sls.map fun b => field b 20 4).sum) 4 ∧ c.dataLen = d.length ∧
    slatesGiven r.dataset (r.first + r.slates) sls = true ∧ r.slates + c.p32 72 ≤ r.slateCap ∧
    xs = splitSamples sls (d.drop (64 * c.p32 72)) ∧ bl = (packSamples r.blocks xs).closed.reverse ∧ r.blocks + bl.length ≤ r.blockCap ∧
    z = storeBlocks r.codec r.level (Config.fwRelease s.firmware) r.nextUnit bl ∧ s.volStatus c.reelVolume r.start z.2.2 true = stOk ∧
    s.hostRoom c.reelVolume (z.2.2 - r.nextUnit + 2 * c.p32 72 + 4) = true :=
  by refine ⟨reeling false (reelCmd 1 1 64 absentSlate), 2, 5, reelCmd 1 1 64 absentSlate, reelOf false, absentSlate, _, _, _, _, ?_, ?_,
    ?_, ?_, ?_, ?_, ?_, ?_, rfl, ?_, ?_, ?_, ?_, ?_, rfl, rfl, ?_, rfl, ?_⟩ <;> decide +kernel

theorem witness_magazineAndReelCommandsWork_15 : ∃ (s : State) (pair cid : Nat) (c : Cmd) (r : Reel), Ready s 0x030A pair cid c ∧
    c.p8 32 = 2 ∧ tget s.cat.reels c.reelKey = some r ∧ s.reelBusy c = false ∧ r.sealed = true :=
  ⟨reeling true (reelCmd 2 1 48 []), 2, 5, reelCmd 2 1 48 [], reelOf true, by decide +kernel⟩

theorem witness_magazineAndReelCommandsWork_16 : ∃ (s : State) (pair cid : Nat) (c : Cmd) (r : Reel) (s1 : State),
    Ready s 0x030A pair cid c ∧ c.p8 32 = 2 ∧ tget s.cat.reels c.reelKey = some r ∧ s.reelBusy c = false ∧ r.sealed = false ∧
    c.exactBuf 48 = true ∧ c.p16 38 = r.dataset ∧ s.volStatus c.reelVolume r.start (r.nextUnit + 1) true = stOk ∧
    s.hostRoom c.reelVolume 2 = true ∧ s1 = readRun c.reelVolume r.start r.nextUnit (writeBytes c.reelVolume r.start 2
    (({ r with sealed := true, footer := r.nextUnit } : Reel).header c.reelNo) s) :=
  by refine ⟨reeling false (reelCmd 2 1 48 []), 2, 5, reelCmd 2 1 48 [], reelOf false, _, ?_, ?_, ?_, ?_, ?_, ?_, ?_, ?_, ?_,
    rfl⟩ <;> decide +kernel

theorem witness_magazineOperationsComplete_1 : ∃ (s : State) (pair cid : Nat) (c : Cmd) (m : Magazine),
    Starts s 0x0306 pair cid c (uMagazine (c.p8 32)) ∧ c.p8 32 ≤ 7 ∧ tget s.flash.magazines (c.p8 32) = some m ∧
    (m.state = 2 ∨ m.state = 3 ∨ m.state = 4) ∧ s.volumesOn m.sn = [] ∧ s.flash.inhibit = false :=
  ⟨{ storing (magOf 3) [bayCmd 0x0306] with flash := noVolume (flashOf (magOf 3)) }, 2, 5, bayCmd 0x0306, magOf 3, by decide +kernel⟩

theorem witness_magazineOperationsComplete_2 : ∃ (s : State) (pair cid : Nat) (c : Cmd) (m : Magazine),
    Starts s 0x0307 pair cid c (uMagazine (c.p8 32)) ∧ c.p8 32 ≤ 7 ∧ c.p8 33 ≤ 100 ∧ tget s.flash.magazines (c.p8 32) = some m ∧
    (m.state = 3 ∨ m.state = 4) ∧ s.flash.inhibit = false ∧ s.landing = true ∧ s.foldLeft (c.p8 32) (c.p8 33) m = 0 :=
  ⟨landed (storing (magOf 4) [bayCmd 0x0307]), 2, 5, bayCmd 0x0307, magOf 4, by decide +kernel⟩

theorem witness_magazineOperationsComplete_3 : ∃ (s : State) (pair cid : Nat) (c : Cmd) (v : Volume) (b : Nat) (m : Magazine),
    Starts s 0x0308 pair cid c (rebuildTarget c s) ∧ c.volume ≤ 127 ∧ eDataForm c.entry = 1 ∧ tget s.flash.volumes c.volume = some v ∧
    s.volMag v = some (b, m) ∧ m.takesCommands = true ∧ c.p64 40 + s.rebuildCount c.entry ≤ v.blocks ∧ s.flash.inhibit = false ∧
    s.landing = true ∧ s.rebuildCount c.entry < 2 ^ 40 ∧ (extentsOf ((s.lostIn c.volume (c.p64 40) (s.rebuildCount c.entry)).map (c.p64 40
    + ·))).length ≤ eDataLen c.entry / 16 :=
  ⟨landed (storing (magOf 3) [rebuildCmd]), 2, 5, rebuildCmd, ⟨1, 0, 100, false⟩, 0, magOf 3, by decide +kernel⟩

theorem witness_magazineOperationsComplete_4 : ∃ (s : State) (pair cid : Nat) (c : Cmd) (m : Magazine), Ready s 0x0309 pair cid c ∧
    c.p8 32 ≤ 7 ∧ tget s.flash.magazines (c.p8 32) = some m ∧ (m.state = 3 ∨ m.state = 4) :=
  ⟨storing (magOf 4) [bayCmd 0x0309], 2, 5, bayCmd 0x0309, magOf 4, by decide +kernel⟩

theorem witness_magazineOperationsComplete_5 : ∃ (s : State) (bay : Nat) (m : Magazine) (pair cid : Nat), s.alive = true ∧
    tget s.flash.magazines bay = some m ∧ m.state = 5 ∧ m.quiescing = true ∧ m.ejectBy = some (pair, cid) ∧ s.flash.inhibit = false ∧
    (∀ c ∈ s.ken.cmds, (c.writing && s.writesTo m.sn c) = false) ∧ s.allVerified m.sn = true :=
  ⟨mag { magOf 5 with quiescing := true, ejectBy := some (2, 5) }, 0, { magOf 5 with quiescing := true, ejectBy := some (2, 5) }, 2, 5,
    by decide +kernel⟩

theorem witness_magazineOperationsComplete_6 : ∃ (s : State) (pair cid : Nat) (c : Cmd), Ready s 0x030B pair cid c ∧ c.p8 32 ≤ 7 ∧
    c.exactBuf 128 = true :=
  ⟨up8 (reportCmd 7), 2, 5, reportCmd 7, by decide +kernel⟩

theorem witness_magazineOperationsComplete_7 : ∃ (s : State) (pair cid : Nat) (c : Cmd), Ready s 0x030B pair cid c ∧ c.p8 32 = 0xFF ∧
    c.exactBuf 1024 = true :=
  ⟨up8 reportAll, 2, 5, reportAll, by decide +kernel⟩

theorem witness_reelAppendCompletes_1 : ∃ (s : State) (pair cid : Nat) (c : Cmd) (r : Reel), Ready s 0x030A pair cid c ∧ c.p8 32 = 0 ∧
    c.openFields = true ∧ s.reelBusy c = false ∧ thas s.flash.volumes c.reelVolume = true ∧ thas s.cat.reels c.reelKey = false ∧
    s.openCount < 256 ∧ s.reelCount c.reelVolume < 1048576 ∧ r = c.newReel s.tb (Config.fwRelease s.firmware) ∧
    s.volStatus c.reelVolume r.start r.payloadOffset true = stOk ∧ s.hostRoom c.reelVolume r.payloadOffset = true :=
  by refine ⟨storing (magOf 3) [reelCmd 0 0 0 []], 2, 5, reelCmd 0 0 0 [], _, ?_, ?_, ?_, ?_, ?_, ?_, ?_, ?_, rfl, ?_⟩ <;> decide +kernel

theorem witness_reelAppendCompletes_2 : ∃ (s : State) (pair cid : Nat) (c : Cmd) (r : Reel) (d : Bytes) (sls bl : List Bytes) (z : Nat),
    Ready s 0x030A pair cid c ∧ c.p8 32 = 1 ∧ tget s.cat.reels c.reelKey = some r ∧ s.reelBusy c = false ∧ r.sealed = false ∧
    c.hasData = true ∧ c.p16 38 = r.dataset ∧ c.data = some d ∧ sls = pieces 64 (c.p32 72) d ∧ sls.length = c.p32 72 ∧
    d.length = roundUp (64 * c.p32 72 + (sls.map fun b => field b 20 4).sum) 4 ∧ c.dataLen = d.length ∧
    slatesGiven r.dataset (r.first + r.slates) sls = true ∧ r.slates + c.p32 72 ≤ r.slateCap ∧
    bl = (packSamples r.blocks (splitSamples sls (d.drop (64 * c.p32 72)))).closed.reverse ∧ r.blocks + bl.length ≤ r.blockCap ∧
    z = (storeBlocks r.codec r.level (Config.fwRelease s.firmware) r.nextUnit bl).2.2 ∧ s.volStatus c.reelVolume r.start z true = stOk ∧
    s.hostRoom c.reelVolume (z - r.nextUnit + 2 * c.p32 72 + 4) = true :=
  by refine ⟨reeling false (reelCmd 1 1 64 absentSlate), 2, 5, reelCmd 1 1 64 absentSlate, reelOf false, absentSlate, _, _, _, ?_, ?_, ?_,
    ?_, ?_, ?_, ?_, ?_, rfl, ?_, ?_, ?_, ?_, ?_, rfl, ?_, rfl, ?_⟩ <;> decide +kernel

theorem witness_reelAppendCompletes_3 : ∃ (s : State) (pair cid : Nat) (c : Cmd) (r : Reel), Ready s 0x030A pair cid c ∧ c.p8 32 = 2 ∧
    tget s.cat.reels c.reelKey = some r ∧ s.reelBusy c = false ∧ r.sealed = false ∧ c.exactBuf 48 = true ∧ c.p16 38 = r.dataset ∧
    s.volStatus c.reelVolume r.start (r.nextUnit + 1) true = stOk ∧ s.hostRoom c.reelVolume 2 = true :=
  ⟨reeling false (reelCmd 2 1 48 []), 2, 5, reelCmd 2 1 48 [], reelOf false, by decide +kernel⟩

theorem witness_magazinesComeAndGo_1 : ∃ (s : State) (bay : Nat), s.alive = true ∧ thas s.flash.magazines bay = false ∧
    bay ∉ s.flash.arriving :=
  ⟨up, 7, by decide +kernel⟩

theorem witness_magazinesComeAndGo_2 : ∃ (s : State) (bay : Nat), s.alive = true ∧ bay ∈ s.flash.arriving ∧ 5 ≤ s.ken.bootStage :=
  ⟨withFlash { Flash.atReset with arriving := [7] }, 7, by decide +kernel⟩

theorem witness_magazinesComeAndGo_3 : ∃ (s : State) (bay : Nat) (dies : List Nat) (g : DieReport) (rates : List Nat), s.alive = true ∧
    bay ∈ s.flash.arriving ∧ 5 ≤ s.ken.bootStage ∧ geometryOk dies g = true ∧ (∀ r ∈ s.fitRates bay rates, r ≠ 0) :=
  ⟨withFlash { Flash.atReset with arriving := [7] }, 7, List.replicate 8 2, smallDie, List.replicate 8 1, by decide +kernel⟩

theorem witness_magazinesComeAndGo_4 : ∃ (s : State) (bay : Nat) (m : Magazine) (u : State), s.alive = true ∧
    tget s.flash.magazines bay = some m ∧ m.state = 1 ∧ tget s.flash.incoming bay = none ∧ u =
    { s with flash := { s.flash with volumes := tmapv s.flash.volumes fun _ v => if v.sn == m.sn then { v with bay := bay } else v } } :=
  by refine ⟨mag (magOf 1), 0, magOf 1, _, ?_, ?_, ?_, ?_, rfl⟩ <;> decide +kernel

theorem witness_magazinesComeAndGo_5 : ∃ (s : State) (bay : Nat) (m : Magazine), s.alive = true ∧ tget s.flash.magazines bay = some m ∧
    (m.state = 3 ∨ m.state = 4) :=
  ⟨mag (magOf 4), 0, magOf 4, by decide +kernel⟩

theorem witness_magazinesComeAndGo_6 : ∃ (s : State) (bay : Nat) (m : Magazine), s.alive = true ∧ tget s.flash.magazines bay = some m ∧
    m.state = 5 ∧ m.quiescing = false :=
  ⟨mag (magOf 5), 0, magOf 5, by decide +kernel⟩

theorem witness_magazinesComeAndGo_7 : ∃ (s : State) (bay : Nat) (m : Magazine), s.alive = true ∧ tget s.flash.magazines bay = some m ∧
    m.state = 5 ∧ m.quiescing = true ∧ s.flash.inhibit = false ∧ (∀ c ∈ s.ken.cmds, (c.writing && s.writesTo m.sn c) = false) :=
  ⟨mag { magOf 5 with quiescing := true }, 0, { magOf 5 with quiescing := true }, by decide +kernel⟩

theorem witness_magazinesComeAndGo_8 : ∃ (s : State) (bay : Nat) (m : Magazine), s.alive = true ∧ tget s.flash.magazines bay = some m ∧
    m.state = 5 ∧ m.quiescing = true ∧ s.flash.inhibit = true :=
  ⟨inhibited { magOf 5 with quiescing := true } [], 0, { magOf 5 with quiescing := true }, by decide +kernel⟩

theorem witness_magazinesComeAndGo_9 : ∃ (s : State) (bay : Nat) (m : Magazine), s.alive = true ∧ tget s.flash.magazines bay = some m ∧
    m.state ≠ 6 :=
  ⟨mag (magOf 7), 0, magOf 7, by decide +kernel⟩

theorem witness_magazinesComeAndGo_10 : ∃ (s : State) (bay : Nat) (m : Magazine), s.alive = true ∧ tget s.flash.magazines bay = some m ∧
    m.powered = true :=
  ⟨mag (magOf 3), 0, magOf 3, by decide +kernel⟩

theorem witness_magazinesComeAndGo_11 : ∃ (s : State) (bay : Nat) (m : Magazine), s.alive = true ∧ bay ∉ s.flash.arriving ∧
    tget s.flash.magazines bay = some m ∧ m.state = 6 :=
  ⟨mag (magOf 6), 0, magOf 6, by decide +kernel⟩

theorem witness_flashEventsWork_1 : ∃ (s : State) (volume block : Nat) (reads : List (Option FlashRead)) (v : Volume) (k b : Nat) (m :
    Magazine) (n member : Nat) (u : State), s.alive = true ∧ tget s.flash.volumes volume = some v ∧
    tget s.flash.home (blockKey volume block) = some k ∧ s.volMag v = some (b, m) ∧ n = correction (((tget s.flash.stripes k).map fun st
    => !st.parity.isEmpty).getD false) volume block reads ∧ member = memberOf m.planes (s.wordIndex (blockKey volume block)) ∧ u = emits
    (retryOps b (m.flashPlace (k % 2 ^ 32) member) n) (modMag v.sn (fun m => m.countRead (histBucket n)) s) ∧ n < 8 :=
  by refine ⟨withFlash (holding (stripeOf false true true [0])), 0, 0, reads 2, ⟨1, 0, 100, false⟩, 2 ^ 32, 0, magOf 3, _, _, _, ?_, ?_,
    ?_, ?_, rfl, rfl, rfl, ?_⟩ <;> decide +kernel

theorem witness_flashEventsWork_2 : ∃ (s : State) (volume block : Nat) (reads : List (Option FlashRead)) (v : Volume) (k b : Nat) (m :
    Magazine) (n member : Nat) (u : State), s.alive = true ∧ tget s.flash.volumes volume = some v ∧
    tget s.flash.home (blockKey volume block) = some k ∧ s.volMag v = some (b, m) ∧ n = correction (((tget s.flash.stripes k).map fun st
    => !st.parity.isEmpty).getD false) volume block reads ∧ member = memberOf m.planes (s.wordIndex (blockKey volume block)) ∧ u = emits
    (retryOps b (m.flashPlace (k % 2 ^ 32) member) n) (modMag v.sn (fun m => m.countRead (histBucket n)) s) ∧ 8 ≤ n ∧ n ≠ 18 :=
  by refine ⟨withFlash (holding (stripeOf false true true [0])), 0, 0, reads 8, ⟨1, 0, 100, false⟩, 2 ^ 32, 0, magOf 3, _, _, _, ?_, ?_,
    ?_, ?_, rfl, rfl, rfl, ?_⟩ <;> decide +kernel

theorem witness_flashEventsWork_3 : ∃ (s : State) (volume block : Nat) (reads : List (Option FlashRead)) (v : Volume) (k b : Nat) (m :
    Magazine) (n member : Nat) (u : State), s.alive = true ∧ tget s.flash.volumes volume = some v ∧
    tget s.flash.home (blockKey volume block) = some k ∧ s.volMag v = some (b, m) ∧ n = correction (((tget s.flash.stripes k).map fun st
    => !st.parity.isEmpty).getD false) volume block reads ∧ member = memberOf m.planes (s.wordIndex (blockKey volume block)) ∧ u = emits
    (retryOps b (m.flashPlace (k % 2 ^ 32) member) n) (modMag v.sn (fun m => m.countRead (histBucket n)) s) ∧ n = 18 :=
  by refine ⟨withFlash (holding (stripeOf false true true [0])), 0, 0, [], ⟨1, 0, 100, false⟩, 2 ^ 32, 0, magOf 3, _, _, _, ?_, ?_, ?_,
    ?_, rfl, rfl, rfl, rfl⟩ <;> decide +kernel

theorem witness_flashEventsWork_4 : ∃ (s : State) (k : Nat) (st : Stripe) (b : Nat) (m : Magazine) (u : State), s.alive = true ∧
    tget s.flash.stripes k = some st ∧ s.magOf (stripeSn k) = some (b, m) ∧ st.closed = true ∧ st.verified = false ∧ u = (List.range
    16).foldl (fun (t : State) (i : Nat) => dieOp .read b m (k % 2 ^ 32) i t) s :=
  by refine ⟨withFlash (holding (stripeOf false true false [0])), 2 ^ 32, stripeOf false true false [0], 0, magOf 3, _, ?_, ?_, ?_, ?_,
    ?_, rfl⟩ <;> decide +kernel

theorem witness_flashEventsWork_5 : ∃ (s : State) (k die : Nat) (st : Stripe) (b : Nat) (m : Magazine) (hit : List FlashWord) (u : State),
    s.alive = true ∧ tget s.flash.stripes k = some st ∧ s.magOf (stripeSn k) = some (b, m) ∧ st.closed = false ∧
    tgetD m.sparesUsed (m.dieOfMember (k % 2 ^ 32) die) 0 < m.spares ∧ hit = s.wordsOn k m.planes [die] ∧ u = recordErr (flashErr b (die /
    2) 0x0302 clsCorrected ((hit.map FlashWord.key).headD 0) (m.dieOfMember (k % 2 ^ 32) die) (m.blockNo (k % 2 ^ 32)) (s.erases m k))
    (rewriteWords k st.slc st.cls hit (retireBlock k die s)) :=
  by refine ⟨withFlash (holding (stripeOf false false false [0])), 2 ^ 32, 0, stripeOf false false false [0], 0, magOf 3, _, _, ?_, ?_,
    ?_, ?_, ?_, rfl, rfl⟩ <;> decide +kernel

theorem witness_flashEventsWork_6 : ∃ (s r : State) (bay : Nat) (m : Magazine), s.alive = true ∧ r = relocateWeak s ∧
    tget r.flash.magazines bay = some m ∧ r.mayWork m = true ∧ r.landing = true ∧ (∀ l ∈ r.ken.longOps, ¬ (l.opcode = 0x0307 ∧
    l.target = uMagazine bay)) ∧ m.sn ∉ r.flash.foldOn ∧ r.slcUsed m.sn < r.slcCapacity bay m * r.raw 0x07 bay 0x03 50 / 100 :=
  by refine ⟨landed (mag (magOf 3)), _, 0, magOf 3, ?_, rfl, ?_⟩ <;> decide +kernel

theorem witness_flashEventsWork_7 : ∃ (s r : State) (bay : Nat) (m : Magazine), s.alive = true ∧ r = relocateWeak s ∧
    tget r.flash.magazines bay = some m ∧ r.mayWork m = true ∧ r.landing = true ∧ (∀ l ∈ r.ken.longOps, ¬ (l.opcode = 0x0307 ∧
    l.target = uMagazine bay)) ∧ m.sn ∈ r.flash.foldOn ∧ r.slcUsed m.sn ≤ r.slcCapacity bay m * r.raw 0x07 bay 0x03 50 / 100 / 2 :=
  by refine ⟨landed (withFlash { flashOf (magOf 3) with foldOn := [1] }), _, 0, magOf 3, ?_, rfl, ?_⟩ <;> decide +kernel

theorem witness_flashEventsWork_8 : ∃ (s r : State) (bay : Nat) (m : Magazine), s.alive = true ∧ r = relocateWeak s ∧
    tget r.flash.magazines bay = some m ∧ r.mayWork m = true ∧ r.landing = true ∧ (∀ l ∈ r.ken.longOps, ¬ (l.opcode = 0x0307 ∧
    l.target = uMagazine bay)) ∧ m.sn ∈ r.flash.foldOn ∧ r.slcCapacity bay m * r.raw 0x07 bay 0x03 50 / 100 / 2 < r.slcUsed m.sn :=
  by refine ⟨landed (withFlash
    { holding (stripeOf true true true [0]) with foldOn := [1], magazines := [(0, { magOf 3 with userBlocks := 10 })] }), _, 0,
    { magOf 3 with userBlocks := 10 }, ?_, rfl, ?_⟩ <;> decide +kernel

theorem witness_flashEventsWork_9 : ∃ (s r : State) (bay group : Nat) (m : Magazine), s.alive = true ∧ r = relocateWeak s ∧
    tget r.flash.magazines bay = some m ∧ r.mayWork m = true ∧ m.sn * 256 + group ∈ r.flash.gcOn ∧
    r.raw 0x07 bay 0x05 24 ≤ r.freeInGroup m group :=
  by refine ⟨withFlash { flashOf (magOf 3) with gcOn := [256] }, _, 0, 0, magOf 3, ?_, rfl, ?_⟩ <;> decide +kernel

theorem witness_flashEventsWork_10 : ∃ (s r : State) (bay group : Nat) (m : Magazine) (k : Nat), s.alive = true ∧ r = relocateWeak s ∧
    tget r.flash.magazines bay = some m ∧ r.mayWork m = true ∧ m.sn * 256 + group ∈ r.flash.gcOn ∧
    r.freeInGroup m group < r.raw 0x07 bay 0x05 24 ∧ r.victimOf m group = some k :=
  by refine ⟨withFlash gcFlash, _, 0, 0, bigMag, 2 ^ 32, ?_, rfl, ?_⟩ <;> decide +kernel

theorem witness_flashEventsWork_11 : ∃ (s : State) (bay : Nat) (m : Magazine) (k : Nat), s.alive = true ∧
    tget s.flash.magazines bay = some m ∧ s.mayWork m = true ∧ s.coldest m.sn = some k ∧
    s.raw 0x07 bay 0x06 1000 < s.eraseMax m - s.eraseMin m :=
  ⟨withFlash wornFlash, 0, magOf 3, 2 ^ 32, by decide +kernel⟩

theorem witness_flashEventsWork_12 : ∃ (s : State) (volume block k : Nat) (st : Stripe), s.alive = true ∧
    tget s.flash.copies (blockKey volume block) = some k ∧ tget s.flash.stripes k = some st ∧ st.closed = true ∧ st.verified = true :=
  ⟨withFlash { holding (stripeOf false true true [0]) with copies := [(0, 2 ^ 32)] }, 0, 0, 2 ^ 32, stripeOf false true true [0],
    by decide +kernel⟩

theorem witness_flashEventsWork_13 : ∃ (s : State), s.alive = true :=
  ⟨up, by decide +kernel⟩

theorem witness_flashEventsWork_14 : ∃ (s : State) (pct : Nat) (u : State), s.alive = true ∧ s.flash.inhibit = false ∧ u = failWrites (fun
    _ => true) stSupplyLow (failAppends (fun _ => true) stSupplyLow
    { s with flash := { s.flash with pwrWarn := true, railLow := decide (pct < s.inhibitPct) } }) :=
  by refine ⟨up, 89, _, ?_, ?_, rfl⟩ <;> decide +kernel

theorem witness_flashEventsWork_15 : ∃ (s u : State), s.alive = true ∧ s.flash.inhibit = true ∧ u = completeFlushes (emit (.pin "WP#" 1)
    (raiseEvent 0x0006 uPackage 1 { s with flash := { s.flash with inhibit := false, pwrWarn := false, railLow := false } })) :=
  by refine ⟨withFlash { Flash.atReset with inhibit := true }, _, ?_, ?_, rfl⟩ <;> decide +kernel

theorem witness_flashEventsWork_16 : ∃ (s : State) (pct : Nat), s.alive = true ∧ pct < s.raw 0x07 0x0100 0x02 90 :=
  ⟨up, 89, by decide +kernel⟩

theorem witness_catalogUnload_1 : ∃ (s : State) (pair cid : Nat) (c : Cmd), Ready s 0x0101 pair cid c ∧
    thas s.cat.committed (c.p16 32) = false ∧ thas s.cat.staged (c.p16 32) = false ∧ thas s.cat.summaries (c.p16 32) = false :=
  ⟨withCmd (datasetCmd 0x0101 1), 1, 5, datasetCmd 0x0101 1, by decide +kernel⟩

theorem witness_catalogUnload_2 : ∃ (s : State) (pair cid : Nat) (c : Cmd), Ready s 0x0101 pair cid c ∧ (thas s.cat.committed (c.p16 32)
    || thas s.cat.staged (c.p16 32) || thas s.cat.summaries (c.p16 32)) = true ∧
    (s.datasetInUse (c.p16 32) || s.loadingCatalog (c.p16 32)) = true :=
  ⟨withPipe (pipeOf 3 []) (catalogued [datasetCmd 0x0101 1]), 1, 5, datasetCmd 0x0101 1, by decide +kernel⟩

theorem witness_catalogUnload_3 : ∃ (s : State) (pair cid : Nat) (c : Cmd), Ready s 0x0101 pair cid c ∧ (thas s.cat.committed (c.p16 32)
    || thas s.cat.staged (c.p16 32) || thas s.cat.summaries (c.p16 32)) = true ∧ s.datasetInUse (c.p16 32) = false ∧
    s.loadingCatalog (c.p16 32) = false :=
  ⟨catalogued [datasetCmd 0x0101 1], 1, 5, datasetCmd 0x0101 1, by decide +kernel⟩

theorem witness_pipelineDelete_1 : ∃ (s : State) (pair cid : Nat) (c : Cmd) (p : Pipeline), Ready s 0x0203 pair cid c ∧
    tget s.pipes (c.p8 32) = some p ∧ (p.state = 1 ∨ p.state = 5 ∨ p.state = 6) :=
  ⟨withPipe (pipeOf 5 []) (withCmd (byteCmd 1 0x0203 0)), 1, 5, byteCmd 1 0x0203 0, pipeOf 5 [], by decide +kernel⟩

theorem witness_catalogCommandsWork_1 : ∃ (s : State) (pair cid : Nat) (c : Cmd) (l : LongOp) (r : Nat × LongOp × State) (g : Staged),
    Enters s 0x0100 pair cid c (catalogTarget c s) (catalogCheck c s) l ∧
    r = loadSome l l.data.length (noteDataset l (dropLong l.handle s)) ∧ r.1 = stOk ∧
    tget r.2.2.cat.staged (field l.entry 32 2) = some g ∧ bitOf (byteAt l.entry 56) 1 = false :=
  by refine ⟨withCmd (loadCmd 1), 1, 5, loadCmd 1, longOf (loadCmd 1) (2 ^ 20 + 1), _, stagedOne, ?_, rfl, ?_⟩ <;> decide +kernel

theorem witness_catalogCommandsWork_2 : ∃ (s : State) (pair cid : Nat) (c : Cmd) (l : LongOp) (r : Nat × LongOp × State) (g : Staged),
    Enters s 0x0100 pair cid c (catalogTarget c s) (catalogCheck c s) l ∧
    r = loadSome l l.data.length (noteDataset l (dropLong l.handle s)) ∧ r.1 = stOk ∧
    tget r.2.2.cat.staged (field l.entry 32 2) = some g ∧ bitOf (byteAt l.entry 56) 1 = true ∧ (∃ sl rest, g.slices = sl :: rest ∧
    sl.total = g.slices.length) ∧ (thas r.2.2.cat.committed (field l.entry 32 2) = true ∨ r.2.2.cat.committed.length < 4096) ∧
    r.2.2.runsWith (field l.entry 32 2) g ≤ 16777216 :=
  by refine ⟨withCmd (loadCmd 3), 1, 5, loadCmd 3, longOf (loadCmd 3) (2 ^ 20 + 1), _, stagedOne, ?_, rfl, ?_, ?_, ?_, ⟨_, _, rfl, rfl⟩,
    ?_⟩ <;> decide +kernel

theorem witness_catalogCommandsWork_3 : ∃ (s : State) (pair cid : Nat) (c : Cmd) (d : Bytes) (es : List Route) (total : Nat) (sum :
    Summary) (kept : List Summary), Ready s 0x0103 pair cid c ∧ c.data = some d ∧ c.p32 48 ≠ 0 ∧ c.dataIs (16 * c.p32 48) = true ∧
    d.length = 16 * c.p32 48 ∧ parseRoutes 0 (pieces 16 (c.p32 48) d) = some (es, total) ∧
    (thas s.cat.committed (c.p16 32) = true ∨ thas s.cat.staged (c.p16 32) = true) ∧ s.sizesOf (c.p16 32) (c.p64 40) ≠ [] ∧
    (∀ n ∈ s.sizesOf (c.p16 32) (c.p64 40), n = total) ∧ s.datasetInUse (c.p16 32) = false ∧
    sum = { fromBatch := 0, version := c.p64 40, size := total, entries := es } ∧ kept = [] ∧ s.routesWith (c.p16 32) [sum] ≤ 1048576 :=
  by refine ⟨catalogued [summaryCmd], 1, 5, summaryCmd, putLE 8 0 ++ putLE 6 1 ++ putLE 2 3, [⟨0, 1, 3⟩], 1, _, _, ?_, ?_, ?_, ?_, ?_, ?_,
    ?_, ?_, ?_, ?_, rfl, rfl, ?_⟩ <;> decide +kernel

theorem witness_catalogCommandsWork_4 : ∃ (s : State) (pair cid : Nat) (c : Cmd) (d : Bytes) (es : List Route) (total : Nat) (sum :
    Summary) (kept : List Summary), Ready s 0x0103 pair cid c ∧ c.data = some d ∧ c.p32 48 ≠ 0 ∧ c.dataIs (16 * c.p32 48) = true ∧
    d.length = 16 * c.p32 48 ∧ parseRoutes 0 (pieces 16 (c.p32 48) d) = some (es, total) ∧
    (thas s.cat.committed (c.p16 32) = true ∨ thas s.cat.staged (c.p16 32) = true) ∧ s.sizesOf (c.p16 32) (c.p64 40) ≠ [] ∧
    (∀ n ∈ s.sizesOf (c.p16 32) (c.p64 40), n = total) ∧ s.datasetInUse (c.p16 32) = true ∧ s.startedOf (c.p16 32) ≤ c.p64 56 ∧
    sum = { fromBatch := c.p64 56, version := c.p64 40, size := total, entries := es } ∧ kept = (tgetD s.cat.summaries (c.p16 32)
    []).filter (fun m => decide (m.fromBatch < c.p64 56)) ∧ s.routesWith (c.p16 32) (kept ++ [sum]) ≤ 1048576 :=
  by refine ⟨withPipe (pipeOf 3 []) (catalogued [summaryCmd]), 1, 5, summaryCmd, putLE 8 0 ++ putLE 6 1 ++ putLE 2 3, [⟨0, 1, 3⟩], 1, _,
    _, ?_, ?_, ?_, ?_, ?_, ?_, ?_, ?_, ?_, ?_, ?_, rfl, rfl, ?_⟩ <;> decide +kernel

theorem witness_catalogCommandsWork_5 : ∃ (s : State) (pair cid : Nat) (c : Cmd) (k : Catalog) (m : Summary) (own : Nat) (r : Run),
    Ready s 0x0102 pair cid c ∧ c.exactBuf 32 = true ∧ tget s.cat.committed (c.p16 32) = some k ∧ c.p64 40 < k.size ∧
    s.newestUser (c.p16 32) = none ∧ s.summaryFor (c.p16 32) (2 ^ 64) = some m ∧ m.owner (c.p64 40) = some own ∧
    runOf k.runs (c.p64 40) = some r :=
  ⟨catalogued [lookupCmd], 1, 5, lookupCmd, catOne, ⟨0, 7, 1, [⟨0, 1, 0⟩]⟩, 0, ⟨0, 1, 0, 0, 0⟩, by decide +kernel⟩

theorem witness_pipelineCommandsWork_1 : ∃ (s : State) (pair cid : Nat) (c : Cmd) (d : Bytes) (k : Decl), Ready s 0x0200 pair cid c ∧
    thas s.pipes (c.p8 32) = false ∧ c.hasData = true ∧ c.data = some d ∧ d.length = c.dataLen ∧ parseDecl (c.p8 32) d = some k ∧
    k.valid = true ∧ k.opcat = Config.opcatVersion s.firmware % 2 ^ 32 :=
  by refine ⟨withCmd declareCmd, 1, 5, declareCmd, declBytes, declRead, ⟨rfl, findCmd_head _ [] up 1 5 (by decide +kernel), rfl,
    by decide +kernel, rfl, rfl⟩, ?_, ?_, rfl, ?_, some_getD (parseDecl (declareCmd.p8 32) declBytes) (declOf []) (by decide +kernel), ?_,
    (declRead_opcat (declareCmd.p8 32) declBytes declRead (some_getD (parseDecl (declareCmd.p8 32) declBytes) (declOf [])
    (by decide +kernel))).trans (field_putLE declHead declTail 4 (Config.opcatVersion State.reset.firmware))⟩ <;> decide +kernel

theorem witness_pipelineCommandsWork_2 : ∃ (s : State) (pair cid : Nat) (c : Cmd) (p : Pipeline), Ready s 0x0201 pair cid c ∧
    tget s.pipes (c.p8 32) = some p ∧ s.startStatus (c.p8 32) p = stOk :=
  ⟨{ withPipe (servedPipe 1) (catalogued [byteCmd 1 0x0201 0]) with fab := nodeZero }, 1, 5, byteCmd 1 0x0201 0, servedPipe 1,
    by decide +kernel⟩

theorem witness_pipelineCommandsWork_3 : ∃ (s : State) (pair cid : Nat) (c : Cmd) (p : Pipeline), Ready s 0x0202 pair cid c ∧
    tget s.pipes (c.p8 32) = some p ∧ c.p8 33 ≤ 1 ∧ p.stop = none ∧ (p.state = 2 ∨ p.state = 3) ∧
    (bitOf (c.p8 33) 0 = true ∨ (p.state = 2 ∧ c.p64 40 = 0)) :=
  ⟨withPipe (pipeOf 3 []) (withCmd (stopCmd 1 0)), 1, 5, stopCmd 1 0, pipeOf 3 [], by decide +kernel⟩

theorem witness_pipelineCommandsWork_4 : ∃ (s : State) (pair cid : Nat) (c : Cmd) (p : Pipeline), Ready s 0x0202 pair cid c ∧
    tget s.pipes (c.p8 32) = some p ∧ c.p8 33 ≤ 1 ∧ p.stop = none ∧ (p.state = 2 ∨ p.state = 3) ∧ bitOf (c.p8 33) 0 = false ∧
    p.state = 3 ∧ c.p64 40 = 0 :=
  ⟨withPipe (pipeOf 3 []) (withCmd (stopCmd 0 0)), 1, 5, stopCmd 0 0, pipeOf 3 [], by decide +kernel⟩

theorem witness_pipelineCommandsWork_5 : ∃ (s : State) (pair cid : Nat) (c : Cmd) (p : Pipeline), Ready s 0x0202 pair cid c ∧
    tget s.pipes (c.p8 32) = some p ∧ c.p8 33 ≤ 1 ∧ p.stop = none ∧ (p.state = 2 ∨ p.state = 3) ∧ bitOf (c.p8 33) 0 = false ∧
    c.p64 40 ≠ 0 ∧ c.p64 40 ≤ p.cursor :=
  ⟨withPipe ({ pipeOf 3 [] with cursor := 4 }) (withCmd (stopCmd 0 4)), 1, 5, stopCmd 0 4, { pipeOf 3 [] with cursor := 4 },
    by decide +kernel⟩

theorem witness_pipelineCommandsWork_6 : ∃ (s : State) (pair cid : Nat) (c : Cmd) (p : Pipeline), Ready s 0x0202 pair cid c ∧
    tget s.pipes (c.p8 32) = some p ∧ c.p8 33 ≤ 1 ∧ p.stop = none ∧ (p.state = 2 ∨ p.state = 3) ∧ bitOf (c.p8 33) 0 = false ∧
    p.cursor < c.p64 40 :=
  ⟨withPipe ({ pipeOf 3 [] with cursor := 4 }) (withCmd (stopCmd 0 5)), 1, 5, stopCmd 0 5, { pipeOf 3 [] with cursor := 4 },
    by decide +kernel⟩

theorem witness_pipelineCommandsWork_7 : ∃ (s : State) (pair cid : Nat) (c : Cmd) (p : Pipeline), Ready s 0x0208 pair cid c ∧
    tget s.pipes (c.p8 32) = some p ∧ c.exactBuf 160 = true ∧ p.state = 3 :=
  ⟨withPipe (pipeOf 3 []) (withCmd (checkpointCmd)), 1, 5, checkpointCmd, pipeOf 3 [], by decide +kernel⟩

theorem witness_pipelineCommandsWork_8 : ∃ (s : State) (pair cid : Nat) (c : Cmd) (p : Pipeline), Ready s 0x0208 pair cid c ∧
    tget s.pipes (c.p8 32) = some p ∧ c.exactBuf 160 = true ∧ p.state ≠ 3 :=
  ⟨withPipe (pipeOf 1 []) (withCmd (checkpointCmd)), 1, 5, checkpointCmd, pipeOf 1 [], by decide +kernel⟩

theorem witness_pipelineCommandsWork_9 : ∃ (s : State) (pair cid : Nat) (c : Cmd) (p : Pipeline) (d : Bytes), Ready s 0x0209 pair cid c ∧
    tget s.pipes (c.p8 32) = some p ∧ (p.state = 1 ∨ p.state = 5) ∧ c.dataIs 160 = true ∧ c.data = some d ∧
    s.restoreStatus (c.p8 32) p d = stOk :=
  by refine ⟨restoring, 1, 5, restoreCmd, pipeOf 5 [], record restoringBase (pipeOf 5 []), ⟨rfl, rfl, rfl, by decide +kernel, rfl, rfl⟩,
    ?_, ?_, ?_, rfl, record_restores restoringBase (pipeOf 5 []) (by decide +kernel)⟩ <;> decide +kernel

theorem witness_pipelineCommandsWork_10 : ∃ (s : State) (pair cid : Nat) (c : Cmd) (p : Pipeline) (d : Bytes) (x : Shot),
    Ready s 0x0205 pair cid c ∧ tget s.pipes (c.p8 32) = some p ∧ c.data = some d ∧ c.p8 33 = 0 ∧ c.dataIs 192 = true ∧ p.active = false ∧
    p.decl.shotMode = 1 ∧ parseShot (d.take 128) (sub d 128 64) = some x ∧ x.rangesOk = true :=
  by refine ⟨withPipe (shotPipe 1) (withCmd (shotCmd 0 0 192)), 1, 5, shotCmd 0 0 192, shotPipe 1, zeros 192,
    (parseShot ((zeros 192).take 128) (sub (zeros 192) 128 64)).getD ⟨0, [], [], []⟩, ?_, ?_, ?_, ?_, ?_, ?_, ?_,
    some_getD _ _ (by decide +kernel), ?_⟩ <;> decide +kernel

theorem witness_pipelineCommandsWork_11 : ∃ (s : State) (pair cid : Nat) (c : Cmd) (p : Pipeline) (d : Bytes) (rs : Table Shot),
    Ready s 0x0205 pair cid c ∧ tget s.pipes (c.p8 32) = some p ∧ c.data = some d ∧ c.p8 33 = 1 ∧ c.p32 36 ≠ 0 ∧
    c.dataIs (128 * c.p32 36) = true ∧ p.decl.shotMode = 2 ∧ p.schedules = [] ∧ (∀ b ∈ pieces 128 (c.p32 36) d, shotKey b ∉ p.made) ∧
    parseShots (pieces 128 (c.p32 36) d) = some rs ∧ (∀ kv ∈ rs, kv.1 % 2 ^ 47 < s.domain p.decl ∧ kv.1 / 2 ^ 47 < p.decl.epochs) ∧
    (rs.foldl (fun t kv => tput t kv.1 kv.2) p.shots).length ≤ 16777216 :=
  by refine ⟨withPipe (shotPipe 2) (catalogued [shotCmd 1 1 128]), 1, 5, shotCmd 1 1 128, shotPipe 2, zeros 128,
    (parseShots (pieces 128 ((shotCmd 1 1 128).p32 36) (zeros 128))).getD [], ?_, ?_, ?_, ?_, ?_, ?_, ?_, ?_, ?_,
    some_getD _ _ (by decide +kernel), ?_⟩ <;> decide +kernel

theorem witness_pipelineCommandsWork_12 : ∃ (s : State) (pair cid : Nat) (c : Cmd) (p : Pipeline), Ready s 0x0207 pair cid c ∧
    tget s.pipes (c.p8 32) = some p ∧ c.p8 33 ≤ 1 ∧ c.p16 34 ≤ 4095 ∧ p.active = false ∧ p.state ≠ 6 ∧ c.p8 33 = 0 ∧
    c.consumer.ok p.decl = true :=
  ⟨withPipe (pipeOf 1 []) (withCmd (attachCmd 0)), 1, 5, attachCmd 0, pipeOf 1 [], by decide +kernel⟩

theorem witness_pipelineCommandsWork_13 : ∃ (s : State) (pair cid : Nat) (c : Cmd) (p : Pipeline), Ready s 0x0207 pair cid c ∧
    tget s.pipes (c.p8 32) = some p ∧ c.p8 33 ≤ 1 ∧ c.p16 34 ≤ 4095 ∧ p.active = false ∧ p.state ≠ 6 ∧ c.p8 33 = 1 ∧
    thas p.consumers (c.p16 34) = true :=
  ⟨withPipe (servedPipe 1) (withCmd (attachCmd 1)), 1, 5, attachCmd 1, servedPipe 1, by decide +kernel⟩

theorem witness_pipelineCommandsWork_14 : ∃ (s : State) (pair cid : Nat) (c : Cmd) (p : Pipeline), Ready s 0x0207 pair cid c ∧
    tget s.pipes (c.p8 32) = some p ∧ c.p8 33 ≤ 1 ∧ c.p16 34 ≤ 4095 ∧ p.active = false ∧ p.state ≠ 6 ∧ c.p8 33 = 1 ∧
    thas p.consumers (c.p16 34) = false :=
  ⟨withPipe (pipeOf 1 []) (withCmd (attachCmd 1)), 1, 5, attachCmd 1, pipeOf 1 [], by decide +kernel⟩

theorem witness_tableAndModelLoadsWork_1 : ∃ (s : State) (pair cid : Nat) (c : Cmd) (l : LongOp) (key : Nat),
    Enters s 0x0206 pair cid c (tableTarget c s) (tableCheck c s) l ∧
    key = (dropLong l.handle s).ordOf l.pair l.cid * 8 + tableSlot l.cmd ∧ tableUnload l.cmd = false ∧
    tableStatus (tableKind l.cmd) l.data = stOk :=
  by refine ⟨withCmd (tableCmd 0 0 byteTable), 1, 5, tableCmd 0 0 byteTable, longOf (tableCmd 0 0 byteTable) (2 ^ 20), _, ?_, rfl,
    ?_⟩ <;> decide +kernel

theorem witness_tableAndModelLoadsWork_2 : ∃ (s : State) (pair cid : Nat) (c : Cmd) (l : LongOp) (key : Nat),
    Enters s 0x0206 pair cid c (tableTarget c s) (tableCheck c s) l ∧
    key = (dropLong l.handle s).ordOf l.pair l.cid * 8 + tableSlot l.cmd ∧ tableUnload l.cmd = true ∧ tableKind l.cmd = 0 ∧
    thas s.slots.merges (tableSlot l.cmd) = true :=
  by refine ⟨slotted (tableCmd 0 1 []), 1, 5, tableCmd 0 1 [], longOf (tableCmd 0 1 []) (2 ^ 20), _, ?_, rfl, ?_⟩ <;> decide +kernel

theorem witness_tableAndModelLoadsWork_3 : ∃ (s : State) (pair cid : Nat) (c : Cmd) (l : LongOp) (key : Nat),
    Enters s 0x0206 pair cid c (tableTarget c s) (tableCheck c s) l ∧
    key = (dropLong l.handle s).ordOf l.pair l.cid * 8 + tableSlot l.cmd ∧ tableUnload l.cmd = true ∧ tableKind l.cmd ≠ 0 ∧
    thas s.slots.automata (tableSlot l.cmd) = true :=
  by refine ⟨slotted (tableCmd 1 1 []), 1, 5, tableCmd 1 1 [], longOf (tableCmd 1 1 []) (2 ^ 20 + 8), _, ?_, rfl, ?_⟩ <;> decide +kernel

theorem witness_tableAndModelLoadsWork_4 : ∃ (s : State) (pair cid : Nat) (c : Cmd) (l : LongOp) (key : Nat),
    Enters s 0x0204 pair cid c (modelTarget c s) (modelCheck c s) l ∧
    key = (dropLong l.handle s).ordOf l.pair l.cid * 8 + modelSlot l.cmd ∧ modelUnload l.cmd = false ∧ packageOk l.data = true ∧
    s.otherWeights (modelSlot l.cmd) + field l.data 32 8 ≤ 2 ^ 36 :=
  by refine ⟨withCmd (modelCmd 0 modelBytes), 1, 5, modelCmd 0 modelBytes, longOf (modelCmd 0 modelBytes) (2 ^ 21), _, ?_, rfl,
    ?_⟩ <;> decide +kernel

theorem witness_tableAndModelLoadsWork_5 : ∃ (s : State) (pair cid : Nat) (c : Cmd) (l : LongOp) (key : Nat) (k : Package),
    Enters s 0x0204 pair cid c (modelTarget c s) (modelCheck c s) l ∧
    key = (dropLong l.handle s).ordOf l.pair l.cid * 8 + modelSlot l.cmd ∧ modelUnload l.cmd = true ∧
    tget s.slots.models (modelSlot l.cmd) = some k :=
  by refine ⟨slotted (modelCmd 1 []), 1, 5, modelCmd 1 [], longOf (modelCmd 1 []) (2 ^ 21), _, packageOf modelBytes, ?_, rfl,
    ?_⟩ <;> decide +kernel

theorem witness_fabricCommandsWork_1 : ∃ (s : State) (pair cid : Nat) (c : Cmd) (d : Bytes), Ready s 0x0400 pair cid c ∧
    c.dataIs 33056 = true ∧ topoParamsOk c = true ∧ c.data = some d ∧ (topoPorts d).all portEntryOk = true ∧
    (topoRoutes d).all (routeOk ((topoPorts d).map parsePortEntry)) = true ∧ (s.fabricIdle = true ∨ (c.p16 32 = s.fab.nodeId ∧
    (s.fab.loaded = false ∨ c.p16 34 = s.fab.timeRoot))) :=
  ⟨withCmd topoCmd, 1, 5, topoCmd, topoData, ⟨⟨rfl, findCmd_head _ [] up 1 5 (by decide +kernel), rfl, by decide +kernel, rfl, rfl⟩,
    by decide +kernel, by decide +kernel, rfl, by decide +kernel, topoRoutes_ok, by decide +kernel⟩⟩

theorem witness_fabricCommandsWork_2 : ∃ (s : State) (pair cid : Nat) (c : Cmd) (d : Bytes) (u : State), Ready s 0x0401 pair cid c ∧
    1 ≤ c.p16 32 ∧ c.p16 32 ≤ 8192 ∧ c.p16 34 ≤ 1 ∧ c.dataIs (64 * c.p16 32) = true ∧ c.data = some d ∧
    (pieces 64 8192 d).all identityEntryOk = true ∧ u =
    ({ s with fab := { s.fab with identities := (pieces 64 8192 d).foldl (fun (m : Table Bytes) (b : Bytes) => tput m (field b 0 2) (sub b 16 48)) (if bitOf (c.p16 34) 0 then [] else s.fab.identities) } }
    : State) :=
  by refine ⟨withCmd (fabCmd 0x0401 64 [(32, putLE 2 1)]), 1, 5, fabCmd 0x0401 64 [(32, putLE 2 1)], zeros 64, _, ?_, ?_, ?_, ?_, ?_, ?_,
    ?_, rfl⟩ <;> decide +kernel

theorem witness_fabricCommandsWork_3 : ∃ (s : State) (pair cid : Nat) (c : Cmd) (d : Bytes) (i : Nat) (g : Region) (u : State),
    Ready s 0x0402 pair cid c ∧ regionParamsOk c = true ∧ c.dataIs (8 * regionPageCount c) = true ∧ c.data = some d ∧
    (∀ a ∈ (pieces 8 (regionPageCount c) d).map leVal, a % 2 ^ c.p8 52 = 0) ∧ s.freeIndex = some i ∧
    s.regionPages + ((pieces 8 (regionPageCount c) d).map leVal).length ≤ 16777216 ∧ g =
    ({ gen := s.nextGen i, base := c.p64 32, length := c.p64 40, firstOffset := c.p32 48, pageLog2 := c.p8 52, access := c.p8 53, peer := c.p16 54, pages := (pieces 8 (regionPageCount c) d).map leVal, revoking := none }
    : Region) ∧ u = storeObject 8 i d (takeIndex s) :=
  by refine ⟨withCmd registerCmd, 1, 5, registerCmd, zeros 8, _, _, _, ?_, ?_, ?_, ?_, ?_, rfl, ?_, rfl, rfl⟩ <;> decide +kernel

theorem witness_fabricCommandsWork_4 : ∃ (s : State) (pair cid : Nat) (c : Cmd) (g : Region), Ready s 0x0403 pair cid c ∧
    tget s.rdma.regions (c.p32 32 / 256) = some g ∧ g.gen = c.p32 32 % 256 ∧ g.revoking = none :=
  ⟨withRegion (regionOf none) (withCmd (fabCmd 0x0403 0 [(32, putLE 4 1)])), 1, 5, fabCmd 0x0403 0 [(32, putLE 4 1)], regionOf none,
    by decide +kernel⟩

theorem witness_fabricCommandsWork_5 : ∃ (s : State) (i : Nat) (g : Region) (pair cid : Nat), s.alive = true ∧
    tget s.rdma.regions i = some g ∧ g.revoking = some (pair, cid) :=
  ⟨withRegion (regionOf (some (1, 5))) up, 0, regionOf (some (1, 5)), 1, 5, by decide +kernel⟩

theorem witness_fabricCommandsWork_6 : ∃ (s : State) (pair cid : Nat) (c : Cmd) (slots : List Nat) (u : State),
    Ready s 0x0404 pair cid c ∧ c.p32 32 ≠ 0 ∧ c.p8 36 ≤ 2 ∧ (c.p8 37 ≤ 15 ∨ c.p8 37 = 255) ∧ c.p32 32 < s.raw 0x0B 0 0x03 0 ∧
    thas s.rdma.qps (c.p32 32) = false ∧ createRoom (c.p8 36) s = some (slots, u) :=
  ⟨withTable (withCmd (fabCmd 0x0404 0 [(32, putLE 4 1), (37, putLE 1 15)])), 1, 5, fabCmd 0x0404 0 [(32, putLE 4 1), (37, putLE 1 15)],
    [], (makeRoom (withTable (withCmd (fabCmd 0x0404 0 [(32, putLE 4 1), (37, putLE 1 15)])))).1, by decide +kernel⟩

theorem witness_fabricCommandsWork_7 : ∃ (s : State) (pair cid : Nat) (c : Cmd), Ready s 0x0404 pair cid c ∧ c.p32 32 ≠ 0 ∧ c.p8 36 ≤ 2 ∧
    (c.p8 37 ≤ 15 ∨ c.p8 37 = 255) ∧ c.p32 32 < s.raw 0x0B 0 0x03 0 ∧ thas s.rdma.qps (c.p32 32) = false ∧
    createRoom (c.p8 36) s = none :=
  ⟨stackless (withTable (withCmd controlCmd)), 1, 5, controlCmd, by decide +kernel⟩

theorem witness_fabricCommandsWork_8 : ∃ (s : State) (pair cid : Nat) (c : Cmd) (q : Qp), Ready s 0x0405 pair cid c ∧ qpParam c = true ∧
    tget s.rdma.qps (c.p32 32) = some q ∧ c.p8 36 = 0 ∧ c.noData = true ∧ c.p16 38 ≤ 8191 ∧ c.p32 40 < 2 ^ 20 ∧ c.p32 44 < 2 ^ 24 ∧
    c.p32 48 < 2 ^ 24 ∧ q.state = 0 ∧ (q.kind ≠ 1 ∨ s.controlQp (c.p16 38) = none) :=
  ⟨withQp (qpOf 1 0) (withCmd (modifyCmd 0 0)), 1, 5, modifyCmd 0 0, qpOf 1 0, by decide +kernel⟩

theorem witness_fabricCommandsWork_9 : ∃ (s : State) (pair cid : Nat) (c : Cmd) (q : Qp), Ready s 0x0405 pair cid c ∧ qpParam c = true ∧
    tget s.rdma.qps (c.p32 32) = some q ∧ c.p8 36 = 1 ∧ c.noData = true ∧ q.state ≠ 0 ∧ s.qpBusy (c.p32 32) q = false :=
  ⟨withQp (qpOf 0 2) (withCmd (modifyCmd 1 0)), 1, 5, modifyCmd 1 0, qpOf 0 2, by decide +kernel⟩

theorem witness_fabricCommandsWork_10 : ∃ (s : State) (pair cid : Nat) (c : Cmd) (q : Qp), Ready s 0x0405 pair cid c ∧ qpParam c = true ∧
    tget s.rdma.qps (c.p32 32) = some q ∧ c.p8 36 = 2 ∧ c.noData = true ∧ q.state = 1 ∧ s.qpBusy (c.p32 32) q = false :=
  ⟨withQp (qpOf 0 1) (withCmd (modifyCmd 2 0)), 1, 5, modifyCmd 2 0, qpOf 0 1, by decide +kernel⟩

theorem witness_fabricCommandsWork_11 : ∃ (s : State) (pair cid : Nat) (c : Cmd) (q : Qp), Ready s 0x0405 pair cid c ∧ qpParam c = true ∧
    tget s.rdma.qps (c.p32 32) = some q ∧ c.p8 36 = 3 ∧ c.exactBuf 64 = true :=
  ⟨withQp (qpOf 0 1) (withCmd (modifyCmd 3 64)), 1, 5, modifyCmd 3 64, qpOf 0 1, by decide +kernel⟩

theorem witness_fabricCommandsWork_12 : ∃ (s : State) (pair cid : Nat) (c : Cmd) (q : Qp) (u : State), Ready s 0x0406 pair cid c ∧
    qpParam c = true ∧ tget s.rdma.qps (c.p32 32) = some q ∧ s.qpBusy (c.p32 32) q = false ∧ u = q.slots.foldl (fun (t : State) (h : Nat)
    => freeChain h t) (resetQp (c.p32 32) q s) :=
  by refine ⟨withQp (qpOf 0 0) (withCmd (fabCmd 0x0406 0 [(32, putLE 4 1)])), 1, 5, fabCmd 0x0406 0 [(32, putLE 4 1)], qpOf 0 0, _, ?_,
    ?_, ?_, ?_, rfl⟩ <;> decide +kernel

theorem witness_fabricCommandsWork_13 : ∃ (s : State) (pair cid : Nat) (c : Cmd), Ready s 0x0407 pair cid c ∧ c.p8 32 ≤ 17 ∧ c.p8 33 = 1 ∧
    c.p16 34 = 0 ∧ c.noData = true :=
  ⟨withCmd (fabCmd 0x0407 0 [(32, putLE 1 17), (33, putLE 1 1)]), 1, 5, fabCmd 0x0407 0 [(32, putLE 1 17), (33, putLE 1 1)],
    by decide +kernel⟩

theorem witness_fabricCommandsWork_14 : ∃ (s : State) (pair cid : Nat) (c : Cmd) (d : Bytes), Ready s 0x0407 pair cid c ∧ c.p8 32 ≤ 17 ∧
    c.p8 33 = 0 ∧ 1 ≤ c.p16 34 ∧ c.p16 34 ≤ 256 ∧ 1000 ≤ c.p32 36 ∧ c.p32 36 ≤ 1000000000 ∧ c.dataIs (8 * c.p16 34) = true ∧
    c.data = some d ∧ s.sheetOk (c.p8 32) (c.p32 36) d = true :=
  ⟨withCmd sheetCmd, 1, 5, sheetCmd, putLE 4 1000000 ++ [1, 0, 0, 0], by decide +kernel⟩

theorem witness_fabricCommandsWork_15 : ∃ (s : State) (pair cid : Nat) (c : Cmd), Ready s 0x0408 pair cid c ∧ c.p16 32 ≤ 8191 ∧
    c.p8 34 ≤ 1 ∧ -64 ≤ signedOf 16 (c.p16 36) ∧ signedOf 16 (c.p16 36) ≤ 255 ∧ 8 ≤ c.p32 40 ∧ c.p32 40 ≤ 4000000 :=
  ⟨withCmd (fabCmd 0x0408 0 [(36, putLE 2 0xFFC0), (40, putLE 4 8)]), 1, 5, fabCmd 0x0408 0 [(36, putLE 2 0xFFC0), (40, putLE 4 8)],
    by decide +kernel⟩

theorem witness_fabricCommandsWork_16 : ∃ (s : State) (pair cid : Nat) (c : Cmd) (q : Policer), Ready s 0x0409 pair cid c ∧
    policerOk c = true ∧ q =
    ({ mode := c.p8 34, flags := c.p8 35, cir := c.p32 40, cbs := c.p32 44, ebs := c.p32 48, pir := c.p32 52, tc := c.p32 44 * 8000, te := c.p32 48 * 8000, tp := c.p32 48 * 8000, last := s.localNs, nakSent := false }
    : Policer) :=
  by refine ⟨withCmd (fabCmd 0x0409 0 [(32, putLE 2 0xFFFF), (40, putLE 4 8), (44, putLE 4 15360)]), 1, 5, fabCmd 0x0409 0 [(32,
    putLE 2 0xFFFF), (40, putLE 4 8), (44, putLE 4 15360)], _, ?_, ?_, rfl⟩ <;> decide +kernel

theorem witness_linkEventsWork_1 : ∃ (s : State) (port : Nat) (p : Port), s.alive = true ∧ port < 18 ∧ s.port port = p ∧ p.state = 1 :=
  ⟨linked (portAt 1), 0, portAt 1, by decide +kernel⟩

theorem witness_linkEventsWork_2 : ∃ (s : State) (port : Nat) (p : Port), s.alive = true ∧ port < 18 ∧ s.port port = p ∧ p.state = 2 :=
  ⟨linked (portAt 2), 0, portAt 2, by decide +kernel⟩

theorem witness_linkEventsWork_3 : ∃ (s : State) (port lanes : Nat) (p : Port), s.alive = true ∧ port < 18 ∧ s.port port = p ∧
    p.state = 3 ∧ (lanes = 4 ∨ (lanes = 2 ∧ (s.portEntry port).minLanes = 2)) :=
  ⟨linked (portAt 3), 0, 2, portAt 3, by decide +kernel⟩

theorem witness_linkEventsWork_4 : ∃ (s : State) (port node pp : Nat) (p : Port), s.alive = true ∧ port < 18 ∧ s.port port = p ∧
    p.state = 4 ∧ node = (s.portEntry port).peerNode ∧ pp = (s.portEntry port).peerPort :=
  ⟨linked (portAt 4), 0, 9, 3, portAt 4, by decide +kernel⟩

theorem witness_linkEventsWork_5 : ∃ (s : State) (port node pp : Nat) (p : Port), s.alive = true ∧ port < 18 ∧ s.port port = p ∧
    p.state = 4 ∧ ¬ (node = (s.portEntry port).peerNode ∧ pp = (s.portEntry port).peerPort) :=
  ⟨linked (portAt 4), 0, 9, 4, portAt 4, by decide +kernel⟩

theorem witness_linkEventsWork_6 : ∃ (s : State) (port : Nat) (p : Port), s.alive = true ∧ port < 18 ∧ s.port port = p ∧ p.state = 6 ∧
    p.probed = true :=
  ⟨linked { portAt 6 with probed := true }, 0, { portAt 6 with probed := true }, by decide +kernel⟩

theorem witness_linkEventsWork_7 : ∃ (s : State) (port : Nat) (p : Port), s.alive = true ∧ port < 18 ∧ s.port port = p ∧ 1 ≤ p.state ∧
    p.state ≤ 6 :=
  ⟨linked (portAt 1), 0, portAt 1, by decide +kernel⟩

theorem witness_linkEventsWork_8 : ∃ (s : State) (port : Nat) (p : Port), s.alive = true ∧ port < 18 ∧ s.port port = p ∧ p.state = 8 :=
  ⟨linked (portAt 8), 0, portAt 8, by decide +kernel⟩

theorem witness_linkEventsWork_9 : ∃ (s : State) (port : Nat) (p : Port), s.alive = true ∧ port < 18 ∧ s.port port = p ∧ 3 ≤ p.state ∧
    p.state ≤ 7 :=
  ⟨linked (portAt 7), 0, portAt 7, by decide +kernel⟩

theorem witness_linkEventsWork_10 : ∃ (s : State) (port : Nat) (p : Port), s.alive = true ∧ port < 18 ∧ s.port port = p ∧ p.state = 5 :=
  ⟨linked (portAt 5), 0, portAt 5, by decide +kernel⟩

theorem witness_linkEventsWork_11 : ∃ (s : State) (port : Nat) (p : Port), s.alive = true ∧ port < 18 ∧ s.port port = p ∧ p.state = 7 ∧
    port = s.fab.timePort :=
  ⟨linked (portAt 7), 0, portAt 7, by decide +kernel⟩

theorem witness_linkEventsWork_12 : ∃ (s : State) (port : Nat) (f : Flit), s.alive = true ∧ port < 18 ∧ 4 ≤ (s.port port).state ∧
    (s.port port).state ≤ 7 ∧ f.type = 0 ∧ f.crcOk = true :=
  by refine ⟨linked (portAt 4), 0, flitOf 0 0 true, ?_, ?_, ?_, ?_, ?_, flitOf_ok _ _⟩ <;> decide +kernel

theorem witness_linkEventsWork_13 : ∃ (s : State) (port : Nat) (f : Flit), s.alive = true ∧ port < 18 ∧ 4 ≤ (s.port port).state ∧
    (s.port port).state ≤ 7 ∧ f.type ≠ 0 ∧ f.type ≠ 6 ∧ f.crcOk = true ∧ f.seq = (s.port port).rxSeq :=
  by refine ⟨linked (portAt 4), 0, flitOf 1 0 true, ?_, ?_, ?_, ?_, ?_, ?_, flitOf_ok _ _, ?_⟩ <;> decide +kernel

theorem witness_linkEventsWork_14 : ∃ (s : State) (port : Nat) (f : Flit), s.alive = true ∧ port < 18 ∧ 4 ≤ (s.port port).state ∧
    (s.port port).state ≤ 7 ∧ f.type ≠ 0 ∧ f.type ≠ 6 ∧ f.crcOk = true ∧ f.seq ≠ (s.port port).rxSeq :=
  by refine ⟨linked (portAt 7), 0, flitOf 7 1 true, ?_, ?_, ?_, ?_, ?_, ?_, flitOf_ok _ _, ?_⟩ <;> decide +kernel

theorem witness_linkEventsWork_15 : ∃ (s : State) (port : Nat) (f : Flit), s.alive = true ∧ port < 18 ∧ 4 ≤ (s.port port).state ∧
    (s.port port).state ≤ 7 ∧ f.crcOk = false ∧ f.stomped = false :=
  by refine ⟨linked (portAt 4), 0, flitOf 1 0 false, ?_, ?_, ?_, ?_, (flitOf_bad _ _).1, (flitOf_bad _ _).2⟩ <;> decide +kernel

theorem witness_linkEventsWork_16 : ∃ (s : State) (port : Nat) (f : Flit), s.alive = true ∧ port < 18 ∧ 4 ≤ (s.port port).state ∧
    (s.port port).state ≤ 7 ∧ f.type = 6 ∧ f.crcOk = true ∧ f.seq = (s.port port).rxSeq :=
  by refine ⟨linked (portAt 7), 0, flitOf 6 0 true, ?_, ?_, ?_, ?_, ?_, flitOf_ok _ _, ?_⟩ <;> decide +kernel

theorem witness_linkEventsWork_17 : ∃ (s : State), s.alive = true :=
  ⟨up, by decide +kernel⟩

theorem witness_linkEventsWork_18 : ∃ (s : State) (port : Nat) (p : Probe), s.alive = true ∧ port < 18 ∧
    ((s.port port).state = 6 ∨ (s.port port).state = 7) ∧ p.t4 = 0 :=
  ⟨linked (portAt 6), 0, probeOf 0, by decide +kernel⟩

theorem witness_linkEventsWork_19 : ∃ (s : State) (port : Nat) (p : Probe) (ps : List Probe), s.alive = true ∧ port < 18 ∧
    ((s.port port).state = 6 ∨ (s.port port).state = 7) ∧ p.t4 ≠ 0 ∧ tget s.fab.probes port = some ps ∧ ps.length < 3 :=
  by refine ⟨probing 2, 0, probeOf 4, _, ?_, ?_, ?_, ?_, rfl, ?_⟩ <;> decide +kernel

theorem witness_linkEventsWork_20 : ∃ (s : State) (port : Nat) (p : Probe) (ps : List Probe), s.alive = true ∧ port < 18 ∧
    ((s.port port).state = 6 ∨ (s.port port).state = 7) ∧ p.t4 ≠ 0 ∧ tget s.fab.probes port = some ps ∧ 3 ≤ ps.length :=
  by refine ⟨probing 3, 0, probeOf 4, _, ?_, ?_, ?_, ?_, rfl, ?_⟩ <;> decide +kernel

theorem witness_transportEventsWork_1 : ∃ (s : State) (n kind : Nat) (addr : BitVec 64) (key : Nat) (data : Bytes) (len : Nat) (q : Qp) (w
    : WorkReq), s.alive = true ∧ s.going = true ∧ tget s.rdma.qps n = some q ∧ kindSends q.kind kind = true ∧ w =
    ({ id := q.nextWr, kind := kind, addr := BitVec.toNat addr, key := key, data := data, len := if kind = 1 ∨ kind = 4 then data.length else len, psn := q.postPsn, psns := psnsOf kind (if kind = 1 ∨ kind = 4 then data.length else len), naks := 0, got := 0, batch := 0 }
    : WorkReq) ∧ q.state = 1 ∧ q.resident = true :=
  by refine ⟨withQp (qpOf 0 1) up, 1, 1, 0, 0, [1, 2], 0, qpOf 0 1, _, ?_, ?_, ?_, ?_, rfl, ?_⟩ <;> decide +kernel

theorem witness_transportEventsWork_2 : ∃ (s : State) (n kind : Nat) (addr : BitVec 64) (key : Nat) (data : Bytes) (len : Nat) (q : Qp) (w
    : WorkReq), s.alive = true ∧ s.going = true ∧ tget s.rdma.qps n = some q ∧ kindSends q.kind kind = true ∧ w =
    ({ id := q.nextWr, kind := kind, addr := BitVec.toNat addr, key := key, data := data, len := if kind = 1 ∨ kind = 4 then data.length else len, psn := q.postPsn, psns := psnsOf kind (if kind = 1 ∨ kind = 4 then data.length else len), naks := 0, got := 0, batch := 0 }
    : WorkReq) ∧ q.state = 2 :=
  by refine ⟨withQp (qpOf 0 2) up, 1, 2, 0, 0, [], 4, qpOf 0 2, _, ?_, ?_, ?_, ?_, rfl, ?_⟩ <;> decide +kernel

theorem witness_transportEventsWork_3 : ∃ (s : State) (port : Nat) (p : Packet) (q : Qp) (u : State) (g : Region), s.alive = true ∧
    (s.port port).state = 7 ∧ p.icrc = p.icrcOf ∧ (s.policer p.srcNode).mode = 0 ∧ tget s.rdma.qps p.destQp = some q ∧ q.resident = true ∧
    q.state = 1 ∧ u = touchQp p.destQp s ∧ p.opcode = 1 ∧ q.kind = 2 ∧ p.psn < 2 ^ 24 ∧ q.expected = p.psn ∧ u.keyCheck p = some g :=
  by refine ⟨connected (qpOf 2 1), 0, packetOf 1 [1, 2], qpOf 2 1, _, regionOf none, ?_, ?_, ?_, ?_, ?_, ?_, ?_, rfl,
    ?_⟩ <;> decide +kernel

theorem witness_transportEventsWork_4 : ∃ (s : State) (port : Nat) (p : Packet) (q : Qp) (u : State), s.alive = true ∧
    (s.port port).state = 7 ∧ p.icrc = p.icrcOf ∧ (s.policer p.srcNode).mode = 0 ∧ tget s.rdma.qps p.destQp = some q ∧ q.resident = true ∧
    q.state = 1 ∧ u = touchQp p.destQp s ∧ p.opcode = 1 ∧ q.kind = 2 ∧ p.psn < 2 ^ 24 ∧ q.expected = p.psn ∧ u.keyCheck p = none ∧
    q.flushes = [] :=
  by refine ⟨keyless (qpOf 2 1), 0, packetOf 1 [1, 2], qpOf 2 1, _, ?_, ?_, ?_, ?_, ?_, ?_, ?_, rfl, ?_⟩ <;> decide +kernel

theorem witness_transportEventsWork_5 : ∃ (s : State) (port : Nat) (p : Packet) (q : Qp) (u : State), s.alive = true ∧
    (s.port port).state = 7 ∧ p.icrc = p.icrcOf ∧ (s.policer p.srcNode).mode = 0 ∧ tget s.rdma.qps p.destQp = some q ∧ q.resident = true ∧
    q.state = 1 ∧ u = touchQp p.destQp s ∧ p.opcode = 1 ∧ q.kind = 2 ∧ p.psn < 2 ^ 24 ∧ q.expected = p.psn ∧ u.keyCheck p = none ∧
    q.flushes ≠ [] :=
  by refine ⟨keyless ({ qpOf 2 1 with flushes := [5] }), 0, packetOf 1 [1, 2], { qpOf 2 1 with flushes := [5] }, _, ?_, ?_, ?_, ?_, ?_,
    ?_, ?_, rfl, ?_⟩ <;> decide +kernel

theorem witness_transportEventsWork_6 : ∃ (s : State) (port : Nat) (p : Packet) (q : Qp) (u : State) (g : Region), s.alive = true ∧
    (s.port port).state = 7 ∧ p.icrc = p.icrcOf ∧ (s.policer p.srcNode).mode = 0 ∧ tget s.rdma.qps p.destQp = some q ∧ q.resident = true ∧
    q.state = 1 ∧ u = touchQp p.destQp s ∧ p.opcode = 2 ∧ q.kind = 2 ∧ p.psn < 2 ^ 24 ∧ q.expected = p.psn ∧ p.data ≠ [] ∧
    u.keyCheck p = some g :=
  by refine ⟨connected (qpOf 2 1), 0, readPacket, qpOf 2 1, _, regionOf none, ?_, ?_, ?_, ?_, ?_, ?_, ?_, rfl, ?_⟩ <;> decide +kernel

theorem witness_transportEventsWork_7 : ∃ (s : State) (port : Nat) (p : Packet) (q : Qp) (u : State), s.alive = true ∧
    (s.port port).state = 7 ∧ p.icrc = p.icrcOf ∧ (s.policer p.srcNode).mode = 0 ∧ tget s.rdma.qps p.destQp = some q ∧ q.resident = true ∧
    q.state = 1 ∧ u = touchQp p.destQp s ∧ p.opcode = 4 ∧ q.kind = 1 ∧ p.psn < 2 ^ 24 ∧ q.expected = p.psn ∧ q.slotsUsed < 8 :=
  by refine ⟨connected (qpOf 1 1), 0, packetOf 4 [], qpOf 1 1, _, ?_, ?_, ?_, ?_, ?_, ?_, ?_, rfl, ?_⟩ <;> decide +kernel

theorem witness_transportEventsWork_8 : ∃ (s : State) (port : Nat) (p : Packet) (q : Qp) (u : State), s.alive = true ∧
    (s.port port).state = 7 ∧ p.icrc = p.icrcOf ∧ (s.policer p.srcNode).mode = 0 ∧ tget s.rdma.qps p.destQp = some q ∧ q.resident = true ∧
    q.state = 1 ∧ u = touchQp p.destQp s ∧ p.opcode = 5 ∧ q.kind = 1 ∧ p.psn < 2 ^ 24 ∧ q.expected = p.psn :=
  by refine ⟨connected (qpOf 1 1), 0, packetOf 5 [], qpOf 1 1, _, ?_, ?_, ?_, ?_, ?_, ?_, ?_, rfl, ?_⟩ <;> decide +kernel

theorem witness_transportEventsWork_9 : ∃ (s : State) (port : Nat) (p : Packet) (q : Qp) (u : State), s.alive = true ∧
    (s.port port).state = 7 ∧ p.icrc = p.icrcOf ∧ (s.policer p.srcNode).mode = 0 ∧ tget s.rdma.qps p.destQp = some q ∧ q.resident = true ∧
    q.state = 1 ∧ u = touchQp p.destQp s ∧ p.opcode = 5 ∧ q.kind = 2 ∧ p.psn < 2 ^ 24 ∧ q.expected = p.psn :=
  by refine ⟨connected (qpOf 2 1), 0, packetOf 5 [], qpOf 2 1, _, ?_, ?_, ?_, ?_, ?_, ?_, ?_, rfl, ?_⟩ <;> decide +kernel

theorem witness_transportEventsWork_10 : ∃ (s : State) (port : Nat) (p : Packet) (q : Qp) (u : State), s.alive = true ∧
    (s.port port).state = 7 ∧ p.icrc = p.icrcOf ∧ (s.policer p.srcNode).mode = 0 ∧ tget s.rdma.qps p.destQp = some q ∧ q.resident = true ∧
    q.state = 1 ∧ u = touchQp p.destQp s ∧ p.opcode = 4 ∧ q.kind = 1 ∧ 2 ^ 23 ≤ psnDiff q.expected p.psn :=
  by refine ⟨connected ({ qpOf 1 1 with expected := 1 }), 0, packetOf 4 [], { qpOf 1 1 with expected := 1 }, _, ?_, ?_, ?_, ?_, ?_, ?_,
    ?_, rfl, ?_⟩ <;> decide +kernel

theorem witness_transportEventsWork_11 : ∃ (s : State) (port : Nat) (p : Packet) (q : Qp) (u : State), s.alive = true ∧
    (s.port port).state = 7 ∧ p.icrc = p.icrcOf ∧ (s.policer p.srcNode).mode = 0 ∧ tget s.rdma.qps p.destQp = some q ∧ q.resident = true ∧
    q.state = 1 ∧ u = touchQp p.destQp s ∧ p.opcode = 0x10 :=
  by refine ⟨connected (qpOf 0 1), 0, packetOf 16 [], qpOf 0 1, _, ?_, ?_, ?_, ?_, ?_, ?_, ?_, rfl, ?_⟩ <;> decide +kernel

theorem witness_transportEventsWork_12 : ∃ (s : State) (port : Nat) (p : Packet) (q : Qp) (u : State), s.alive = true ∧
    (s.port port).state = 7 ∧ p.icrc = p.icrcOf ∧ (s.policer p.srcNode).mode = 0 ∧ tget s.rdma.qps p.destQp = some q ∧ q.resident = true ∧
    q.state = 1 ∧ u = touchQp p.destQp s ∧ p.opcode = 0x11 :=
  by refine ⟨connected (qpOf 0 1), 0, packetOf 17 [], qpOf 0 1, _, ?_, ?_, ?_, ?_, ?_, ?_, ?_, rfl, ?_⟩ <;> decide +kernel

theorem witness_transportEventsWork_13 : ∃ (s : State) (port : Nat) (p : Packet) (q : Qp) (u : State), s.alive = true ∧
    (s.port port).state = 7 ∧ p.icrc = p.icrcOf ∧ (s.policer p.srcNode).mode = 0 ∧ tget s.rdma.qps p.destQp = some q ∧ q.resident = true ∧
    q.state = 1 ∧ u = touchQp p.destQp s ∧ p.opcode = 3 :=
  by refine ⟨connected (qpOf 0 1), 0, packetOf 3 [], qpOf 0 1, _, ?_, ?_, ?_, ?_, ?_, ?_, ?_, rfl, ?_⟩ <;> decide +kernel

theorem witness_transportEventsWork_14 : ∃ (s : State) (n : Nat) (q : Qp), s.alive = true ∧ tget s.rdma.qps n = some q ∧ 0 < q.ackOwed :=
  ⟨withQp { qpOf 2 1 with ackOwed := 1 } up, 1, { qpOf 2 1 with ackOwed := 1 }, by decide +kernel⟩

theorem witness_transportEventsWork_15 : ∃ (s : State) (n : Nat) (q : Qp), s.alive = true ∧ tget s.rdma.qps n = some q ∧ q.state = 1 ∧
    q.unacked ≠ q.sndPsn ∧ q.waiting = false ∧ s.going = true ∧ q.retries < q.retryLimit :=
  ⟨withQp (unanswered 0) up, 1, unanswered 0, by decide +kernel⟩

theorem witness_transportEventsWork_16 : ∃ (s : State) (n : Nat) (q : Qp), s.alive = true ∧ tget s.rdma.qps n = some q ∧ q.state = 1 ∧
    q.unacked ≠ q.sndPsn ∧ q.waiting = false ∧ s.going = true ∧ q.retryLimit ≤ q.retries :=
  ⟨withQp (unanswered 7) up, 1, unanswered 7, by decide +kernel⟩

theorem witness_transportEventsWork_17 : ∃ (s : State) (n : Nat) (q : Qp), s.alive = true ∧ tget s.rdma.qps n = some q ∧
    q.waiting = true ∧ s.going = true :=
  ⟨withQp { qpOf 0 1 with waiting := true } up, 1, { qpOf 0 1 with waiting := true }, by decide +kernel⟩

theorem witness_transportEventsWork_18 : ∃ (s : State) (n : Nat) (q : Qp) (port : Nat), s.alive = true ∧ tget s.rdma.qps n = some q ∧
    (port, n) ∈ s.rdma.fetches ∧ s.residentCount < 16384 ∧ q.held = [] :=
  ⟨fetching, 1, { qpOf 0 1 with resident := false }, 0, by decide +kernel⟩

theorem witness_transportEventsWork_19 : ∃ (s : State) (n : Nat) (q : Qp), s.alive = true ∧ tget s.rdma.qps n = some q ∧ q.flushes ≠ [] ∧
    q.behind = none :=
  ⟨withQp { qpOf 2 1 with flushes := [0] } up, 1, { qpOf 2 1 with flushes := [0] }, by decide +kernel⟩

theorem witness_shaperEventsWork_1 : ∃ (s : State), s.alive = true :=
  ⟨up, by decide +kernel⟩

theorem witness_shaperEventsWork_2 : ∃ (s : State) (port : Nat) (h : Sheet), s.alive = true ∧ port < 18 ∧
    tget s.shaper.pending port = some h ∧ h.activateAt ≤ s.tb ∧ thas (s.port port).cur 3 = false :=
  ⟨shaping { Shaper.atReset with pending := [(0, sheetOf true)] }, 0, sheetOf true, by decide +kernel⟩

theorem witness_shaperEventsWork_3 : ∃ (s : State) (port : Nat), s.alive = true ∧ port < 18 ∧ s.gateNow port = false ∧
    tgetD s.shaper.gateOpen port true = true :=
  ⟨shaping { Shaper.atReset with active := [(0, sheetOf false)] }, 0, by decide +kernel⟩

theorem witness_shaperEventsWork_4 : ∃ (s : State) (port : Nat), s.alive = true ∧ port < 18 ∧ s.gateNow port = false ∧
    tgetD s.shaper.gateOpen port true = false :=
  ⟨shaping { Shaper.atReset with active := [(0, sheetOf false)], gateOpen := [(0, false)] }, 0, by decide +kernel⟩

theorem witness_shaperEventsWork_5 : ∃ (s : State) (port d : Nat) (p : Packet), s.alive = true ∧ port < 18 ∧
    tget s.shaper.pending port = none ∧ (s.port port).state = 7 ∧ thas (s.port port).cur 3 = false ∧ s.going = true ∧
    s.vc3Relayed port = [] ∧ (s.vc3Own port).find? (fun x => s.fits port x.2.flitCount) = some (d, p) :=
  ⟨shaping { Shaper.atReset with ready := [(9, packetOf 1 [])] }, 0, 9, packetOf 1 [], by decide +kernel⟩

theorem witness_shaperEventsWork_6 : ∃ (s : State) (port : Nat), s.alive = true ∧ port < 18 ∧ tget s.shaper.pending port = none ∧
    (s.port port).state = 7 ∧ thas (s.port port).cur 3 = false ∧ s.vc3Relayed port ≠ [] ∧ s.vc3Own port = [] ∧ s.fits port 64 = true :=
  ⟨{ shaping Shaper.atReset with fab := { (shaping Shaper.atReset).fab with waiting := [relayedMsg] } }, 0, by decide +kernel⟩

theorem witness_engineOperatorsComplete_1 : ∃ (s : State) (k : Nat) (e : Entry) (p : Pipeline) (x : Sample), Runs s k 0x0102 e p x :=
  ⟨runningOn (pipeOf 3 []) 0x0102 0, 1024, entryOf 0x0102 0, pipeOf 3 [], sampleOf 0, by decide +kernel⟩

theorem witness_engineOperatorsComplete_2 : ∃ (s : State) (k : Nat) (e : Entry) (p : Pipeline) (x : Sample), Runs s k 0x0201 e p x :=
  ⟨runningOn (pipeOf 3 []) 0x0201 0, 1024, entryOf 0x0201 0, pipeOf 3 [], sampleOf 0, by decide +kernel⟩

theorem witness_engineOperatorsComplete_3 : ∃ (s : State) (k : Nat) (e : Entry) (p : Pipeline) (x : Sample), Runs s k 0x0202 e p x :=
  ⟨runningOn (pipeOf 3 []) 0x0202 0, 1024, entryOf 0x0202 0, pipeOf 3 [], sampleOf 0, by decide +kernel⟩

theorem witness_engineOperatorsComplete_4 : ∃ (s : State) (k : Nat) (e : Entry) (p : Pipeline) (x : Sample), Runs s k 0x0203 e p x :=
  ⟨runningOn (pipeOf 3 []) 0x0203 0, 1024, entryOf 0x0203 0, pipeOf 3 [], sampleOf 0, by decide +kernel⟩

theorem witness_engineOperatorsComplete_5 : ∃ (s : State) (k : Nat) (e : Entry) (p : Pipeline) (x : Sample), Runs s k 0x0301 e p x :=
  ⟨runningOn (pipeOf 3 []) 0x0301 0, 1024, entryOf 0x0301 0, pipeOf 3 [], sampleOf 0, by decide +kernel⟩

theorem witness_engineOperatorsComplete_6 : ∃ (s : State) (k : Nat) (e : Entry) (p : Pipeline) (x : Sample), Runs s k 0x0302 e p x :=
  ⟨runningOn (pipeOf 3 []) 0x0302 0, 1024, entryOf 0x0302 0, pipeOf 3 [], sampleOf 0, by decide +kernel⟩

theorem witness_engineOperatorsComplete_7 : ∃ (s : State) (k : Nat) (e : Entry) (p : Pipeline) (x : Sample), Runs s k 0x0303 e p x :=
  ⟨runningOn (pipeOf 3 []) 0x0303 0, 1024, entryOf 0x0303 0, pipeOf 3 [], sampleOf 0, by decide +kernel⟩

theorem witness_engineOperatorsComplete_8 : ∃ (s : State) (k : Nat) (e : Entry) (p : Pipeline) (x : Sample), Runs s k 0x0304 e p x :=
  ⟨runningOn (pipeOf 3 []) 0x0304 0, 1024, entryOf 0x0304 0, pipeOf 3 [], sampleOf 0, by decide +kernel⟩

theorem witness_engineOperatorsComplete_9 : ∃ (s : State) (k : Nat) (e : Entry) (p : Pipeline) (x : Sample), Runs s k 0x0305 e p x :=
  ⟨runningOn (pipeOf 3 []) 0x0305 0, 1024, entryOf 0x0305 0, pipeOf 3 [], sampleOf 0, by decide +kernel⟩

theorem witness_engineOperatorsComplete_10 : ∃ (s : State) (k : Nat) (e : Entry) (p : Pipeline) (x : Sample), Runs s k 0x0306 e p x :=
  ⟨runningOn (pipeOf 3 []) 0x0306 0, 1024, entryOf 0x0306 0, pipeOf 3 [], sampleOf 0, by decide +kernel⟩

theorem witness_engineOperatorsComplete_11 : ∃ (s : State) (k : Nat) (e : Entry) (p : Pipeline) (x : Sample), Runs s k 0x0307 e p x :=
  ⟨runningOn (pipeOf 3 []) 0x0307 0, 1024, entryOf 0x0307 0, pipeOf 3 [], sampleOf 0, by decide +kernel⟩

theorem witness_engineOperatorsComplete_12 : ∃ (s : State) (k : Nat) (e : Entry) (p : Pipeline) (x : Sample), Runs s k 0x0308 e p x :=
  ⟨runningOn (pipeOf 3 []) 0x0308 0, 1024, entryOf 0x0308 0, pipeOf 3 [], sampleOf 0, by decide +kernel⟩

theorem witness_engineOperatorsComplete_13 : ∃ (s : State) (k : Nat) (e : Entry) (p : Pipeline) (x : Sample), Runs s k 0x0401 e p x :=
  ⟨runningOn (pipeOf 3 []) 0x0401 0, 1024, entryOf 0x0401 0, pipeOf 3 [], sampleOf 0, by decide +kernel⟩

theorem witness_engineOperatorsComplete_14 : ∃ (s : State) (k : Nat) (e : Entry) (p : Pipeline) (x : Sample), Runs s k 0x0402 e p x :=
  ⟨runningOn (pipeOf 3 []) 0x0402 0, 1024, entryOf 0x0402 0, pipeOf 3 [], sampleOf 0, by decide +kernel⟩

theorem witness_engineOperatorsComplete_15 : ∃ (s : State) (k : Nat) (e : Entry) (p : Pipeline) (x : Sample), Runs s k 0x0501 e p x :=
  ⟨runningOn (pipeOf 3 []) 0x0501 0, 1024, entryOf 0x0501 0, pipeOf 3 [], sampleOf 0, by decide +kernel⟩

theorem witness_engineOperatorsComplete_16 : ∃ (s : State) (k : Nat) (e : Entry) (p : Pipeline) (x : Sample), Runs s k 0x0503 e p x :=
  ⟨runningOn (pipeOf 3 []) 0x0503 0, 1024, entryOf 0x0503 0, pipeOf 3 [], sampleOf 0, by decide +kernel⟩

theorem witness_engineOperatorsComplete_17 : ∃ (s : State) (k : Nat) (e : Entry) (p : Pipeline) (x : Sample), Runs s k 0x0702 e p x :=
  ⟨runningOn (pipeOf 3 []) 0x0702 0, 1024, entryOf 0x0702 0, pipeOf 3 [], sampleOf 0, by decide +kernel⟩

theorem witness_engineOperatorsComplete_18 : ∃ (s : State) (k : Nat) (e : Entry) (p : Pipeline) (x : Sample), Runs s k 0x0101 e p x :=
  ⟨runningOn (pipeOf 3 []) 0x0101 0, 1024, entryOf 0x0101 0, pipeOf 3 [], sampleOf 0, by decide +kernel⟩

theorem witness_engineOperatorsComplete_19 : ∃ (s : State) (k : Nat) (e : Entry) (p : Pipeline) (x : Sample), Runs s k 0x0103 e p x :=
  ⟨runningOn (pipeOf 3 []) 0x0103 0, 1024, entryOf 0x0103 0, pipeOf 3 [], sampleOf 0, by decide +kernel⟩

theorem witness_engineOperatorsComplete_20 : ∃ (s : State) (k : Nat) (e : Entry) (p : Pipeline) (x : Sample), Runs s k 0x0502 e p x :=
  ⟨runningOn (pipeOf 3 []) 0x0502 0, 1024, entryOf 0x0502 0, pipeOf 3 [], sampleOf 0, by decide +kernel⟩

theorem witness_engineOperatorsComplete_21 : ∃ (s : State) (k : Nat) (e : Entry) (p : Pipeline) (x : Sample), Runs s k 0x0601 e p x :=
  ⟨runningOn (pipeOf 3 []) 0x0601 0, 1024, entryOf 0x0601 0, pipeOf 3 [], sampleOf 0, by decide +kernel⟩

theorem witness_engineOperatorsComplete_22 : ∃ (s : State) (k : Nat) (e : Entry) (p : Pipeline) (x : Sample) (b : Bytes),
    b = p.decl.paramsAt e.instance_ ∧ Runs s k 0x0104 e p x ∧ (p.decl.takes e x.cls && minhashTakes b x) = false ∧
    sinkKey e.pipeline e.instance_ ∉ s.eng.sinkFailed :=
  ⟨runningOn (pipeOf 3 []) 0x0104 0, 1024, entryOf 0x0104 0, pipeOf 3 [], sampleOf 0, _, ⟨rfl, by decide +kernel⟩⟩

theorem witness_engineOperatorsComplete_23 : ∃ (s : State) (k : Nat) (e : Entry) (p : Pipeline) (x : Sample) (b : Bytes),
    b = p.decl.paramsAt e.instance_ ∧ Runs s k 0x0104 e p x ∧ p.decl.takes e x.cls = true ∧ minhashTakes b x = true ∧
    (e.budget = 0 ∨ minhashWork b x.data ≤ e.budget) ∧ sinkKey e.pipeline e.instance_ ∉ s.eng.sinkFailed ∧
    s.sinkFull (sinkKey e.pipeline e.instance_) b = false :=
  ⟨runningOn (tuned 0x0104 (1 :: 0xFF :: zeros 30)) 0x0104 0, 1024, entryOf 0x0104 0, tuned 0x0104 (1 :: 0xFF :: zeros 30), sampleOf 0, _,
    ⟨rfl, by decide +kernel⟩⟩

theorem witness_engineOperatorsComplete_24 : ∃ (s : State) (k : Nat) (e : Entry) (p : Pipeline) (x : Sample) (b : Bytes),
    b = p.decl.paramsAt e.instance_ ∧ Runs s k 0x0703 e p x ∧ (x.position % (if field b 2 2 = 0 then 1 else field b 2 2) ≠ 0) ∧
    sinkKey e.pipeline e.instance_ ∉ s.eng.sinkFailed :=
  ⟨runningOn (tuned 0x0703 (0 :: 0 :: 2 :: zeros 29)) 0x0703 1, 1024, entryOf 0x0703 1, tuned 0x0703 (0 :: 0 :: 2 :: zeros 29),
    sampleOf 1, _, ⟨rfl, by decide +kernel⟩⟩

theorem witness_engineOperatorsComplete_25 : ∃ (s : State) (k : Nat) (e : Entry) (p : Pipeline) (x : Sample) (b : Bytes),
    b = p.decl.paramsAt e.instance_ ∧ Runs s k 0x0703 e p x ∧ p.decl.takes e x.cls = true ∧
    (x.position % (if field b 2 2 = 0 then 1 else field b 2 2) = 0) ∧ p.decl.packs x.cls = false ∧
    (e.budget = 0 ∨ digestWork x ≤ e.budget) ∧ sinkKey e.pipeline e.instance_ ∉ s.eng.sinkFailed ∧
    s.sinkFull (sinkKey e.pipeline e.instance_) b = false :=
  ⟨runningOn (tuned 0x0703 (zeros 32)) 0x0703 0, 1024, entryOf 0x0703 0, tuned 0x0703 (zeros 32), sampleOf 0, _, ⟨rfl, by decide +kernel⟩⟩

theorem witness_memoryCommandsWork_1 : ∃ (s : State) (k : Nat) (cmd : Bytes) (fs : List (Nat × WordFault)) (e : Entry) (o : Nat) (i :
    Instr) (f : Bytes → MemArgs → State → MemRun) (m : MemArgs) (r : MemRun), (o, i, f) ∈ [(0x01, Instr.copy k cmd fs, memCopy), (0x02,
    .fill k cmd fs, memFill), (0x03, .gather k cmd fs, memGather), (0x04, .scatter k cmd fs, memScatter), (0x05, .hash k cmd fs, memHash),
    (0x06, .atomic k cmd fs, memAtomic), (0x07, .predicateScan k cmd fs, memScan), (0x08, .compress k cmd fs, memCompress), (0x09,
    .decompress k cmd fs, memDecompress)] ∧ MemRuns s k o cmd e ∧ m = ({ faults := fs, reader := s.readerOf k } : MemArgs) ∧
    r = withResultWord e.raw m (f e.raw m s) :=
  ⟨memState (memBytes 1 0 128 64 0 0), 1024, memBytes 1 0 128 64 0 0, [], memEntry (memBytes 1 0 128 64 0 0), 1,
    .copy 1024 (memBytes 1 0 128 64 0 0) [], memCopy, _, _, ⟨List.mem_cons_self, by decide +kernel, rfl, rfl⟩⟩

theorem witness_memoryCommandsWork_2 : ∃ (s : State) (k : Nat) (cmd : Bytes) (e : Entry) (u : State), s.alive = true ∧ s.going = true ∧
    (s.queue k).entries = [] ∧ (s.queue k).completions = [] ∧ e =
    ({ op := field cmd 0 2, stage := field cmd 2 2, pipeline := byteAt cmd 4, engine := 1, sample := 0, instance_ := 0xFFFF, budget := 0, seq := (s.queue k).nextSeq, attempts := 0, fault := 0, first := 0, tb := s.tb, runOn := none, raw := patch (fitTo 64 cmd) 56 (putLE 4 (s.queue k).nextSeq) }
    : Entry) ∧ u = modQueue k (fun q => { q with nextSeq := (q.nextSeq + 1) % 2 ^ 32, entries := [e] }) s ∧ MemRuns u k 0x02 cmd e :=
  by refine ⟨up, 1024, memBytes 2 0 128 64 0 0, _, _, ?_, ?_, ?_, ?_, rfl, rfl, ?_⟩ <;> decide +kernel

theorem witness_memoryCommandsWork_3 : ∃ (c : Bytes), mResult c = none :=
  ⟨memBytes 1 0 128 64 0 0, by decide +kernel⟩

theorem witness_memoryCommandsWork_4 : ∃ (c : Bytes) (r : MemRun) (a v : Nat), mResult c = some a ∧ r.code = 0 ∧ r.result = some v ∧
    bitOf (byteAt c 7) 1 = false :=
  ⟨memBytes 6 0 0 8 1 64, { memDone up 8 (zeros 8) (some 7) with outside := false }, 64, 7, by decide +kernel⟩

theorem witness_memoryCommandsWork_5 : ∃ (c : Bytes) (m : MemArgs) (s : State) (a w : Access), s.rangeOk (mSrc c) (mLen c) = true ∧
    a = readStack (mSrc c) (mLen c) m.faults m.reader s ∧ a.failed = none ∧ bitOf (byteAt c 7) 0 = false ∧
    w = writeStack false (mDst c) a.bytes m.faults m.reader a.state ∧ a.state.rangeOk (mDst c) a.bytes.length = true ∧ w.failed = none :=
  by refine ⟨memBytes 1 0 128 64 0 0, ⟨[], (memState []).readerOf 1024⟩, memState [], _, _, ?_, rfl, ?_, ?_, rfl, ?_⟩ <;> decide +kernel

theorem witness_memoryCommandsWork_6 : ∃ (c : Bytes) (m : MemArgs) (s : State) (w : Access),
    s.rangeOk (mDst c) (repeated (mLen c) (mArg0 c)).length = true ∧
    w = writeStack false (mDst c) (repeated (mLen c) (mArg0 c)) m.faults m.reader s ∧ w.failed = none :=
  by refine ⟨memBytes 2 0 128 64 0 0, ⟨[], (memState []).readerOf 1024⟩, memState [], _, ?_, rfl, ?_⟩ <;> decide +kernel

theorem witness_memoryCommandsWork_7 : ∃ (c : Bytes) (m : MemArgs) (s : State) (a w : Access) (v : Nat), s.rangeOk (mDst c) 8 = true ∧
    a = readStack (mDst c) 8 m.faults m.reader s ∧ a.failed = none ∧ mAux c = 1 ∧
    v = (if leVal a.bytes = mArg0 c then mArg1 c else leVal a.bytes) ∧ a.state.rangeOk (mDst c) (putLE 8 v).length = true ∧
    w = writeStack true (mDst c) (putLE 8 v) m.faults m.reader a.state ∧ w.failed = none :=
  by refine ⟨memBytes 6 0 0 8 1 64, ⟨[], (memState []).readerOf 1024⟩, memState [], _, _, _, ?_, rfl, ?_, ?_, rfl, ?_, rfl,
    ?_⟩ <;> decide +kernel

theorem witness_memoryCommandsWork_8 : ∃ (c : Bytes) (m : MemArgs) (s : State) (a : Access) (i : Nat),
    s.rangeOk (mSrc c) (mLen c) = true ∧ a = readStack (mSrc c) (mLen c) m.faults m.reader s ∧ a.failed = some i :=
  by refine ⟨memBytes 1 0 128 64 0 0, ⟨[], (memState []).readerOf 1024⟩, up, _, 0, ?_, rfl, ?_⟩ <;> decide +kernel

theorem witness_memoryCommandsWork_9 : ∃ (c : Bytes) (s : State), s.rangeOk (mSrc c) (mLen c) = false :=
  ⟨memBytes 1 (2 ^ 39) 128 64 0 0, up, by decide +kernel⟩

theorem witness_engineQueuesWork_1 : ∃ (s : State) (key k : Nat) (x : Sample) (p : Pipeline) (t : Site) (out : Option Nat) (u : State),
    s.alive = true ∧ s.going = true ∧ u = enterSample (key / 2 ^ 63) (key / 2 ^ 47 % 2 ^ 16) (key % 2 ^ 47) s ∧
    tget u.eng.samples key = some x ∧ tget u.pipes x.pipeline = some p ∧ x.slate ≠ [] ∧ x.phase = .ready ∧ p.state = 3 ∧ x.fetches = 0 ∧
    x.awaitsSlot p.decl = false ∧ x.site p.decl = some t ∧ opEngine t.op = k / 1024 ∧ k % 1024 < queueCount (k / 1024) ∧
    u.engineServes (k / 1024) (k % 1024) = true ∧ u.servingQueues (k / 1024) ≠ [] ∧ (u.queue k).entries.length < queueRoom (k / 1024) ∧
    out = (if needsOut t.op then u.spareBuf x.pipeline else none) ∧ (needsOut t.op = true → out ≠ none) :=
  by refine ⟨readyState, 0, 1024, readySample, pipeOf 3 [], _, _, _, ?_, ?_, rfl, ?_, ?_, ?_, ?_, ?_, ?_, ?_, rfl, ?_, ?_, ?_, ?_, ?_,
    rfl, ?_⟩ <;> decide +kernel

theorem witness_engineQueuesWork_2 : ∃ (s : State) (k : Nat) (c : Completion) (cs : List Completion) (e : Entry) (es : List Entry) (s2 :
    State), s.alive = true ∧ s.going = true ∧ (s.queue k).completions = c :: cs ∧ (s.queue k).entries = e :: es ∧ c.code ≠ 5 ∧ s2 =
    traceEntry k e c (countRun (s.entryUnit k e) (countEntry e c (((s.sampleFor k e).map fun y => y.data.length).getD 0) (modQueue k (fun
    q => { q with completions := cs, entries := es }) s))) ∧ e.isMemory = true :=
  by refine ⟨executed 1024 (memEntry (memBytes 1 0 128 64 0 0)) (doneC 1), 1024, doneC 1, [], memEntry (memBytes 1 0 128 64 0 0), [], _,
    ?_, ?_, ?_, ?_, ?_, rfl, ?_⟩ <;> decide +kernel

theorem witness_engineQueuesWork_3 : ∃ (s : State) (k : Nat) (flips : Bytes) (c : Completion) (cs : List Completion) (e : Entry) (es :
    List Entry) (s2 : State) (x : Sample), s.alive = true ∧ s.going = true ∧ (s.queue k).completions = c :: cs ∧
    (s.queue k).entries = e :: es ∧ c.code ≠ 5 ∧ s2 = traceEntry k e c (countRun (s.entryUnit k e) (countEntry e c (((s.sampleFor k e).map
    fun y => y.data.length).getD 0) (modQueue k (fun q => { q with completions := cs, entries := es }) s))) ∧ e.isMemory = false ∧
    s.sampleFor k e = some x ∧ x.phase ≠ .discarded ∧ c.cause ≠ 21 ∧ (readsInput e && x.inputFails flips) = false :=
  by refine ⟨executed 1024 (entryOf 0x0301 0) (doneC 1), 1024, [], doneC 1, [], entryOf 0x0301 0, [], _, sampleOf 0, ?_, ?_, ?_, ?_, ?_,
    rfl, ?_⟩ <;> decide +kernel

theorem witness_engineQueuesWork_4 : ∃ (s : State) (k : Nat) (flips : Bytes) (c : Completion) (cs : List Completion) (e : Entry) (es :
    List Entry) (s2 : State) (x : Sample), s.alive = true ∧ s.going = true ∧ (s.queue k).completions = c :: cs ∧
    (s.queue k).entries = e :: es ∧ c.code ≠ 5 ∧ s2 = traceEntry k e c (countRun (s.entryUnit k e) (countEntry e c (((s.sampleFor k e).map
    fun y => y.data.length).getD 0) (modQueue k (fun q => { q with completions := cs, entries := es }) s))) ∧ e.isMemory = false ∧
    s.sampleFor k e = some x ∧ x.phase ≠ .discarded ∧ readsInput e = true ∧ x.inputFails flips = true :=
  by refine ⟨executedOn damagedSample 1024 (entryOf 0x0301 0) (doneC 1), 1024, [], doneC 1, [], entryOf 0x0301 0, [], _, damagedSample,
    ?_, ?_, ?_, ?_, ?_, rfl, ?_⟩ <;> decide +kernel

theorem witness_engineQueuesWork_5 : ∃ (s : State) (k : Nat) (c : Completion) (cs : List Completion) (e : Entry) (es : List Entry) (s2 :
    State) (x : Sample), s.alive = true ∧ s.going = true ∧ (s.queue k).completions = c :: cs ∧ (s.queue k).entries = e :: es ∧
    c.code ≠ 5 ∧ s2 = traceEntry k e c (countRun (s.entryUnit k e) (countEntry e c (((s.sampleFor k e).map fun y => y.data.length).getD 0)
    (modQueue k (fun q => { q with completions := cs, entries := es }) s))) ∧ e.isMemory = false ∧ s.sampleFor k e = some x ∧
    x.phase = .discarded :=
  by refine ⟨executedOn discardedSample 1024 (entryOf 0x0301 0) (doneC 1), 1024, doneC 1, [], entryOf 0x0301 0, [], _, discardedSample,
    ?_, ?_, ?_, ?_, ?_, rfl, ?_⟩ <;> decide +kernel

theorem witness_engineQueuesWork_6 : ∃ (s : State) (key k : Nat) (x : Sample) (p : Pipeline) (i : Nat) (t : Site) (b : Nat) (y : Sample),
    s.alive = true ∧ s.going = true ∧ tget s.eng.samples key = some x ∧ tget s.pipes x.pipeline = some p ∧
    i = p.decl.fetchSites.findIdx (fun t => t.op == 0x0101) ∧ p.decl.fetchSites[i]? = some t ∧ s.spareBuf x.pipeline = some b ∧
    x.phase = .completed ∧ k / 1024 = 1 ∧ k % 1024 < 32 ∧ s.engineServes 1 (k % 1024) = true ∧ (s.queue k).entries.length < queueRoom 1 ∧
    s.queueUnit k ≠ x.failUnit ∧ y = { x with opIdx := i, fetches := 1, data := [], inBuf := none, outBuf := none } :=
  by refine ⟨{ readyState with eng := { Engines.atReset with samples := [(0, fetched)] } }, 0, 1024, fetched, pipeOf 3 [], _, _, _, _, ?_,
    ?_, ?_, ?_, rfl, rfl, rfl, ?_, ?_, ?_, ?_, ?_, ?_, rfl⟩ <;> decide +kernel

theorem witness_engineQueuesWork_7 : ∃ (s : State) (k : Nat) (e : Entry), s.alive = true ∧ s.going = true ∧ s.current k = some e ∧
    e.attempts = 0 ∧ atDepth (s.entryRecord k e) = false :=
  ⟨runningOn (pipeOf 3 []) 0x0301 0, 1024, entryOf 0x0301 0, by decide +kernel⟩

theorem witness_engineQueuesWork_8 : ∃ (s : State) (k slot2 : Nat) (c : Completion) (cs : List Completion) (e : Entry) (es : List Entry)
    (u : State), s.alive = true ∧ s.going = true ∧ (s.queue k).completions = c :: cs ∧ (s.queue k).entries = e :: es ∧ c.code = 5 ∧
    (∀ v ∈ s.eng.votes, v.queue ≠ k) ∧ slot2 ∈ s.secondCores (s.slotOf (k % 1024)) ∧ u = traceEntry k e c (countRun (s.entryUnit k e)
    (countEntry e c (((s.sampleFor k e).map fun y => y.data.length).getD 0) s)) :=
  by refine ⟨executed (8 * 1024) (entryOf 0x0401 0) { doneC 0 with code := 5 }, 8 * 1024, 4, { doneC 0 with code := 5 }, [],
    entryOf 0x0401 0, [], _, ?_, ?_, ?_, ?_, ?_, ?_, ?_, rfl⟩ <;> decide +kernel

theorem witness_engineQueuesWork_9 : ∃ (s : State) (k : Nat) (e : Entry) (es : List Entry) (v : Vote) (r1 : Nat × Bytes), s.alive = true ∧
    s.going = true ∧ (s.queue k).entries = e :: es ∧ (s.eng.votes.find? fun v => v.queue == k) = some v ∧ v.results = [r1] :=
  ⟨voting [(0, [1])], 1024, entryOf 0x0301 0, [], ⟨1024, 0, 1, [(0, [1])]⟩, (0, [1]), by decide +kernel⟩

theorem witness_engineQueuesWork_10 : ∃ (s : State) (k : Nat) (e : Entry) (es : List Entry) (v : Vote) (r1 : Nat × Bytes) (result :
    Bytes), s.alive = true ∧ s.going = true ∧ (s.queue k).entries = e :: es ∧ (s.eng.votes.find? fun v => v.queue == k) = some v ∧
    v.results = [r1] ∧ result ≠ r1.2 :=
  ⟨voting [(0, [1])], 1024, entryOf 0x0301 0, [], ⟨1024, 0, 1, [(0, [1])]⟩, (0, [1]), [2], by decide +kernel⟩

theorem witness_engineQueuesWork_11 : ∃ (s : State) (k : Nat) (e : Entry) (es : List Entry) (v : Vote) (r1 r2 : Nat × Bytes) (core : Nat)
    (u : State), s.alive = true ∧ s.going = true ∧ (s.queue k).entries = e :: es ∧ (s.eng.votes.find? fun v => v.queue == k) = some v ∧
    v.results = [r1, r2] ∧ s.mayThird r1.1 r2.1 core = true ∧ u = countRun (uSlot core) s ∧ r2.2 ≠ r1.2 :=
  by refine ⟨voting [(0, [1]), (1, [2])], 1024, entryOf 0x0301 0, [], ⟨1024, 0, 1, [(0, [1]), (1, [2])]⟩, (0, [1]), (1, [2]), 2, _, ?_,
    ?_, ?_, ?_, ?_, ?_, rfl, ?_⟩ <;> decide +kernel

theorem witness_engineQueuesWork_12 : ∃ (s : State) (k : Nat) (e : Entry) (es : List Entry) (v : Vote) (r1 r2 : Nat × Bytes) (core : Nat)
    (u : State) (result : Bytes), s.alive = true ∧ s.going = true ∧ (s.queue k).entries = e :: es ∧
    (s.eng.votes.find? fun v => v.queue == k) = some v ∧ v.results = [r1, r2] ∧ s.mayThird r1.1 r2.1 core = true ∧
    u = countRun (uSlot core) s ∧ result ≠ r1.2 ∧ result ≠ r2.2 :=
  by refine ⟨voting [(0, [1]), (1, [2])], 1024, entryOf 0x0301 0, [], ⟨1024, 0, 1, [(0, [1]), (1, [2])]⟩, (0, [1]), (1, [2]), 2, _, [3],
    ?_, ?_, ?_, ?_, ?_, ?_, rfl, ?_⟩ <;> decide +kernel

theorem witness_engineQueuesWork_13 : ∃ (s : State) (unit q : Nat), s.alive = true ∧ tget s.eng.suspects unit = some (q, 1) ∧
    65536 ≤ tgetD s.eng.runs unit 0 :=
  ⟨{ up with eng := { Engines.atReset with suspects := [(7, (0, 1))], runs := [(7, 65536)] } }, 7, 0, by decide +kernel⟩

theorem witness_engineQueuesWork_14 : ∃ (s : State) (pipe inst head : Nat) (p : Pipeline) (b : Bytes) (w : Nat × Bytes) (t : State),
    s.alive = true ∧ s.going = true ∧ tget s.pipes pipe = some p ∧ b = p.decl.paramsAt inst ∧ s.sinkFull (sinkKey pipe inst) b = true ∧ t
    = emit (.pcieRead 0 (sinkAddr b + 8) 8)
    { s with eng := { s.eng with sinks := tput s.eng.sinks (sinkKey pipe inst) ((tgetD s.eng.sinks (sinkKey pipe inst) (0, 0)).1, head) } }
    ∧ (t.eng.sinkWait.find? fun w => t.sinksTo w.1 (sinkKey pipe inst)) = none :=
  by refine ⟨{ withPipe (pipeOf 3 []) up with eng := { Engines.atReset with sinks := [(0, (1, 0))] } }, 0, 0, 0, pipeOf 3 [], _, (0, []),
    _, ?_, ?_, ?_, rfl, ?_, rfl, ?_⟩ <;> decide +kernel

theorem witness_engineQueuesWork_15 : ∃ (s : State) (pipe inst head : Nat) (p : Pipeline) (b : Bytes) (w : Nat × Bytes) (t : State),
    s.alive = true ∧ s.going = true ∧ tget s.pipes pipe = some p ∧ b = p.decl.paramsAt inst ∧ s.sinkFull (sinkKey pipe inst) b = true ∧ t
    = emit (.pcieRead 0 (sinkAddr b + 8) 8)
    { s with eng := { s.eng with sinks := tput s.eng.sinks (sinkKey pipe inst) ((tgetD s.eng.sinks (sinkKey pipe inst) (0, 0)).1, head) } }
    ∧ (t.eng.sinkWait.find? fun w => t.sinksTo w.1 (sinkKey pipe inst)) = some w :=
  by refine ⟨fullSink, 0, 0, 0, pipeOf 3 [], _, (1024, []), _, ?_, ?_, ?_, rfl, ?_, rfl, ?_⟩ <;> decide +kernel

theorem witness_schedulesAndPoolWork_1 : ∃ (s : State) (pipe epoch : Nat) (p : Pipeline) (beside : List Schedule) (e : Schedule) (gone :
    List Schedule) (r : Schedule × State), s.alive = true ∧ s.going = true ∧ tget s.pipes pipe = some p ∧ s.mayBuild p epoch = true ∧
    p.schedule epoch = none ∧ beside = p.schedulesBeside epoch ∧
    e = Schedule.mk epoch 0 (s.ownedPositions pipe p.decl epoch) true false [] [] [] [] ∧
    gone = p.schedules.filter (fun x => beside.all fun y => y.epoch != x.epoch) ∧ r = placeSchedule (s.domain p.decl) e (modPipe pipe (fun
    q => { q with schedules := beside }) (dropMoved gone s)) :=
  by refine ⟨withPipe (pipeOf 2 []) (catalogued []), 0, 0, pipeOf 2 [], _, _, _, _, ?_, ?_, ?_, ?_, ?_, rfl, rfl, rfl,
    rfl⟩ <;> decide +kernel

theorem witness_schedulesAndPoolWork_2 : ∃ (s : State) (pipe epoch : Nat) (p : Pipeline) (e : Schedule), s.alive = true ∧ s.going = true ∧
    tget s.pipes pipe = some p ∧ p.schedule epoch = some e ∧ p.active = true ∧ e.built = true ∧ e.complete = false :=
  ⟨withPipe (scheduled (scheduleOf false)) (catalogued []), 0, 0, scheduled (scheduleOf false), scheduleOf false, by decide +kernel⟩

theorem witness_schedulesAndPoolWork_3 : ∃ (s : State) (pipe epoch : Nat) (p : Pipeline) (e : Schedule) (window : Nat) (fresh : List Nat)
    (n : Nat), s.alive = true ∧ s.going = true ∧ tget s.pipes pipe = some p ∧ p.schedule epoch = some e ∧ p.active = true ∧
    e.built = true ∧ fresh = (s.ownedPositions pipe p.decl epoch).filter (fun n => windowOf n == window) ∧ windowOf n = window :=
  by refine ⟨withPipe (scheduled (scheduleOf false)) (catalogued []), 0, 0, scheduled (scheduleOf false), scheduleOf false, 0, _, 7, ?_,
    ?_, ?_, ?_, ?_, ?_, rfl, ?_⟩ <;> decide +kernel

theorem witness_schedulesAndPoolWork_4 : ∃ (s : State) (pipe epoch : Nat) (p : Pipeline) (e : Schedule) (window : Nat) (fresh : List Nat)
    (n : Nat), s.alive = true ∧ s.going = true ∧ tget s.pipes pipe = some p ∧ p.schedule epoch = some e ∧ p.active = true ∧
    e.built = true ∧ fresh = (s.ownedPositions pipe p.decl epoch).filter (fun n => windowOf n == window) ∧ windowOf n ≠ window :=
  by refine ⟨withPipe (scheduled (scheduleOf false)) (catalogued []), 0, 0, scheduled (scheduleOf false), scheduleOf false, 1, _, 7, ?_,
    ?_, ?_, ?_, ?_, ?_, rfl, ?_⟩ <;> decide +kernel

theorem witness_schedulesAndPoolWork_5 : ∃ (s : State) (pipe epoch : Nat) (p : Pipeline) (e : Schedule) (window : Nat) (fresh : List Nat)
    (x : Schedule) (u : State), s.alive = true ∧ s.going = true ∧ tget s.pipes pipe = some p ∧ p.schedule epoch = some e ∧
    p.active = true ∧ e.built = true ∧ fresh = (s.ownedPositions pipe p.decl epoch).filter (fun n => windowOf n == window) ∧
    writeWindow (e.renewed window fresh) window s = some (x, u) :=
  by refine ⟨withPipe (scheduled (scheduleOf false)) (catalogued []), 0, 0, scheduled (scheduleOf false), scheduleOf false, 0, _,
    rewritten.1, rewritten.2, ?_, ?_, ?_, ?_, ?_, ?_, rfl, some_getD (writeWindow _ 0 _) (scheduleOf false,
    up) (by decide +kernel)⟩ <;> decide +kernel

theorem witness_schedulesAndPoolWork_6 : ∃ (s : State) (pipe epoch : Nat) (p : Pipeline) (e : Schedule) (window : Nat) (fresh : List Nat),
    s.alive = true ∧ s.going = true ∧ tget s.pipes pipe = some p ∧ p.schedule epoch = some e ∧ p.active = true ∧ e.built = true ∧
    fresh = (s.ownedPositions pipe p.decl epoch).filter (fun n => windowOf n == window) ∧
    writeWindow (e.renewed window fresh) window s = none :=
  by refine ⟨stackless (withPipe (scheduled movedSchedule) (catalogued [])), 0, 0, scheduled movedSchedule, movedSchedule, 0, _, ?_, ?_,
    ?_, ?_, ?_, ?_, rfl, ?_⟩ <;> decide +kernel

theorem witness_schedulesAndPoolWork_7 : ∃ (s : State) (w : PoolWait) (filling : List Nat) (u : State) (hs : List Nat), s.alive = true ∧
    s.going = true ∧ w.ok = true ∧ w.copyOf = none ∧ u = tracePool w.stack w.owner w.stage w.op s ∧ u.canServe w filling = some hs ∧
    u.noneAhead w = true :=
  by refine ⟨up, smallWait, [], _, ((tracePool 0 0 0 0 up).canServe smallWait []).getD [], ?_, ?_, ?_, ?_, rfl,
    some_getD _ _ (by decide +kernel), ?_⟩ <;> decide +kernel

theorem witness_schedulesAndPoolWork_8 : ∃ (s : State) (w : PoolWait) (filling : List Nat) (u : State), s.alive = true ∧ s.going = true ∧
    w.ok = true ∧ w.copyOf = none ∧ u = tracePool w.stack w.owner w.stage w.op s ∧
    (u.canServe w filling = none ∨ u.noneAhead w = false) :=
  by refine ⟨withWait, smallWait, [], _, ?_, ?_, ?_, ?_, rfl, ?_⟩ <;> decide +kernel

theorem witness_schedulesAndPoolWork_9 : ∃ (s : State) (cls stack : Nat) (filling : List Nat) (w : PoolWait) (hs : List Nat),
    s.alive = true ∧ s.going = true ∧ s.nextWaiter cls = some w ∧ s.mayServe { w with stack := stack } filling = some hs :=
  by refine ⟨withWait, 0, 0, [], smallWait, (withWait.mayServe { smallWait with stack := 0 } []).getD [], ?_, ?_, ?_,
    some_getD _ _ (by decide +kernel)⟩ <;> decide +kernel

theorem witness_schedulesAndPoolWork_10 : ∃ (s : State) (h owner stage op : Nat) (u : State) (e : PoolEntry) (n : Nat), s.alive = true ∧
    s.going = true ∧ u = tracePool (bufStack h) owner stage op s ∧ u.handleOk h = true ∧ tget u.pool.entries h = some e ∧ 2 ≤ n ∧
    n ≤ 65535 ∧ e.ref = none ∧ u.refsUsed (bufStack h) < 131072 :=
  by refine ⟨withBuf (none) [], 5, 0, 0, 0, _, { owner := 0, link := 0, crc := 0, ref := none }, 2, ?_, ?_, rfl, ?_⟩ <;> decide +kernel

theorem witness_schedulesAndPoolWork_11 : ∃ (s : State) (h owner stage op : Nat) (u : State) (e : PoolEntry) (n : Nat), s.alive = true ∧
    s.going = true ∧ u = tracePool (bufStack h) owner stage op s ∧ u.handleOk h = true ∧ tget u.pool.entries h = some e ∧ 2 ≤ n ∧
    n ≤ 65535 ∧ e.ref = none ∧ 131072 ≤ u.refsUsed (bufStack h) :=
  by refine ⟨withBuf none (List.replicate 131072 (0, 2)), 5, 0, 0, 0, _, { owner := 0, link := 0, crc := 0, ref := none }, 2, ?_, ?_, rfl,
    ?_, ?_, ?_, ?_, ?_, refs_used⟩ <;> decide +kernel

theorem witness_schedulesAndPoolWork_12 : ∃ (s : State) (h owner stage op : Nat) (u : State) (e : PoolEntry) (i : Nat), s.alive = true ∧
    s.going = true ∧ u = tracePool (bufStack h) owner stage op s ∧ u.handleOk h = true ∧ tget u.pool.entries h = some e ∧
    e.ref = some i :=
  by refine ⟨withBuf (some 0) [], 5, 0, 0, 0, _, { owner := 0, link := 0, crc := 0, ref := some 0 }, 0, ?_, ?_, rfl,
    ?_⟩ <;> decide +kernel

theorem witness_schedulesAndPoolWork_13 : ∃ (s : State) (h owner stage op : Nat) (u : State) (e : PoolEntry) (i : Nat), s.alive = true ∧
    s.going = true ∧ u = tracePool (bufStack h) owner stage op s ∧ u.handleOk h = true ∧ tget u.pool.entries h = some e ∧ e.ref = some i ∧
    2 ≤ u.refCount (bufStack h) i :=
  by refine ⟨withBuf (some 0) [(0, 2)], 5, 0, 0, 0, _, { owner := 0, link := 0, crc := 0, ref := some 0 }, 0, ?_, ?_, rfl,
    ?_⟩ <;> decide +kernel

theorem witness_schedulesAndPoolWork_14 : ∃ (s : State) (h owner stage op : Nat) (u : State) (e : PoolEntry) (i : Nat), s.alive = true ∧
    s.going = true ∧ u = tracePool (bufStack h) owner stage op s ∧ u.handleOk h = true ∧ tget u.pool.entries h = some e ∧ e.ref = some i ∧
    u.refCount (bufStack h) i ≤ 1 :=
  by refine ⟨withBuf (some 0) [(0, 1)], 5, 0, 0, 0, _, { owner := 0, link := 0, crc := 0, ref := some 0 }, 0, ?_, ?_, rfl,
    ?_⟩ <;> decide +kernel

theorem witness_schedulesAndPoolWork_15 : ∃ (s : State) (h owner stage op : Nat) (u : State), s.alive = true ∧ s.going = true ∧
    u = tracePool (bufStack h) owner stage op s ∧ u.handleOk h = true ∧ tget u.pool.entries h = none :=
  by refine ⟨up, 5, 0, 0, 0, _, ?_, ?_, rfl, ?_⟩ <;> decide +kernel

theorem witness_schedulesAndPoolWork_16 : ∃ (s : State) (h owner stage op : Nat) (u : State), s.alive = true ∧ s.going = true ∧
    u = tracePool (bufStack h) owner stage op s ∧ u.handleOk h = true ∧ tget u.pool.entries h = none :=
  by refine ⟨up, 5, 0, 0, 0, _, ?_, ?_, rfl, ?_⟩ <;> decide +kernel

theorem witness_schedulesAndPoolWork_17 : ∃ (s : State) (h owner stage op : Nat) (u : State), s.alive = true ∧ s.going = true ∧
    u = tracePool (bufStack h) owner stage op s ∧ u.handleOk h = false :=
  by refine ⟨up, 2 ^ 32, 0, 0, 0, _, ?_, ?_, rfl, ?_⟩ <;> decide +kernel

theorem witness_deliveryWorks_1 : ∃ (s : State) (key : Nat) (x : Sample) (p : Pipeline) (sl c : Nat) (k : Consumer), s.alive = true ∧
    s.going = true ∧ key < seqBase ∧ tget s.eng.samples key = some x ∧ tget s.pipes x.pipeline = some p ∧ x.phase = .done ∧
    p.decl.ledger = false ∧ p.decl.packs x.cls = false ∧ x.slot = some sl ∧ p.consumerOf sl = some (c, k) ∧
    s.mayWrite x.pipeline p c x.batch = true :=
  ⟨{ deliverState false (runAt [] []) with eng := { Engines.atReset with samples := [(0, doneSample)] } }, 0, doneSample,
    delivering false (runAt [] []), 0, 0, consumerOf 8 3, by decide +kernel⟩

theorem witness_deliveryWorks_2 : ∃ (s : State) (pipe c b : Nat) (p : Pipeline) (k : Consumer), s.alive = true ∧ s.going = true ∧
    tget s.pipes pipe = some p ∧ tget p.consumers c = some k ∧ s.flushed k b = true :=
  ⟨withQp (qpOf 2 1) (deliverState false (runAt [] [])), 0, 0, 0, delivering false (runAt [] []), consumerOf 8 3, by decide +kernel⟩

theorem witness_deliveryWorks_3 : ∃ (s : State) (pipe c : Nat) (p : Pipeline) (k : Consumer) (status : Nat), s.alive = true ∧
    s.going = true ∧ tget s.pipes pipe = some p ∧ tget p.consumers c = some k ∧ status ≠ stFlushed :=
  ⟨deliverState false (runAt [] []), 0, 0, delivering false (runAt [] []), consumerOf 8 3, 0, by decide +kernel⟩

theorem witness_deliveryWorks_4 : ∃ (s : State) (m : Message) (u : State) (p : Pipeline) (k : Consumer), s.alive = true ∧ s.going = true ∧
    u = freeSlot m s ∧ u.accepts m 1 = true ∧ tget u.pipes m.pipeline = some p ∧ tget p.consumers m.consumer = some k ∧
    u.assembles m.pipeline k = true :=
  by refine ⟨deliverState false (runAt [] []), messageOf 1, _, delivering false (runAt [] []), consumerOf 8 3, ?_, ?_, rfl,
    ?_⟩ <;> decide +kernel

theorem witness_deliveryWorks_5 : ∃ (s : State) (m : Message) (u : State), s.alive = true ∧ s.going = true ∧ u = freeSlot m s ∧
    u.accepts m 6 = true :=
  by refine ⟨deliverState false (runAt [] []), messageOf 6, _, ?_, ?_, rfl, ?_⟩ <;> decide +kernel

theorem witness_deliveryWorks_6 : ∃ (s : State) (m : Message) (u : State), s.alive = true ∧ s.going = true ∧ u = freeSlot m s ∧
    u.accepts m 2 = true :=
  by refine ⟨deliverState false (runAt [] []), messageOf 2, _, ?_, ?_, rfl, ?_⟩ <;> decide +kernel

theorem witness_deliveryWorks_7 : ∃ (s : State) (m : Message) (u : State) (p : Pipeline) (es : List (Nat × Nat × Nat × Nat)),
    s.alive = true ∧ s.going = true ∧ u = freeSlot m s ∧ u.accepts m 3 = true ∧ tget u.pipes m.pipeline = some p ∧ p.decl.ledger = true ∧
    u.ledgerHere m.pipeline p (m.index % 2 ^ 48) = true ∧ m.sender ∉ (p.span (m.index / 2 ^ 48) (m.index % 2 ^ 48)).doneFrom ∧
    es = parseReport m.body :=
  by refine ⟨deliverState true (runAt [] []), messageOf 3, _, delivering true (runAt [] []), _, ?_, ?_, rfl, ?_, ?_, ?_, ?_, ?_,
    rfl⟩ <;> decide +kernel

theorem witness_deliveryWorks_8 : ∃ (s : State) (m : Message) (u : State) (p : Pipeline), s.alive = true ∧ s.going = true ∧
    u = freeSlot m s ∧ s.accepts m 4 = true ∧ u.accepts m 4 = true ∧ tget u.pipes m.pipeline = some p ∧ p.decl.ledger = true ∧
    (p.span (m.index / 2 ^ 48) (m.index % 2 ^ 48)).result = false ∧ (parseResult m.body).2 = none :=
  by refine ⟨deliverState true (runAt [] []), messageOf 4, _, delivering true (runAt [] []), ?_, ?_, rfl, ?_⟩ <;> decide +kernel

theorem witness_deliveryWorks_9 : ∃ (s : State) (m : Message) (u : State) (p : Pipeline), s.alive = true ∧ s.going = true ∧
    u = freeSlot m s ∧ s.accepts m 5 = true ∧ u.accepts m 5 = true ∧ tget u.pipes m.pipeline = some p :=
  by refine ⟨deliverState true (runAt [] []), messageOf 5, _, delivering true (runAt [] []), ?_, ?_, rfl, ?_⟩ <;> decide +kernel

theorem witness_deliveryWorks_10 : ∃ (s : State) (pipe epoch span : Nat) (p : Pipeline), s.alive = true ∧ s.going = true ∧
    tget s.pipes pipe = some p ∧ p.active = true ∧ p.decl.ledger = true ∧ epoch < p.decl.epochs ∧ span < spansIn (s.domain p.decl) ∧
    p.mayFetch epoch span = true :=
  ⟨deliverState true (runAt [] []), 0, 0, 0, delivering true (runAt [] []), by decide +kernel⟩

theorem witness_deliveryWorks_11 : ∃ (s : State) (pipe c : Nat) (p : Pipeline) (k : Consumer) (r : ConsRun), s.alive = true ∧
    s.going = true ∧ tget s.pipes pipe = some p ∧ tget p.consumers c = some k ∧ tget p.runs c = some r ∧ s.mayRelease pipe p k r = true :=
  by refine ⟨deliverState false (runAt [] [(0, [(0, 0)])]), 0, 0, delivering false (runAt [] [(0, [(0, 0)])]), consumerOf 8 3, _, ?_, ?_,
    ?_, ?_, rfl, ?_⟩ <;> decide +kernel

theorem witness_deliveryWorks_12 : ∃ (s : State) (pipe c : Nat) (p : Pipeline) (k : Consumer) (r : ConsRun), s.alive = true ∧
    s.going = true ∧ tget s.pipes pipe = some p ∧ tget p.consumers c = some k ∧ tget p.runs c = some r ∧ p.active = true ∧
    s.assembles pipe k = true ∧ r.ring ≠ [] ∧ r.stopped = false :=
  by refine ⟨deliverState false (runAt [0] []), 0, 0, delivering false (runAt [0] []), consumerOf 8 3, _, ?_, ?_, ?_, ?_, rfl,
    ?_⟩ <;> decide +kernel

theorem witness_deliveryWorks_13 : ∃ (s : State) (pipe c : Nat) (p : Pipeline) (k : Consumer) (r : ConsRun) (head : BitVec 64),
    s.alive = true ∧ s.going = true ∧ tget s.pipes pipe = some p ∧ tget p.consumers c = some k ∧ tget p.runs c = some r ∧
    p.active = true ∧ s.assembles pipe k = true ∧ r.stopped = false ∧ r.head ≤ head.toNat ∧ head.toNat ≤ r.tail ∧
    (r.ring.drop (head.toNat - r.head)).headD r.oldest + k.buffers ≤ r.writable :=
  by refine ⟨deliverState false (runAt [] []), 0, 0, delivering false (runAt [] []), consumerOf 8 3, _, 0, ?_, ?_, ?_, ?_, rfl,
    ?_⟩ <;> decide +kernel

theorem witness_lockstepAndClapperWork_1 : ∃ (s : State) (pair cid : Nat) (c : Cmd) (p : Pipeline), Ready s 0x0503 pair cid c ∧
    tget s.pipes (c.p8 32) = some p ∧ p.active = false ∧ s.controlQp (c.p16 34) ≠ none ∧ c.p8 33 ≤ 2 ∧ c.p8 38 ≤ 1 ∧ c.p8 39 ≤ 1 ∧
    c.p16 40 ≤ 10000 ∧ (c.p8 33 = 1 → c.p16 36 = s.fab.nodeId) :=
  ⟨withPipe (pipeOf 1 []) (withQp controlPair (withCmd lockCmd)), 1, 5, lockCmd, pipeOf 1 [], by decide +kernel⟩

theorem witness_lockstepAndClapperWork_2 : ∃ (s : State) (m : Message) (u : State) (k : Lockstep), s.alive = true ∧ s.going = true ∧
    u = freeSlot m s ∧ tget u.lock m.pipeline = some k ∧ u.lockAccepts m 0x40 1 = true ∧ k.hasMatched m.index = false ∧ k.lsState = 1 :=
  by refine ⟨locked 1 (none), messageOf 0x40, _, lockOf 1 (none), ?_, ?_, rfl, ?_⟩ <;> decide +kernel

theorem witness_lockstepAndClapperWork_3 : ∃ (s : State) (m : Message) (u : State) (k : Lockstep), s.alive = true ∧ s.going = true ∧
    u = freeSlot m s ∧ tget u.lock m.pipeline = some k ∧ u.lockAccepts m 0x41 2 = true ∧ k.hasMatched m.index = false :=
  by refine ⟨locked 2 (none), messageOf 0x41, _, lockOf 2 (none), ?_, ?_, rfl, ?_⟩ <;> decide +kernel

theorem witness_lockstepAndClapperWork_4 : ∃ (s : State) (m : Message) (u : State) (k : Lockstep), s.alive = true ∧ s.going = true ∧
    u = freeSlot m s ∧ tget u.lock m.pipeline = some k ∧ u.lockAccepts m 0x42 2 = true :=
  by refine ⟨locked 2 (none), messageOf 0x42, _, lockOf 2 (none), ?_, ?_, rfl, ?_⟩ <;> decide +kernel

theorem witness_lockstepAndClapperWork_5 : ∃ (s : State) (m : Message) (u : State) (k : Lockstep) (p : Pipeline) (all : List (Nat × Nat ×
    Nat × Nat)), s.alive = true ∧ s.going = true ∧ u = freeSlot m s ∧ tget u.lock m.pipeline = some k ∧ u.lockAccepts m 0x43 1 = true ∧
    k.searching = some (m.index, none) ∧ tget u.pipes m.pipeline = some p ∧
    all = k.partnerRecs ++ (pieces 16 m.count m.body).map recordOfBytes ∧ tgetD k.partnerCounts m.index 0 ≤ all.length :=
  by refine ⟨locked 1 (some (0, none)), messageOf 0x43, _, lockOf 1 (some (0, none)), pipeOf 3 [], _, ?_, ?_, rfl, ?_, ?_, ?_, ?_, rfl,
    ?_⟩ <;> decide +kernel

theorem witness_lockstepAndClapperWork_6 : ∃ (s : State) (m : Message) (u : State) (k : Lockstep), s.alive = true ∧ s.going = true ∧
    u = freeSlot m s ∧ tget u.lock m.pipeline = some k ∧ u.lockAccepts m 0x44 2 = true :=
  by refine ⟨locked 2 (none), messageOf 0x44, _, lockOf 2 (none), ?_, ?_, rfl, ?_⟩ <;> decide +kernel

theorem witness_lockstepAndClapperWork_7 : ∃ (s : State) (m : Message) (u : State) (k : Lockstep) (p : Pipeline) (e : Nat × Nat × Nat ×
    Nat), s.alive = true ∧ s.going = true ∧ u = freeSlot m s ∧ tget u.lock m.pipeline = some k ∧ u.lockAccepts m 0x45 1 = true ∧
    k.searching = some (m.index, some m.value) ∧ tget u.pipes m.pipeline = some p ∧ e = (chainDiff (tgetD k.chains (m.index * 2 ^ 32 +
    m.value) []) ((pieces 12 m.count m.body).map fun x => (field x 0 2, field x 2 2, byteAt x 4, field x 8 4))).getD (0xFFFF, 0, 0, 0) :=
  by refine ⟨locked 1 (some (0, some 0)), messageOf 0x45, _, lockOf 1 (some (0, some 0)), pipeOf 3 [], _, ?_, ?_, rfl, ?_, ?_, ?_, ?_,
    rfl⟩ <;> decide +kernel

theorem witness_lockstepAndClapperWork_8 : ∃ (s : State) (m : Message) (u : State) (k : Lockstep), s.alive = true ∧ s.going = true ∧
    u = freeSlot m s ∧ tget u.lock m.pipeline = some k ∧ u.lockAccepts m 0x46 2 = true :=
  by refine ⟨locked 2 (none), messageOf 0x46, _, lockOf 2 (none), ?_, ?_, rfl, ?_⟩ <;> decide +kernel

theorem witness_lockstepAndClapperWork_9 : ∃ (s : State) (m : Message) (u : State) (k : Lockstep), s.alive = true ∧ s.going = true ∧
    u = freeSlot m s ∧ tget u.lock m.pipeline = some k ∧ u.lockAccepts m 0x47 2 = true ∧ (parseMessage m.body).pipeline = m.pipeline ∧
    (parseMessage m.body).kind = 4 :=
  by refine ⟨locked 2 none, forwardOf 4, _, lockOf 2 none, ?_, ?_, rfl, ?_⟩ <;> decide +kernel

theorem witness_lockstepAndClapperWork_10 : ∃ (s : State) (m : Message) (u : State) (k : Lockstep), s.alive = true ∧ s.going = true ∧
    u = freeSlot m s ∧ tget u.lock m.pipeline = some k ∧ u.lockAccepts m 0x47 2 = true ∧ (parseMessage m.body).pipeline = m.pipeline ∧
    (parseMessage m.body).kind = 5 :=
  by refine ⟨locked 2 none, forwardOf 5, _, lockOf 2 none, ?_, ?_, rfl, ?_⟩ <;> decide +kernel

theorem witness_lockstepAndClapperWork_11 : ∃ (s : State) (pipe : Nat) (k : Lockstep) (p : Pipeline), s.alive = true ∧ s.going = true ∧
    tget s.lock pipe = some k ∧ tget s.pipes pipe = some p ∧ p.active = true ∧ k.lsState = 1 ∧ s.partnerLate k = true ∧ k.role = 1 ∧
    k.onLoss = 1 :=
  ⟨locked 1 none, 0, lockOf 1 none, pipeOf 3 [], by decide +kernel⟩

theorem witness_lockstepAndClapperWork_12 : ∃ (s : State) (pair cid : Nat) (c : Cmd), s.alive = true ∧ s.findCmd pair cid = some c ∧
    c.opcode = 0x0506 ∧ s.mayStart c = true ∧ s.ken.fatal = false ∧ c.p8 32 = 0 :=
  ⟨withCmd (clapCmd 0 0), 1, 5, clapCmd 0 0, by decide +kernel⟩

theorem witness_lockstepAndClapperWork_13 : ∃ (s : State) (pair cid : Nat) (c : Cmd), s.alive = true ∧ s.findCmd pair cid = some c ∧
    c.opcode = 0x0506 ∧ s.mayStart c = true ∧ s.ken.fatal = false ∧ c.p8 32 = 1 ∧ s.ken.frozen = false ∧ s.tb < c.p64 40 :=
  ⟨withCmd (clapCmd 1 100), 1, 5, clapCmd 1 100, by decide +kernel⟩

theorem witness_lockstepAndClapperWork_14 : ∃ (s : State) (pair cid : Nat) (c : Cmd), s.alive = true ∧ s.findCmd pair cid = some c ∧
    c.opcode = 0x0506 ∧ s.mayStart c = true ∧ s.ken.fatal = false ∧ c.p8 32 = 1 ∧ s.ken.frozen = false ∧ c.p64 40 ≤ s.tb :=
  ⟨withCmd (clapCmd 1 0), 1, 5, clapCmd 1 0, by decide +kernel⟩

theorem witness_lockstepAndClapperWork_15 : ∃ (s : State) (pair cid : Nat) (c : Cmd), s.alive = true ∧ s.findCmd pair cid = some c ∧
    c.opcode = 0x0506 ∧ s.mayStart c = true ∧ s.ken.fatal = false ∧ c.p8 32 = 2 ∧ s.ken.frozen = true ∧ s.clap.held = none ∧
    s.raw 0x12 0 0x01 0 = 0 :=
  ⟨thawing [], 1, 5, clapCmd 2 0, by decide +kernel⟩

theorem witness_lockstepAndClapperWork_16 : ∃ (s : State) (pair cid : Nat) (c : Cmd), s.alive = true ∧ s.findCmd pair cid = some c ∧
    c.opcode = 0x0506 ∧ s.mayStart c = true ∧ s.ken.fatal = false ∧ c.p8 32 = 2 ∧ s.ken.frozen = true ∧ s.clap.held = none ∧
    s.raw 0x12 0 0x01 0 ≠ 0 :=
  ⟨thawing [(fieldId 0x12 0 1, 1)], 1, 5, clapCmd 2 0, by decide +kernel⟩

theorem witness_lockstepAndClapperWork_17 : ∃ (s : State), s.alive = true ∧ s.raw 0x12 0 0x01 0 = 1 :=
  ⟨thawing [(fieldId 0x12 0 1, 1)], by decide +kernel⟩

theorem witness_lockstepAndClapperWork_18 : ∃ (s : State) (pair cid : Nat), s.alive = true ∧ s.clap.held = some (pair, cid) :=
  ⟨{ up with clap := { Clapper.atReset with held := some (1, 5) } }, 1, 5, by decide +kernel⟩

theorem witness_lockstepAndClapperWork_19 : ∃ (s : State) (a : Nat), s.alive = true ∧ s.clap.at_ = some a ∧ a ≤ s.tb :=
  ⟨{ up with clap := { Clapper.atReset with at_ := some 0 } }, 0, by decide +kernel⟩

theorem witness_stackMemoryWorks_1 : ∃ (s : State) (stack idx : Nat) (bs : Bytes), s.alive = true ∧ s.wordServes stack idx = true ∧
    34 * 2 ^ 24 ≤ idx ∧ s.word stack idx = some (.data bs) :=
  ⟨wordAt (34 * 2 ^ 24) (.data (zeros 64)), 0, 34 * 2 ^ 24, zeros 64, by decide +kernel⟩

theorem witness_stackMemoryWorks_2 : ∃ (s : State) (stack idx : Nat), s.alive = true ∧ s.wordServes stack idx = true ∧ 34 * 2 ^ 24 ≤ idx ∧
    s.word stack idx = none :=
  ⟨up, 0, 34 * 2 ^ 24, by decide +kernel⟩

theorem witness_stackMemoryWorks_3 : ∃ (s : State) (stack idx : Nat), s.alive = true ∧ s.wordServes stack idx = true ∧ 34 * 2 ^ 24 ≤ idx ∧
    s.word stack idx = some .poison :=
  ⟨wordAt (34 * 2 ^ 24) .poison, 0, 34 * 2 ^ 24, by decide +kernel⟩

theorem witness_stackMemoryWorks_4 : ∃ (s : State) (stack idx off : Nat) (data : Bytes), s.alive = true ∧ s.wordServes stack idx = true ∧
    off + data.length ≤ 64 ∧ s.servingStack stack idx = stack ∧ data.length = 64 :=
  ⟨up, 0, 34 * 2 ^ 24, 0, zeros 64, by decide +kernel⟩

theorem witness_stackMemoryWorks_5 : ∃ (s : State) (stack idx off : Nat) (data bs : Bytes), s.alive = true ∧
    s.wordServes stack idx = true ∧ off + data.length ≤ 64 ∧ s.servingStack stack idx = stack ∧ data.length ≠ 64 ∧
    s.word stack idx = some (.data bs) :=
  ⟨wordAt (34 * 2 ^ 24) (.data (zeros 64)), 0, 34 * 2 ^ 24, 60, zeros 4, zeros 64, by decide +kernel⟩

theorem witness_stackMemoryWorks_6 : ∃ (s : State) (stack idx off : Nat) (data : Bytes), s.alive = true ∧ s.wordServes stack idx = true ∧
    off + data.length ≤ 64 ∧ s.servingStack stack idx = stack ∧ data.length ≠ 64 ∧ s.word stack idx = none :=
  ⟨up, 0, 34 * 2 ^ 24, 0, zeros 4, by decide +kernel⟩

theorem witness_stackMemoryWorks_7 : ∃ (s : State) (stack idx off : Nat) (data : Bytes), s.alive = true ∧ s.wordServes stack idx = true ∧
    off + data.length ≤ 64 ∧ s.servingStack stack idx = stack ∧ data.length ≠ 64 ∧ s.word stack idx = some .poison :=
  ⟨wordAt (34 * 2 ^ 24) .poison, 0, 34 * 2 ^ 24, 0, zeros 4, by decide +kernel⟩

theorem witness_stackMemoryWorks_8 : ∃ (s : State) (stack : Nat) (bs : Bytes), s.alive = true ∧ s.wordServes stack 0 = true ∧
    s.passCovers stack = false ∧ s.raw 0x05 stack 0x03 0 + 1 < 2 ^ 30 ∧ s.word stack (s.raw 0x05 stack 0x03 0) = some (.data bs) :=
  ⟨wordAt 0 (.data (zeros 64)), 0, zeros 64, by decide +kernel⟩

theorem witness_stackMemoryWorks_9 : ∃ (s : State) (pair cid : Nat) (c : Cmd) (l : LongOp) (errs : List (Nat × WordFault)) (r : State ×
    LongOp × Nat), Enters s 0x0508 pair cid c (stacksTarget c s) (scrubCheck c s) l ∧
    r = scrubRange (scrubCount l.cmd - l.progress % 2 ^ 40) errs l (dropLong l.handle s) :=
  ⟨withCmd (stackCmd 0x0508), 0, 5, stackCmd 0x0508, longOf (stackCmd 0x0508) (2 ^ 22 + 0x0508 * 256 + 1), [], _, ⟨by decide +kernel,
    rfl⟩⟩

theorem witness_stackMemoryWorks_10 : ∃ (s : State) (pair cid : Nat) (c : Cmd) (l : LongOp) (r : State × LongOp × Nat),
    Enters s 0x0509 pair cid c (stacksTarget c s) (fillCheck c s) l ∧
    r = fillRange (stackBuffers - l.progress % 2 ^ 40) l (dropLong l.handle s) :=
  ⟨withCmd (stackCmd 0x0509), 0, 5, stackCmd 0x0509, longOf (stackCmd 0x0509) (2 ^ 22 + 0x0509 * 256 + 1), _, ⟨by decide +kernel, rfl⟩⟩

theorem witness_observabilityWorks_1 : ∃ (s : State) (pair cid : Nat) (c : Cmd) (out : List ErrRec) (all : Nat),
    Ready s 0x0500 pair cid c ∧ (c.p8 32 ≤ 11 ∨ c.p8 32 = 255) ∧ 1 ≤ c.p16 34 ∧ c.p16 34 ≤ 768 ∧ c.minBuf (64 * c.p16 34) = true ∧
    out = (s.ringRecords (c.p8 32)).take (c.p16 34) ∧ all = ((diesOf (c.p8 32)).map fun d => (s.ringOf d).recs.length).sum ∧
    c.p8 33 = 1 :=
  by refine ⟨withCmd (bufCmd 0x0500 64 [(32, putLE 1 255), (33, putLE 1 1), (34, putLE 2 1)]), 1, 5, bufCmd 0x0500 64 [(32, putLE 1 255),
    (33, putLE 1 1), (34, putLE 2 1)], _, _, ?_, ?_, ?_, ?_, ?_, rfl, rfl, ?_⟩ <;> decide +kernel

theorem witness_observabilityWorks_2 : ∃ (s : State) (pair cid : Nat) (c : Cmd) (out : List ErrRec) (all : Nat),
    Ready s 0x0500 pair cid c ∧ (c.p8 32 ≤ 11 ∨ c.p8 32 = 255) ∧ 1 ≤ c.p16 34 ∧ c.p16 34 ≤ 768 ∧ c.minBuf (64 * c.p16 34) = true ∧
    out = (s.ringRecords (c.p8 32)).take (c.p16 34) ∧ all = ((diesOf (c.p8 32)).map fun d => (s.ringOf d).recs.length).sum ∧
    c.p8 33 = 0 :=
  by refine ⟨withCmd (bufCmd 0x0500 64 [(32, putLE 1 11), (34, putLE 2 1)]), 1, 5, bufCmd 0x0500 64 [(32, putLE 1 11), (34, putLE 2 1)],
    _, _, ?_, ?_, ?_, ?_, ?_, rfl, rfl, ?_⟩ <;> decide +kernel

theorem witness_observabilityWorks_3 : ∃ (s : State) (pair cid : Nat) (c : Cmd) (p : Pipeline) (rs : List CounterRow),
    Ready s 0x0501 pair cid c ∧ c.p8 32 ≤ 15 ∧ c.p8 33 = 0 ∧ tget s.pipes (c.p8 32) = some p ∧ rs = p.decl.counterRows (c.p8 32) ∧
    c.minBuf (128 * rs.length) = true :=
  by refine ⟨withPipe (pipeOf 3 []) (withCmd (bufCmd 0x0501 512 [])), 1, 5, bufCmd 0x0501 512 [], pipeOf 3 [], _, ?_, ?_, ?_, ?_, rfl,
    ?_⟩ <;> decide +kernel

theorem witness_observabilityWorks_4 : ∃ (s : State) (pair cid : Nat) (c : Cmd), Ready s 0x0502 pair cid c ∧ 10 ≤ c.p8 32 ∧ c.p8 32 ≤ 24 ∧
    c.p8 33 ≤ 1 ∧ c.p64 40 % 4096 = 0 :=
  ⟨withCmd (fabCmd 0x0502 0 [(32, putLE 1 10)]), 1, 5, fabCmd 0x0502 0 [(32, putLE 1 10)], by decide +kernel⟩

theorem witness_observabilityWorks_5 : ∃ (s : State) (pair cid : Nat) (c : Cmd) (l : LongOp) (u : State),
    Enters s 0x0504 pair cid c (dailiesTarget c s) (dailiesCheck c s) l ∧ u = dropLong l.handle s :=
  ⟨withCmd (bufCmd 0x0504 1024 []), 1, 5, bufCmd 0x0504 1024 [], longOf (bufCmd 0x0504 1024 []) (2 ^ 22), _, ⟨by decide +kernel, rfl⟩⟩

theorem witness_observabilityWorks_6 : ∃ (s : State) (pair cid : Nat) (c : Cmd) (l : LongOp) (r : State × LongOp × Bool),
    Enters s 0x0505 pair cid c (logbookTarget c s) (logbookCheck c s) l ∧ r = logbookSome s.obs.log.length l (dropLong l.handle s) :=
  ⟨withCmd (bufCmd 0x0505 4096 []), 1, 5, bufCmd 0x0505 4096 [], longOf (bufCmd 0x0505 4096 []) (2 ^ 22 + 1), _, ⟨by decide +kernel, rfl⟩⟩

theorem witness_observabilityWorks_7 : ∃ (s : State), s.alive = true ∧ 6 ≤ s.ken.bootStage :=
  ⟨up, by decide +kernel⟩

theorem witness_observabilityWorks_8 : ∃ (s : State) (r : LogRec) (rest : List LogRec), s.alive = true ∧ s.obs.logQueue = r :: rest ∧
    s.obs.permDropped = 0 :=
  ⟨{ up with obs := { Observe.atReset with logQueue := [⟨0, 1, 0, 0, 0, 0, []⟩] } }, ⟨0, 1, 0, 0, 0, 0, []⟩, [], by decide +kernel⟩

theorem witness_observabilityWorks_9 : ∃ (s : State) (cause : Nat), s.alive = true ∧ (cause = 0x0602 ∨ cause = 0x0603 ∨ cause = 0x0604) ∧
    s.ken.fatal = false :=
  ⟨up, 0x0602, by decide +kernel⟩

theorem witness_fieldTestWorks_1 : ∃ (s : State) (c : Nat) (temp : ℤ) (i : Nat), s.alive = true ∧ s.going = true ∧
    s.raw 0x10 c 0x01 1 ≠ 0 ∧ s.inService (uCluster c) = true ∧ s.oldestSlot c = some i ∧ i / 5 = c ∧ s.testing (uSlot i) = false ∧
    thas s.ftest.pendingTakeover c = false ∧ s.spareOf c ≠ none ∧ temp < 760 ∧ s.dieAllows (dieOf (uSlot i)) = true ∧
    s.waitsBehind c = false ∧ s.coreState i = 1 :=
  ⟨spareOldest, 0, 0, 4, by decide +kernel⟩

theorem witness_fieldTestWorks_2 : ∃ (s : State) (c : Nat) (temp : ℤ) (i : Nat), s.alive = true ∧ s.going = true ∧
    s.raw 0x10 c 0x01 1 ≠ 0 ∧ s.inService (uCluster c) = true ∧ s.oldestSlot c = some i ∧ i / 5 = c ∧ s.testing (uSlot i) = false ∧
    thas s.ftest.pendingTakeover c = false ∧ s.spareOf c ≠ none ∧ temp < 760 ∧ s.dieAllows (dieOf (uSlot i)) = true ∧
    s.waitsBehind c = false ∧ s.coreState i ≠ 1 :=
  ⟨up, 0, 0, 0, by decide +kernel⟩

theorem witness_fieldTestWorks_3 : ∃ (s : State) (c : Nat), s.alive = true ∧ (c ∈ s.ftest.deferred ∨ c ∈ s.ftest.waiting) :=
  ⟨testedWith { FieldTest.atReset with deferred := [3] }, 3, by decide +kernel⟩

theorem witness_fieldTestWorks_4 : ∃ (s0 s : State) (c : Nat) (d : TestDue) (sp l : Nat) (u : State), s0.alive = true ∧
    s = s0.coreFlushed c ∧ s.going = true ∧ tget s.ftest.pendingTakeover c = some d ∧ s.spareOf c = some sp ∧
    s.identityOf d.slot = some l ∧ s.takeoverFree sp l = true ∧ u = takeIdentity l sp
    { s with ftest := { s.ftest with pendingTakeover := tdel s.ftest.pendingTakeover c } } :=
  by refine ⟨testedWith { FieldTest.atReset with pendingTakeover := [(0, ⟨0, 0, 1, 0⟩)] }, _, 0, ⟨0, 0, 1, 0⟩, 4, 0, _, ?_, rfl, ?_, ?_,
    ?_, ?_, ?_, rfl⟩ <;> decide +kernel

theorem witness_fieldTestWorks_5 : ∃ (s : State) (o : TestOut) (t : TestRun), s.alive = true ∧
    (s.ftest.tests.find? fun t => t.unit == o.unit) = some t :=
  ⟨testedWith { FieldTest.atReset with tests := [testNow] }, outOf 1, testNow, by decide +kernel⟩

theorem witness_fieldTestWorks_6 : ∃ (s : State) (i : Nat) (temp : ℤ) (o : TestOut) (q : Requal) (x : TestOut) (t : TestRun) (u : State),
    s.alive = true ∧ s.ken.fatal = false ∧ s.coreState i = 3 ∧ tget s.ftest.passes i = some q ∧ temp - q.failed.tempStart ≤ 24 ∧
    q.failed.tempStart - temp ≤ 24 ∧ s.dieAllows (dieOf (uSlot i)) = true ∧ x = { o with unit := uSlot i, repeatFails := true } ∧
    t = { q.failed with trigger := 3, tbStart := s.tb, tempStart := temp } ∧ u = countTest (uSlot i) (s.outcomeOf x) (keepRecord
    (s.testRecord t x (s.outcomeOf x)) s) ∧ s.outcomeOf x = 0 ∧ 1 ≤ q.count :=
  by refine ⟨requalifying 1, 0, 0, outOf 0xFFFF, { count := 1, failed := testNow }, _, _, _, ?_, ?_, ?_, ?_, ?_, ?_, ?_, rfl, rfl, rfl,
    ?_⟩ <;> decide +kernel

theorem witness_fieldTestWorks_7 : ∃ (s : State) (i : Nat) (temp : ℤ) (o : TestOut) (q : Requal) (x : TestOut) (t : TestRun) (u : State),
    s.alive = true ∧ s.ken.fatal = false ∧ s.coreState i = 3 ∧ tget s.ftest.passes i = some q ∧ temp - q.failed.tempStart ≤ 24 ∧
    q.failed.tempStart - temp ≤ 24 ∧ s.dieAllows (dieOf (uSlot i)) = true ∧ x = { o with unit := uSlot i, repeatFails := true } ∧
    t = { q.failed with trigger := 3, tbStart := s.tb, tempStart := temp } ∧ u = countTest (uSlot i) (s.outcomeOf x) (keepRecord
    (s.testRecord t x (s.outcomeOf x)) s) ∧ s.outcomeOf x = 0 ∧ q.count = 0 :=
  by refine ⟨requalifying 0, 0, 0, outOf 0xFFFF, { count := 0, failed := testNow }, _, _, _, ?_, ?_, ?_, ?_, ?_, ?_, ?_, rfl, rfl, rfl,
    ?_⟩ <;> decide +kernel

theorem witness_fieldTestWorks_8 : ∃ (s : State) (i : Nat) (temp : ℤ) (o : TestOut) (q : Requal) (x : TestOut) (t : TestRun) (u : State),
    s.alive = true ∧ s.ken.fatal = false ∧ s.coreState i = 3 ∧ tget s.ftest.passes i = some q ∧ temp - q.failed.tempStart ≤ 24 ∧
    q.failed.tempStart - temp ≤ 24 ∧ s.dieAllows (dieOf (uSlot i)) = true ∧ x = { o with unit := uSlot i, repeatFails := true } ∧
    t = { q.failed with trigger := 3, tbStart := s.tb, tempStart := temp } ∧ u = countTest (uSlot i) (s.outcomeOf x) (keepRecord
    (s.testRecord t x (s.outcomeOf x)) s) ∧ s.outcomeOf x ≠ 0 :=
  by refine ⟨requalifying 1, 0, 0, outOf 1, { count := 1, failed := testNow }, _, _, _, ?_, ?_, ?_, ?_, ?_, ?_, ?_, rfl, rfl, rfl,
    ?_⟩ <;> decide +kernel

theorem witness_fieldTestWorks_9 : ∃ (s : State) (u : Nat) (v : Nat × Nat), s.alive = true ∧ tget s.eng.suspects u = some v ∧
    s.inService u = true ∧ s.testing u = false ∧ s.ken.fatal = false ∧ u / 4096 ≠ 3 :=
  ⟨{ up with eng := { Engines.atReset with suspects := [(uSe 0, (0, 1))] } }, uSe 0, (0, 1), by decide +kernel⟩

theorem witness_fieldTestWorks_10 : ∃ (s : State) (pair cid : Nat) (c : Cmd), Ready s 0x0600 pair cid c ∧ c.p16 32 ≠ 0 ∧ c.p8 34 ≤ 1 ∧
    1 ≤ c.p16 36 ∧ c.p16 36 ≤ 168 :=
  ⟨withCmd (fabCmd 0x0600 0 [(32, putLE 2 1), (36, putLE 2 168)]), 1, 5, fabCmd 0x0600 0 [(32, putLE 2 1), (36, putLE 2 168)],
    by decide +kernel⟩

theorem witness_fieldTestWorks_11 : ∃ (s : State) (pair cid : Nat) (c : Cmd) (l : LongOp) (outs : List TestOut) (temp : ℤ) (r : State ×
    LongOp), Enters s 0x0601 pair cid c (testTarget c s) (testCheck c s) l ∧ r = testSome 4096 outs temp l (dropLong l.handle s) :=
  ⟨withCmd (fabCmd 0x0601 0 [(32, putLE 2 (uSlot 4))]), 1, 5, fabCmd 0x0601 0 [(32, putLE 2 (uSlot 4))], longOf (fabCmd 0x0601 0 [(32,
    putLE 2 (uSlot 4))]) (2 ^ 24 + uSlot 4), [], 0, _, ⟨by decide +kernel, rfl⟩⟩

theorem witness_fieldTestWorks_12 : ∃ (s : State) (pair cid : Nat) (c : Cmd) (out : List TestRec), Ready s 0x0602 pair cid c ∧
    1 ≤ c.p16 32 ∧ c.p16 32 ≤ 256 ∧ c.p8 34 = 0 ∧ c.minBuf (64 * c.p16 32) = true ∧ out = s.ftest.records.take (c.p16 32) :=
  by refine ⟨withCmd (bufCmd 0x0602 64 [(32, putLE 2 1)]), 1, 5, bufCmd 0x0602 64 [(32, putLE 2 1)], _, ?_, ?_, ?_, ?_, ?_,
    rfl⟩ <;> decide +kernel

theorem witness_fieldTestWorks_13 : ∃ (s : State) (pair cid : Nat) (c : Cmd), Ready s 0x0603 pair cid c ∧ mayRetire (c.p16 32) = true ∧
    c.p16 32 ∉ s.ftest.retired :=
  ⟨withCmd (fabCmd 0x0603 0 [(32, putLE 2 (uSe 5))]), 1, 5, fabCmd 0x0603 0 [(32, putLE 2 (uSe 5))], by decide +kernel⟩

theorem witness_emptyQueueTicks_1 : ∃ (s : State), s.pending = [] ∧ s.alive = true :=
  ⟨up, by decide +kernel⟩

theorem witness_emptyQueueTicks_2 : ∃ (s : State), s.pending = [] ∧ s.alive = false :=
  ⟨State.reset, by decide +kernel⟩

theorem witness_stepsGoOn_1 : ∃ (s : State) (c : Instr) (rest : List Instr), Invariant s ∧ s.pending = c :: rest :=
  ⟨{ up with pending := [.ctrlEnable 0] }, .ctrlEnable 0, [], ⟨⟨up_inv.fields, up_inv.memory, up_inv.rings, up_inv.events, up_inv.longs,
    up_inv.logQueue⟩, by decide +kernel⟩⟩

theorem witness_stepsGoOn_2 : ∃ (s : State), s.pending = [] :=
  ⟨up, by decide +kernel⟩

theorem witness_stoppedClocksStopEverything_1 : ∃ (s : State) (c : Instr), s.alive = false ∧ (∀ b, c ≠ .powerOnReset b) ∧ c ≠ .pwrgdFall ∧
    c ≠ .warmReset ∧ (∀ r, c ≠ .supplySample r) :=
  by refine ⟨State.reset, .ctrlEnable 0, ?_, (fun _ h => by cases h), ?_, ?_, (fun _ h => by cases h)⟩ <;> decide +kernel

theorem witness_noAccessWithoutTheLink_1 : ∃ (s : State), s.barUp = false :=
  ⟨State.reset, by decide +kernel⟩

theorem witness_noAccessWithoutTheLink_2 : ∃ (s : State) (sub : Nat), s.sublinks ≤ sub :=
  ⟨up, 2, by decide +kernel⟩

theorem witness_noAccessWithoutTheLink_3 : ∃ (sub : Nat), sub ≠ 0 :=
  ⟨1, by decide +kernel⟩

theorem witness_noAccessWithoutTheLink_4 : ∃ (s : State) (sub pair : Nat), s.pairSublink pair ≠ sub :=
  ⟨up, 1, 1, by decide +kernel⟩

theorem witness_operatorsTouchTheirQueueOnly_1 : ∃ (s t : State) (k : Nat) (c : Instr) (r : State × Bool), r = settleMerge k s ∧
    c ∈ [Instr.crcVerify k, .imageDecode k, .videoDecode k, .audioDecode k, .cropResample k, .flip k, .affineWarp k, .colourJitter k,
    .normalize k, .convert k, .expression k, .audioGain k, .scoreModel k, .embedModel k, .tokenize k, .tokenMask k, .deliver k] ∧
    exec c s = .next t :=
  ⟨runningOn (pipeOf 3 []) 0x0302 0, after (.flip 1024) (runningOn (pipeOf 3 []) 0x0302 0), 1024, .flip 1024,
    settleMerge 1024 (runningOn (pipeOf 3 []) 0x0302 0), ⟨rfl, by decide +kernel, exec_after _ _ (by decide +kernel)⟩⟩

theorem witness_readersChangeNothing_1 : ∃ (s t : State) (pair cid : Nat) (ok : Bool) (c : Instr) (x : Cmd), x ∈ s.ken.cmds ∧
    c ∈ [Instr.identify pair cid ok, .read pair cid ok, .wearReport pair cid ok, .qpModifyQuery pair cid ok, .attestReport pair cid ok,
    .certRead pair cid ok] ∧ exec c s = .next t ∧ x.isOpen pair cid = false :=
  by refine ⟨withCmds [identifyCmd, plainCmd 1 0x0101] up, after (.identify 0 5 true) (withCmds [identifyCmd, plainCmd 1 0x0101] up), 0,
    5, true, .identify 0 5 true, plainCmd 1 0x0101, ?_, ?_, exec_after _ _ (by decide +kernel), ?_⟩ <;> decide +kernel

theorem witness_blocksReadBack_1 : ∃ (s t : State) (pair cid : Nat) (c : Cmd) (d : Bytes) (v : Volume) (m : Nat × Magazine) (i : Nat),
    s.alive = true ∧ (s.ken.cmds.find? fun c => c.writing && c.pair == pair && c.cid == cid) = some c ∧ c.data = some d ∧
    d.length = c.count * 4096 ∧ tget s.flash.volumes c.volume = some v ∧ s.volMag v = some m ∧ s.hostRoom c.volume c.count = true ∧
    exec (.flashProgramComplete pair cid true) s = .next t ∧ i < c.count :=
  by refine ⟨storing (magOf 3) [{ blockCmd 0x0301 1 1 with phase := .running }], after (.flashProgramComplete 2 5 true) (storing (magOf 3)
    [{ blockCmd 0x0301 1 1 with phase := .running }]), 2, 5, { blockCmd 0x0301 1 1 with phase := .running }, zeros 4096, ⟨1, 0, 100,
    false⟩, (0, magOf 3), 0, ?_, ?_, rfl, List.length_replicate.trans (by decide +kernel), ?_, ?_, ?_, exec_after _ _ (by decide +kernel),
    ?_⟩ <;> decide +kernel

theorem witness_blocksReadBack_2 : ∃ (s t : State) (pair cid : Nat) (c : Cmd) (d : Bytes) (v : Volume) (m : Nat × Magazine) (k : Nat),
    s.alive = true ∧ (s.ken.cmds.find? fun c => c.writing && c.pair == pair && c.cid == cid) = some c ∧ c.data = some d ∧
    d.length = c.count * 4096 ∧ tget s.flash.volumes c.volume = some v ∧ s.volMag v = some m ∧ s.hostRoom c.volume c.count = true ∧
    exec (.flashProgramComplete pair cid true) s = .next t ∧ (k < blockKey c.volume c.block ∨ blockKey c.volume c.block + c.count ≤ k) :=
  by refine ⟨storing (magOf 3) [{ blockCmd 0x0301 1 1 with phase := .running }], after (.flashProgramComplete 2 5 true) (storing (magOf 3)
    [{ blockCmd 0x0301 1 1 with phase := .running }]), 2, 5, { blockCmd 0x0301 1 1 with phase := .running }, zeros 4096, ⟨1, 0, 100,
    false⟩, (0, magOf 3), 1, ?_, ?_, rfl, List.length_replicate.trans (by decide +kernel), ?_, ?_, ?_, exec_after _ _ (by decide +kernel),
    ?_⟩ <;> decide +kernel

theorem witness_blocksReadBack_3 : ∃ (s t : State) (pair cid : Nat) (c : Cmd) (i : Nat), Ready s 0x0303 pair cid c ∧ c.count ≠ 0 ∧
    c.volume ≤ 127 ∧ c.p8 34 = 0 ∧ s.volStatus c.volume c.block c.count true = stOk ∧ exec (.trim pair cid) s = .next t ∧ i < c.count :=
  by refine ⟨storing (magOf 3) [blockCmd 0x0303 0 100], after (.trim 2 5) (storing (magOf 3) [blockCmd 0x0303 0 100]), 2, 5,
    blockCmd 0x0303 0 100, 99, ?_, ?_, ?_, ?_, ?_, exec_after _ _ (by decide +kernel), ?_⟩ <;> decide +kernel

theorem witness_blocksReadBack_4 : ∃ (s t : State) (pair cid : Nat) (c : Cmd) (k : Nat), Ready s 0x0303 pair cid c ∧ c.count ≠ 0 ∧
    c.volume ≤ 127 ∧ c.p8 34 = 0 ∧ s.volStatus c.volume c.block c.count true = stOk ∧ exec (.trim pair cid) s = .next t ∧
    (k < blockKey c.volume c.block ∨ blockKey c.volume c.block + c.count ≤ k) :=
  by refine ⟨storing (magOf 3) [blockCmd 0x0303 0 100], after (.trim 2 5) (storing (magOf 3) [blockCmd 0x0303 0 100]), 2, 5,
    blockCmd 0x0303 0 100, 100, ?_, ?_, ?_, ?_, ?_, exec_after _ _ (by decide +kernel), ?_⟩ <;> decide +kernel

theorem witness_blocksReadBack_5 : ∃ (s t : State) (c : Instr) (pair cid : Nat) (ok : Bool) (mag n vol blk : Nat),
    c ∈ [Instr.read pair cid ok, .write pair cid, .flush pair cid, .fold pair cid, .backgroundFold mag n, .garbageCollection mag n,
    .staticWearLevelling mag, .relocationSwitch vol blk] ∧ exec c s = .next t :=
  ⟨storing (magOf 3) [blockCmd 0x0302 0 0], after (.flush 2 5) (storing (magOf 3) [blockCmd 0x0302 0 0]), .flush 2 5, 2, 5, true, 0, 0, 0,
    0, ⟨by decide +kernel, exec_after _ _ (by decide +kernel)⟩⟩

theorem witness_wordsReadBack_1 : ∃ (s : State) (narrow : Bool) (a : Nat) (bs : Bytes) (rd : Reader) (u : State), addrOff a % 64 = 0 ∧
    bs.length % 64 = 0 ∧ addrOff a + bs.length ≤ 2 ^ 36 ∧ s.inService (uStack (addrStack a)) = true ∧
    u = (writeStack narrow a bs [] rd s).state :=
  by refine ⟨up, false, 64, zeros 128, up.readerOf 0, _, ?_, ?_, ?_, ?_, rfl⟩ <;> decide +kernel

theorem witness_wordsReadBack_2 : ∃ (a : Nat) (bs : Bytes) (w : Nat), Apart w a bs.length :=
  ⟨64, zeros 128, 3, by decide +kernel⟩

theorem witness_wordsReadBack_3 : ∃ (s t : State) (stack idx : Nat) (fs : List (Nat × WordFault)) (reader w : Nat), stack < 8 ∧
    w ≠ wordKey stack idx ∧ (wordArea idx = 0 → w ≠ wordKey (otherHalf stack) idx) ∧
    exec (.codeWordRead stack idx fs reader) s = .next t :=
  by refine ⟨up, after (.codeWordRead 0 7 [] 0) up, 0, 7, [], 0, 8, ?_, ?_, ?_, exec_after _ _ (by decide +kernel)⟩ <;> decide +kernel

theorem witness_wordsReadBack_4 : ∃ (s t : State) (stack idx : Nat) (f : WordFault) (reader off : Nat) (data : Bytes) (w : Nat),
    stack < 8 ∧ w ≠ wordKey stack idx ∧ (wordArea idx = 0 → w ≠ wordKey (otherHalf stack) idx) ∧
    exec (.codeWordWrite stack idx off data f reader) s = .next t :=
  by refine ⟨up, after (.codeWordWrite 0 7 0 [1] WordFault.clean 0) up, 0, 7, WordFault.clean, 0, 0, [1], 8, ?_, ?_, ?_,
    exec_after _ _ (by decide +kernel)⟩ <;> decide +kernel

theorem witness_wordsReadBack_5 : ∃ (s t : State) (stack : Nat) (f : WordFault) (w : Nat), w ≠ wordKey stack (s.raw 0x05 stack 0x03 0) ∧
    exec (.scrubStep stack f) s = .next t :=
  ⟨up, after (.scrubStep 0 WordFault.clean) up, 0, WordFault.clean, 8, ⟨by decide +kernel, exec_after _ _ (by decide +kernel)⟩⟩

theorem witness_wordsReadBack_6 : ∃ (s t : State) (k : Nat) (cmd : Bytes) (fs : List (Nat × WordFault)) (d : Bytes) (w : Nat),
    d = fitTo 64 cmd ∧ Apart w (mDst d) (mLen d) ∧ (∀ a, mResult d = some a → Apart w a 8) ∧ exec (.fill k cmd fs) s = .next t :=
  by refine ⟨memState (memBytes 2 0 128 64 0 0), after (.fill 1024 (memBytes 2 0 128 64 0 0) []) (memState (memBytes 2 0 128 64 0 0)),
    1024, memBytes 2 0 128 64 0 0, [], fitTo 64 (memBytes 2 0 128 64 0 0), 3, ?_, ?_, fun _ h => absurd ((show mResult (fitTo 64 (memBytes
    2 0 128 64 0 0)) = none by decide +kernel).symm.trans h) (by simp), exec_after _ _ (by decide +kernel)⟩ <;> decide +kernel

theorem witness_wordsReadBack_7 : ∃ (s t : State) (k : Nat) (cmd : Bytes) (fs : List (Nat × WordFault)) (d : Bytes) (w : Nat),
    d = fitTo 64 cmd ∧ Apart w (mDst d) (mLen d) ∧ (∀ a, mResult d = some a → Apart w a 8) ∧ Apart w (mSrc d) (mLen d) ∧
    exec (.copy k cmd fs) s = .next t :=
  by refine ⟨memState (memBytes 1 0 128 64 0 0), after (.copy 1024 (memBytes 1 0 128 64 0 0) []) (memState (memBytes 1 0 128 64 0 0)),
    1024, memBytes 1 0 128 64 0 0, [], fitTo 64 (memBytes 1 0 128 64 0 0), 3, ?_, ?_, fun _ h => absurd ((show mResult (fitTo 64 (memBytes
    1 0 128 64 0 0)) = none by decide +kernel).symm.trans h) (by simp), ?_, exec_after _ _ (by decide +kernel)⟩ <;> decide +kernel

theorem witness_commandIdentifiers_1 : ∃ (s t : State) (pair : Nat) (e list data : Option Bytes) (c d : Cmd), c ∈ t.ken.cmds ∧
    d ∈ t.ken.cmds ∧ (∀ c ∈ s.ken.cmds, ∀ d ∈ s.ken.cmds,
    c.pair = d.pair → c.cid = d.cid → c.phase ≠ .finished → d.phase ≠ .finished → c = d) ∧
    exec (.commandFetch pair e list data) s = .next t ∧ c.pair = d.pair ∧ c.cid = d.cid ∧ c.phase ≠ .finished ∧ d.phase ≠ .finished :=
  by refine ⟨oneSubmitted, after fetchGeneral oneSubmitted, 0, some (entry 4 0 0 []), none, none,
    (after fetchGeneral oneSubmitted).ken.cmds.headD anyCmd, (after fetchGeneral oneSubmitted).ken.cmds.headD anyCmd,
    headD_mem _ _ (by decide +kernel), headD_mem _ _ (by decide +kernel), ?_, exec_after _ _ (by decide +kernel), ?_⟩ <;> decide +kernel

theorem witness_commandIdentifiers_2 : ∃ (s : State) (pair : Nat) (e b : Bytes) (r : RingPair), s.alive = true ∧
    tget s.ken.rings pair = some r ∧ s.canFetch pair r = true ∧ s.ken.fatal = false ∧ b = fitTo 128 e ∧
    s.cmdIdUsed pair (eCmdId b) = true :=
  by refine ⟨submitted 0 false [anyCmd], 0, entry 4 0 0 [], _, ringWith false false 1, ?_, ?_, ?_, ?_, rfl, ?_⟩ <;> decide +kernel

theorem witness_commandIdentifiers_3 : ∃ (s : State) (pair : Nat) (e b : Bytes) (r : RingPair), s.alive = true ∧
    tget s.ken.rings pair = some r ∧ s.canFetch pair r = true ∧ s.ken.fatal = false ∧ b = fitTo 128 e ∧
    s.cmdIdUsed pair (eCmdId b) = false ∧ (r.storage = false ∨ eCmdId b ≤ 31) ∧ carries pair r.storage (eOpcode b / 256) = false :=
  by refine ⟨submitted 0 false [], 0, entry 0x0100 0 0 [], _, ringWith false false 1, ?_, ?_, ?_, ?_, rfl, ?_⟩ <;> decide +kernel

theorem witness_commandIdentifiers_4 : ∃ (s : State) (pair : Nat) (e b : Bytes) (r : RingPair), s.alive = true ∧
    tget s.ken.rings pair = some r ∧ s.canFetch pair r = true ∧ s.ken.fatal = false ∧ b = fitTo 128 e ∧
    s.cmdIdUsed pair (eCmdId b) = false ∧ (r.storage = false ∨ eCmdId b ≤ 31) ∧ carries pair r.storage (eOpcode b / 256) = true ∧
    opDefined (eOpcode b) = false :=
  by refine ⟨submitted 0 false [], 0, entry 0x00FF 0 0 [], _, ringWith false false 1, ?_, ?_, ?_, ?_, rfl, ?_⟩ <;> decide +kernel

theorem witness_ringFamilies_1 : ∃ (pair : Nat), pair ≠ 0 :=
  ⟨1, by decide +kernel⟩

theorem witness_ringFamilies_2 : ∃ (op : Nat), op / 256 = 3 :=
  ⟨0x0300, by decide +kernel⟩

theorem witness_ringFamilies_3 : ∃ (s : State) (pair : Nat) (e b : Bytes) (r : RingPair), s.alive = true ∧
    tget s.ken.rings pair = some r ∧ s.canFetch pair r = true ∧ s.ken.fatal = false ∧ b = fitTo 128 e ∧
    s.cmdIdUsed pair (eCmdId b) = false ∧ (r.storage = false ∨ eCmdId b ≤ 31) ∧ carries pair r.storage (eOpcode b / 256) = false :=
  by refine ⟨submitted 2 true [], 2, entry 0x0100 0 0 [], _, ringWith true false 1, ?_, ?_, ?_, ?_, rfl, ?_⟩ <;> decide +kernel

theorem witness_storageTags_1 : ∃ (s : State) (pair : Nat) (r : RingPair), tget s.ken.rings pair = some r ∧ r.storage = true ∧
    32 ≤ (s.outstanding pair).length :=
  ⟨submitted 2 true ((List.range 32).map fun i => { plainCmd 2 0x0302 with cid := i }), 2, ringWith true false 1, by decide +kernel⟩

theorem witness_storageTags_2 : ∃ (s t : State) (pair : Nat) (e list data : Option Bytes) (r : RingPair), tget s.ken.rings pair = some r ∧
    r.storage = true ∧ (s.outstanding pair).length ≤ 32 ∧ exec (.commandFetch pair e list data) s = .next t :=
  by refine ⟨submitted 2 true [], after fetchStorage (submitted 2 true []), 2, some (entry 0x0302 0 0 []), none, none,
    ringWith true false 1, ?_, ?_, ?_, exec_after _ _ (by decide +kernel)⟩ <;> decide +kernel

theorem witness_storageTags_3 : ∃ (s t : State) (pair : Nat) (e list data : Option Bytes) (r : RingPair) (c : Cmd),
    c ∈ t.outstanding pair ∧ tget s.ken.rings pair = some r ∧ r.storage = true ∧ (∀ c ∈ s.outstanding pair,
    c.phase ≠ .finished → c.cid ≤ 31) ∧ exec (.commandFetch pair e list data) s = .next t ∧ c.phase ≠ .finished :=
  by refine ⟨submitted 2 true [], after fetchStorage (submitted 2 true []), 2, some (entry 0x0302 0 0 []), none, none,
    ringWith true false 1, ((after fetchStorage (submitted 2 true [])).outstanding 2).headD anyCmd, headD_mem _ _ (by decide +kernel), ?_,
    ?_, ?_, exec_after _ _ (by decide +kernel), ?_⟩ <;> decide +kernel

theorem witness_storageTags_4 : ∃ (s : State) (pair : Nat) (e : Bytes) (r : RingPair), s.alive = true ∧ tget s.ken.rings pair = some r ∧
    r.storage = true ∧ s.canFetch pair r = true ∧ s.ken.fatal = false ∧ s.cmdIdUsed pair (eCmdId (fitTo 128 e)) = false ∧
    31 < eCmdId (fitTo 128 e) :=
  ⟨submitted 2 true [], 2, entryId 0x0302 32, ringWith true false 1, by decide +kernel⟩

theorem witness_orderedAndFence_1 : ∃ (s : State) (c e : Cmd), e ∈ s.ken.cmds ∧ e.pair = c.pair ∧ e.ord < c.ord ∧
    (c.ordered = true ∨ e.ordered = true) ∧ s.countsDone e = false :=
  ⟨withCmds [plainCmd 1 0x0101, orderedCmd] up, orderedCmd, plainCmd 1 0x0101, by decide +kernel⟩

theorem witness_orderedAndFence_2 : ∃ (s : State) (pair cid : Nat) (c : Cmd), s.findCmd pair cid = some c ∧ s.mayStart c = false :=
  ⟨withCmd (waitingEvent 5), 0, 5, waitingEvent 5, by decide +kernel⟩

theorem witness_orderedAndFence_3 : ∃ (s : State) (pair cid : Nat) (c : Cmd), s.findCmd pair cid = some c ∧ s.mayStart c = false :=
  ⟨withCmd (waitingEvent 5), 0, 5, waitingEvent 5, by decide +kernel⟩

theorem witness_orderedAndFence_4 : ∃ (s t : State) (pair cid : Nat) (ok : Bool) (r : RingPair) (c : Cmd) (cs : List Cmd),
    tget s.ken.rings pair = some r ∧ r.fence = true ∧ s.outstanding pair = c :: cs ∧ ¬ (c.cid = cid ∧ c.phase = .finished) ∧
    exec (.completionWrite pair cid ok) s = .next t :=
  by refine ⟨withCmd (plainCmd 3 0x0101), after (.completionWrite 3 5 true) (withCmd (plainCmd 3 0x0101)), 3, 5, true,
    ringWith false true 0, plainCmd 3 0x0101, [], ?_, ?_, ?_, ?_, exec_after _ _ (by decide +kernel)⟩ <;> decide +kernel

theorem witness_orderedAndFence_5 : ∃ (s : State) (pair : Nat) (r : RingPair) (c : Cmd) (cs : List Cmd), s.alive = true ∧
    tget s.ken.rings pair = some r ∧ r.fence = true ∧ s.outstanding pair = c :: cs ∧ c.phase = .finished ∧ r.stopped = false ∧
    r.cqFree ≠ 0 ∧ s.pcieClock = true :=
  ⟨withCmd (doneCmd 3), 3, ringWith false true 0, doneCmd 3, [], by decide +kernel⟩

theorem witness_readOnlyVolumes_1 : ∃ (s : State) (volume block count : Nat) (v : Volume) (b : Nat) (m : Magazine),
    tget s.flash.volumes volume = some v ∧ block + count ≤ v.blocks ∧ (v.readOnly = true ∨ ∃ b m, s.volMag v = some (b, m) ∧
    m.state = 4) ∧ s.volMag v = some (b, m) ∧ m.takesCommands = true :=
  by refine ⟨readOnly anyCmd, 0, 0, 100, ⟨1, 0, 100, true⟩, 0, magOf 3, ?_, ?_, Or.inl rfl, ?_⟩ <;> decide +kernel

theorem witness_readOnlyVolumes_2 : ∃ (s : State) (pair cid : Nat) (c : Cmd), Ready s 0x0301 pair cid c ∧ c.count ≠ 0 ∧ c.count ≤ 2048 ∧
    c.volume ≤ 127 ∧ c.p8 34 ≤ 3 ∧ c.dataIs (c.count * 4096) = true ∧ s.volStatus c.volume c.block c.count true = stMediaReadOnly :=
  ⟨readOnly (blockCmd 0x0301 1 1), 2, 5, blockCmd 0x0301 1 1, by decide +kernel⟩

theorem witness_readOnlyVolumes_3 : ∃ (s : State) (pair cid : Nat) (c : Cmd), Ready s 0x0300 pair cid c ∧ c.count ≠ 0 ∧ c.count ≤ 2048 ∧
    c.volume ≤ 127 ∧ c.p8 34 = 0 ∧ c.dataIs (c.count * 4096) = true ∧ s.volStatus c.volume c.block c.count true = stMediaReadOnly ∧
    s.volStatus c.volume c.block c.count false = stOk ∧ s.lostIn c.volume c.block c.count = [] ∧ s.landing = true :=
  ⟨landed (readOnly (blockCmd 0x0300 1 1)), 2, 5, blockCmd 0x0300 1 1, by decide +kernel⟩

theorem witness_readOnlyVolumes_4 : ∃ (s : State) (pair cid : Nat) (c : Cmd) (r : Reel), Ready s 0x030A pair cid c ∧ c.p8 32 = 0 ∧
    c.openFields = true ∧ s.reelBusy c = false ∧ thas s.flash.volumes c.reelVolume = true ∧ thas s.cat.reels c.reelKey = false ∧
    s.openCount < 256 ∧ s.reelCount c.reelVolume < 1048576 ∧ r = c.newReel s.tb (Config.fwRelease s.firmware) ∧
    s.volStatus c.reelVolume r.start r.payloadOffset true = stMediaReadOnly :=
  by refine ⟨readOnly (reelCmd 0 0 0 []), 2, 5, reelCmd 0 0 0 [], _, ?_, ?_, ?_, ?_, ?_, ?_, ?_, ?_, rfl, ?_⟩ <;> decide +kernel

theorem witness_readOnlyVolumes_5 : ∃ (s : State) (pair cid : Nat) (c : Cmd) (r : Reel) (d : Bytes) (sls bl : List Bytes) (z : Bytes ×
    Bytes × Nat), Ready s 0x030A pair cid c ∧ c.p8 32 = 1 ∧ tget s.cat.reels c.reelKey = some r ∧ s.reelBusy c = false ∧
    r.sealed = false ∧ c.hasData = true ∧ c.p16 38 = r.dataset ∧ c.data = some d ∧ sls = pieces 64 (c.p32 72) d ∧ sls.length = c.p32 72 ∧
    d.length = roundUp (64 * c.p32 72 + (sls.map fun b => field b 20 4).sum) 4 ∧ c.dataLen = d.length ∧
    slatesGiven r.dataset (r.first + r.slates) sls = true ∧ r.slates + c.p32 72 ≤ r.slateCap ∧
    bl = (packSamples r.blocks (splitSamples sls (d.drop (64 * c.p32 72)))).closed.reverse ∧ r.blocks + bl.length ≤ r.blockCap ∧
    z = storeBlocks r.codec r.level (Config.fwRelease s.firmware) r.nextUnit bl ∧
    s.volStatus c.reelVolume r.start z.2.2 true = stMediaReadOnly :=
  by refine ⟨readOnlyReel (reelCmd 1 1 64 absentSlate), 2, 5, reelCmd 1 1 64 absentSlate, reelOf false, absentSlate, _, _, _, ?_, ?_, ?_,
    ?_, ?_, ?_, ?_, ?_, rfl, ?_, ?_, ?_, ?_, ?_, rfl, ?_, rfl, ?_⟩ <;> decide +kernel

theorem witness_readOnlyVolumes_6 : ∃ (s : State) (pair cid : Nat) (c : Cmd) (r : Reel), Ready s 0x030A pair cid c ∧ c.p8 32 = 2 ∧
    tget s.cat.reels c.reelKey = some r ∧ s.reelBusy c = false ∧ r.sealed = false ∧ c.exactBuf 48 = true ∧ c.p16 38 = r.dataset ∧
    s.volStatus c.reelVolume r.start (r.nextUnit + 1) true = stMediaReadOnly :=
  ⟨readOnlyReel (reelCmd 2 1 48 []), 2, 5, reelCmd 2 1 48 [], reelOf false, by decide +kernel⟩

theorem witness_shaperFlowSet_1 : ∃ (s : State) (pair cid : Nat) (c : Cmd), Ready s 0x0408 pair cid c ∧ c.p16 32 ≤ 8191 ∧ c.p8 34 ≤ 1 ∧
    -64 ≤ signedOf 16 (c.p16 36) ∧ signedOf 16 (c.p16 36) ≤ 255 ∧ 8 ≤ c.p32 40 ∧ c.p32 40 ≤ 4000000 :=
  ⟨withCmd (fabCmd 0x0408 0 [(32, putLE 2 8191), (36, putLE 2 0xFFC0), (40, putLE 4 4000000)]), 1, 5, fabCmd 0x0408 0 [(32, putLE 2 8191),
    (36, putLE 2 0xFFC0), (40, putLE 4 4000000)], by decide +kernel⟩

theorem witness_shaperFlowSet_2 : ∃ (s : State) (pair cid : Nat) (c : Cmd), Ready s 0x0408 pair cid c ∧ (8191 < c.p16 32 ∨ 1 < c.p8 34 ∨
    signedOf 16 (c.p16 36) < -64 ∨ 255 < signedOf 16 (c.p16 36) ∨ c.p32 40 < 8 ∨ 4000000 < c.p32 40) :=
  ⟨withCmd (fabCmd 0x0408 0 [(36, putLE 2 0xFFBF), (40, putLE 4 8)]), 1, 5, fabCmd 0x0408 0 [(36, putLE 2 0xFFBF), (40, putLE 4 8)],
    by decide +kernel⟩

theorem witness_testRotationSet_1 : ∃ (s : State) (pair cid : Nat) (c : Cmd), Ready s 0x0600 pair cid c ∧ c.p16 32 ≠ 0 ∧ c.p8 34 ≤ 1 ∧
    1 ≤ c.p16 36 ∧ c.p16 36 ≤ 168 :=
  ⟨withCmd (fabCmd 0x0600 0 [(32, putLE 2 1), (36, putLE 2 168)]), 1, 5, fabCmd 0x0600 0 [(32, putLE 2 1), (36, putLE 2 168)],
    by decide +kernel⟩

theorem witness_testRotationSet_2 : ∃ (s : State) (pair cid : Nat) (c : Cmd), Ready s 0x0600 pair cid c ∧
    (c.p16 32 = 0 ∨ 1 < c.p8 34 ∨ c.p16 36 = 0 ∨ 168 < c.p16 36) :=
  ⟨withCmd (fabCmd 0x0600 0 [(32, putLE 2 1), (36, putLE 2 169)]), 1, 5, fabCmd 0x0600 0 [(32, putLE 2 1), (36, putLE 2 169)],
    by decide +kernel⟩

theorem witness_permutationDomain_1 : ∃ (n k : Nat), 1 ≤ n ∧ n ≤ 2 ^ 47 ∧ k % 2 = 0 ∧ 2 ≤ k ∧ n ≤ 2 ^ k :=
  ⟨5, 4, by decide +kernel⟩

theorem witness_shuffleIsOneToOne_1 : ∃ (h x : Nat), x < 2 ^ (2 * h) :=
  ⟨1, 3, by decide +kernel⟩

theorem witness_shuffleIsOneToOne_2 : ∃ (n p : Nat), 1 ≤ n ∧ n ≤ 2 ^ 47 ∧ p < n :=
  ⟨5, 4, by decide +kernel⟩

theorem witness_shuffleIsOneToOne_3 : ∃ (n v : Nat), 1 ≤ n ∧ n ≤ 2 ^ 47 ∧ v < n :=
  ⟨5, 4, by decide +kernel⟩

end Sys2Proof.Tests
end

section
/-! Proofs of the statements about the host interface (chapter 2: registers, ring pairs, fetch and completion) and about read-only
volumes (R62). First the rules that each of the operations involved obeys, then the statements. -/

namespace Sys2Proof.Machine

/-! ### The rows, by their meanings -/

section
variable (s : State) (pair cid : Nat)

@[simp] theorem exec_timebaseRead (sub off size : Nat) : exec (.timebaseRead sub off size) s = execTimebaseRead sub off size s := rfl
@[simp] theorem exec_commandFetch (e list data : Option Bytes) :
    exec (.commandFetch pair e list data) s = execCommandFetch pair e list data s := rfl
@[simp] theorem exec_deleteRingPair : exec (.deleteRingPair pair cid) s = execDeleteRingPair pair cid s := rfl
@[simp] theorem exec_read (ok : Bool) : exec (.read pair cid ok) s = execRead pair cid ok s := rfl
@[simp] theorem exec_write : exec (.write pair cid) s = execWrite pair cid s := rfl
@[simp] theorem exec_reelOpen : exec (.reelOpen pair cid) s = execReelOpen pair cid s := rfl
@[simp] theorem exec_reelSamples : exec (.reelSamples pair cid) s = execReelSamples pair cid s := rfl
@[simp] theorem exec_reelSeal (ok : Bool) : exec (.reelSeal pair cid ok) s = execReelSeal pair cid ok s := rfl

end

/-! ### Running a ready command -/

/-- A ready command has its own effect. -/
theorem runCmd_of_ready {s : State} {op pair cid : Nat} {c : Cmd} (f : Cmd → State → State) (h : Ready s op pair cid c) :
    runCmd op pair cid f s = f c s := by
  obtain ⟨-, hc, hop, hstart, hfatal, hfrozen⟩ := h
  simp [runCmd, hc, hop, hstart, hfatal, hfrozen]

/-- The row of a ready command answers the command's own effect. -/
theorem live_runCmd_of_ready {s : State} {op pair cid : Nat} {c : Cmd} (f : Cmd → State → State) (h : Ready s op pair cid c) :
    live (runCmd op pair cid f) s = .next (f c s) := by
  rw [live_of_alive h.1, runCmd_of_ready f h]

/-- The row of a ready REEL_APPEND of the row's SUBOP answers that form's effect. -/
theorem live_runReel_of_ready {s : State} {subop pair cid : Nat} {c : Cmd} (f : Cmd → State → State)
    (h : Ready s 0x030A pair cid c) (hsub : c.p8 32 = subop) (hle : subop ≤ 2) :
    live (runReel subop pair cid f) s = .next (f c s) := by
  unfold runReel
  rw [live_runCmd_of_ready _ h, if_neg (by omega), if_pos hsub]

/-- A ready command is outstanding under the ring pair and CMD_ID of its row. -/
theorem ids_of_ready {s : State} {op pair cid : Nat} {c : Cmd} (h : Ready s op pair cid c) : c.pair = pair ∧ c.cid = cid :=
  ⟨(findCmd_ids s h.2.1).1, (findCmd_ids s h.2.1).2.1⟩

/-- A fold of steps that each keep a part of the state keeps it. -/
theorem foldl_keeps {β γ : Type} (part : State → γ) {f : State → β → State} (hf : ∀ t x, part (f t x) = part t) (l : List β)
    (s : State) : part (l.foldl f s) = part s := by
  induction l generalizing s with
  | nil => rfl
  | cons x l ih => exact (ih (f s x)).trans (hf s x)

/-! ### TIMEBASE (R35) -/

/-- BAR0 answers only while the part's clocks run. -/
theorem alive_of_barUp {s : State} (h : s.barUp = true) : s.alive = true := by
  simp only [State.barUp, Bool.and_eq_true] at h
  exact h.1.1.1

/-- A read at one of the register's two offsets, not of 8 bytes at the upper one, reaches it. -/
theorem execTimebaseRead_of_access {s : State} {sub off size : Nat} (h : BarAccess s sub)
    (ho : off = 0x0040 ∨ off = 0x0044 ∧ size ≠ 8) : execTimebaseRead sub off size s = .next (timebaseRead sub off size s) := by
  unfold execTimebaseRead
  rw [live_of_alive (alive_of_barUp h.1), whenB, if_pos (by simpa [h.1, h.2] using ho)]

/-- The 64-bit read. -/
theorem timebaseRead_whole (sub : Nat) (s : State) : timebaseRead sub 0x0040 8 s = emit (.readReturn s.tb) s := rfl

/-- The 32-bit read of the lower half latches the upper one. -/
theorem timebaseRead_low (sub : Nat) (s : State) : timebaseRead sub 0x0040 4 s =
    { emit (.readReturn (s.tb % 2 ^ 32)) s with ken := { s.ken with tbLatch := tput s.ken.tbLatch sub (s.tb / 2 ^ 32) } } := rfl

/-- The 32-bit read of the upper half returns the latched value and uses the latch. -/
theorem timebaseRead_high {sub half : Nat} {s : State} (h : tget s.ken.tbLatch sub = some half) : timebaseRead sub 0x0044 4 s =
    { emit (.readReturn half) s with ken := { s.ken with tbLatch := tdel s.ken.tbLatch sub } } := by
  simp [timebaseRead, tgetD, h]

/-! ### Completion entries and the phase (R42, R47) -/

/-- The little-endian value of the bytes of a number. -/
theorem leVal_putLE (n v : Nat) : leVal (putLE n v) = v % 256 ^ n := by
  induction n generalizing v with
  | zero => simp [putLE, leVal, Nat.mod_one]
  | succ n ih =>
    rw [putLE, leVal, ih, BitVec.toNat_ofNat, pow_succ' 256 n, Nat.mod_mul]

/-- The last field of a structure. -/
theorem field_append_putLE {a : Bytes} {off : Nat} (n v : Nat) (h : a.length = off) :
    field (a ++ putLE n v) off n = v % 256 ^ n := by
  subst h
  simp [field, sub, leVal_putLE, List.take_of_length_le]

/-- A completion entry has 32 bytes. -/
theorem completionEntry_length (c : Cmd) (r : RingPair) : (completionEntry c r).length = 32 := by simp [completionEntry]

/-- The last half-word of a completion entry is the status, with the phase above it. -/
theorem completionEntry_last (c : Cmd) (r : RingPair) :
    field (completionEntry c r) 30 2 = (c.status + if r.phase then 2 ^ 15 else 0) % 2 ^ 16 := by
  unfold completionEntry
  rw [field_append_putLE 2 _ (by simp)]
  norm_num

/-- The tail moves on inside the ring; the phase stays. -/
theorem advance_inside {r : RingPair} (h : r.cqTail + 1 < 2 ^ r.cqLog2) :
    r.advance.cqTail = r.cqTail + 1 ∧ r.advance.phase = r.phase := by
  simp [RingPair.advance, Nat.mod_eq_of_lt h]

/-- The tail returns to slot 0 after the last slot; the phase inverts. -/
theorem advance_wrap {r : RingPair} (h : r.cqTail + 1 = 2 ^ r.cqLog2) :
    r.advance.cqTail = 0 ∧ r.advance.phase = !r.phase := by
  simp [RingPair.advance, h]

@[simp] theorem advance_vector (r : RingPair) : r.advance.vector = r.vector := rfl

/-! ### What writing a completion sends -/

/-- What a table reads after a change at the same key. -/
theorem tget_tmod {α : Type} (t : Table α) (n : Nat) (f : α → α) : tget (tmod t n f) n = (tget t n).map f := by
  unfold tmod
  cases h : tget t n with
  | none => simp [h]
  | some a => simp [tget_tput]

/-- The ring pair after a change of it. -/
theorem modRing_ring (pair : Nat) (f : RingPair → RingPair) (s : State) :
    tget (modRing pair f s).ken.rings pair = (tget s.ken.rings pair).map f := tget_tmod _ _ _

@[simp] theorem moveObject_out (k i k' i' : Nat) (s : State) : (moveObject k i k' i' s).out = s.out := by
  unfold moveObject; split <;> rfl

@[simp] theorem moveObject_ken (k i k' i' : Nat) (s : State) : (moveObject k i k' i' s).ken = s.ken := by
  unfold moveObject; split <;> rfl

@[simp] theorem takeObjects_out (ord : Nat) (s : State) : (takeObjects ord s).out = s.out :=
  foldl_keeps State.out (fun t kv => by dsimp only; split <;> simp) _ s

@[simp] theorem takeObjects_ken (ord : Nat) (s : State) : (takeObjects ord s).ken = s.ken :=
  foldl_keeps State.ken (fun t kv => by dsimp only; split <;> simp) _ s

@[simp] theorem dropPending_out (ord : Nat) (s : State) : (dropPending ord s).out = s.out := rfl
@[simp] theorem dropPending_ken (ord : Nat) (s : State) : (dropPending ord s).ken = s.ken := rfl

/-- What takes effect with a completion sends nothing. -/
@[simp] theorem onWritten_out (c : Cmd) (s : State) : (onWritten c s).out = s.out := by unfold onWritten; split <;> simp

/-- What takes effect with a completion leaves Kenlet. -/
@[simp] theorem onWritten_ken (c : Cmd) (s : State) : (onWritten c s).ken = s.ken := by unfold onWritten; split <;> simp

@[simp] theorem retireCmd_rings (c : Cmd) (s : State) : (retireCmd c s).ken.rings = s.ken.rings := rfl

/-- Firing a vector sends its message or nothing. -/
theorem fireVector_out (v : Nat) (s : State) :
    ∃ after, (fireVector v s).out = s.out ++ after ∧ (after = [] ∨ after = [.msix v]) := by
  unfold fireVector
  split
  · exact ⟨[], by simp, .inl rfl⟩
  · split
    · exact ⟨[], by simp, .inl rfl⟩
    · exact ⟨[.msix v], rfl, .inr rfl⟩

/-- Signalling a pair sends the message of its vector or nothing. -/
theorem signalPair_out {pair : Nat} {r : RingPair} {s : State} (h : tget s.ken.rings pair = some r) :
    ∃ after, (signalPair pair s).out = s.out ++ after ∧ (after = [] ∨ after = [.msix r.vector]) := by
  simp only [signalPair, h]
  split
  · exact fireVector_out r.vector _
  · exact ⟨[], by simp, .inl rfl⟩

/-- A completion that can be written is sent, its effects follow, the tail moves on and the pair is signalled. -/
theorem completionWrite_of_ready {s : State} {pair cid : Nat} {r : RingPair} {c : Cmd} (hr : tget s.ken.rings pair = some r)
    (hc : s.completable pair cid r.fence = some c) (hs : r.stopped = false) (hf : r.cqFree ≠ 0) (hp : s.pcieClock = true) :
    completionWrite pair cid true s = signalPair pair (modRing pair RingPair.advance
      (emit (.pcieWrite (s.entryVia pair) (r.cqBase + 32 * r.cqTail) (completionEntry c r)) (onWritten c (retireCmd c s)))) := by
  simp [completionWrite, hr, hc, hs, hf, hp]

/-- The entry goes out first, and after it at most the message of the pair's vector. -/
theorem completionWrite_out {s : State} {pair cid : Nat} {r : RingPair} {c : Cmd} (hr : tget s.ken.rings pair = some r)
    (hc : s.completable pair cid r.fence = some c) (hs : r.stopped = false) (hf : r.cqFree ≠ 0) (hp : s.pcieClock = true) :
    ∃ after, (completionWrite pair cid true s).out =
        s.out ++ [.pcieWrite (s.entryVia pair) (r.cqBase + 32 * r.cqTail) (completionEntry c r)] ++ after ∧
      (after = [] ∨ after = [.msix r.vector]) := by
  have hring : tget (modRing pair RingPair.advance (emit (.pcieWrite (s.entryVia pair) (r.cqBase + 32 * r.cqTail)
      (completionEntry c r)) (onWritten c (retireCmd c s)))).ken.rings pair = some r.advance := by
    simp [modRing_ring, hr]
  rw [completionWrite_of_ready hr hc hs hf hp]
  simpa using signalPair_out hring

/-! ### The command that a fetch brings in -/

/-- The command that a fetch of an entry makes outstanding. -/
def State.fetched (s : State) (pair : Nat) (r : RingPair) (e : Bytes) (list data : Option Bytes) : Cmd :=
  makeCmd pair s.ken.nextOrd s.tb (fitTo 128 e) list data (s.screen pair r.storage (fitTo 128 e) list)

section
variable (s : State) (pair : Nat) (r : RingPair) (e : Bytes) (list data : Option Bytes)

/-- A command is finished at its fetch with the status that refuses it. -/
theorem fetched_finished {st : Nat} (h : s.screen pair r.storage (fitTo 128 e) list = st) (hne : st ≠ stOk) :
    (s.fetched pair r e list data).phase = .finished := if_neg (h ▸ hne)

/-- A fetched command may run only where the fetch finds nothing against it. -/
theorem screen_of_fetched_open (h : (s.fetched pair r e list data).phase ≠ .finished) :
    s.screen pair r.storage (fitTo 128 e) list = stOk := by
  by_contra hst
  exact h (fetched_finished s pair r e list data rfl hst)

end

/-- Fetching an entry moves the head on and appends its command. -/
theorem commandFetch_entry {s : State} {pair : Nat} {r : RingPair} (e : Bytes) (list data : Option Bytes)
    (hr : tget s.ken.rings pair = some r) (hf : s.canFetch pair r = true) :
    commandFetch pair (some e) list data s = { s with ken := { s.ken with
      cmds := s.ken.cmds ++ [s.fetched pair r e list data]
      rings := tmod s.ken.rings pair fun r => { r with sqHead := (r.sqHead + 1) % 2 ^ r.sqLog2 }
      nextOrd := s.ken.nextOrd + 1 } } := by
  simp only [commandFetch, hr, hf, if_true, State.fetched, modRing]

/-- A pair that cannot fetch fetches nothing. -/
theorem commandFetch_idle {s : State} {pair : Nat} {r : RingPair} (e list data : Option Bytes)
    (hr : tget s.ken.rings pair = some r) (hf : s.canFetch pair r = false) : commandFetch pair e list data s = s := by
  simp [commandFetch, hr, hf]

/-- The row of a fetch that can take place answers the state that the fetch makes. -/
theorem execCommandFetch_entry {s : State} {pair : Nat} {r : RingPair} (e : Bytes) (list data : Option Bytes)
    (ha : s.alive = true) (hr : tget s.ken.rings pair = some r) (hf : s.canFetch pair r = true) :
    execCommandFetch pair (some e) list data s = .next { s with ken := { s.ken with
      cmds := s.ken.cmds ++ [s.fetched pair r e list data]
      rings := tmod s.ken.rings pair fun r => { r with sqHead := (r.sqHead + 1) % 2 ^ r.sqLog2 }
      nextOrd := s.ken.nextOrd + 1 } } := by
  rw [execCommandFetch, live_of_alive ha, commandFetch_entry e list data hr hf]

@[simp] theorem fireVector_cmds (v : Nat) (s : State) : (fireVector v s).ken.cmds = s.ken.cmds := by
  unfold fireVector
  split
  · rfl
  · split <;> rfl

@[simp] theorem signalEv_cmds (m : BitVec 5) (s : State) : (signalEv m s).ken.cmds = s.ken.cmds := by
  unfold signalEv
  dsimp only
  split <;> simp

/-- `ringError_cmds` for any value of RING_ERROR; of the value that `ringError` writes, the kernel would evaluate the sum. -/
theorem signalEv_ringError_cmds (v : BitVec 32) (s : State) :
    (signalEv evRingErr { s with ken := { s.ken with ringError := v } }).ken.cmds = s.ken.cmds := signalEv_cmds _ _

@[simp] theorem ringError_cmds (pair cause : Nat) (s : State) : (ringError pair cause s).ken.cmds = s.ken.cmds := by
  unfold ringError
  exact signalEv_ringError_cmds _ s

@[simp] theorem stopRing_cmds (pair cause : Nat) (s : State) : (stopRing pair cause s).ken.cmds = s.ken.cmds := by
  rw [stopRing, ringError_cmds, modRing_ken_cmds]

/-- What a fetch does to the commands: nothing, or it appends the one command that it brings in. -/
theorem execCommandFetch_cmds {s t : State} {pair : Nat} {e list data : Option Bytes}
    (h : execCommandFetch pair e list data s = .next t) :
    t.ken.cmds = s.ken.cmds ∨ ∃ b r, tget s.ken.rings pair = some r ∧ s.canFetch pair r = true ∧
      t.ken.cmds = s.ken.cmds ++ [s.fetched pair r b list data] := by
  unfold execCommandFetch live at h
  split at h
  case isFalse => cases h; exact .inl rfl
  case isTrue =>
    cases h
    cases hr : tget s.ken.rings pair with
    | none => simp [commandFetch, hr]
    | some r =>
      cases hf : s.canFetch pair r with
      | false => exact .inl (by rw [commandFetch_idle e list data hr hf])
      | true =>
        cases e with
        | none => simp [commandFetch, hr, hf]
        | some b => exact .inr ⟨b, r, rfl, hf, by rw [commandFetch_entry b list data hr hf]⟩

/-- A command appended finished is found under no pair and CMD_ID. -/
theorem findCmd_append_finished {s t : State} {x : Cmd} (ht : t.ken.cmds = s.ken.cmds ++ [x]) (hx : x.phase = .finished)
    (pair cid : Nat) : t.findCmd pair cid = s.findCmd pair cid := by
  simp [State.findCmd, ht, List.find?_append, Cmd.isOpen, hx]

/-! ### What the fetch finds against an entry (R38, R48, R60) -/

section
variable {s : State} {pair : Nat} {storage : Bool} {b : Bytes} (list : Option Bytes)

/-- A CMD_ID that is outstanding. -/
theorem screen_cmdIdUsed (hf : s.ken.fatal = false) (hu : s.cmdIdUsed pair (eCmdId b) = true) :
    s.screen pair storage b list = stCmdIdInUse := by
  simp [State.screen, hf, hu]

/-- A storage tag above 31. -/
theorem screen_storageTag (hf : s.ken.fatal = false) (hu : s.cmdIdUsed pair (eCmdId b) = false) (ht : 31 < eCmdId b) :
    s.screen pair true b list = stInvalidField := by
  simp [State.screen, hf, hu, ht]

/-- A family that the pair does not carry. -/
theorem screen_wrongRing (hf : s.ken.fatal = false) (hu : s.cmdIdUsed pair (eCmdId b) = false)
    (ht : storage = false ∨ eCmdId b ≤ 31) (hc : carries pair storage (eOpcode b / 256) = false) :
    s.screen pair storage b list = stWrongRing := by
  have htag : (storage && decide (31 < eCmdId b)) = false := by rcases ht with rfl | ht <;> simp [*]
  simp [State.screen, hf, hu, htag, hc]

/-- An undefined opcode. -/
theorem screen_invalidOpcode (hf : s.ken.fatal = false) (hu : s.cmdIdUsed pair (eCmdId b) = false)
    (ht : storage = false ∨ eCmdId b ≤ 31) (hc : carries pair storage (eOpcode b / 256) = true)
    (hd : opDefined (eOpcode b) = false) : s.screen pair storage b list = stInvalidOpcode := by
  have htag : (storage && decide (31 < eCmdId b)) = false := by rcases ht with rfl | ht <;> simp [*]
  simp [State.screen, hf, hu, htag, hc, hd]

variable {list}

/-- An entry that passes has a CMD_ID that is not outstanding. -/
theorem cmdIdUsed_of_screen (h : s.screen pair storage b list = stOk) : s.cmdIdUsed pair (eCmdId b) = false := by
  cases hf : s.ken.fatal with
  | true => simp [State.screen, hf] at h
  | false =>
    by_contra hu
    simp [screen_cmdIdUsed list hf (Bool.of_not_eq_false hu)] at h

/-- An entry that passes on a storage pair has a tag of at most 31. -/
theorem tag_of_screen (h : s.screen pair true b list = stOk) : eCmdId b ≤ 31 := by
  cases hf : s.ken.fatal with
  | true => simp [State.screen, hf] at h
  | false =>
    by_contra ht
    simp [screen_storageTag list hf (cmdIdUsed_of_screen h) (by omega)] at h

end

/-- No command of a pair has a CMD_ID that is not outstanding. -/
theorem cid_ne_of_unused {s : State} {pair cid : Nat} (h : s.cmdIdUsed pair cid = false) {c : Cmd} (hc : c ∈ s.ken.cmds)
    (hp : c.pair = pair) : c.cid ≠ cid := by
  simp only [State.cmdIdUsed, List.any_eq_false, Bool.and_eq_true, beq_iff_eq, not_and] at h
  exact h c hc hp

/-! ### Distinct CMD_IDs (R48) -/

/-- The unfinished commands of each pair have distinct CMD_IDs. -/
def DistinctIds (cs : List Cmd) : Prop :=
  ∀ c ∈ cs, ∀ d ∈ cs, c.pair = d.pair → c.cid = d.cid → c.phase ≠ .finished → d.phase ≠ .finished → c = d

/-- A command joins them where, unfinished, no other command of its pair has its CMD_ID. -/
theorem DistinctIds.append {cs : List Cmd} {x : Cmd} (h : DistinctIds cs)
    (hx : x.phase ≠ .finished → ∀ c ∈ cs, c.pair = x.pair → c.cid ≠ x.cid) : DistinctIds (cs ++ [x]) := by
  intro c hc d hd hpair hcid hco hdo
  simp only [List.mem_append, List.mem_singleton] at hc hd
  rcases hc with hc | rfl <;> rcases hd with hd | rfl
  · exact h c hc d hd hpair hcid hco hdo
  · exact absurd hcid (hx hdo c hc hpair)
  · exact absurd hcid.symm (hx hco d hd hpair.symm)
  · rfl

/-- A fetch keeps the CMD_IDs distinct. -/
theorem execCommandFetch_distinctIds {s t : State} {pair : Nat} {e list data : Option Bytes} (hs : DistinctIds s.ken.cmds)
    (h : execCommandFetch pair e list data s = .next t) : DistinctIds t.ken.cmds := by
  rcases execCommandFetch_cmds h with ht | ⟨b, r, -, -, ht⟩ <;> rw [ht]
  · exact hs
  · exact hs.append fun hopen c hc hp =>
      cid_ne_of_unused (cmdIdUsed_of_screen (screen_of_fetched_open s pair r b list data hopen)) hc hp

/-! ### Storage tags (R60) -/

/-- A storage pair with all its tags outstanding fetches nothing. -/
theorem canFetch_of_full {s : State} {pair : Nat} {r : RingPair} (hr : r.storage = true)
    (hn : 32 ≤ (s.outstanding pair).length) : s.canFetch pair r = false := by
  have hfull : ¬ (s.outstanding pair).length < Config.storageTags := Nat.not_lt.mpr hn
  simp [State.canFetch, hr, hfull]

/-- A storage pair that can fetch has fewer than 32 commands outstanding. -/
theorem outstanding_of_canFetch {s : State} {pair : Nat} {r : RingPair} (hr : r.storage = true)
    (hf : s.canFetch pair r = true) : (s.outstanding pair).length < 32 := by
  by_contra hn
  simp [canFetch_of_full hr (Nat.not_lt.mp hn)] at hf

/-- A command of the pair that is appended is outstanding after the others. -/
theorem outstanding_append {s t : State} {x : Cmd} (ht : t.ken.cmds = s.ken.cmds ++ [x]) :
    t.outstanding x.pair = s.outstanding x.pair ++ [x] := by
  simp [State.outstanding, ht]

/-- What a fetch does to the outstanding commands of its pair. -/
theorem execCommandFetch_outstanding {s t : State} {pair : Nat} {r : RingPair} {e list data : Option Bytes}
    (hr : tget s.ken.rings pair = some r) (h : execCommandFetch pair e list data s = .next t) :
    t.outstanding pair = s.outstanding pair ∨ ∃ b, s.canFetch pair r = true ∧
      t.outstanding pair = s.outstanding pair ++ [s.fetched pair r b list data] := by
  rcases execCommandFetch_cmds h with ht | ⟨b, r', hr', hf, ht⟩
  · exact .inl (by simp [State.outstanding, ht])
  · obtain rfl : r = r' := Option.some.inj (hr.symm.trans hr')
    exact .inr ⟨b, hf, outstanding_append ht⟩

/-! ### DELETE_RING_PAIR (R52) -/

section
variable {s : State} {c : Cmd}

theorem deleteRingPair_zero (h0 : c.p8 32 = 0) : deleteRingPair c s = refuse c.pair c.cid stInvalidField s := by
  simp [deleteRingPair, h0]

theorem deleteRingPair_missing (h0 : c.p8 32 ≠ 0) (hno : thas s.ken.rings (c.p8 32) = false) :
    deleteRingPair c s = refuse c.pair c.cid stPrecondition s := by
  simp [deleteRingPair, h0, hno]

theorem deleteRingPair_busy (h0 : c.p8 32 ≠ 0) (hhas : thas s.ken.rings (c.p8 32) = true)
    (hbusy : s.outstanding (c.p8 32) ≠ [] ∨ ∃ l ∈ s.ken.longOps, l.pair = c.p8 32) :
    deleteRingPair c s = refuse c.pair c.cid stBusy s := by
  have hany : (!(s.outstanding (c.p8 32)).isEmpty || s.ken.longOps.any fun l => l.pair == c.p8 32) = true := by
    simpa using hbusy
  simp only [deleteRingPair, h0, hhas, hany, Bool.not_true, Bool.false_eq_true, if_true, if_false]

theorem deleteRingPair_deletes (h0 : c.p8 32 ≠ 0) (hhas : thas s.ken.rings (c.p8 32) = true)
    (hout : s.outstanding (c.p8 32) = []) (hlong : ∀ l ∈ s.ken.longOps, l.pair ≠ c.p8 32) :
    deleteRingPair c s = finishPlain c.pair c.cid stOk
      { s with ken := { s.ken with rings := tdel s.ken.rings (c.p8 32) } } := by
  have hany : (s.ken.longOps.any fun l => l.pair == c.p8 32) = false := by simpa using hlong
  simp [deleteRingPair, h0, hhas, hout, hany]

end

/-! ### Read-only volumes (R62) -/

/-- A magazine in state 4 takes commands. -/
theorem takesCommands_of_readOnly {m : Magazine} (h : m.state = 4) : m.takesCommands = true := by simp [Magazine.takesCommands, h]

/-- A command that writes to a read-only volume. -/
theorem volStatus_write_readOnly {s : State} {volume block count : Nat} {v : Volume} (hv : tget s.flash.volumes volume = some v)
    (hn : block + count ≤ v.blocks) (hro : v.readOnly = true ∨ ∃ b m, s.volMag v = some (b, m) ∧ m.state = 4) :
    s.volStatus volume block count true = stMediaReadOnly := by
  have hrange : ¬ v.blocks < block + count := Nat.not_lt.mpr hn
  cases hself : v.readOnly with
  | true => simp [State.volStatus, hv, hrange, hself]
  | false =>
    obtain ⟨b, m, hm, h4⟩ := hro.resolve_left (by simp [hself])
    simp [State.volStatus, hv, hrange, hself, hm, takesCommands_of_readOnly h4, h4]

/-- A command that reads from a volume whose magazine takes commands. -/
theorem volStatus_read {s : State} {volume block count b : Nat} {v : Volume} {m : Magazine}
    (hv : tget s.flash.volumes volume = some v) (hn : block + count ≤ v.blocks) (hm : s.volMag v = some (b, m))
    (ht : m.takesCommands = true) : s.volStatus volume block count false = stOk := by
  simp [State.volStatus, hv, Nat.not_lt.mpr hn, hm, ht]

/-- A well-formed WRITE that the volume refuses. -/
theorem writeCmd_of_volStatus {s : State} {c : Cmd} {st : Nat} (hlo : c.count ≠ 0) (hhi : c.count ≤ 2048) (hvol : c.volume ≤ 127)
    (hcls : c.p8 34 ≤ 3) (hd : c.dataIs (c.count * 4096) = true) (hst : s.volStatus c.volume c.block c.count true = st)
    (hne : st ≠ stOk) : writeCmd c s = refuse c.pair c.cid st s := by
  unfold writeCmd
  rw [if_neg (by simp [hlo, hd]; omega), hst, if_pos hne]

/-- Flash reads leave Kenlet. -/
@[simp] theorem flashReads_ken (keys : List Nat) (s : State) : (flashReads keys s).ken = s.ken := by
  refine foldl_keeps State.ken (fun t key => ?_) keys s
  split
  · rfl
  · split
    · split <;> rfl
    · rfl

/-- How a pair's data leaves is Kenlet's alone. -/
theorem dataVia_congr {s t : State} (h : t.ken = s.ken) (pair : Nat) : t.dataVia pair = s.dataVia pair := by
  simp [State.dataVia, State.pairSublink, State.sublinks, h]

/-- A well-formed READ of a range that the volume serves, with no block lost: the data, and ST_OK. -/
theorem readCmd_served {s : State} {c : Cmd} (hlo : c.count ≠ 0) (hhi : c.count ≤ 2048) (hvol : c.volume ≤ 127)
    (hres : c.p8 34 = 0) (hd : c.dataIs (c.count * 4096) = true) (hst : s.volStatus c.volume c.block c.count false = stOk)
    (hlost : s.lostIn c.volume c.block c.count = []) (hland : s.landing = true) :
    readCmd true c s = finish c.pair c.cid stOk 0 (emits ((layOut (hostBuffers c.entry c.list)
      (s.readBlocks c.volume c.block c.count)).map fun p => .pcieWrite (s.dataVia c.pair) p.1 p.2)
      (readRun c.volume c.block c.count s)) := by
  have hvia : (readRun c.volume c.block c.count s).dataVia c.pair = s.dataVia c.pair := dataVia_congr (flashReads_ken _ s) _
  unfold readCmd
  rw [if_neg (by simp [hlo, hres, hd]; omega)]
  simp [hst, hlost, hland, replyStatus, hvia]

/-- A well-formed OPEN that the volume refuses. -/
theorem reelOpen_of_volStatus {s : State} {c : Cmd} {r : Reel} {st : Nat} (hfields : c.openFields = true)
    (hbusy : s.reelBusy c = false) (hvol : thas s.flash.volumes c.reelVolume = true) (hnew : thas s.cat.reels c.reelKey = false)
    (hopen : s.openCount < 256) (hcount : s.reelCount c.reelVolume < 1048576) (hr : r = c.newReel s.tb (Config.fwRelease s.firmware))
    (hst : s.volStatus c.reelVolume r.start r.payloadOffset true = st) (hne : st ≠ stOk) :
    reelOpen c s = refuse c.pair c.cid st s := by
  subst hr
  have hroom : ¬ (256 ≤ s.openCount ∨ 1048576 ≤ s.reelCount c.reelVolume) := by omega
  simp only [reelOpen, hfields, hbusy, hvol, hnew, hroom, hst, Bool.not_true, Bool.or_false, Bool.false_eq_true, if_false, if_pos hne]

/-- A well-formed SEAL that the volume refuses. -/
theorem reelSeal_of_volStatus {s : State} {c : Cmd} {r : Reel} {st : Nat} (ok : Bool) (hr : tget s.cat.reels c.reelKey = some r)
    (hbusy : s.reelBusy c = false) (hsealed : r.sealed = false) (hbuf : c.exactBuf 48 = true) (hds : c.p16 38 = r.dataset)
    (hst : s.volStatus c.reelVolume r.start (r.nextUnit + 1) true = st) (hne : st ≠ stOk) :
    reelSeal ok c s = refuse c.pair c.cid st s := by
  simp [reelSeal, hr, hbusy, hsealed, hbuf, hds, hst, hne]

/-- A well-formed SAMPLES that the volume refuses. -/
theorem reelSamples_of_volStatus {s : State} {c : Cmd} {r : Reel} {d : Bytes} {st : Nat}
    (hr : tget s.cat.reels c.reelKey = some r) (hbusy : s.reelBusy c = false) (hsealed : r.sealed = false)
    (hdata : c.hasData = true) (hds : c.p16 38 = r.dataset) (hd : c.data = some d) {sls : List Bytes}
    (hsls : sls = pieces 64 (c.p32 72) d) (hn : sls.length = c.p32 72)
    (hlen : d.length = roundUp (64 * c.p32 72 + (sls.map fun b => field b 20 4).sum) 4) (hdl : c.dataLen = d.length)
    (hgiven : slatesGiven r.dataset (r.first + r.slates) sls = true) (hcap : r.slates + c.p32 72 ≤ r.slateCap)
    {bl : List Bytes} (hbl : bl = (packSamples r.blocks (splitSamples sls (d.drop (64 * c.p32 72)))).closed.reverse)
    (hblocks : r.blocks + bl.length ≤ r.blockCap)
    (hst : s.volStatus c.reelVolume r.start
      (storeBlocks r.codec r.level (Config.fwRelease s.firmware) r.nextUnit bl).2.2 true = st) (hne : st ≠ stOk) :
    reelSamples c s = refuse c.pair c.cid st s := by
  subst hsls hbl
  have hform : ¬ ((pieces 64 (c.p32 72) d).length ≠ c.p32 72 ∨
      d.length ≠ roundUp (64 * c.p32 72 + ((pieces 64 (c.p32 72) d).map fun b => field b 20 4).sum) 4 ∨
      c.dataLen ≠ d.length ∨ (!slatesGiven r.dataset (r.first + r.slates) (pieces 64 (c.p32 72) d)) = true ∨
      r.slateCap < r.slates + c.p32 72) := by
    simp only [not_or, not_not, Nat.not_lt]
    exact ⟨hn, hlen, hdl, by simp [hgiven], hcap⟩
  have hhead : ¬ ((!c.hasData) = true ∨ c.p16 38 ≠ r.dataset) := by simp [hdata, hds]
  unfold reelSamples
  simp only [hr, hbusy, hsealed, Bool.false_eq_true, if_false, if_neg hhead, withData, hd, if_neg hform,
    if_neg (Nat.not_lt.mpr hblocks), hst, if_pos hne]

end Sys2Proof.Machine

/-! ### The statements -/

namespace Sys2Proof.Machine.HostInterface

/-- Settles O2 by the three equations of `timebaseRead`. -/
theorem timebaseReadsAreCoherent : Obligations.TimebaseReadsAreCoherent := by
  refine ⟨fun s sub h => ?_, fun s sub h => ?_, fun s sub half h hl => ?_⟩
  · rw [exec_timebaseRead, execTimebaseRead_of_access h (.inl rfl), timebaseRead_whole]
  · rw [exec_timebaseRead, execTimebaseRead_of_access h (.inl rfl), timebaseRead_low]
    exact ⟨_, rfl, rfl, tget_tput _ _ _, rfl⟩
  · rw [exec_timebaseRead, execTimebaseRead_of_access h (.inr ⟨rfl, by decide⟩), timebaseRead_high hl]
    exact ⟨_, rfl, rfl, tget_tdel _ _⟩

/-- Settles O8: the entry goes out before `signalPair` can fire the vector. -/
theorem phaseInvertsOnWrap : Obligations.PhaseInvertsOnWrap := by
  refine ⟨fun _ _ _ _ _ _ _ _ _ => rfl, fun r => advance_inside, fun r => advance_wrap, fun c r hst => ?_, ?_⟩
  · refine ⟨completionEntry_length c r, ?_⟩
    rw [completionEntry_last]
    cases r.phase <;> simp <;> omega
  · intro s pair cid r c ha hr hc hs hf hp
    obtain ⟨after, hout, hafter⟩ := completionWrite_out hr hc hs hf hp
    exact ⟨_, after, live_of_alive ha, hout, hafter⟩

/-- Settles O9: the cases are the branches of the model's `deleteRingPair`, in order. -/
theorem deleteRingPair : Obligations.DeleteRingPair := by
  intro s pair cid c h
  rw [exec_deleteRingPair, execDeleteRingPair, live_runCmd_of_ready _ h]
  refine ⟨fun h0 => ?_, fun h0 hno => ?_, fun h0 hhas hbusy => ?_, fun h0 hhas hout hlong => ?_⟩
  · rw [deleteRingPair_zero h0]
  · rw [deleteRingPair_missing h0 hno]
  · rw [deleteRingPair_busy h0 hhas hbusy]
  · rw [deleteRingPair_deletes h0 hhas hout hlong]

/-- Settles O52: a fetch appends one command, and what `State.screen` finds against it finishes it. -/
theorem commandIdentifiers : Obligations.CommandIdentifiers := by
  refine ⟨fun s t pair e list data hs h => execCommandFetch_distinctIds hs h, ?_⟩
  intro s pair e b list data r ha hr hf hfatal hb
  subst hb
  have hrow := execCommandFetch_entry e list data ha hr hf
  refine ⟨fun hu => ?_, fun hu htag => ⟨fun hc => ?_, fun hc hd => ?_⟩⟩
  · have hst := screen_cmdIdUsed (storage := r.storage) list hfatal hu
    have hfin := fetched_finished s pair r e list data hst (by decide)
    exact ⟨_, _, hrow, rfl, rfl, rfl, hfin, hst, findCmd_append_finished rfl hfin⟩
  · have hst := screen_wrongRing list hfatal hu htag hc
    exact ⟨_, _, hrow, rfl, rfl, rfl, fetched_finished s pair r e list data hst (by decide), hst⟩
  · have hst := screen_invalidOpcode list hfatal hu htag hc hd
    exact ⟨_, _, hrow, rfl, rfl, rfl, fetched_finished s pair r e list data hst (by decide), hst⟩

/-- Settles O53: the families are those of `carries`, and a fetched entry of another one is appended finished. -/
theorem ringFamilies : Obligations.RingFamilies := by
  refine ⟨fun storage f => by simp [carries], fun pair f h => by simp [carries, h],
    fun pair f h => by simp [carries, h, or_assoc], fun op h => ?_, ?_⟩
  · simp only [opDefined, lastOp, h, decide_eq_true_eq]
    omega
  · intro s pair e b list data r ha hr hf hfatal hb hu htag hc
    subst hb
    have hst := screen_wrongRing list hfatal hu htag hc
    have hfin := fetched_finished s pair r e list data hst (by decide)
    exact ⟨_, _, _, _, execCommandFetch_entry e list data ha hr hf, rfl, hfin, hst, findCmd_append_finished rfl hfin⟩

/-- Settles O54: `State.canFetch` counts the outstanding commands, and `State.screen` judges the tags. -/
theorem storageTags : Obligations.StorageTags := by
  refine ⟨fun s pair e list data r hr hst hn => ?_, fun s t pair e list data r hr hst hn h => ?_,
    fun s t pair e list data r hr hst hs h => ?_, fun s pair e list data r ha hr hst hf hfatal hu htag => ?_⟩
  · have hidle := commandFetch_idle e list data hr (canFetch_of_full hst hn)
    rw [exec_commandFetch, execCommandFetch, live, hidle, ite_self]
  · rcases execCommandFetch_outstanding hr h with ht | ⟨b, hf, ht⟩ <;> rw [ht]
    · exact hn
    · simpa using outstanding_of_canFetch hst hf
  · rcases execCommandFetch_outstanding hr h with ht | ⟨b, -, ht⟩ <;> rw [ht]
    · exact hs
    · intro c hc hopen
      rcases List.mem_append.mp hc with hc | hc
      · exact hs c hc hopen
      · obtain rfl := List.mem_singleton.mp hc
        exact tag_of_screen (hst ▸ screen_of_fetched_open s pair r b list data hopen)
  · have hscreen : s.screen pair r.storage (fitTo 128 e) list = stInvalidField :=
      hst ▸ screen_storageTag list hfatal hu htag
    exact ⟨_, _, execCommandFetch_entry e list data ha hr hf, rfl,
      fetched_finished s pair r e list data hscreen (by decide), rfl, hscreen⟩

/-- Settles O56: every command judges its range with `State.volStatus`, which finds the read-only state for those that write. -/
theorem readOnlyVolumes : Obligations.ReadOnlyVolumes := by
  refine ⟨fun s volume block count v hv hn hro =>
      ⟨volStatus_write_readOnly hv hn hro, fun b m hm ht => volStatus_read hv hn hm ht⟩,
    fun s pair cid c h hlo hhi hvol hcls hd hst => ?_,
    fun s pair cid c h hlo hhi hvol hres hd hwr hst hlost hland => ?_, fun s pair cid c h => ?_⟩
  · obtain ⟨rfl, rfl⟩ := ids_of_ready h
    rw [exec_write, execWrite, live_runCmd_of_ready _ h, writeCmd_of_volStatus hlo hhi hvol hcls hd hst (by decide)]
  · obtain ⟨rfl, rfl⟩ := ids_of_ready h
    rw [exec_read, execRead, live_runCmd_of_ready _ h, readCmd_served hlo hhi hvol hres hd hst hlost hland]
  · obtain ⟨rfl, rfl⟩ := ids_of_ready h
    refine ⟨fun r hsub hfields hbusy hvol hnew hopen hcount hr hst => ?_,
      fun r d sls bl z hsub hr hbusy hsealed hdata hds hd hsls hn hlen hdl hgiven hcap hbl hblocks hz hst => ?_,
      fun r ok hsub hr hbusy hsealed hbuf hds hst => ?_⟩
    · rw [exec_reelOpen, execReelOpen, live_runReel_of_ready _ h hsub (by decide),
        reelOpen_of_volStatus hfields hbusy hvol hnew hopen hcount hr hst (by decide)]
    · subst hz
      rw [exec_reelSamples, execReelSamples, live_runReel_of_ready _ h hsub (by decide),
        reelSamples_of_volStatus hr hbusy hsealed hdata hds hd hsls hn hlen hdl hgiven hcap hbl hblocks hst (by decide)]
    · rw [exec_reelSeal, execReelSeal, live_runReel_of_ready _ h hsub (by decide),
        reelSeal_of_volStatus ok hr hbusy hsealed hbuf hds hst (by decide)]

end Sys2Proof.Machine.HostInterface
end

section
/-! Proof of the statement about CATALOG_UNLOAD (R88): what its removal does to the catalog, the three branches of the model's
`catalogUnload`, and the statement from them. -/

namespace Sys2Proof.Machine

/-! ### Removing a dataset -/

/-- The entries that a filter keeps are those of the table that satisfy it. -/
theorem mem_tfilter {α : Type} {t : Table α} {p : Nat → α → Bool} {k : Nat} {a : α} :
    (k, a) ∈ tfilter t p ↔ (k, a) ∈ t ∧ p k a = true := List.mem_filter

/-- A completion without a stated RESULT depends on Kenlet and the timebase alone. -/
theorem finishPlain_ken_congr {s t : State} (hken : t.ken = s.ken) (htb : t.tb = s.tb) (pair cid status : Nat) :
    (finishPlain pair cid status t).ken = (finishPlain pair cid status s).ken := by
  simp [finishPlain, modCmds, hken, htb]

section
variable (s : State)

@[simp] theorem pruneHeaders_tb : (pruneHeaders s).tb = s.tb := rfl
@[simp] theorem pruneHeaders_ken : (pruneHeaders s).ken = s.ken := rfl
@[simp] theorem pruneHeaders_committed : (pruneHeaders s).cat.committed = s.cat.committed := rfl
@[simp] theorem pruneHeaders_staged : (pruneHeaders s).cat.staged = s.cat.staged := rfl
@[simp] theorem pruneHeaders_summaries : (pruneHeaders s).cat.summaries = s.cat.summaries := rfl
@[simp] theorem pruneHeaders_held : (pruneHeaders s).cat.held = s.cat.held := rfl

/-- A state without a dataset: what an accepted CATALOG_UNLOAD leaves before its completion (`catalogUnload_removes`). -/
def removeDataset (h : Nat) (s : State) : State :=
  pruneHeaders { s with cat := { s.cat with
    committed := tdel s.cat.committed h
    staged := tdel s.cat.staged h
    summaries := tdel s.cat.summaries h
    held := tfilter s.cat.held fun k _ => k % 2 ^ 16 != h } }

@[simp] theorem removeDataset_tb (h : Nat) : (removeDataset h s).tb = s.tb := by simp [removeDataset]
@[simp] theorem removeDataset_ken (h : Nat) : (removeDataset h s).ken = s.ken := by simp [removeDataset]

theorem removeDataset_committed (h : Nat) : tget (removeDataset h s).cat.committed h = none := by simp [removeDataset, tget_tdel]
theorem removeDataset_staged (h : Nat) : tget (removeDataset h s).cat.staged h = none := by simp [removeDataset, tget_tdel]
theorem removeDataset_summaries (h : Nat) : tget (removeDataset h s).cat.summaries h = none := by simp [removeDataset, tget_tdel]

/-- No pipeline holds old runs of the removed dataset. -/
theorem removeDataset_held {h k : Nat} {r : List Run} (hm : (k, r) ∈ (removeDataset h s).cat.held) : k % 2 ^ 16 ≠ h := by
  rw [removeDataset, pruneHeaders_held, mem_tfilter] at hm
  exact bne_iff_ne.mp hm.2

end

/-! ### CATALOG_UNLOAD (R88) -/

section
variable {s : State} {c : Cmd}

@[simp] theorem exec_catalogUnload (pair cid : Nat) (s : State) :
    exec (.catalogUnload pair cid) s = execCatalogUnload pair cid s := rfl

/-- A dataset without runs, staged data and a summary is unknown. -/
theorem catalogUnload_unknown (hcom : thas s.cat.committed (c.p16 32) = false) (hstg : thas s.cat.staged (c.p16 32) = false)
    (hsum : thas s.cat.summaries (c.p16 32) = false) : catalogUnload c s = refuse c.pair c.cid stPrecondition s := by
  simp [catalogUnload, hcom, hstg, hsum]

/-- For a known dataset, what is left to judge is its use. -/
theorem catalogUnload_known
    (hany : (thas s.cat.committed (c.p16 32) || thas s.cat.staged (c.p16 32) || thas s.cat.summaries (c.p16 32)) = true) :
    catalogUnload c s = if s.datasetInUse (c.p16 32) || s.loadingCatalog (c.p16 32) then refuse c.pair c.cid stBusy s
      else finishPlain c.pair c.cid stOk (removeDataset (c.p16 32) s) := by
  have hknown : ¬ (!thas s.cat.committed (c.p16 32) && !thas s.cat.staged (c.p16 32) && !thas s.cat.summaries (c.p16 32)) = true := by
    simpa [Bool.or_assoc, or_iff_not_imp_left] using hany
  exact if_neg hknown

/-- A known dataset in use by a running pipeline or by a CATALOG_LOAD. -/
theorem catalogUnload_busy
    (hany : (thas s.cat.committed (c.p16 32) || thas s.cat.staged (c.p16 32) || thas s.cat.summaries (c.p16 32)) = true)
    (huse : (s.datasetInUse (c.p16 32) || s.loadingCatalog (c.p16 32)) = true) :
    catalogUnload c s = refuse c.pair c.cid stBusy s := by
  rw [catalogUnload_known hany, if_pos huse]

/-- A known dataset that nothing uses. -/
theorem catalogUnload_removes
    (hany : (thas s.cat.committed (c.p16 32) || thas s.cat.staged (c.p16 32) || thas s.cat.summaries (c.p16 32)) = true)
    (hpipe : s.datasetInUse (c.p16 32) = false) (hload : s.loadingCatalog (c.p16 32) = false) :
    catalogUnload c s = finishPlain c.pair c.cid stOk (removeDataset (c.p16 32) s) := by
  rw [catalogUnload_known hany, if_neg (by simp [hpipe, hload])]

end

end Sys2Proof.Machine

/-! ### The statement -/

namespace Sys2Proof.Machine.ReelsAndCatalog

/-- Settles O23: the cases are the branches of the model's `catalogUnload`, and `removeDataset` is the removal. -/
theorem catalogUnload : Obligations.CatalogUnload := by
  intro s pair cid c h
  rw [exec_catalogUnload, execCatalogUnload, live_runCmd_of_ready _ h]
  refine ⟨fun hcom hstg hsum => ?_, fun hany huse => ?_, fun hany hpipe hload => ?_⟩
  · rw [catalogUnload_unknown hcom hstg hsum, refuse]
  · rw [catalogUnload_busy hany huse, refuse]
  · rw [catalogUnload_removes hany hpipe hload]
    exact ⟨_, rfl, removeDataset_committed s _, removeDataset_staged s _, removeDataset_summaries s _,
      fun k r hm => removeDataset_held s hm, finishPlain_ken_congr (removeDataset_ken s _) (removeDataset_tb s _) _ _ _⟩

end Sys2Proof.Machine.ReelsAndCatalog
end

section
/-! Proof of the statement about the permutation's domain (R93): what the model's search for a half-width finds, the least-width
facts from it, and the statement from them. -/

namespace Sys2Proof.Machine

/-- What the search finds: the first width that is wide enough, or, for an n beyond every width it tries, the last one. -/
theorem halfWidth_cases (n : Nat) :
    (∃ i < 24, halfWidth n = i + 1 ∧ n ≤ 2 ^ (2 * (i + 1)) ∧ ∀ j < i, 2 ^ (2 * (j + 1)) < n) ∨
    (halfWidth n = 24 ∧ 2 ^ 48 < n) := by
  rcases hfind : (List.range 24).find? (fun i => decide (n ≤ 2 ^ (2 * (i + 1)))) with - | i
  · have hnone := List.find?_eq_none.mp hfind 23 (List.mem_range.mpr (by decide))
    exact .inr ⟨by rw [halfWidth, hfind]; rfl, by simpa using hnone⟩
  · obtain ⟨hwide, hlt, hfirst⟩ := List.find?_range_eq_some.mp hfind
    exact .inl ⟨i, List.mem_range.mp hlt, by rw [halfWidth, hfind]; rfl, by simpa using hwide,
      fun j hj => by simpa using hfirst j hj⟩

theorem halfWidth_pos (n : Nat) : 1 ≤ halfWidth n := by
  rcases halfWidth_cases n with ⟨i, -, hw, -⟩ | ⟨hw, -⟩ <;> omega

/-- The domain holds every position below n. -/
theorem le_two_pow_halfWidth {n : Nat} (hn : n ≤ 2 ^ 48) : n ≤ 2 ^ (2 * halfWidth n) := by
  rcases halfWidth_cases n with ⟨i, -, hw, hwide, -⟩ | ⟨-, hbig⟩
  · rwa [hw]
  · omega

/-- No smaller half-width would do. -/
theorem halfWidth_le {n m : Nat} (hm : 1 ≤ m) (hn : n ≤ 2 ^ (2 * m)) : halfWidth n ≤ m := by
  by_contra! hlt
  rcases halfWidth_cases n with ⟨i, -, hw, -, hfirst⟩ | ⟨hw, hbig⟩
  · have hnarrow := hfirst (m - 1) (by omega)
    rw [Nat.sub_add_cancel hm] at hnarrow
    omega
  · have hpow : 2 ^ (2 * m) ≤ 2 ^ 48 := Nat.pow_le_pow_right (by decide) (by omega)
    omega

theorem halfWidth_two_pow_47 : halfWidth (2 ^ 47) = 24 := by
  have hle : halfWidth (2 ^ 47) ≤ 24 := halfWidth_le (by decide) (by decide)
  have hge : 47 ≤ 2 * halfWidth (2 ^ 47) :=
    (Nat.pow_le_pow_iff_right (by decide)).mp (le_two_pow_halfWidth (by decide))
  omega

end Sys2Proof.Machine

/-! ### The statement -/

namespace Sys2Proof.Machine.ShuffleAndRandomness

/-- Settles O59: an even k is twice its half, so the least half-width gives the least even k. -/
theorem permutationDomain : Obligations.PermutationDomain := by
  refine ⟨fun n _ hn => ⟨?_, le_two_pow_halfWidth (by omega), fun k heven hk hwide => ?_⟩, halfWidth_two_pow_47⟩
  · have := halfWidth_pos n
    omega
  · obtain ⟨m, rfl⟩ := Nat.dvd_of_mod_eq_zero heven
    exact Nat.mul_le_mul_left 2 (halfWidth_le (by omega) hwide)

end Sys2Proof.Machine.ShuffleAndRandomness
end

section
/-! Proof of the statement about PIPELINE_DELETE (R141): what its removal does to the pipelines, the branches of the model's
`pipelineDelete`, and the statement from them. -/

namespace Sys2Proof.Machine

/-- The states of R138 in which a pipeline is not running. -/
theorem active_eq_false_of_state {p : Pipeline} (h : p.state = 1 ∨ p.state = 5 ∨ p.state = 6) : p.active = false := by
  rcases h with h | h | h <;> simp [Pipeline.active, h]

/-! ### Removing a pipeline -/

/-- Is a key of the table of fields one of a pipeline: of its own block (R137), of its ledger's (R242), or of one of its consumers'
(R238)? -/
def fieldOfPipeline (pipe k : Nat) : Bool :=
  let inst := k / 2 ^ 8 % 2 ^ 16
  let blk := k / 2 ^ 24
  ((blk == 2 || blk == 4) && inst == pipe) || (blk == 3 && inst / 4096 == pipe)

section
variable (s : State) (pipe : Nat)

/-- A state without a pipeline: what an accepted PIPELINE_DELETE leaves before its completion (`pipelineDelete_removes`). -/
def removePipeline : State :=
  { s with pipes := tdel s.pipes pipe, fields := tfilter s.fields fun k _ => !fieldOfPipeline pipe k }

@[simp] theorem removePipeline_tb : (removePipeline s pipe).tb = s.tb := rfl
@[simp] theorem removePipeline_ken : (removePipeline s pipe).ken = s.ken := rfl
@[simp] theorem removePipeline_pipes : (removePipeline s pipe).pipes = tdel s.pipes pipe := rfl

end

/-! ### PIPELINE_DELETE (R141) -/

section
variable {s : State} {c : Cmd}

@[simp] theorem exec_pipelineDelete (pair cid : Nat) (s : State) :
    exec (.pipelineDelete pair cid) s = execPipelineDelete pair cid s := rfl

/-- For a declared pipeline, what is left to judge is whether it runs. -/
theorem pipelineDelete_declared {p : Pipeline} (hp : tget s.pipes (c.p8 32) = some p) :
    pipelineDelete c s = if p.active then refuse c.pair c.cid stPrecondition s
      else finishPlain c.pair c.cid stOk (removePipeline s (c.p8 32)) := by
  simp only [pipelineDelete, hp]
  rfl

/-- A declared pipeline that does not run. -/
theorem pipelineDelete_removes {p : Pipeline} (hp : tget s.pipes (c.p8 32) = some p) (hidle : p.active = false) :
    pipelineDelete c s = finishPlain c.pair c.cid stOk (removePipeline s (c.p8 32)) := by
  rw [pipelineDelete_declared hp, if_neg (by simp [hidle])]

end

end Sys2Proof.Machine

/-! ### The statement -/

namespace Sys2Proof.Machine.PipelinesAndPrograms

/-- Settles O24: a pipeline in one of the three states does not run, so the row removes its key and no other from the pipelines. -/
theorem pipelineDelete : Obligations.PipelineDelete := by
  intro s pair cid c p h hp hstate
  have hrow : exec (.pipelineDelete pair cid) s = .next (finishPlain c.pair c.cid stOk (removePipeline s (c.p8 32))) := by
    rw [exec_pipelineDelete, execPipelineDelete, live_runCmd_of_ready _ h,
      pipelineDelete_removes hp (active_eq_false_of_state hstate)]
  refine ⟨_, hrow, ?_, fun k hk => ?_, finishPlain_ken_congr (removePipeline_ken s _) (removePipeline_tb s _) _ _ _⟩
  · rw [finishPlain_pipes, removePipeline_pipes, tget_tdel]
  · rw [finishPlain_pipes, removePipeline_pipes, tget_tdel_other _ hk]

end Sys2Proof.Machine.PipelinesAndPrograms
end

section
/-! Proof of the statement about SHAPER_FLOW_SET (R375): what a stored field (R56) reads afterwards, the three fields of a flow, the two
branches of the model's `shaperFlowSet`, and the statement from them. -/

namespace Sys2Proof.Machine

/-! ### Stored fields (R56) -/

section
variable {block inst no : Nat}

/-- Fields of one block instance are told apart by their numbers. -/
@[simp] theorem fieldId_inj_no {m : Nat} : fieldId block inst no = fieldId block inst m ↔ no = m := by simp [fieldId]

@[simp] theorem setRaw_field (v : Nat) (s : State) : tget (setRaw block inst no v s).fields (fieldId block inst no) = some v :=
  tget_tput _ _ _

theorem setRaw_field_other {f : Nat} (v : Nat) (s : State) (h : f ≠ fieldId block inst no) :
    tget (setRaw block inst no v s).fields f = tget s.fields f :=
  tget_tput_other _ _ h

end

/-! ### The fields of a flow (R376) -/

/-- A state with the SHAPED, RATE_MBPS and OVERHEAD of the flow to `dest` written: what an accepted SHAPER_FLOW_SET leaves before its
completion (`shaperFlowSet_sets`). -/
def setFlowFields (dest shaped rate overhead : Nat) (s : State) : State :=
  setRaw 0x0C dest 0x01 shaped (setRaw 0x0C dest 0x02 rate (setRaw 0x0C dest 0x03 overhead s))

section
variable (dest shaped rate overhead : Nat) (s : State)

/-- Nothing but the table of fields changes. -/
theorem setFlowFields_eq : setFlowFields dest shaped rate overhead s =
    { s with fields := (setFlowFields dest shaped rate overhead s).fields } := rfl

theorem setFlowFields_shaped : tget (setFlowFields dest shaped rate overhead s).fields (fieldId 0x0C dest 1) = some shaped :=
  setRaw_field _ _

theorem setFlowFields_rate : tget (setFlowFields dest shaped rate overhead s).fields (fieldId 0x0C dest 2) = some rate := by
  rw [setFlowFields, setRaw_field_other _ _ (by simp), setRaw_field]

theorem setFlowFields_overhead : tget (setFlowFields dest shaped rate overhead s).fields (fieldId 0x0C dest 3) = some overhead := by
  rw [setFlowFields, setRaw_field_other _ _ (by simp), setRaw_field_other _ _ (by simp), setRaw_field]

theorem setFlowFields_other {f : Nat} (hshaped : f ≠ fieldId 0x0C dest 1) (hrate : f ≠ fieldId 0x0C dest 2)
    (hoverhead : f ≠ fieldId 0x0C dest 3) : tget (setFlowFields dest shaped rate overhead s).fields f = tget s.fields f := by
  rw [setFlowFields, setRaw_field_other _ _ hshaped, setRaw_field_other _ _ hrate, setRaw_field_other _ _ hoverhead]

end

/-! ### SHAPER_FLOW_SET (R375) -/

@[simp] theorem exec_shaperFlowSet (pair cid : Nat) (s : State) :
    exec (.shaperFlowSet pair cid) s = execShaperFlowSet pair cid s := rfl

/-- Is one of the parameters outside its range in R375? -/
def FlowOutOfRange (c : Cmd) : Prop :=
  8191 < c.p16 32 ∨ 1 < c.p8 34 ∨ signedOf 16 (c.p16 36) < -64 ∨ 255 < signedOf 16 (c.p16 36) ∨ c.p32 40 < 8 ∨ 4000000 < c.p32 40

section
variable {s : State} {c : Cmd}

theorem shaperFlowSet_refuses (h : FlowOutOfRange c) : shaperFlowSet c s = refuse c.pair c.cid stInvalidField s :=
  if_pos h

/-- OVERHEAD is kept in the 9 bits of its field. -/
theorem shaperFlowSet_sets (h : ¬ FlowOutOfRange c) : shaperFlowSet c s =
    finishPlain c.pair c.cid stOk (setFlowFields (c.p16 32) (c.p8 34) (c.p32 40) (c.p16 36 % 512) s) :=
  if_neg h

end

end Sys2Proof.Machine

/-! ### The statement -/

namespace Sys2Proof.Machine.ShapingAndPolicing

/-- Settles O57: the cases are the two branches of the model's `shaperFlowSet`, and `setFlowFields` is the write of the three fields. -/
theorem shaperFlowSet : Obligations.ShaperFlowSet := by
  intro s pair cid c h
  rw [exec_shaperFlowSet, execShaperFlowSet, live_runCmd_of_ready _ h]
  obtain ⟨rfl, rfl⟩ := ids_of_ready h
  refine ⟨fun hdest hflags hovLo hovHi hrateLo hrateHi => ?_, fun hout => ?_⟩
  · have hin : ¬ FlowOutOfRange c := by
      unfold FlowOutOfRange
      omega
    rw [shaperFlowSet_sets hin, setFlowFields_eq]
    exact ⟨_, rfl, setFlowFields_shaped _ _ _ _ s, setFlowFields_rate _ _ _ _ s, setFlowFields_overhead _ _ _ _ s,
      fun f hshaped hrate hoverhead => setFlowFields_other _ _ _ _ s hshaped hrate hoverhead⟩
  · rw [shaperFlowSet_refuses hout]

end Sys2Proof.Machine.ShapingAndPolicing
end

section
/-! Proof of the statement about TEST_ROTATION_SET (R413): the two rotation fields of one cluster, the same fields after a run through a
list of clusters, the two branches of the model's `testRotationSet`, and the statement from them. -/

namespace Sys2Proof.Machine

/-! ### The rotation fields of a cluster (R416) -/

/-- Fields of one number are told apart by their block instances. -/
@[simp] theorem fieldId_inj_inst {block inst no m : Nat} : fieldId block inst no = fieldId block m no ↔ inst = m := by simp [fieldId]

/-- No cluster's ENABLE is another's PERIOD_H. -/
theorem enableId_ne_periodId (i j : Nat) : fieldId 0x10 i 1 ≠ fieldId 0x10 j 2 := by
  unfold fieldId
  omega

/-- A state with the ENABLE and PERIOD_H of one cluster written. -/
def setCluster (enable period : Nat) (t : State) (i : Nat) : State := setRaw 0x10 i 0x02 period (setRaw 0x10 i 0x01 enable t)

/-- Do the rotation fields of cluster `n` hold these values? -/
def RotationIs (enable period n : Nat) (t : State) : Prop :=
  tget t.fields (fieldId 0x10 n 1) = some enable ∧ tget t.fields (fieldId 0x10 n 2) = some period

section
variable {enable period n : Nat} {s : State}

theorem setCluster_other {i f : Nat} (henable : f ≠ fieldId 0x10 i 1) (hperiod : f ≠ fieldId 0x10 i 2) :
    tget (setCluster enable period s i).fields f = tget s.fields f := by
  rw [setCluster, setRaw_field_other _ _ hperiod, setRaw_field_other _ _ henable]

theorem rotationIs_setCluster : RotationIs enable period n (setCluster enable period s n) := by
  refine ⟨?_, setRaw_field _ _⟩
  rw [setCluster, setRaw_field_other _ _ (enableId_ne_periodId n n), setRaw_field]

/-- Writing the same values to any cluster keeps those already written. -/
theorem RotationIs.setCluster (h : RotationIs enable period n s) (i : Nat) :
    RotationIs enable period n (setCluster enable period s i) := by
  by_cases hi : n = i
  · exact hi ▸ rotationIs_setCluster
  · refine ⟨?_, ?_⟩
    · rw [setCluster_other (by simpa using hi) (enableId_ne_periodId n i), h.1]
    · rw [setCluster_other (enableId_ne_periodId i n).symm (by simpa using hi), h.2]

end

/-! ### The rotation fields of several clusters -/

/-- A state with the ENABLE and PERIOD_H of the listed clusters written: what an accepted TEST_ROTATION_SET leaves before its completion
(`testRotationSet_sets`). -/
def setClusters (enable period : Nat) (is : List Nat) (s : State) : State := is.foldl (setCluster enable period) s

/-- Nothing but the table of fields changes. -/
theorem setClusters_eq (enable period : Nat) (is : List Nat) (s : State) : setClusters enable period is s =
    { s with fields := (setClusters enable period is s).fields } := by
  induction is generalizing s with
  | nil => rfl
  | cons i is ih => exact ih (setCluster enable period s i)

section
variable {enable period : Nat} {is : List Nat}

theorem setClusters_other {s : State} {f : Nat} (hf : ∀ i ∈ is, f ≠ fieldId 0x10 i 1 ∧ f ≠ fieldId 0x10 i 2) :
    tget (setClusters enable period is s).fields f = tget s.fields f := by
  induction is generalizing s with
  | nil => rfl
  | cons i is ih =>
    obtain ⟨⟨henable, hperiod⟩, hrest⟩ := List.forall_mem_cons.mp hf
    exact (ih hrest).trans (setCluster_other henable hperiod)

theorem RotationIs.setClusters {n : Nat} {s : State} (h : RotationIs enable period n s) :
    RotationIs enable period n (setClusters enable period is s) := by
  induction is generalizing s with
  | nil => exact h
  | cons i is ih => exact ih (h.setCluster i)

/-- A listed cluster is written when the run comes to it, and keeps the values until the end. -/
theorem rotationIs_setClusters {n : Nat} {s : State} (hn : n ∈ is) :
    RotationIs enable period n (setClusters enable period is s) := by
  induction is generalizing s with
  | nil => cases hn
  | cons i is ih =>
    rcases List.mem_cons.mp hn with rfl | hrest
    · exact rotationIs_setCluster.setClusters
    · exact ih hrest

end

/-! ### TEST_ROTATION_SET (R413) -/

/-- The clusters that CLUSTERS selects. -/
def selectedClusters (mask : Nat) : List Nat := (List.range 16).filter fun i => bitOf mask i

theorem mem_selectedClusters {mask n : Nat} : n ∈ selectedClusters mask ↔ n < 16 ∧ bitOf mask n = true := by
  simp [selectedClusters]

@[simp] theorem exec_testRotationSet (pair cid : Nat) (s : State) :
    exec (.testRotationSet pair cid) s = execTestRotationSet pair cid s := rfl

/-- Is one of the parameters outside its range in R413? -/
def RotationOutOfRange (c : Cmd) : Prop := c.p16 32 = 0 ∨ 1 < c.p8 34 ∨ c.p16 36 = 0 ∨ 168 < c.p16 36

section
variable {s : State} {c : Cmd}

theorem testRotationSet_refuses (h : RotationOutOfRange c) : testRotationSet c s = refuse c.pair c.cid stInvalidField s :=
  if_pos h

theorem testRotationSet_sets (h : ¬ RotationOutOfRange c) : testRotationSet c s =
    finishPlain c.pair c.cid stOk (setClusters (c.p8 34) (c.p16 36) (selectedClusters (c.p16 32)) s) :=
  if_neg h

end

end Sys2Proof.Machine

/-! ### The statement -/

namespace Sys2Proof.Machine.FieldTestAndSpares

/-- Settles O58: the cases are the two branches of the model's `testRotationSet`, and `setClusters` is the write of the selected clusters'
fields. -/
theorem testRotationSet : Obligations.TestRotationSet := by
  intro s pair cid c h
  rw [exec_testRotationSet, execTestRotationSet, live_runCmd_of_ready _ h]
  obtain ⟨rfl, rfl⟩ := ids_of_ready h
  refine ⟨fun hmask hflags hperiodLo hperiodHi => ?_, fun hout => ?_⟩
  · have hin : ¬ RotationOutOfRange c := by
      unfold RotationOutOfRange
      omega
    rw [testRotationSet_sets hin, setClusters_eq]
    refine ⟨_, rfl, fun n hn hbit => rotationIs_setClusters (mem_selectedClusters.mpr ⟨hn, hbit⟩), fun f hf => setClusters_other ?_⟩
    intro n hn
    obtain ⟨hlt, hbit⟩ := mem_selectedClusters.mp hn
    exact hf n hlt hbit
  · rw [testRotationSet_refuses hout]

end Sys2Proof.Machine.FieldTestAndSpares
end

section
/-! Proofs of the statements about single steps: what a step takes and keeps, the queue, and the state after reset. Each row keeps the
invariant because the operation it calls does (Sys2Proof/Laws/Keep*.lean); here the rows are gathered. -/

namespace Sys2Proof.Machine

/-- Every row answers a next state that keeps the queue, the outputs sent before, and the invariant. -/
theorem exec_keeps {q : List Instr} {o : List Output} {s : State} (i : Instr) (h : Kept q 64 o s) : KeptRes q 64 o (exec i s) := by
  cases i with
  | ctrlEnable sub => exact kept_execCtrlEnable sub h
  | controllerReset sub => exact kept_execControllerReset sub h
  | admDepthWrite sub v => exact kept_execAdmDepthWrite sub v h
  | registerWrite sub off size v => exact kept_execRegisterWrite sub off size v h
  | sqTailDoorbell sub pair v => exact kept_execSqTailDoorbell sub pair v h
  | cqHeadDoorbell sub pair v => exact kept_execCqHeadDoorbell sub pair v h
  | eventStatusWrite sub v => exact kept_execEventStatusWrite sub v h
  | eventMaskWrite sub v => exact kept_execEventMaskWrite sub v h
  | refusalRead sub => exact kept_execRefusalRead sub h
  | ringErrorRead sub => exact kept_execRingErrorRead sub h
  | timebaseRead sub off size => exact kept_execTimebaseRead sub off size h
  | commandFetch pair entry list data => exact kept_execCommandFetch pair entry list data h
  | completionWrite pair cid pcieOk => exact kept_execCompletionWrite pair cid pcieOk h
  | coalesceTimer pair => exact kept_execCoalesceTimer pair h
  | workSliceEnd pair cid units faults => exact kept_execWorkSliceEnd pair cid units faults h
  | identify pair cid pcieOk => exact kept_execIdentify pair cid pcieOk h
  | createRingPair pair cid => exact kept_execCreateRingPair pair cid h
  | deleteRingPair pair cid => exact kept_execDeleteRingPair pair cid h
  | resetRingPair pair cid lost => exact kept_execResetRingPair pair cid lost h
  | getEvent pair cid => exact kept_execGetEvent pair cid h
  | getField pair cid pcieOk => exact kept_execGetField pair cid pcieOk h
  | setField pair cid => exact kept_execSetField pair cid h
  | firmwareStage pair cid => exact kept_execFirmwareStage pair cid h
  | firmwareActivate pair cid => exact kept_execFirmwareActivate pair cid h
  | activationReset => exact kept_execActivationReset h
  | catalogLoad pair cid => exact kept_execCatalogLoad pair cid h
  | catalogUnload pair cid => exact kept_execCatalogUnload pair cid h
  | catalogLookup pair cid pcieOk => exact kept_execCatalogLookup pair cid pcieOk h
  | routingSummaryLoad pair cid => exact kept_execRoutingSummaryLoad pair cid h
  | pipelineDeclare pair cid => exact kept_execPipelineDeclare pair cid h
  | pipelineStart pair cid => exact kept_execPipelineStart pair cid h
  | pipelineStop pair cid => exact kept_execPipelineStop pair cid h
  | pipelineDelete pair cid => exact kept_execPipelineDelete pair cid h
  | modelPackageLoad pair cid => exact kept_execModelPackageLoad pair cid h
  | shotRecordsLoad pair cid => exact kept_execShotRecordsLoad pair cid h
  | tokenTableLoad pair cid => exact kept_execTokenTableLoad pair cid h
  | consumerAttach pair cid => exact kept_execConsumerAttach pair cid h
  | pipelineCheckpoint pair cid pcieOk => exact kept_execPipelineCheckpoint pair cid pcieOk h
  | pipelineRestore pair cid => exact kept_execPipelineRestore pair cid h
  | read pair cid pcieOk => exact kept_execRead pair cid pcieOk h
  | write pair cid => exact kept_execWrite pair cid h
  | flush pair cid => exact kept_execFlush pair cid h
  | trim pair cid => exact kept_execTrim pair cid h
  | volumeCreate pair cid => exact kept_execVolumeCreate pair cid h
  | volumeDelete pair cid => exact kept_execVolumeDelete pair cid h
  | magazineFormat pair cid => exact kept_execMagazineFormat pair cid h
  | fold pair cid => exact kept_execFold pair cid h
  | rebuild pair cid pcieOk weak => exact kept_execRebuild pair cid pcieOk weak h
  | magazineEject pair cid => exact kept_execMagazineEject pair cid h
  | reelOpen pair cid => exact kept_execReelOpen pair cid h
  | reelSamples pair cid => exact kept_execReelSamples pair cid h
  | reelSeal pair cid pcieOk => exact kept_execReelSeal pair cid pcieOk h
  | wearReport pair cid pcieOk => exact kept_execWearReport pair cid pcieOk h
  | topologyLoad pair cid => exact kept_execTopologyLoad pair cid h
  | peerIdentityLoad pair cid => exact kept_execPeerIdentityLoad pair cid h
  | regionRegister pair cid => exact kept_execRegionRegister pair cid h
  | regionRevoke pair cid => exact kept_execRegionRevoke pair cid h
  | revokeDrainComplete index => exact kept_execRevokeDrainComplete index h
  | qpCreate pair cid => exact kept_execQpCreate pair cid h
  | qpModifyReady pair cid => exact kept_execQpModifyReady pair cid h
  | qpModifyReset pair cid => exact kept_execQpModifyReset pair cid h
  | qpModifyError pair cid => exact kept_execQpModifyError pair cid h
  | qpModifyQuery pair cid pcieOk => exact kept_execQpModifyQuery pair cid pcieOk h
  | qpDestroy pair cid => exact kept_execQpDestroy pair cid h
  | callSheetLoad pair cid => exact kept_execCallSheetLoad pair cid h
  | shaperFlowSet pair cid => exact kept_execShaperFlowSet pair cid h
  | policerSet pair cid => exact kept_execPolicerSet pair cid h
  | errorRingRead pair cid pcieOk badWords => exact kept_execErrorRingRead pair cid pcieOk badWords h
  | countersRead pair cid pcieOk => exact kept_execCountersRead pair cid pcieOk h
  | traceConfig pair cid => exact kept_execTraceConfig pair cid h
  | lockstepConfig pair cid => exact kept_execLockstepConfig pair cid h
  | dailiesRun pair cid pcieOk => exact kept_execDailiesRun pair cid pcieOk h
  | logbookRead pair cid pcieOk => exact kept_execLogbookRead pair cid pcieOk h
  | clapperFreezeNow pair cid => exact kept_execClapperFreezeNow pair cid h
  | clapperFreezeAt pair cid => exact kept_execClapperFreezeAt pair cid h
  | clapperRelease pair cid ballHigh => exact kept_execClapperRelease pair cid ballHigh h
  | operatingPointSet pair cid => exact kept_execOperatingPointSet pair cid h
  | scrubPass pair cid faults => exact kept_execScrubPass pair cid faults h
  | initFill pair cid => exact kept_execInitFill pair cid h
  | testRotationSet pair cid => exact kept_execTestRotationSet pair cid h
  | testRun pair cid outs temp => exact kept_execTestRun pair cid outs temp h
  | testResultsRead pair cid pcieOk => exact kept_execTestResultsRead pair cid pcieOk h
  | unitRetire pair cid => exact kept_execUnitRetire pair cid h
  | attestReport pair cid pcieOk => exact kept_execAttestReport pair cid pcieOk h
  | certRead pair cid pcieOk => exact kept_execCertRead pair cid pcieOk h
  | scheduleComplete pipeline epoch => exact kept_execScheduleComplete pipeline epoch h
  | schedule pipeline epoch => exact kept_execSchedule pipeline epoch h
  | scheduleWindowRebuild pipeline epoch window failed => exact kept_execScheduleWindowRebuild pipeline epoch window failed h
  | poolAlloc owner cls stack bytes sample stage op filling => exact kept_execPoolAlloc owner cls stack bytes sample stage op filling h
  | allocGrant cls stack filling => exact kept_execAllocGrant cls stack filling h
  | poolFree handle owner stage op caller => exact kept_execPoolFree handle owner stage op caller h
  | poolShare handle n owner stage op caller filling => exact kept_execPoolShare handle n owner stage op caller filling h
  | poolAdd handle k owner stage op caller => exact kept_execPoolAdd handle k owner stage op caller h
  | poolRelease handle owner stage op caller => exact kept_execPoolRelease handle owner stage op caller h
  | engineEntryIssue sample queue => exact kept_execEngineEntryIssue sample queue h
  | engineCompletion queue flips => exact kept_execEngineCompletion queue flips h
  | blockDecompress queue => exact kept_execBlockDecompress queue h
  | crcVerify queue => exact kept_execCrcVerify queue h
  | fetchRepeat sample queue => exact kept_execFetchRepeat sample queue h
  | slatePredicate queue => exact kept_execSlatePredicate queue h
  | minhash queue pcieOk => exact kept_execMinhash queue pcieOk h
  | sinkHeadPoll pipeline instance_ head pcieOk => exact kept_execSinkHeadPoll pipeline instance_ head pcieOk h
  | imageDecode queue => exact kept_execImageDecode queue h
  | videoDecode queue => exact kept_execVideoDecode queue h
  | audioDecode queue => exact kept_execAudioDecode queue h
  | cropResample queue => exact kept_execCropResample queue h
  | flip queue => exact kept_execFlip queue h
  | affineWarp queue => exact kept_execAffineWarp queue h
  | colourJitter queue => exact kept_execColourJitter queue h
  | normalize queue => exact kept_execNormalize queue h
  | convert queue => exact kept_execConvert queue h
  | expression queue => exact kept_execExpression queue h
  | audioGain queue => exact kept_execAudioGain queue h
  | scoreModel queue => exact kept_execScoreModel queue h
  | embedModel queue => exact kept_execEmbedModel queue h
  | tokenize queue => exact kept_execTokenize queue h
  | grammar queue => exact kept_execGrammar queue h
  | tokenMask queue => exact kept_execTokenMask queue h
  | scoreFilter queue => exact kept_execScoreFilter queue h
  | splice pipeline epoch span => exact kept_execSplice pipeline epoch span h
  | deliver queue => exact kept_execDeliver queue h
  | sampleDigest queue pcieOk => exact kept_execSampleDigest queue pcieOk h
  | copy queue cmd faults => exact kept_execCopy queue cmd faults h
  | fill queue cmd faults => exact kept_execFill queue cmd faults h
  | gather queue cmd faults => exact kept_execGather queue cmd faults h
  | scatter queue cmd faults => exact kept_execScatter queue cmd faults h
  | hash queue cmd faults => exact kept_execHash queue cmd faults h
  | atomic queue cmd faults => exact kept_execAtomic queue cmd faults h
  | predicateScan queue cmd faults => exact kept_execPredicateScan queue cmd faults h
  | compress queue cmd faults => exact kept_execCompress queue cmd faults h
  | decompress queue cmd faults => exact kept_execDecompress queue cmd faults h
  | engineParityError queue access => exact kept_execEngineParityError queue access h
  | engineHang queue => exact kept_execEngineHang queue h
  | checkMismatchVote queue slot2 => exact kept_execCheckMismatchVote queue slot2 h
  | voteResult queue result core => exact kept_execVoteResult queue result core h
  | suspectClear unit => exact kept_execSuspectClear unit h
  | slotWrite sample => exact kept_execSlotWrite sample h
  | slotNoticeSend pipeline consumer batch flushStatus => exact kept_execSlotNoticeSend pipeline consumer batch flushStatus h
  | noticeCoalesceTimer pipeline consumer batch => exact kept_execNoticeCoalesceTimer pipeline consumer batch h
  | slotNotice m => exact kept_execSlotNotice m h
  | releaseNotice m => exact kept_execReleaseNotice m h
  | spanReport m => exact kept_execSpanReport m h
  | spanResult m => exact kept_execSpanResult m h
  | placement m => exact kept_execPlacement m h
  | pieceNotice m => exact kept_execPieceNotice m h
  | spanFetchStart pipeline epoch span => exact kept_execSpanFetchStart pipeline epoch span h
  | batchRelease pipeline consumer => exact kept_execBatchRelease pipeline consumer h
  | headReadTimer pipeline consumer => exact kept_execHeadReadTimer pipeline consumer h
  | headReadComplete pipeline consumer head => exact kept_execHeadReadComplete pipeline consumer head h
  | codeWordRead stack idx faults reader => exact kept_execCodeWordRead stack idx faults reader h
  | codeWordWrite stack idx off data fault writer => exact kept_execCodeWordWrite stack idx off data fault writer h
  | scrubStep stack fault => exact kept_execScrubStep stack fault h
  | presenceRise magazine => exact kept_execPresenceRise magazine h
  | insertionDebounce magazine stillPresent fault diesPerChannel report channelRates image => exact kept_execInsertionDebounce magazine stillPresent fault diesPerChannel report channelRates image h
  | magazineReady magazine => exact kept_execMagazineReady magazine h
  | attentionButton magazine => exact kept_execAttentionButton magazine h
  | ejectWindowExpiry magazine => exact kept_execEjectWindowExpiry magazine h
  | ejectPowerOff magazine => exact kept_execEjectPowerOff magazine h
  | ejectInhibitTimeout magazine => exact kept_execEjectInhibitTimeout magazine h
  | surpriseRemoval magazine => exact kept_execSurpriseRemoval magazine h
  | magazinePowerFault magazine => exact kept_execMagazinePowerFault magazine h
  | programInhibitSet pwrWarn railPct => exact kept_execProgramInhibitSet pwrWarn railPct h
  | programInhibitClear => exact kept_execProgramInhibitClear h
  | flashAbort railPct busy => exact kept_execFlashAbort railPct busy h
  | flashReadComplete volume block reads => exact kept_execFlashReadComplete volume block reads h
  | flashProgramComplete pair cid lastPage => exact kept_execFlashProgramComplete pair cid lastPage h
  | programFail stripe die second => exact kept_execProgramFail stripe die second h
  | stripeVerify stripe reads => exact kept_execStripeVerify stripe reads h
  | backgroundFold magazine units => exact kept_execBackgroundFold magazine units h
  | garbageCollection magazine group => exact kept_execGarbageCollection magazine group h
  | staticWearLevelling magazine => exact kept_execStaticWearLevelling magazine h
  | relocationSwitch volume block => exact kept_execRelocationSwitch volume block h
  | interfaceRetrainTimer => exact kept_execInterfaceRetrainTimer h
  | portStateAdvance port peerNode peerPort lanes => exact kept_execPortStateAdvance port peerNode peerPort lanes h
  | portBoundExpiry port => exact kept_execPortBoundExpiry port h
  | portRetryTimer port => exact kept_execPortRetryTimer port h
  | flit port f => exact kept_execFlit port f h
  | replay port f => exact kept_execReplay port f h
  | replayLimit port lockLost => exact kept_execReplayLimit port lockLost h
  | disable port => exact kept_execDisable port h
  | identityExchange port nonce key signature => exact kept_execIdentityExchange port nonce key signature h
  | timeReady port => exact kept_execTimeReady port h
  | timeProbeTimer => exact kept_execTimeProbeTimer h
  | timeProbe port p => exact kept_execTimeProbe port p h
  | workRequestPost qp kind addr key data len => exact kept_execWorkRequestPost qp kind addr key data len h
  | writePacket port vc p => exact kept_execWritePacket port vc p h
  | readReq port vc p data => exact kept_execReadReq port vc p data h
  | readResp port p => exact kept_execReadResp port p h
  | send port vc p => exact kept_execSend port vc p h
  | flushPacket port vc p => exact kept_execFlushPacket port vc p h
  | ack port p => exact kept_execAck port p h
  | nak port p => exact kept_execNak port p h
  | ackTimer qp => exact kept_execAckTimer qp h
  | retryTimer qp => exact kept_execRetryTimer qp h
  | nakBackoffExpiry qp => exact kept_execNakBackoffExpiry qp h
  | contextFetchComplete port qp => exact kept_execContextFetchComplete port qp h
  | wheelSlot => exact kept_execWheelSlot h
  | overflowSlot => exact kept_execOverflowSlot h
  | vc3MessageStart port relayed => exact kept_execVc3MessageStart port relayed h
  | gateTransition port => exact kept_execGateTransition port h
  | callSheetActivate port => exact kept_execCallSheetActivate port h
  | packageFatalError die cause linkUp => exact kept_execPackageFatalError die cause linkUp h
  | rotationTestDue cluster temp => exact kept_execRotationTestDue cluster temp h
  | takeover cluster => exact kept_execTakeover cluster h
  | testComplete out => exact kept_execTestComplete out h
  | testDeferralRetry cluster temp => exact kept_execTestDeferralRetry cluster temp h
  | requalificationRetest slot temp dayPassed out => exact kept_execRequalificationRetest slot temp dayPassed out h
  | suspectTest unit temp => exact kept_execSuspectTest unit temp h
  | digest m => exact kept_execDigest m h
  | match_ m => exact kept_execMatch m h
  | recordsRequest m => exact kept_execRecordsRequest m h
  | records m => exact kept_execRecords m h
  | chainRequest m => exact kept_execChainRequest m h
  | chain m => exact kept_execChain m h
  | freeze m => exact kept_execFreeze m h
  | forward m => exact kept_execForward m h
  | lockstepTimeout pipeline => exact kept_execLockstepTimeout pipeline h
  | clapperPinAssert => exact kept_execClapperPinAssert h
  | clapperPinDeassert => exact kept_execClapperPinDeassert h
  | clapperAtReached => exact kept_execClapperAtReached h
  | dailiesPeriod => exact kept_execDailiesPeriod h
  | logbookWrite => exact kept_execLogbookWrite h
  | powerOnReset bifPins => exact kept_execPowerOnReset bifPins h
  | pwrgdFall => exact kept_execPwrgdFall h
  | supplySample rails => exact kept_execSupplySample rails h
  | warmReset => exact kept_execWarmReset h
  | serviceButton holdMs => exact kept_execServiceButton holdMs h
  | pcieFundamentalReset => exact kept_execPcieFundamentalReset h
  | perstDeassert => exact kept_execPerstDeassert h
  | bootStageEnd ok haltCause failedStacks => exact kept_execBootStageEnd ok haltCause failedStacks h
  | bootWatchdog => exact kept_execBootWatchdog h
  | powerCapSample watts below100ms => exact kept_execPowerCapSample watts below100ms h
  | thermalThreshold die temp => exact kept_execThermalThreshold die temp h
  | thermalStep die temp => exact kept_execThermalStep die temp h
  | avsAdjust rail slackPs => exact kept_execAvsAdjust rail slackPs h
  | domainSwitchGateEnd domain => exact kept_execDomainSwitchGateEnd domain h
  | droopStretch cluster lowestMv => exact kept_execDroopStretch cluster lowestMv h
  | droopRecover cluster => exact kept_execDroopRecover cluster h
  | i3cRequest kind arg => exact kept_execI3cRequest kind arg h
  | pldmWarmReset => exact kept_execPldmWarmReset h
  | pldmLocateLed on => exact kept_execPldmLocateLed on h
  | safeRemoval magazine => exact kept_execSafeRemoval magazine h
  | crystalFailure => exact kept_execCrystalFailure h
  | visibilityReadComplete qp => exact kept_execVisibilityReadComplete qp h

/-- Taking the front of the queue keeps the rest of the invariant. -/
theorem Kept.rest {q : List Instr} {n : Nat} {o : List Output} {s : State} (h : Kept q n o s) (rest : List Instr) :
    Kept rest n o { s with pending := rest } :=
  ⟨rfl, h.outs, h.longs, h.fields, h.words, h.blocks, h.rings, h.events, h.logQueue⟩

theorem step_of_pending {s : State} {c : Instr} {rest : List Instr} (h : s.pending = c :: rest) :
    step s = exec c { s with pending := rest } := by
  simp only [step, h]

theorem step_of_empty {s : State} (h : s.pending = []) : step s = .next (idle s) := by
  simp only [step, h]

/-- A step from a state with the invariant takes the front of the queue and keeps what was sent and the invariant. -/
theorem step_keeps {s : State} {c : Instr} {rest : List Instr} (h : Invariant s) (hp : s.pending = c :: rest) :
    KeptRes rest 64 s.out (step s) :=
  step_of_pending hp ▸ exec_keeps c (h.kept.rest rest)

/-! ### Rows and the part's clocks -/

/-- The rows that act on a part whose clocks do not run: the power events (R458, R418). -/
def isPowerEvent : Instr → Bool
  | .powerOnReset _ | .pwrgdFall | .warmReset | .supplySample _ => true
  | _ => false

/-- Every other row acts only while the part's clocks run. -/
theorem exec_eq_live (i : Instr) (h : isPowerEvent i = false) : ∃ f, ∀ s, exec i s = live f s := by
  cases i with
  | powerOnReset b => cases h
  | pwrgdFall => cases h
  | warmReset => cases h
  | supplySample r => cases h
  | _ => exact ⟨_, fun _ => rfl⟩

theorem live_next (f : State → State) (s : State) : ∃ t, live f s = .next t := by
  unfold live
  split
  · exact ⟨_, rfl⟩
  · exact ⟨_, rfl⟩

/-- A power event answers a next state itself. -/
theorem exec_next_of_power (s : State) {i : Instr} (h : isPowerEvent i = true) : ∃ t, exec i s = .next t := by
  cases i with
  | powerOnReset b => exact ⟨_, rfl⟩
  | pwrgdFall => exact ⟨_, rfl⟩
  | warmReset => exact ⟨_, rfl⟩
  | supplySample r => exact ⟨_, rfl⟩
  | _ => cases h

/-- No row ends in a fault or a refusal, in whatever state. -/
theorem exec_next (i : Instr) (s : State) : ∃ t, exec i s = .next t := by
  cases h : isPowerEvent i with
  | true => exact exec_next_of_power s h
  | false =>
    obtain ⟨f, hf⟩ := exec_eq_live i h
    exact hf s ▸ live_next f s

end Sys2Proof.Machine

/-! ### The statements -/

namespace Sys2Proof.Machine.Steps

/-- Settles O41: `step` looks at the front of the queue and nothing else. -/
theorem stepRunsTheFront : Obligations.StepRunsTheFront := fun _ _ _ => step_of_pending rfl

/-- Settles O42 by the two cases of `idle`. -/
theorem emptyQueueTicks : Obligations.EmptyQueueTicks := by
  refine ⟨fun s hp ha => ?_, fun s hp ha => ?_⟩
  · rw [step_of_empty hp, idle, if_pos ha]
  · rw [step_of_empty hp, idle, if_neg (by simp [ha])]

/-- Settles O43: nothing is stored or queued at reset. -/
theorem invariantAtReset : Obligations.InvariantAtReset :=
  ⟨⟨rfl, rfl, fun _ h => absurd h List.not_mem_nil, Nat.zero_le _, Nat.zero_le _, Nat.zero_le _⟩, rfl⟩

/-- Settles O12: every field is the one that `State.reset` gives. -/
theorem resetRegisters : Obligations.ResetRegisters := by
  refine ⟨rfl, rfl, rfl, rfl, rfl, rfl, rfl, rfl, rfl, rfl, rfl, rfl, rfl, rfl, rfl, rfl, rfl, rfl, rfl, rfl, ?_, rfl⟩
  decide

/-- Settles O44: a row keeps the invariant because the operations it calls do (`exec_keeps`), and so does a tick. -/
theorem stepsKeepTheInvariant : Obligations.StepsKeepTheInvariant := by
  intro s t h hstep
  cases hp : s.pending with
  | nil =>
    rw [step_of_empty hp] at hstep
    cases hstep
    exact (kept_idle h.kept).invariant (Nat.le_refl 64)
  | cons c rest =>
    obtain ⟨u, hu, hkept⟩ := step_keeps h hp
    cases hu.symm.trans hstep
    exact hkept.invariant (Nat.le_refl 64)

/-- Settles O45 by `exec_next` for every state and `step_keeps` for those with the invariant. -/
theorem stepsGoOn : Obligations.StepsGoOn := by
  refine ⟨fun s => ?_, fun s c rest h hp => ?_, fun s hp => ?_⟩
  · unfold Completes
    cases hp : s.pending with
    | nil => exact ⟨_, step_of_empty hp⟩
    | cons c rest => exact step_of_pending hp ▸ exec_next c _
  · obtain ⟨t, ht, hkept⟩ := step_keeps h hp
    exact ⟨t, ht, hkept.queue, hkept.outs⟩
  · refine ⟨_, step_of_empty hp, ?_⟩
    unfold idle
    split
    · exact ⟨hp, rfl⟩
    · exact ⟨hp, rfl⟩

/-- Settles O46: every row but a power event is `live`. -/
theorem stoppedClocksStopEverything : Obligations.StoppedClocksStopEverything := by
  intro s c ha hpor hfall hwarm hsupply
  have hpower : isPowerEvent c = false := by
    cases c with
    | powerOnReset b => exact absurd rfl (hpor b)
    | pwrgdFall => exact absurd rfl hfall
    | warmReset => exact absurd rfl hwarm
    | supplySample r => exact absurd rfl (hsupply r)
    | _ => rfl
  obtain ⟨f, hf⟩ := exec_eq_live c hpower
  rw [hf, live_of_not_alive ha]

end Sys2Proof.Machine.Steps
end

section
/-! Proof of the statement about the shuffle (R93 to R95): the rounds of the network and their inverses, then walking a permutation of
a domain until it enters a part of it, and the statement from them. -/

namespace Sys2Proof.Machine

/-! ### The network (R94, R95) -/

section
variable (seed : Bytes) (h epoch : Nat)

/-- One round of E on the two halves. -/
def feistelRound (p : Nat × Nat) (i : Nat) : Nat × Nat := (p.2, p.1 ^^^ feistelF seed h epoch i p.2)

/-- One round of D on the two halves: it undoes the round of E with the same number. -/
def feistelUnround (p : Nat × Nat) (i : Nat) : Nat × Nat := (p.2 ^^^ feistelF seed h epoch i p.1, p.1)

/-- The number that two halves spell. -/
def joinHalves (p : Nat × Nat) : Nat := p.1 * 2 ^ h + p.2

/-- The two halves of a number. -/
def splitHalves (x : Nat) : Nat × Nat := (x / 2 ^ h, x % 2 ^ h)

/-- Both halves have h bits. -/
def HalvesFit (p : Nat × Nat) : Prop := p.1 < 2 ^ h ∧ p.2 < 2 ^ h

theorem feistelE_eq (x : Nat) :
    feistelE seed h epoch x = joinHalves h ((List.range 8).foldl (feistelRound seed h epoch) (splitHalves h x)) := rfl

theorem feistelD_eq (y : Nat) :
    feistelD seed h epoch y = joinHalves h ((List.range 8).reverse.foldl (feistelUnround seed h epoch) (splitHalves h y)) := by
  have hback : (List.range 8).reverse = (List.range 8).map (7 - ·) := by decide
  rw [hback, List.foldl_map]
  rfl

variable {seed h epoch}

theorem feistelF_lt (i r : Nat) : feistelF seed h epoch i r < 2 ^ h := Nat.mod_lt _ (Nat.two_pow_pos h)

theorem HalvesFit.round {p : Nat × Nat} (hp : HalvesFit h p) (i : Nat) : HalvesFit h (feistelRound seed h epoch p i) :=
  ⟨hp.2, Nat.xor_lt_two_pow hp.1 (feistelF_lt i _)⟩

theorem HalvesFit.unround {p : Nat × Nat} (hp : HalvesFit h p) (i : Nat) : HalvesFit h (feistelUnround seed h epoch p i) :=
  ⟨Nat.xor_lt_two_pow hp.2 (feistelF_lt i _), hp.1⟩

theorem feistelUnround_round (p : Nat × Nat) (i : Nat) :
    feistelUnround seed h epoch (feistelRound seed h epoch p i) i = p := by
  simp [feistelUnround, feistelRound]

theorem feistelRound_unround (p : Nat × Nat) (i : Nat) :
    feistelRound seed h epoch (feistelUnround seed h epoch p i) i = p := by
  simp [feistelUnround, feistelRound]

/-- Steps run backwards undo the steps, when each undoes its own. -/
theorem foldl_reverse_undoes {α β : Type} {f g : α → β → α} (hfg : ∀ p i, g (f p i) i = p) (l : List β) (p : α) :
    l.reverse.foldl g (l.foldl f p) = p := by
  induction l generalizing p with
  | nil => rfl
  | cons i l ih => rw [List.foldl_cons, List.reverse_cons, List.foldl_append, ih, List.foldl_cons, List.foldl_nil, hfg]

/-- Steps that each keep a property keep it together. -/
theorem foldl_preserves {α β : Type} {f : α → β → α} {P : α → Prop} (hf : ∀ p i, P p → P (f p i)) (l : List β) {p : α} (hp : P p) :
    P (l.foldl f p) := by
  induction l generalizing p with
  | nil => exact hp
  | cons i l ih => exact ih (hf p i hp)

theorem joinHalves_lt {p : Nat × Nat} (hp : HalvesFit h p) : joinHalves h p < 2 ^ (2 * h) := by
  obtain ⟨hl, hr⟩ := hp
  calc p.1 * 2 ^ h + p.2 < p.1 * 2 ^ h + 2 ^ h := Nat.add_lt_add_left hr _
    _ = (p.1 + 1) * 2 ^ h := by ring
    _ ≤ 2 ^ h * 2 ^ h := Nat.mul_le_mul_right _ hl
    _ = 2 ^ (2 * h) := by rw [two_mul, pow_add]

theorem splitHalves_fit {x : Nat} (hx : x < 2 ^ (2 * h)) : HalvesFit h (splitHalves h x) :=
  ⟨Nat.div_lt_of_lt_mul (by rwa [← pow_add, ← two_mul]), Nat.mod_lt _ (Nat.two_pow_pos h)⟩

theorem joinHalves_splitHalves (x : Nat) : joinHalves h (splitHalves h x) = x := Nat.div_add_mod' x (2 ^ h)

theorem splitHalves_joinHalves {p : Nat × Nat} (hp : p.2 < 2 ^ h) : splitHalves h (joinHalves h p) = p := by
  have hdiv : (p.1 * 2 ^ h + p.2) / 2 ^ h = p.1 := by
    rw [Nat.add_comm, Nat.add_mul_div_right _ _ (Nat.two_pow_pos h), Nat.div_eq_of_lt hp, Nat.zero_add]
  have hmod : (p.1 * 2 ^ h + p.2) % 2 ^ h = p.2 := by rw [Nat.mul_add_mod_self_right, Nat.mod_eq_of_lt hp]
  exact Prod.ext hdiv hmod

/-- The halves after all rounds of E still fit. -/
theorem rounds_fit {x : Nat} (hx : x < 2 ^ (2 * h)) :
    HalvesFit h ((List.range 8).foldl (feistelRound seed h epoch) (splitHalves h x)) :=
  foldl_preserves (fun _ i hp => hp.round i) _ (splitHalves_fit hx)

/-- The halves after all rounds of D still fit. -/
theorem unrounds_fit {y : Nat} (hy : y < 2 ^ (2 * h)) :
    HalvesFit h ((List.range 8).reverse.foldl (feistelUnround seed h epoch) (splitHalves h y)) :=
  foldl_preserves (fun _ i hp => hp.unround i) _ (splitHalves_fit hy)

end

/-- Two functions that map the numbers below N to themselves and undo each other there. -/
structure InverseOn (N : Nat) (f g : Nat → Nat) : Prop where
  lt_left : ∀ {x}, x < N → f x < N
  lt_right : ∀ {x}, x < N → g x < N
  left_inv : ∀ {x}, x < N → g (f x) = x
  right_inv : ∀ {x}, x < N → f (g x) = x

theorem InverseOn.symm {N : Nat} {f g : Nat → Nat} (h : InverseOn N f g) : InverseOn N g f :=
  ⟨h.lt_right, h.lt_left, h.right_inv, h.left_inv⟩

/-- The network and its inverse. -/
theorem feistel_inverseOn (seed : Bytes) (h epoch : Nat) :
    InverseOn (2 ^ (2 * h)) (feistelE seed h epoch) (feistelD seed h epoch) where
  lt_left hx := by
    rw [feistelE_eq]
    exact joinHalves_lt (rounds_fit hx)
  lt_right hy := by
    rw [feistelD_eq]
    exact joinHalves_lt (unrounds_fit hy)
  left_inv {x} hx := by
    rw [feistelE_eq, feistelD_eq, splitHalves_joinHalves (rounds_fit hx).2, foldl_reverse_undoes feistelUnround_round,
      joinHalves_splitHalves]
  right_inv {y} hy := by
    have hback := foldl_reverse_undoes (f := feistelUnround seed h epoch) feistelRound_unround (List.range 8).reverse (splitHalves h y)
    rw [List.reverse_reverse] at hback
    rw [feistelD_eq, feistelE_eq, splitHalves_joinHalves (unrounds_fit hy).2, hback, joinHalves_splitHalves]

/-! ### Walking a permutation (R95) -/

/-- The walk stops at the first place below n, if the fuel takes it there. -/
theorem cycleWalk_eq {f : Nat → Nat} {n j : Nat} {y : Nat} (hout : ∀ i < j, n ≤ f^[i] y) (hin : f^[j] y < n) {fuel : Nat}
    (hfuel : j ≤ fuel) : cycleWalk f n fuel y = f^[j] y := by
  induction j generalizing y fuel with
  | zero => cases fuel with
    | zero => rfl
    | succ fuel => rw [cycleWalk, if_pos (by simpa using hin)]; rfl
  | succ j ih => cases fuel with
    | zero => omega
    | succ fuel =>
      have hy : n ≤ y := hout 0 (Nat.succ_pos j)
      rw [cycleWalk, if_neg (Nat.not_lt.mpr hy), Function.iterate_succ_apply]
      exact ih (fun i hi => hout (i + 1) (Nat.succ_lt_succ hi)) hin (Nat.le_of_succ_le_succ hfuel)

/-- From p, the first return to the numbers below n takes k steps of f, and at most N. -/
structure FirstReturn (N n : Nat) (f : Nat → Nat) (p k : Nat) : Prop where
  pos : 1 ≤ k
  le : k ≤ N
  into : f^[k] p < n
  out : ∀ i, 1 ≤ i → i < k → n ≤ f^[i] p

/-- What the walk from f p finds. -/
theorem FirstReturn.walk {N n p k : Nat} {f : Nat → Nat} (hk : FirstReturn N n f p k) : cycleWalk f n N (f p) = f^[k] p := by
  have hsplit : ∀ i, f^[i] (f p) = f^[i + 1] p := fun i => (Function.iterate_succ_apply f i p).symm
  have hlast : f^[k - 1] (f p) = f^[k] p := by rw [hsplit, Nat.sub_add_cancel hk.pos]
  have hle := hk.le
  rw [← hlast]
  refine cycleWalk_eq (fun i hi => ?_) (hlast ▸ hk.into) (by omega)
  rw [hsplit]
  exact hk.out (i + 1) (Nat.succ_pos i) (by omega)

section
variable {N n : Nat} {f g : Nat → Nat}

theorem InverseOn.iterate_lt (h : InverseOn N f g) {x : Nat} (hx : x < N) (i : Nat) : f^[i] x < N := by
  induction i with
  | zero => exact hx
  | succ i ih => rw [Function.iterate_succ_apply']; exact h.lt_left ih

/-- i steps back from k steps on are k - i steps on. -/
theorem InverseOn.iterate_back (h : InverseOn N f g) {x i k : Nat} (hx : x < N) (hi : i ≤ k) : g^[i] (f^[k] x) = f^[k - i] x := by
  induction i with
  | zero => rfl
  | succ i ih =>
    obtain ⟨d, rfl⟩ := Nat.exists_eq_add_of_le hi
    have hstep : i + 1 + d - i = d + 1 := by omega
    rw [Function.iterate_succ_apply', ih (by omega), hstep, Function.iterate_succ_apply', h.left_inv (h.iterate_lt hx d),
      Nat.add_sub_cancel_left]

/-- A permutation of the numbers below N brings each of them back within N steps: among N + 1 places two are the same. -/
theorem InverseOn.returns (h : InverseOn N f g) {x : Nat} (hx : x < N) : ∃ k, 1 ≤ k ∧ k ≤ N ∧ f^[k] x = x := by
  obtain ⟨i, hi, j, hj, hij, hsame⟩ : ∃ i ∈ Finset.range (N + 1), ∃ j ∈ Finset.range (N + 1), i ≠ j ∧ f^[i] x = f^[j] x :=
    Finset.exists_ne_map_eq_of_card_lt_of_maps_to (t := Finset.range N) (by simp)
      fun i _ => Finset.mem_coe.mpr (Finset.mem_range.mpr (h.iterate_lt hx i))
  rw [Finset.mem_range] at hi hj
  have hback : ∀ {a b : Nat}, a < b → f^[a] x = f^[b] x → f^[b - a] x = x := fun {a b} hab heq => by
    rw [← h.iterate_back hx (Nat.le_of_lt hab), ← heq, h.iterate_back hx (Nat.le_refl a), Nat.sub_self]
    rfl
  rcases Nat.lt_or_gt_of_ne hij with hlt | hlt
  · exact ⟨j - i, by omega, by omega, hback hlt hsame⟩
  · exact ⟨i - j, by omega, by omega, hback hlt hsame.symm⟩

theorem InverseOn.firstReturn (h : InverseOn N f g) (hn : n ≤ N) {p : Nat} (hp : p < n) : ∃ k, FirstReturn N n f p k := by
  obtain ⟨m, hm, hmN, hback⟩ := h.returns (Nat.lt_of_lt_of_le hp hn)
  have hex : ∃ k, 1 ≤ k ∧ f^[k] p < n := ⟨m, hm, hback.symm ▸ hp⟩
  obtain ⟨hpos, hinto⟩ := Nat.find_spec hex
  refine ⟨Nat.find hex, hpos, ?_, hinto, fun i hi hlt => ?_⟩
  · exact Nat.le_trans (Nat.find_min' hex ⟨hm, hback.symm ▸ hp⟩) hmN
  · exact Nat.not_lt.mp fun hin => Nat.find_min hex hlt ⟨hi, hin⟩

/-- Back from where the first return ends, the first return ends at p. -/
theorem FirstReturn.back {p k : Nat} (h : InverseOn N f g) (hp : p < n) (hn : n ≤ N) (hk : FirstReturn N n f p k) :
    FirstReturn N n g (f^[k] p) k ∧ g^[k] (f^[k] p) = p := by
  have hpN := Nat.lt_of_lt_of_le hp hn
  have hend : g^[k] (f^[k] p) = p := by rw [h.iterate_back hpN (Nat.le_refl k), Nat.sub_self]; rfl
  refine ⟨⟨hk.pos, hk.le, hend.symm ▸ hp, fun i hi hlt => ?_⟩, hend⟩
  rw [h.iterate_back hpN (Nat.le_of_lt hlt)]
  exact hk.out (k - i) (by omega) (by omega)

/-- The walk of f stays below n, and the walk of g undoes it. -/
theorem InverseOn.walk (h : InverseOn N f g) (hn : n ≤ N) {p : Nat} (hp : p < n) :
    cycleWalk f n N (f p) < n ∧ cycleWalk g n N (g (cycleWalk f n N (f p))) = p := by
  obtain ⟨k, hk⟩ := h.firstReturn hn hp
  obtain ⟨hback, hend⟩ := hk.back h hp hn
  rw [hk.walk]
  exact ⟨hk.into, hback.walk.trans hend⟩

end

end Sys2Proof.Machine

/-! ### The statement -/

namespace Sys2Proof.Machine.ShuffleAndRandomness

/-- Settles O60: the network is a permutation of its domain, which holds the positions below n, and σ is its walk back below n. -/
theorem shuffleIsOneToOne : Obligations.ShuffleIsOneToOne := by
  refine ⟨fun seed h epoch x hx => ?_, fun seed n epoch _ hn => ?_⟩
  · have hinv := feistel_inverseOn seed h epoch
    exact ⟨hinv.lt_left hx, hinv.lt_right hx, hinv.left_inv hx, hinv.right_inv hx⟩
  · have hinv := feistel_inverseOn seed (halfWidth n) epoch
    have hdom : n ≤ 2 ^ (2 * halfWidth n) := le_two_pow_halfWidth (by omega)
    exact ⟨fun p hp => hinv.walk hdom hp, fun v hv => hinv.symm.walk hdom hv⟩

end Sys2Proof.Machine.ShuffleAndRandomness
end

section
/-! Proofs of the statements about the host interface (chapter 2) that say what registers, doorbells, fetches, completions and work slices
do, and when a part does not answer. First the rules that every row shares, then each operation, then the statements. -/

namespace Sys2Proof.Machine

/-! ### Rows and their conditions -/

section
variable {s : State} {f : State → State} {b : Bool}

theorem whenB_true : whenB true f s = f s := rfl

theorem live_whenB (ha : s.alive = true) (hb : b = true) : live (whenB b f) s = .next (f s) := by
  rw [live_of_alive ha, hb, whenB_true]

theorem live_whenB_false (hb : b = false) : live (whenB b f) s = .next s := by
  subst hb
  unfold live
  split
  · rfl
  · rfl

/-- A row whose effect is nothing answers the state as it is. -/
theorem live_of_idle (h : f s = s) : live f s = .next s := by
  unfold live
  split
  · rw [h]
  · rfl

end

/-- A row on BAR0 through any sub-link has its effect while the part answers. -/
theorem live_bar {s : State} {sub : Nat} (f : State → State) (h : BarAccess s sub) :
    live (whenB (s.barUp && decide (sub < s.sublinks)) f) s = .next (f s) :=
  live_whenB (alive_of_barUp h.1) (by simp [h.1, h.2])

/-- A ready sliced command that starts, or is taken up again, runs its operation with the handle used. -/
theorem live_runLong_of_enters {s : State} {op pair cid : Nat} {c : Cmd} {target check : Cmd → State → Nat} {l : LongOp}
    (f : LongOp → State → State) (h : Enters s op pair cid c (target c s) (check c s) l) :
    live (runLong op pair cid target check f) s = .next (f l (dropLong l.handle s)) := by
  obtain ⟨hready, henter⟩ := h
  unfold runLong
  rw [live_runCmd_of_ready _ hready]
  simp only [henter]

/-! ### A part that refuses commands (R64) -/

section
variable {s : State} {op pair cid : Nat} {c : Cmd} (f : Cmd → State → State)

theorem runCmd_of_fatal (hc : s.findCmd pair cid = some c) (hstart : s.mayStart c = true) (hfatal : s.ken.fatal = true)
    (hop : c.opcode = op) : runCmd op pair cid f s = refuse pair cid stPackageFatal s := by
  simp [runCmd, hc, hop, hstart, hfatal]

theorem runCmd_of_frozen (hc : s.findCmd pair cid = some c) (hstart : s.mayStart c = true) (hfatal : s.ken.fatal = false)
    (hfrozen : s.ken.frozen = true) (hserves : s.serves c.opcode c.entry = false) (hop : c.opcode = op) :
    runCmd op pair cid f s = refuse pair cid stFrozen s := by
  subst hop
  simp [runCmd, hc, hstart, hfatal, hfrozen, hserves]

end

/-! ### BAR0 (R33 to R37, R488) -/

section
variable {s : State}

theorem ctrlEnable_row (hup : s.barUp = true) (hen : s.ken.en = false) : exec (.ctrlEnable 0) s = .next (enable s) :=
  live_whenB (alive_of_barUp hup) (by simp [hup, hen])

theorem admDepthWrite_row (v : BitVec 32) (hup : s.barUp = true) :
    exec (.admDepthWrite 0 v) s = .next (admDepth 0x0018 v s) :=
  live_whenB (alive_of_barUp hup) (by simp [hup])

theorem controllerReset_row (hup : s.barUp = true) (hen : s.ken.en = true) :
    exec (.controllerReset 0) s = .next (controllerReset s) :=
  live_whenB (alive_of_barUp hup) (by simp [hup, hen])

/-- A 32-bit write at an aligned offset of sub-link 0, which every part has. -/
theorem registerWrite_row {off : Nat} (v : BitVec 64) (hup : s.barUp = true) (hsub : 0 < s.sublinks) (hoff : off % 4 = 0) :
    exec (.registerWrite 0 off 4 v) s = .next (regWrite 0 off off (v.setWidth 32) s) := by
  have hrow : exec (.registerWrite 0 off 4 v) s = .next (registerWrite 0 off 4 v s) := live_bar _ ⟨hup, hsub⟩
  rw [hrow, registerWrite, if_pos ⟨rfl, hoff⟩]

section
variable {v : BitVec 32}

theorem admDepth_accepted (hen : s.ken.en = false)
    (hin : ¬ (bits v.toNat 4 0 < 4 ∨ 16 < bits v.toNat 4 0 ∨ bits v.toNat 20 16 < 4 ∨ 16 < bits v.toNat 20 16)) (off : Nat) :
    admDepth off v s = { s with ken := { s.ken with admSqLog2 := bits v.toNat 4 0, admCqLog2 := bits v.toNat 20 16 } } := by
  unfold admDepth
  rw [if_neg (by simp [hen]), if_neg hin]

theorem admDepth_invalid (hen : s.ken.en = false)
    (hout : bits v.toNat 4 0 < 4 ∨ 16 < bits v.toNat 4 0 ∨ bits v.toNat 20 16 < 4 ∨ 16 < bits v.toNat 20 16) (off : Nat) :
    admDepth off v s = refuseWrite off stInvalidField s := by
  unfold admDepth
  rw [if_neg (by simp [hen]), if_pos hout]

theorem admDepth_busy (hen : s.ken.en = true) (off : Nat) : admDepth off v s = refuseWrite off stCfgBusy s := if_pos hen

theorem eventStatusWrite_empty (hev : s.ken.events = []) :
    eventStatusWrite v s = { s with ken := { s.ken with evStatus := s.ken.evStatus &&& ~~~ v.setWidth 5 } } := by
  simp [eventStatusWrite, hev]

theorem eventStatusWrite_queued (hev : s.ken.events ≠ []) :
    eventStatusWrite v s = { s with ken := { s.ken with
      evStatus := (s.ken.evStatus &&& ~~~ v.setWidth 5) ||| (s.ken.evStatus &&& evPending) } } := by
  simp [eventStatusWrite, hev]

/-- A write of the lower half of the submission ring's base, while CTRL.EN is 0. -/
theorem regWrite_sqBase (hen : s.ken.en = false) (at_ : Nat) :
    regWrite 0 at_ 0x0020 v s = { s with ken := { s.ken with admSqBase := baseHalf s.ken.admSqBase false v } } := by
  simp [regWrite, hen]

/-- A write of the lower half of the completion ring's base, while CTRL.EN is 1. -/
theorem regWrite_cqBase_busy (hen : s.ken.en = true) (at_ : Nat) :
    regWrite 0 at_ 0x0028 v s = refuseWrite at_ stCfgBusy s := by
  simp [regWrite, hen]

end

/-- A filter that keeps no entry of a key leaves it unlisted. -/
theorem tget_tfilter_none {α : Type} {t : Table α} {p : Nat → α → Bool} {n : Nat} (h : ∀ a, p n a = false) :
    tget (tfilter t p) n = none := by
  cases he : tget (tfilter t p) n with
  | none => rfl
  | some a =>
    have hkept := (mem_tfilter.mp (mem_of_tget he)).2
    rw [h a] at hkept
    cases hkept

/-- With no command to end, a controller reset ends the paused operations, the loads and every pair but pair 0. -/
theorem controllerReset_idle (hcmds : s.ken.cmds = []) :
    controllerReset s = { s with
      ken := { s.ken with en := false, rdy := false, longOps := [], rings := tfilter s.ken.rings fun k _ => k == 0 }
      cat := { s.cat with staged := [] } } := by
  simp [controllerReset, hcmds]

end

/-! ### Doorbells (R40, R41) -/

section
variable {s : State} {sub pair : Nat} {v : BitVec 32} {r : RingPair}

theorem tmod_of_tget {α : Type} {t : Table α} {n : Nat} {a : α} (h : tget t n = some a) (f : α → α) :
    tmod t n f = tput t n (f a) := by
  simp only [tmod, h]

theorem modRing_of_ring (hr : tget s.ken.rings pair = some r) (f : RingPair → RingPair) :
    modRing pair f s = { s with ken := { s.ken with rings := tput s.ken.rings pair (f r) } } := by
  rw [modRing, tmod_of_tget hr]

theorem stopRing_of_ring (hr : tget s.ken.rings pair = some r) (cause : Nat) :
    stopRing pair cause s =
      ringError pair cause { s with ken := { s.ken with rings := tput s.ken.rings pair { r with stopped := true } } } := by
  rw [stopRing, modRing_of_ring hr]

theorem sqTailWrite_inside (hr : tget s.ken.rings pair = some r) (hhit : s.doorbellHits sub pair = true) (hrun : r.stopped = false)
    (hv : v.toNat < 2 ^ r.sqLog2) : sqTailWrite sub pair v s = modRing pair (fun r => { r with sqTail := v.toNat }) s := by
  simp [sqTailWrite, hr, hhit, hrun, hv]

theorem sqTailWrite_beyond (hr : tget s.ken.rings pair = some r) (hhit : s.doorbellHits sub pair = true) (hrun : r.stopped = false)
    (hv : 2 ^ r.sqLog2 ≤ v.toNat) : sqTailWrite sub pair v s = stopRing pair 1 s := by
  simp [sqTailWrite, hr, hhit, hrun, Nat.not_lt.mpr hv]

theorem cqHeadWrite_inside (hr : tget s.ken.rings pair = some r) (hhit : s.doorbellHits sub pair = true)
    (hv : v.toNat < 2 ^ r.cqLog2) : cqHeadWrite sub pair v s = modRing pair (fun r => { r with cqHead := v.toNat }) s := by
  simp [cqHeadWrite, hr, hhit, hv]

theorem cqHeadWrite_beyond (hr : tget s.ken.rings pair = some r) (hhit : s.doorbellHits sub pair = true)
    (hv : 2 ^ r.cqLog2 ≤ v.toNat) : cqHeadWrite sub pair v s = stopRing pair 2 s := by
  simp [cqHeadWrite, hr, hhit, Nat.not_lt.mpr hv]

/-- A doorbell that does not reach its pair does nothing. -/
theorem doorbells_missed (hhit : s.doorbellHits sub pair = false) (v : BitVec 32) :
    exec (.sqTailDoorbell sub pair v) s = .next s ∧ exec (.cqHeadDoorbell sub pair v) s = .next s := by
  refine ⟨live_of_idle ?_, live_of_idle ?_⟩
  · unfold sqTailWrite
    split
    · rfl
    · simp [hhit]
  · unfold cqHeadWrite
    split
    · rfl
    · simp [hhit]

/-- A fetch that meets a PCIe error stops the pair. -/
theorem commandFetch_failed (hr : tget s.ken.rings pair = some r) (hf : s.canFetch pair r = true) (list data : Option Bytes) :
    commandFetch pair none list data s = stopRing pair 3 s := by
  simp [commandFetch, hr, hf]

/-- A completion whose write meets a PCIe error stops the pair. -/
theorem completionWrite_failed {cid : Nat} {c : Cmd} (hr : tget s.ken.rings pair = some r)
    (hc : s.completable pair cid r.fence = some c) (hs : r.stopped = false) (hf : r.cqFree ≠ 0) (hp : s.pcieClock = true) :
    completionWrite pair cid false s = stopRing pair 3 s := by
  simp [completionWrite, hr, hc, hs, hf, hp]

theorem coalesceTimer_fires (hr : tget s.ken.rings pair = some r) (hun : 0 < r.unsignalled) :
    coalesceTimer pair s = fireVector r.vector (modRing pair (fun r => { r with unsignalled := 0 }) s) := by
  simp [coalesceTimer, hr, hun]

/-- The end of a slice of a ready command whose operation may go on. -/
theorem workSliceEnd_slices {op cid units : Nat} {faults : List (Nat × WordFault)} {c : Cmd} {l : LongOp}
    (h : Enters s op pair cid c (sliceTarget op c s) (sliceCheck op c s) l) (hsliced : sliced op = true)
    (hland : (op ≠ 0x0307 ∧ op ≠ 0x0308) ∨ s.landing = true) :
    workSliceEnd pair cid units faults s = oneSlice units faults l (dropLong l.handle s) := by
  have hready := h.1
  obtain ⟨⟨-, hc, rfl, -⟩, henter⟩ := h
  have hroom : ((c.opcode == 0x0307 || c.opcode == 0x0308) && !s.landing) = false := by
    rcases hland with ⟨hfold, hrebuild⟩ | hland
    · simp [hfold, hrebuild]
    · simp [hland]
  simp only [workSliceEnd, hc, hsliced, Bool.not_true, Bool.false_eq_true, if_false, runCmd_of_ready _ hready, henter, hroom]

end

end Sys2Proof.Machine

/-! ### The statements -/

namespace Sys2Proof.Machine.HostInterface

/-- Settles O1: each write's row runs its register's operation, whose branches are the cases. -/
theorem barWritesTakeEffect : Obligations.BarWritesTakeEffect := by
  refine ⟨fun s hup hen hboot => ?_, fun s hup hen hboot => ?_, fun s v hup hen hsq hsq' hcq hcq' => ?_, fun s v hup hen => ?_,
    fun s v hup hen hout => ?_, fun s sub v hacc hev => ?_, fun s sub v hacc hev => ?_, fun s sub v hacc hfall => ?_,
    fun s sub v hacc hfall => ?_, fun s v hup hsub hen => ?_, fun s v hup hsub hen => ?_⟩
  · rw [ctrlEnable_row hup hen, enable, if_neg (by simp [hboot])]
  · rw [ctrlEnable_row hup hen, enable, if_pos hboot]
    rfl
  · rw [admDepthWrite_row v hup, admDepth_accepted hen (by omega)]
  · rw [admDepthWrite_row v hup, admDepth_busy hen]
    rfl
  · rw [admDepthWrite_row v hup, admDepth_invalid hen hout]
    rfl
  · exact (live_bar _ hacc).trans (congrArg _ (eventStatusWrite_empty hev))
  · exact (live_bar _ hacc).trans (congrArg _ (eventStatusWrite_queued hev))
  · exact (live_bar (eventMaskWrite v) hacc).trans (congrArg _ (if_pos hfall))
  · exact (live_bar (eventMaskWrite v) hacc).trans (congrArg _ (if_neg hfall))
  · rw [registerWrite_row v hup hsub rfl, regWrite_sqBase hen]
    rfl
  · rw [registerWrite_row v hup hsub rfl, regWrite_cqBase_busy hen]
    rfl

/-- Settles O3: the two rows run `refusalRead` and `ringErrorRead`, which are these updates. -/
theorem readsThatClear : Obligations.ReadsThatClear :=
  ⟨fun _ _ h => live_bar refusalRead h, fun _ _ h => live_bar ringErrorRead h⟩

/-- Settles O4: what a controller reset writes last is the same whatever the commands left. -/
theorem controllerResetEndsCommands : Obligations.ControllerResetEndsCommands := by
  refine ⟨fun s hup hen => ?_, fun s hup hen hcmds => ?_⟩
  · refine ⟨_, controllerReset_row hup hen, rfl, rfl, rfl, rfl, rfl, fun k hk => ?_⟩
    exact tget_tfilter_none (p := fun k _ => k == 0) fun _ => by simpa using hk
  · rw [controllerReset_row hup hen, controllerReset_idle hcmds]

/-- Settles O6: `runCmd` refuses before it looks at the command's own effect. -/
theorem stoppedPartRefuses : Obligations.StoppedPartRefuses := by
  refine ⟨fun s pair cid c ha hc hstart hfatal => ?_, fun s pair cid c ha hc hstart hfatal hfrozen hserves => ?_⟩
  · have hrow : ∀ {op : Nat} (f : Cmd → State → State), c.opcode = op →
        live (runCmd op pair cid f) s = .next (refuse pair cid stPackageFatal s) := fun f hop => by
      rw [live_of_alive ha, runCmd_of_fatal f hc hstart hfatal hop]
    exact ⟨hrow createRingPair, hrow catalogUnload, hrow pipelineStart, hrow writeCmd, hrow qpCreate, hrow unitRetire⟩
  · have hrow : ∀ {op : Nat} (f : Cmd → State → State), c.opcode = op →
        live (runCmd op pair cid f) s = .next (refuse pair cid stFrozen s) := fun f hop => by
      rw [live_of_alive ha, runCmd_of_frozen f hc hstart hfatal hfrozen hserves hop]
    exact ⟨hrow createRingPair, hrow catalogUnload, hrow pipelineStart, hrow writeCmd, hrow qpCreate, hrow unitRetire⟩

/-- Settles O7: each row runs its operation of a ring pair, whose branches are the cases. -/
theorem ringsMove : Obligations.RingsMove := by
  refine ⟨fun s sub pair v r ha hr hhit hrun hv => ?_, fun s sub pair v r ha hr hhit hrun hv => ?_,
    fun s sub pair v r ha hr hhit hv => ?_, fun s sub pair v r ha hr hhit hv => ?_, fun s pair e list data r ha hr hf => ?_,
    fun s pair list data r ha hr hf => ?_, fun s pair cid r c ha hr hc hs hfree hp => ?_,
    fun s pair cid r c ha hr hc hs hfree hp => ?_, fun s pair r ha hr hun => ?_,
    fun s op pair cid units faults c l h hsliced hland => ?_⟩
  · refine (live_of_alive ha).trans ?_
    rw [sqTailWrite_inside hr hhit hrun hv, modRing_of_ring hr]
  · refine (live_of_alive ha).trans ?_
    rw [sqTailWrite_beyond hr hhit hrun hv, stopRing_of_ring hr]
  · refine (live_of_alive ha).trans ?_
    rw [cqHeadWrite_inside hr hhit hv, modRing_of_ring hr]
  · refine (live_of_alive ha).trans ?_
    rw [cqHeadWrite_beyond hr hhit hv, stopRing_of_ring hr]
  · rw [exec_commandFetch, execCommandFetch_entry e list data ha hr hf, tmod_of_tget hr]
    rfl
  · exact (live_of_alive ha).trans (congrArg _ (commandFetch_failed hr hf list data))
  · exact (live_of_alive ha).trans (congrArg _ (completionWrite_of_ready hr hc hs hfree hp))
  · exact (live_of_alive ha).trans (congrArg _ (completionWrite_failed hr hc hs hfree hp))
  · refine (live_of_alive ha).trans ?_
    rw [coalesceTimer_fires hr hun, modRing_of_ring hr]
  · exact (live_of_alive h.1.1).trans (congrArg _ (workSliceEnd_slices h hsliced hland))

/-- Settles O47: each row is guarded by `State.barUp` and its sub-link, and a doorbell by `State.doorbellHits`. -/
theorem noAccessWithoutTheLink : Obligations.NoAccessWithoutTheLink := by
  refine ⟨fun s hup sub off size pair v w => ?_, fun s sub hsub off size v w => ?_, fun s sub hsub v => ?_,
    fun s sub pair hsub v => doorbells_missed (by simp [State.doorbellHits, hsub]) v⟩
  · exact ⟨live_whenB_false (by simp [hup]), live_whenB_false (by simp [hup]), live_whenB_false (by simp [hup]),
      live_whenB_false (by simp [hup]), live_whenB_false (by simp [hup]), live_whenB_false (by simp [hup]),
      live_whenB_false (by simp [hup]), live_whenB_false (by simp [hup]), live_whenB_false (by simp [hup]),
      doorbells_missed (by simp [State.doorbellHits, hup]) v⟩
  · have hno : ∀ f, live (whenB (s.barUp && decide (sub < s.sublinks)) f) s = .next s :=
      fun f => live_whenB_false (by simp [Nat.not_lt.mpr hsub])
    exact ⟨hno _, hno _, hno _, hno _, hno _, live_whenB_false (by simp [Nat.not_lt.mpr hsub])⟩
  · exact ⟨live_whenB_false (by simp [hsub]), live_whenB_false (by simp [hsub]), live_whenB_false (by simp [hsub])⟩

end Sys2Proof.Machine.HostInterface
end

section
/-! Proof of the statement about the boot stages (R460 to R464): the branches of `bootStageEnd`, what locking the PLLs changes, and the
statement from them. -/

namespace Sys2Proof.Machine

section
variable {s : State}

theorem bootStageEnd_row (ok : Bool) (cause : Nat) (failed : List Nat) (ha : s.alive = true) :
    exec (.bootStageEnd ok cause failed) s = .next (bootStageEnd ok cause failed s) := live_of_alive ha

/-! What follows a stage whose work has succeeded. -/

theorem bootStageEnd_early (cause : Nat) (failed : List Nat) (h : s.ken.bootStage = 1 ∨ s.ken.bootStage = 2 ∨ s.ken.bootStage = 3) :
    bootStageEnd true cause failed s = nextStage s := by
  rcases h with h | h | h <;> simp [bootStageEnd, h]

theorem bootStageEnd_plls (cause : Nat) (failed : List Nat) (h : s.ken.bootStage = 4) :
    bootStageEnd true cause failed s = nextStage (lockPlls s) := by simp [bootStageEnd, h]

theorem bootStageEnd_firmware (cause : Nat) (failed : List Nat) (h : s.ken.bootStage = 5) :
    bootStageEnd true cause failed s = loadFirmware s := by simp [bootStageEnd, h]

theorem bootStageEnd_stacks (cause : Nat) (failed : List Nat) (h : s.ken.bootStage = 6) :
    bootStageEnd true cause failed s = trainStacks failed s := by simp [bootStageEnd, h]

theorem bootStageEnd_marks (cause : Nat) (failed : List Nat) (h : s.ken.bootStage = 7) :
    bootStageEnd true cause failed s = reachStage8 s := by simp [bootStageEnd, h]

/-- A stage before the last whose work fails halts the boot, with a cause that it may find. -/
theorem bootStageEnd_fails {cause : Nat} (failed : List Nat) (hlo : 1 ≤ s.ken.bootStage) (hhi : s.ken.bootStage < 8)
    (hcause : cause ∈ stageHalts s.ken.bootStage) : bootStageEnd false cause failed s = haltBoot cause s := by
  unfold bootStageEnd
  rw [if_neg (by omega), if_neg (by omega), if_pos (by simp), if_pos hcause]

/-- At stage 8 the part counts as booted. -/
theorem bootStageEnd_last (ok : Bool) (cause : Nat) (failed : List Nat) (hst : s.ken.bootStage = 8) (hb : s.ken.booted = false) :
    bootStageEnd ok cause failed s = booted s := by
  unfold bootStageEnd
  rw [if_pos hst, if_neg (by simp [hb])]

end

/-! ### Locking the PLLs (R450) -/

/-- A state with other domains gated: all that gating changes. -/
def withGated (g : List Nat) (s : State) : State := { s with pow := { s.pow with gated := g } }

theorem gate_gates (k : Nat) (s : State) : k ∈ (gate k s).pow.gated := by
  show k ∈ if k ∈ s.pow.gated then s.pow.gated else s.pow.gated ++ [k]
  split
  · assumption
  · simp

theorem gate_keeps_gated {j : Nat} (k : Nat) {s : State} (h : j ∈ s.pow.gated) : j ∈ (gate k s).pow.gated := by
  show j ∈ if k ∈ s.pow.gated then s.pow.gated else s.pow.gated ++ [k]
  split
  · exact h
  · exact List.mem_append_left _ h

/-- Gating several domains gates each, keeps those gated, and changes nothing else. -/
theorem foldl_gate (ks : List Nat) (s : State) : ∃ g, ks.foldl (fun t k => gate k t) s = withGated g s ∧
    ∀ j, j ∈ ks ∨ j ∈ s.pow.gated → j ∈ g := by
  induction ks generalizing s with
  | nil => exact ⟨s.pow.gated, rfl, fun j hj => by simpa using hj⟩
  | cons k ks ih =>
    obtain ⟨g, hg, hin⟩ := ih (gate k s)
    refine ⟨g, hg, fun j hj => hin j ?_⟩
    rcases hj with hj | hj
    · rcases List.mem_cons.mp hj with rfl | hj
      · exact .inr (gate_gates j s)
      · exact .inl hj
    · exact .inr (gate_keeps_gated k hj)

/-- Every domain of the clusters switches when the PLLs lock. -/
theorem lockPlls_gates (s : State) : ∃ g, lockPlls s = withGated g s ∧ ∀ k, 16 ≤ k → k < 48 → k ∈ g := by
  obtain ⟨g, hg, hin⟩ := foldl_gate (((List.range 32).map fun k => 16 + k) ++ [66, 67, 68, 69, 70, 73]) s
  refine ⟨g, hg, fun k hlo hhi => hin k (.inl (List.mem_append_left _ ?_))⟩
  exact List.mem_map.mpr ⟨k - 16, List.mem_range.mpr (by omega), by omega⟩

/-! ### The last stages -/

/-- Stage 6 with every stack trained. -/
theorem trainStacks_all (s : State) : trainStacks [] s =
    if s.plainUnits 10 8 = 0 then haltBoot 6 { s with mem := { s.mem with words := [] } }
    else nextStage { s with mem := { s.mem with words := [] } } := rfl

/-- A logbook record changes the logbook's queues and its count of losses. -/
theorem logRecord_eq (type unit : Nat) (body : Bytes) (s : State) :
    ∃ f o, logRecord type unit body s = { s with fields := f, obs := o } := by
  unfold logRecord
  dsimp only
  split
  · exact ⟨_, _, rfl⟩
  · split
    · exact ⟨_, _, rfl⟩
    · split
      · exact ⟨_, _, rfl⟩
      · split
        · exact ⟨_, _, rfl⟩
        · exact ⟨_, _, rfl⟩

end Sys2Proof.Machine

/-! ### The statement -/

namespace Sys2Proof.Machine.BootAndPower

/-- Settles O14: the clauses are the branches of `bootStageEnd`, stage by stage. -/
theorem bootStagesAdvance : Obligations.BootStagesAdvance := by
  refine ⟨fun s cause failed ha hlo hhi => ?_, fun s cause failed ha hst => ?_, fun s cause failed ha hst => ?_,
    fun s cause ha hst => ?_, fun s cause failed ha hst => ?_, fun s cause failed ha hst hb hen => ?_,
    fun s cause failed ha hst hb hen => ?_, fun s cause failed ha hlo hhi hcause => ?_⟩
  · rw [bootStageEnd_row _ _ _ ha, bootStageEnd_early cause failed (by omega), nextStage]
  · obtain ⟨g, hg, hin⟩ := lockPlls_gates s
    rw [bootStageEnd_row _ _ _ ha, bootStageEnd_plls cause failed hst, hg]
    exact ⟨_, rfl, congrArg (· + 1) hst, rfl, rfl, congrArg (fun n => { s.ken with bootStage := n + 1 }) hst, hin⟩
  · rw [bootStageEnd_row _ _ _ ha, bootStageEnd_firmware cause failed hst, loadFirmware]
  · rw [bootStageEnd_row _ _ _ ha, bootStageEnd_stacks cause [] hst, trainStacks_all]
    refine ⟨_, rfl, ?_⟩
    split
    · exact ⟨rfl, rfl⟩
    · exact ⟨rfl, congrArg (· + 1) hst⟩
  · obtain ⟨f, o, hlog⟩ := logRecord_eq 0x0002 uPackage (State.bootBody _) _
    rw [bootStageEnd_row _ _ _ ha, bootStageEnd_marks cause failed hst, reachStage8, hlog]
    exact ⟨_, rfl, congrArg (· + 1) hst, tget_tput _ _ _, rfl⟩
  · rw [bootStageEnd_row _ _ _ ha, bootStageEnd_last true cause failed hst hb, booted, if_neg (by simp [hen])]
  · rw [bootStageEnd_row _ _ _ ha, bootStageEnd_last true cause failed hst hb, booted, if_pos hen]
    exact ⟨_, rfl, rfl, rfl, tget_tput _ _ _⟩
  · rw [bootStageEnd_row _ _ _ ha, bootStageEnd_fails failed hlo hhi hcause, haltBoot]

end Sys2Proof.Machine.BootAndPower
end

section
/-! Proof of the statement about the storage commands (chapter 12): what each accepted command does, and the statement from it. -/

namespace Sys2Proof.Machine

/-! ### Finished commands -/

/-- The command that has a pair and CMD_ID, once finished, has them no more. -/
theorem not_isOpen_finish (x : Cmd) (pair cid tb status result handle : Nat) :
    (x.finish tb status result handle).isOpen pair cid = false := by
  simp [Cmd.finish, Cmd.isOpen]

/-- No command is found after those found have been changed to ones that are not. -/
theorem findCmd_modCmds_none {pair cid : Nat} {f : Cmd → Cmd} (hf : ∀ x, (f x).isOpen pair cid = false) (s : State) :
    (modCmds (fun x => x.isOpen pair cid) f s).findCmd pair cid = none := by
  simp only [State.findCmd, modCmds, List.find?_eq_none, List.mem_map, forall_exists_index, and_imp]
  rintro y x - rfl
  by_cases hx : x.isOpen pair cid = true
  · simp [hx, hf x]
  · rw [if_neg hx]
    exact hx

@[simp] theorem findCmd_finishWith (pair cid status result handle : Nat) (s : State) :
    (finishWith pair cid status result handle s).findCmd pair cid = none :=
  findCmd_modCmds_none (fun x => not_isOpen_finish x _ _ _ _ _ _) s

@[simp] theorem findCmd_finish (pair cid status result : Nat) (s : State) :
    (finish pair cid status result s).findCmd pair cid = none := findCmd_finishWith _ _ _ _ _ s

@[simp] theorem findCmd_finishPlain (pair cid status : Nat) (s : State) :
    (finishPlain pair cid status s).findCmd pair cid = none :=
  findCmd_modCmds_none (fun x => not_isOpen_finish x _ _ _ _ _ _) s

/-! ### The storage commands, accepted (R286 to R290) -/

section
variable {s : State} {c : Cmd}

theorem readCmd_reads (hlo : c.count ≠ 0) (hhi : c.count ≤ 2048) (hvol : c.volume ≤ 127) (hres : c.p8 34 = 0)
    (hd : c.dataIs (c.count * 4096) = true) (hst : s.volStatus c.volume c.block c.count false = stOk) :
    readCmd true c s = if s.landing then replyStatus c true (s.readBlocks c.volume c.block c.count)
        (if (s.lostIn c.volume c.block c.count).isEmpty then stOk else stMediaError)
        ((s.lostIn c.volume c.block c.count).length + (s.lostIn c.volume c.block c.count).headD 0 * 2 ^ 32)
        (readRun c.volume c.block c.count s)
      else s := by
  unfold readCmd
  rw [if_neg (by simp [hlo, hres, hd]; omega)]
  cases hland : s.landing with
  | true => simp [hst]
  | false => simp [hst]

theorem writeCmd_accepts (hlo : c.count ≠ 0) (hhi : c.count ≤ 2048) (hvol : c.volume ≤ 127) (hcls : c.p8 34 ≤ 3)
    (hd : c.dataIs (c.count * 4096) = true) (hst : s.volStatus c.volume c.block c.count true = stOk) :
    writeCmd c s = withData c (fun _ => markRunning c.pair c.cid) s := by
  unfold writeCmd
  rw [if_neg (by simp [hlo, hd]; omega), hst, if_neg (by simp)]

theorem flashProgramComplete_last {pair cid : Nat}
    (hc : (s.ken.cmds.find? fun c => c.writing && c.pair == pair && c.cid == cid) = some c)
    (hroom : s.hostRoom c.volume c.count = true) :
    flashProgramComplete pair cid true s = finishPlain pair cid (if s.ken.fatal then stPackageFatal else stOk)
      (completeFlushes (writeBlocks c.volume (c.p8 34) c.block ((blocksOf (c.data.getD [])).take c.count) s)) := by
  simp [flashProgramComplete, hc, hroom]

theorem flashProgramComplete_waits {pair cid : Nat} {last : Bool}
    (hc : (s.ken.cmds.find? fun c => c.writing && c.pair == pair && c.cid == cid) = some c)
    (hnot : (last && s.hostRoom c.volume c.count) = false) : flashProgramComplete pair cid last s = s := by
  simp only [flashProgramComplete, hc, hnot, Bool.false_eq_true, if_false]

theorem flushCmd_starts (hst : s.volStatus c.volume 0 0 false = stOk) : flushCmd c s = completeFlushes
    (modCmds (fun x => x.isOpen c.pair c.cid) (fun x => { x with phase := .running, wait := s.unsettled c.volume }) s) := by
  unfold flushCmd
  rw [hst, if_neg (by simp)]

theorem trimCmd_trims (hlo : c.count ≠ 0) (hvol : c.volume ≤ 127) (hres : c.p8 34 = 0)
    (hst : s.volStatus c.volume c.block c.count true = stOk) :
    trimCmd c s = finishPlain c.pair c.cid stOk (trimRange c.volume c.block c.count s) := by
  unfold trimCmd
  rw [if_neg (by omega), hst, if_neg (by simp)]

theorem volumeCreate_creates {m : Magazine} (hvol : c.volume ≤ 127) (hbay : c.p8 34 ≤ 7) (hn : c.p64 40 ≠ 0)
    (hnew : thas s.flash.volumes c.volume = false) (hm : tget s.flash.magazines (c.p8 34) = some m) (hst : m.state = 3)
    (hcount : (s.volumesOn m.sn).length < 16)
    (hroom : ((tvals (s.volumesOn m.sn)).map Volume.blocks).sum + c.p64 40 ≤ m.userBlocks) :
    volumeCreate c s = finishPlain c.pair c.cid stOk { s with flash := { s.flash with
      volumes := tput s.flash.volumes c.volume { sn := m.sn, bay := c.p8 34, blocks := c.p64 40, readOnly := false } } } := by
  unfold volumeCreate
  rw [if_neg (by omega), if_neg (by simp [hnew]), hm]
  dsimp only
  rw [if_neg (by omega), if_neg (by omega)]

/-- A state without a volume: what an accepted VOLUME_DELETE leaves before its completion. -/
def removeVolume (volume blocks : Nat) (s : State) : State :=
  { trimRange volume 0 blocks s with
    flash := { (trimRange volume 0 blocks s).flash with volumes := tdel s.flash.volumes volume }
    cat := { s.cat with reels := tfilter s.cat.reels fun k _ => k / 2 ^ 32 != volume } }

theorem volumeDelete_removes {v : Volume} (hv : tget s.flash.volumes c.volume = some v) (hbusy : s.volumeBusy c c.volume = false)
    (hopen : s.openReels c.volume = false) (hruns : s.runsOnVolume c.volume = false) :
    volumeDelete c s = finishPlain c.pair c.cid stOk (removeVolume c.volume v.blocks s) := by
  simp only [volumeDelete, hv, hbusy, hopen, hruns, Bool.or_false, Bool.false_eq_true, if_false]
  rfl

theorem removeVolume_reels {volume blocks k : Nat} {r : Reel} (h : (k, r) ∈ (removeVolume volume blocks s).cat.reels) :
    k / 2 ^ 32 ≠ volume := by
  have hm : (k, r) ∈ tfilter s.cat.reels (fun k _ => k / 2 ^ 32 != volume) := h
  obtain ⟨-, hkept⟩ := mem_tfilter.mp hm
  exact bne_iff_ne.mp hkept

end

end Sys2Proof.Machine

/-! ### The statement -/

namespace Sys2Proof.Machine.FlashMedia

/-- Settles O17: the row of each command, once ready, runs the command's operation, which passes its checks. -/
theorem storageCommandsWork : Obligations.StorageCommandsWork := by
  refine ⟨fun s pair cid c h hlo hhi hvol hres hd hst => ?_, fun s pair cid c d h hlo hhi hvol hcls hd hst => ?_,
    fun s pair cid c ha hc => ⟨fun hroom hfatal => ?_, fun hroom => ?_, ?_⟩, fun s pair cid c h hst => ?_,
    fun s pair cid c h hlo hvol hres hst => ?_, fun s pair cid c m h hvol hbay hn hnew hm hst hcount hroom => ?_,
    fun s pair cid c v h hv hbusy hopen hruns => ?_⟩
  · rw [exec_read, execRead, live_runCmd_of_ready _ h, readCmd_reads hlo hhi hvol hres hd hst]
    refine ⟨fun hland u hu => ?_, fun hland => ?_⟩
    · subst hu
      rw [if_pos hland]
      rfl
    · rw [if_neg (by simp [hland])]
  · rw [exec_write, execWrite, live_runCmd_of_ready _ h, writeCmd_accepts hlo hhi hvol hcls hd hst]
    refine ⟨fun hdata => ?_, fun hdata => ?_⟩
    · simp only [withData, hdata]
    · simp only [withData, hdata]
  · refine (live_of_alive ha).trans (congrArg _ ?_)
    rw [flashProgramComplete_last hc hroom, if_neg (by simp [hfatal])]
  · exact (live_of_alive ha).trans (congrArg _ (flashProgramComplete_waits hc (by simp [hroom])))
  · exact (live_of_alive ha).trans (congrArg _ (flashProgramComplete_waits hc rfl))
  · exact (live_runCmd_of_ready flushCmd h).trans (congrArg _ (flushCmd_starts hst))
  · exact (live_runCmd_of_ready trimCmd h).trans (congrArg _ (trimCmd_trims hlo hvol hres hst))
  · exact (live_runCmd_of_ready volumeCreate h).trans
      (congrArg _ (volumeCreate_creates hvol hbay hn hnew hm hst hcount hroom))
  · obtain ⟨rfl, rfl⟩ := ids_of_ready h
    refine ⟨_, (live_runCmd_of_ready volumeDelete h).trans (congrArg _ (volumeDelete_removes hv hbusy hopen hruns)), ?_⟩
    exact ⟨tget_tdel _ _, fun k r hm => removeVolume_reels (s := s) (blocks := v.blocks) hm, rfl, findCmd_finishPlain _ _ _ _⟩

end Sys2Proof.Machine.FlashMedia
end

section
/-! What reporting leaves alone. Outputs, counters, events, completions, logbook and trace records, error records, leaving and entering
service: none of them touches the queue, the timebase, or what a chapter's own operations work on. One lemma for each. -/

namespace Sys2Proof.Machine

/-- The parts of a state that no report touches. -/
structure Work where
  pending : List Instr
  tb : Nat
  cat : CatalogState
  pipes : Table Pipeline
  slots : Slots
  eng : Engines
  mem : StackMem
  pool : Pool
  flash : Flash
  fab : Fabric
  rdma : Rdma
  shaper : Shaper
  lock : Table Lockstep
  clap : Clapper

/-- Those parts of a state. -/
def State.work (s : State) : Work where
  pending := s.pending
  tb := s.tb
  cat := s.cat
  pipes := s.pipes
  slots := s.slots
  eng := s.eng
  mem := s.mem
  pool := s.pool
  flash := s.flash
  fab := s.fab
  rdma := s.rdma
  shaper := s.shaper
  lock := s.lock
  clap := s.clap

section
variable {s t : State} (h : t.work = s.work)
include h

theorem cat_of_work : t.cat = s.cat := congrArg Work.cat h
theorem pipes_of_work : t.pipes = s.pipes := congrArg Work.pipes h
theorem eng_of_work : t.eng = s.eng := congrArg Work.eng h
theorem mem_of_work : t.mem = s.mem := congrArg Work.mem h
theorem pool_of_work : t.pool = s.pool := congrArg Work.pool h
theorem flash_of_work : t.flash = s.flash := congrArg Work.flash h
theorem rdma_of_work : t.rdma = s.rdma := congrArg Work.rdma h
theorem shaper_of_work : t.shaper = s.shaper := congrArg Work.shaper h

end

section
variable (s : State)

/-! ### Outputs, counters and commands -/

@[simp] theorem emit_work (o : Output) : (emit o s).work = s.work := rfl
@[simp] theorem emits_work (os : List Output) : (emits os s).work = s.work := rfl
@[simp] theorem tickFree_work : (tickFree s).work = s.work := rfl
@[simp] theorem setRaw_work (b i n v : Nat) : (setRaw b i n v s).work = s.work := rfl
@[simp] theorem bumpBy_work (b i n v : Nat) : (bumpBy b i n v s).work = s.work := rfl
@[simp] theorem bump_work (b i n : Nat) : (bump b i n s).work = s.work := rfl
@[simp] theorem modCmds_work (p : Cmd → Bool) (f : Cmd → Cmd) : (modCmds p f s).work = s.work := rfl
@[simp] theorem finishWith_work (pair cid st r hd : Nat) : (finishWith pair cid st r hd s).work = s.work := rfl
@[simp] theorem finish_work (pair cid st r : Nat) : (finish pair cid st r s).work = s.work := rfl
@[simp] theorem finishPlain_work (pair cid st : Nat) : (finishPlain pair cid st s).work = s.work := rfl
@[simp] theorem refuse_work (pair cid st : Nat) : (refuse pair cid st s).work = s.work := rfl
@[simp] theorem markRunning_work (pair cid : Nat) : (markRunning pair cid s).work = s.work := rfl
@[simp] theorem dropLong_work (hd : Nat) : (dropLong hd s).work = s.work := rfl
@[simp] theorem pauseLong_work (l : LongOp) (r : Nat) : (pauseLong l r s).work = s.work := rfl

/-! ### Events -/

@[simp] theorem fireVector_work (v : Nat) : (fireVector v s).work = s.work := by
  unfold fireVector
  split
  · rfl
  · split
    · rfl
    · rfl

@[simp] theorem signalEv_work (m : BitVec 5) : (signalEv m s).work = s.work := by
  unfold signalEv
  dsimp only
  split
  · rfl
  · exact fireVector_work _ 0

@[simp] theorem raiseEvent_work (code unit detail : Nat) : (raiseEvent code unit detail s).work = s.work := by
  unfold raiseEvent
  dsimp only
  split
  · rfl
  · split
    · exact signalEv_work _ _
    · exact signalEv_work _ _

/-! ### Records -/

@[simp] theorem logRecord_work (type unit : Nat) (body : Bytes) : (logRecord type unit body s).work = s.work := by
  obtain ⟨f, o, h⟩ := logRecord_eq type unit body s
  rw [h]
  rfl

@[simp] theorem traceRecord_work (type unit pipeline stage op : Nat) (body : Bytes) :
    (traceRecord type unit pipeline stage op body s).work = s.work := by
  unfold traceRecord
  dsimp only
  split
  · split
    · rfl
    · rfl
  · rfl

@[simp] theorem serviceEvent_work (u : Nat) : (serviceEvent u s).work = s.work := by
  unfold serviceEvent
  split
  · exact raiseEvent_work s _ _ _
  · rfl

@[simp] theorem leaveService_work (u : Nat) : (leaveService u s).work = s.work := by
  unfold leaveService
  split
  · rfl
  · exact serviceEvent_work _ u

@[simp] theorem countRecord_work (u : Nat) : (countRecord u s).work = s.work := by
  unfold countRecord
  split
  · exact logRecord_work s _ _ _
  · rfl

@[simp] theorem departService_work (u : Nat) : (departService u s).work = s.work := by
  unfold departService
  split
  · rfl
  · simp

@[simp] theorem enterService_work (u : Nat) : (enterService u s).work = s.work := by
  unfold enterService
  split
  · rw [countRecord_work, serviceEvent_work]
    rfl
  · rfl

@[simp] theorem discardErr_work (die : Nat) : (discardErr die s).work = s.work := by
  unfold discardErr
  dsimp only
  split
  · rw [raiseEvent_work, signalEv_work]
    rfl
  · rfl

@[simp] theorem placeRecord_work (die : Nat) (a : ErrArgs) : (placeRecord die a s).work = s.work := by
  unfold placeRecord
  dsimp only
  split
  · rfl
  · split
    · exact discardErr_work s die
    · exact discardErr_work s die

@[simp] theorem packageFatal_work (die cause : Nat) : (packageFatal die cause s).work = s.work := by
  have hlast : ∀ t : State, (if cause = 0x0605 then stopClocks t else t).work = t.work := fun t => by
    split
    · rfl
    · rfl
  unfold packageFatal
  dsimp only
  split
  · rfl
  · rw [hlast, emit_work, signalEv_work]
    rfl

@[simp] theorem classAction_work (die : Nat) (a : ErrArgs) (body : Bytes) : (classAction die a body s).work = s.work := by
  unfold classAction
  dsimp only
  split_ifs <;> simp

@[simp] theorem bumpClass_work (die cls : Nat) : (bumpClass die cls s).work = s.work := by
  unfold bumpClass
  split_ifs <;> rfl

@[simp] theorem recordErrOn_work (die : Nat) (a : ErrArgs) : (recordErrOn die a s).work = s.work := by
  unfold recordErrOn
  dsimp only
  split
  · split
    · have hmerged : ∀ (r : ErrRing) (t : State), t.work = s.work →
          State.work { t with errs := tput t.errs die r } = s.work := fun _ _ h => h
      split
      · rw [classAction_work, traceRecord_work]
        exact hmerged _ _ (bumpClass_work s die a.cls)
      · rw [traceRecord_work]
        exact hmerged _ _ (bumpClass_work s die a.cls)
    · exact bumpClass_work s die a.cls
  · simp

@[simp] theorem recordErr_work (a : ErrArgs) : (recordErr a s).work = s.work := recordErrOn_work s _ a

end

end Sys2Proof.Machine
end

section
/-! Proof of the statement about the commands that only read: each either leaves the node, sends data out, or changes the command that has
its pair and CMD_ID; and these three keep the frame of the statement. -/

namespace Sys2Proof.Machine

/-- A state that differs by outputs and by the outstanding command with a pair and CMD_ID alone. -/
def Answered (pair cid : Nat) (s t : State) : Prop :=
  (∃ x o, t = { s with
    out := s.out ++ o
    ken := { s.ken with cmds := x } }) ∧ t.ken.cmds.length = s.ken.cmds.length ∧
    ∀ x ∈ s.ken.cmds, x.isOpen pair cid = false → x ∈ t.ken.cmds

section
variable {s t : State} {pair cid : Nat}

theorem Answered.refl (pair cid : Nat) (s : State) : Answered pair cid s s :=
  ⟨⟨s.ken.cmds, [], by simp⟩, rfl, fun _ hx _ => hx⟩

theorem Answered.emits (os : List Output) (h : Answered pair cid s t) : Answered pair cid s (emits os t) := by
  obtain ⟨⟨x, o, rfl⟩, hlen, hkept⟩ := h
  exact ⟨⟨x, o ++ os, by simp [Machine.emits]⟩, hlen, hkept⟩

theorem Answered.modCmds (f : Cmd → Cmd) (h : Answered pair cid s t) :
    Answered pair cid s (modCmds (fun c => c.isOpen pair cid) f t) := by
  obtain ⟨⟨x, o, ht⟩, hlen, hkept⟩ := h
  refine ⟨⟨_, o, by rw [ht]; rfl⟩, by simpa [Machine.modCmds] using hlen, fun y hy hclosed => ?_⟩
  exact List.mem_map.mpr ⟨y, hkept y hy hclosed, by simp [hclosed]⟩

theorem Answered.finish (status result : Nat) (h : Answered pair cid s t) : Answered pair cid s (finish pair cid status result t) :=
  h.modCmds _

theorem answered_refuse (pair cid status : Nat) (s : State) : Answered pair cid s (refuse pair cid status s) :=
  (Answered.refl pair cid s).modCmds _

theorem answered_replyData (c : Cmd) (pcieOk : Bool) (bs : Bytes) (result : Nat) (s : State) :
    Answered c.pair c.cid s (replyData c pcieOk bs result id s) := by
  unfold replyData
  split
  · exact ((Answered.refl c.pair c.cid s).emits _).finish _ _
  · exact answered_refuse _ _ _ s

theorem answered_replyStatus (c : Cmd) (pcieOk : Bool) (bs : Bytes) (status result : Nat) (h : Answered c.pair c.cid s t) :
    Answered c.pair c.cid s (replyStatus c pcieOk bs status result t) := by
  unfold replyStatus
  split
  · exact (h.emits _).finish _ _
  · exact h.modCmds _

/-! ### The reading commands -/

theorem answered_flashReads (keys : List Nat) (h : Answered pair cid s t) : Answered pair cid s (flashReads keys t) := by
  unfold flashReads
  refine List.foldlRecOn keys _ h fun u hu key _ => ?_
  split
  · exact hu
  · split
    · split
      · exact hu
      · exact hu.emits _
    · exact hu

theorem answered_identify (pcieOk : Bool) (c : Cmd) (s : State) : Answered c.pair c.cid s (identify pcieOk c s) := by
  unfold identify
  split
  · exact answered_replyData _ _ _ _ s
  · exact answered_refuse _ _ _ s

theorem answered_readCmd (pcieOk : Bool) (c : Cmd) (s : State) : Answered c.pair c.cid s (readCmd pcieOk c s) := by
  unfold readCmd
  split
  · exact answered_refuse _ _ _ s
  · dsimp only
    split
    · exact answered_refuse _ _ _ s
    · split
      · exact .refl _ _ s
      · exact answered_replyStatus _ _ _ _ _ (answered_flashReads _ (.refl _ _ s))

theorem answered_wearReport (pcieOk : Bool) (c : Cmd) (s : State) : Answered c.pair c.cid s (wearReport pcieOk c s) := by
  unfold wearReport
  split
  · split
    · exact answered_replyData _ _ _ _ s
    · exact answered_refuse _ _ _ s
  · split
    · exact answered_refuse _ _ _ s
    · exact answered_replyData _ _ _ _ s

theorem answered_qpQuery (pcieOk : Bool) (c : Cmd) (s : State) :
    Answered c.pair c.cid s (qpModify 3 (fun c _ q t => replyData c pcieOk q.query c.plainResult id t) c s) := by
  unfold qpModify
  dsimp only
  split
  · exact answered_refuse _ _ _ s
  · split
    · exact .refl _ _ s
    · split
      · exact answered_refuse _ _ _ s
      · split
        · exact answered_refuse _ _ _ s
        · exact answered_replyData _ _ _ _ s

theorem answered_attestReport (pcieOk : Bool) (c : Cmd) (s : State) : Answered c.pair c.cid s (attestReport pcieOk c s) := by
  unfold attestReport
  split
  · exact answered_refuse _ _ _ s
  · exact answered_replyData _ _ _ _ s

theorem answered_certRead (pcieOk : Bool) (c : Cmd) (s : State) : Answered c.pair c.cid s (certRead pcieOk c s) := by
  unfold certRead
  split
  · exact answered_refuse _ _ _ s
  · split
    · exact answered_refuse _ _ _ s
    · exact answered_replyData _ _ _ _ s

/-- A command's row keeps the frame when the command's operation does, whether the command runs, is refused or may not start. -/
theorem answered_live_runCmd {op : Nat} {f : Cmd → State → State} (hf : ∀ c u, Answered c.pair c.cid u (f c u))
    (h : live (runCmd op pair cid f) s = .next t) : Answered pair cid s t := by
  unfold live at h
  split at h
  · cases h
    obtain hr | hr | hr | ⟨c, hc, -, -, hr⟩ := runCmd_cases op pair cid f s
    · rw [hr]
      exact .refl pair cid s
    · rw [hr]
      exact answered_refuse _ _ _ s
    · rw [hr]
      exact answered_refuse _ _ _ s
    · obtain ⟨rfl, rfl, -⟩ := findCmd_ids s hc
      rw [hr]
      exact hf c s
  · cases h
    exact .refl pair cid s

end

end Sys2Proof.Machine

/-! ### The statement -/

namespace Sys2Proof.Machine.Readers

/-- Settles O49: each of the six rows runs an operation that sends data out and changes its own command alone. -/
theorem readersChangeNothing : Obligations.ReadersChangeNothing := by
  intro s t pair cid ok c hc h
  simp only [List.mem_cons, List.not_mem_nil, or_false] at hc
  obtain rfl | rfl | rfl | rfl | rfl | rfl := hc
  · exact answered_live_runCmd (answered_identify ok) h
  · exact answered_live_runCmd (answered_readCmd ok) h
  · exact answered_live_runCmd (answered_wearReport ok) h
  · exact answered_live_runCmd (answered_qpQuery ok) h
  · exact answered_live_runCmd (answered_attestReport ok) h
  · exact answered_live_runCmd (answered_certRead ok) h

end Sys2Proof.Machine.Readers
end

section
/-! Proofs of the statements about the engine operators: each operator's row runs the current entry and completes it, and an operator that
only computes changes its own queue and the merge buffer of its engine alone. -/

namespace Sys2Proof.Machine

section
variable {s t : State} {k op : Nat} {e : Entry} {p : Pipeline} {x : Sample}

/-! ### The row of an operator (R122) -/

/-- A part that goes on runs an effect that it holds back from a stopped or frozen one. -/
theorem live_going {f : State → State} (ha : s.alive = true) (hg : s.going = true) : live (whenB s.going f) s = .next (f s) :=
  (live_of_alive ha).trans (by simp [whenB, hg])

/-- No entry of the queue waits for a sink, as `runEntry` and as `runSink` ask it. -/
theorem sinkWait_all (h : ∀ w ∈ s.eng.sinkWait, w.1 ≠ k) : (s.eng.sinkWait.all fun w => w.1 != k) = true :=
  List.all_eq_true.mpr fun w hw => bne_iff_ne.mpr (h w hw)

theorem sinkWait_any (h : ∀ w ∈ s.eng.sinkWait, w.1 ≠ k) : (s.eng.sinkWait.any fun w => w.1 == k) = false :=
  List.any_eq_false.mpr fun w hw => by simpa using h w hw

theorem runEntry_of_runs {f : Entry → Pipeline → Sample → State → Completion × State} (h : Runs s k op e p x) :
    runEntry op k f s = completeEntry k e (f e p x s).1 (f e p x s).2 := by
  obtain ⟨-, -, hcur, hop, hmem, hwait, hx, hp⟩ := h
  simp only [runEntry, hcur]
  rw [if_pos ⟨hop, by simp [hmem], sinkWait_all hwait⟩, hx, hp]

theorem live_runEntry_of_runs (f : Entry → Pipeline → Sample → State → Completion × State) (h : Runs s k op e p x) :
    live (whenB s.going (runEntry op k f)) s = .next (completeEntry k e (f e p x s).1 (f e p x s).2) :=
  (live_going h.1 h.2.1).trans (congrArg _ (runEntry_of_runs h))

theorem live_runPure_of_runs (f : Entry → Pipeline → Sample → State → Completion) (h : Runs s k op e p x) :
    live (runPure op k f) s = .next (completeEntry k e (f e p x s) s) :=
  by
  refine (live_of_alive h.1).trans (congrArg _ ?_)
  rw [runPure, h.2.1, whenB_true, runEntry_of_runs h]

/-! ### Operators with a sink (R262, R437) -/

variable {f : Entry → Pipeline → Sample → List Bytes × Completion} {pcieOk : Bool}

/-- A sink operator that has nothing to write completes its entry. -/
theorem runSink_empty (h : Runs s k op e p x) (hok : sinkKey e.pipeline e.instance_ ∉ s.eng.sinkFailed)
    (hnone : (f e p x).1 = []) : runSink op k pcieOk f s = completeEntry k e (f e p x).2 s := by
  obtain ⟨-, -, hcur, hop, hmem, hwait, hx, hp⟩ := h
  simp only [runSink, hcur]
  rw [if_neg (by simp [hop, hmem, sinkWait_any hwait]), hx, hp]
  dsimp only
  rw [if_neg hok, if_pos (by simp [hnone])]

/-- A sink operator with one entry writes it, where the ring has room, and completes. -/
theorem runSink_writes {w b : Bytes} (h : Runs s k op e p x) (hb : b = p.decl.paramsAt e.instance_)
    (hok : sinkKey e.pipeline e.instance_ ∉ s.eng.sinkFailed)
    (hroom : s.sinkFull (sinkKey e.pipeline e.instance_) b = false) (hone : (f e p x).1 = [w]) (hcode : (f e p x).2.code = 0) :
    runSink op k true f s = completeEntry k e (f e p x).2 (writeSink (sinkKey e.pipeline e.instance_) b w s) := by
  obtain ⟨-, -, hcur, hop, hmem, hwait, hx, hp⟩ := h
  subst hb
  have hfree := sinkWait_any hwait
  simp only [runSink, hcur]
  rw [if_neg (by simp [hop, hmem, hfree]), hx, hp]
  dsimp only
  rw [if_neg hok, if_neg (by simp [hone, hcode]), if_neg (by simp), hone]
  simp only [List.foldl_cons, List.foldl_nil, hroom, hfree, Bool.false_eq_true, or_self, if_false]
  exact if_neg (by simp [writeSink, hfree])

/-- Within its budget, an entry completes as it would without one. -/
theorem within_of_le {work : Nat} (c : Completion) (h : e.budget = 0 ∨ work ≤ e.budget) : e.within work c = c :=
  if_neg (by omega)

/-! ### What writing out a merge buffer changes (R252) -/

theorem storeModify_eq (u w : Nat) (bytes : List (Option Byte)) (s : State) :
    ∃ v, (storeModify false u w bytes s).1 = setStoreWord false u w v s := by
  unfold storeModify
  split
  · exact ⟨_, rfl⟩
  · exact ⟨_, rfl⟩

/-- Entries that are written out change their words of the operand store alone. -/
theorem writeOut_eq (u : Nat) (l : List MergeEntry) (s : State) :
    ∃ o, (writeOut u l s).1 = modStores (fun m => { m with operand := o }) s ∧
      ∀ x, (∀ e ∈ l, x ≠ u * 2 ^ 32 + e.word) → tget o x = tget s.mem.stores.operand x := by
  induction l generalizing s with
  | nil => exact ⟨s.mem.stores.operand, rfl, fun _ _ => rfl⟩
  | cons e l ih =>
    obtain ⟨v, hv⟩ := storeModify_eq u e.word e.bytes s
    obtain ⟨o, ho, hkept⟩ := ih (setStoreWord false u e.word v s)
    refine ⟨o, by simp only [writeOut, hv, ho]; rfl, fun x hx => ?_⟩
    calc tget o x = tget (tput s.mem.stores.operand (u * 2 ^ 32 + e.word) v) x :=
          hkept x fun d hd => hx d (List.mem_cons_of_mem _ hd)
      _ = tget s.mem.stores.operand x := tget_tput_other _ _ (hx e List.mem_cons_self)

/-- The stores once the merge buffer of queue `k` is written out: its entries alone are gone, and only the operand words they name may
have changed. -/
def Settled (k : Nat) (s : State) (m : Stores) : Prop :=
  m.cluster = s.mem.stores.cluster ∧ (∀ j, j ≠ k → tget m.merge j = tget s.mem.stores.merge j) ∧
    (storeUnit false k ≠ none → tgetD m.merge k [] = []) ∧
    ∀ x, (∀ u e, storeUnit false k = some u → e ∈ s.merging k → x ≠ u * 2 ^ 32 + e.word) →
      tget m.operand x = tget s.mem.stores.operand x

theorem settled_self (h : storeUnit false k = none ∨ s.merging k = []) : Settled k s s.mem.stores :=
  ⟨rfl, fun _ _ => rfl, fun hunit => h.resolve_left hunit, fun _ _ => rfl⟩

theorem settleMerge_eq (k : Nat) (s : State) :
    ∃ m, (settleMerge k s).1 = { s with mem := { s.mem with stores := m } } ∧ Settled k s m := by
  unfold settleMerge
  cases hunit : storeUnit false k with
  | none => exact ⟨s.mem.stores, rfl, settled_self (.inl hunit)⟩
  | some u =>
    cases hm : (s.merging k).isEmpty with
    | true => exact ⟨s.mem.stores, rfl, settled_self (.inr (List.isEmpty_iff.mp hm))⟩
    | false =>
      obtain ⟨o, ho, hkept⟩ := writeOut_eq u ((s.merging k).filter fun _ => true) (setMerging k [] s)
      refine ⟨{ s.mem.stores with operand := o, merge := tdel s.mem.stores.merge k }, ?_, rfl,
        fun j hj => tget_tdel_other _ hj, fun _ => by simp [tgetD, tget_tdel], fun x hx => hkept x fun e he => ?_⟩
      · dsimp only
        rw [if_neg (by simp), flushMerge, show (s.merging k).filter (fun _ => !true) = [] by simp, ho]
        rfl
      · exact hx u e hunit (List.mem_filter.mp he).1

/-! ### What an operator that only computes changes -/

/-- Nothing happens, or the engine writes out its merge buffer and then one completion of its queue, or an engine fault. -/
def OwnQueueOnly (k : Nat) (s t : State) (r : State × Bool) : Prop :=
  t = s ∨
  (r.2 = true ∧ (∃ q, t = { r.1 with eng := { r.1.eng with queues := q } }) ∧
    (∀ j, j ≠ k → tget t.eng.queues j = tget s.eng.queues j) ∧
    (t.queue k).entries = (s.queue k).entries ∧ (t.queue k).nextSeq = (s.queue k).nextSeq ∧
    ∃ x, (t.queue k).completions = (s.queue k).completions ++ [x]) ∨
  (r.2 = false ∧ t = engineFault 0x0501 k r.1)

theorem ownQueueOnly_completeEntry (k : Nat) (e : Entry) (c : Completion) (s : State) :
    OwnQueueOnly k s (completeEntry k e c s) (settleMerge k s) := by
  obtain ⟨m, hm, -⟩ := settleMerge_eq k s
  unfold completeEntry
  dsimp only
  cases hr : (settleMerge k s).2 with
  | false => exact .inr (.inr ⟨hr, rfl⟩)
  | true =>
    have hqueue : (settleMerge k s).1.queue k = s.queue k := by rw [hm]; rfl
    have htable : (settleMerge k s).1.eng.queues = s.eng.queues := by rw [hm]
    rw [if_pos rfl]
    refine .inr (.inl ⟨hr, ⟨_, rfl⟩, fun j hj => ?_, ?_, ?_, { (settleMerge k s).1.located k e c with seq := e.seq }, ?_⟩)
    · exact (tget_tput_other _ _ hj).trans (congrArg (tget · j) htable)
    · simp [putCompletion, modQueue_queue, hqueue]
    · simp [putCompletion, modQueue_queue, hqueue]
    · simp [putCompletion, modQueue_queue, hqueue]

theorem ownQueueOnly_of_runPure {f : Entry → Pipeline → Sample → State → Completion} {r : State × Bool} (hr : r = settleMerge k s)
    (h : live (runPure op k f) s = .next t) : OwnQueueOnly k s t r := by
  subst hr
  obtain rfl | rfl : t = s ∨ t = runEntry op k (fun e p x t => (f e p x t, t)) s := by
    unfold live runPure whenB at h
    split at h
    · split at h
      · exact .inr (by cases h; rfl)
      · exact .inl (by cases h; rfl)
    · exact .inl (by cases h; rfl)
  · exact .inl rfl
  · unfold runEntry
    split
    · exact .inl rfl
    · split
      · split
        · exact ownQueueOnly_completeEntry _ _ _ s
        · exact ownQueueOnly_completeEntry _ _ _ s
      · exact .inl rfl

end

end Sys2Proof.Machine

/-! ### The statements -/

namespace Sys2Proof.Machine.Operators

/-- Settles O48: an operator that only computes ends in `completeEntry`, which writes out the merge buffer and adds one completion. -/
theorem operatorsTouchTheirQueueOnly : Obligations.OperatorsTouchTheirQueueOnly := by
  refine ⟨fun s t k c r hr hc h => ?_, fun s k => settleMerge_eq k s⟩
  simp only [List.mem_cons, List.not_mem_nil, or_false] at hc
  obtain rfl | rfl | rfl | rfl | rfl | rfl | rfl | rfl | rfl | rfl | rfl | rfl | rfl | rfl | rfl | rfl | rfl := hc
  all_goals exact ownQueueOnly_of_runPure hr h

/-- Settles O32: each row is `runPure`, `runEntry` or `runSink` of its operator. -/
theorem engineOperatorsComplete : Obligations.EngineOperatorsComplete := by
  refine ⟨fun s k e p x => ?_, fun s k e p x b hb => ⟨fun h hskip hok ok => ?_, fun h htake hclass hbudget hok hroom => ?_,
    fun h hskip hok ok => ?_, fun h htake hevery hpack hbudget hok hroom => ?_⟩⟩
  · refine ⟨live_runPure_of_runs _, live_runPure_of_runs _, live_runPure_of_runs _, live_runPure_of_runs _, live_runPure_of_runs _,
      live_runPure_of_runs _, live_runPure_of_runs _, live_runPure_of_runs _, live_runPure_of_runs _, live_runPure_of_runs _,
      live_runPure_of_runs _, live_runPure_of_runs _, live_runPure_of_runs _, live_runPure_of_runs _, live_runPure_of_runs _,
      live_runPure_of_runs _, live_runPure_of_runs _, live_runEntry_of_runs _, live_runEntry_of_runs _, live_runEntry_of_runs _,
      live_runEntry_of_runs _⟩
  · subst hb
    have hop : minhashOp e p x = ([], doneC 0) := by simp [minhashOp, hskip]
    exact (live_going h.1 h.2.1).trans (congrArg _ ((runSink_empty h hok (by rw [hop])).trans (by rw [hop])))
  · subst hb
    have hop : minhashOp e p x = ([minhashEntry (p.decl.paramsAt e.instance_) x],
        doneC (minhashWork (p.decl.paramsAt e.instance_) x.data)) := by
      simp only [minhashOp, htake, hclass, Bool.and_self, if_true, within_of_le _ hbudget]
    exact (live_going h.1 h.2.1).trans (congrArg _ ((runSink_writes h rfl hok hroom (by rw [hop]) (by rw [hop]; rfl)).trans (by rw [hop])))
  · subst hb
    have hop : digestOp e p x = ([], doneC 0) := by simp [digestOp, hskip]
    exact (live_going h.1 h.2.1).trans (congrArg _ ((runSink_empty h hok (by rw [hop])).trans (by rw [hop])))
  · subst hb
    have hop : digestOp e p x = ([digestEntry (p.decl.paramsAt e.instance_) x x.batch (x.slot.getD 0) 0 x.layout x.data x.crc],
        doneC (digestWork x)) := by
      simp only [digestOp, htake, hevery, beq_self_eq_true, Bool.and_self, if_true, digestEntries, hpack, Bool.false_eq_true, if_false,
        within_of_le _ hbudget]
    exact (live_going h.1 h.2.1).trans (congrArg _ ((runSink_writes h rfl hok hroom (by rw [hop]) (by rw [hop]; rfl)).trans (by rw [hop])))

end Sys2Proof.Machine.Operators
end

section
/-! Moving the blocks of the volumes about: folding, relocation, padding and erasure change places and counts, and neither the content of a
block nor the spares of a magazine. With it the proof of the statement that volume blocks read back. -/

namespace Sys2Proof.Machine

/-! ### What a move keeps -/

/-- What the thresholds and the mapping see of the magazine in a bay: its sn and its spares. -/
def sparesOf (kv : Nat × Magazine) : Nat × Nat × Nat := (kv.1, kv.2.sn, kv.2.sparePct)

/-- Two states whose blocks, lost blocks, volumes and spares are the same. -/
structure SameContent (s t : State) : Prop where
  blocks : t.flash.blocks = s.flash.blocks
  lost : t.flash.lost = s.flash.lost
  volumes : t.flash.volumes = s.flash.volumes
  spares : t.flash.magazines.map sparesOf = s.flash.magazines.map sparesOf

/-- A state that differs by its flash and outputs alone. -/
def FlashOnly (s t : State) : Prop := ∃ f o, t = { s with flash := f, out := o }

/-- A step of the flash media that changes nothing else, and no content. -/
structure Moves (s t : State) : Prop where
  only : FlashOnly s t
  content : SameContent s t

section
variable {s t u : State}

theorem SameContent.refl (s : State) : SameContent s s := ⟨rfl, rfl, rfl, rfl⟩

theorem SameContent.trans (h : SameContent s t) (g : SameContent t u) : SameContent s u :=
  ⟨g.blocks.trans h.blocks, g.lost.trans h.lost, g.volumes.trans h.volumes, g.spares.trans h.spares⟩

/-- Content is read from the flash alone. -/
theorem SameContent.of_flash (h : t.flash = s.flash) : SameContent s t := by
  constructor
  · rw [h]
  · rw [h]
  · rw [h]
  · rw [h]

theorem SameContent.block (h : SameContent s t) (k : Nat) : t.block k = s.block k := by
  simp only [State.block, h.blocks]

theorem FlashOnly.refl (s : State) : FlashOnly s s := ⟨s.flash, s.out, rfl⟩

theorem FlashOnly.trans (h : FlashOnly s t) (g : FlashOnly t u) : FlashOnly s u := by
  obtain ⟨f, o, rfl⟩ := h
  obtain ⟨f', o', rfl⟩ := g
  exact ⟨f', o', rfl⟩

theorem FlashOnly.cat (h : FlashOnly s t) : t.cat = s.cat := by
  obtain ⟨f, o, rfl⟩ := h
  rfl

theorem FlashOnly.ken (h : FlashOnly s t) : t.ken = s.ken := by
  obtain ⟨f, o, rfl⟩ := h
  rfl

theorem flashOnly_modMag (sn : Nat) (f : Magazine → Magazine) (s : State) : FlashOnly s (modMag sn f s) := ⟨_, _, rfl⟩

theorem Moves.refl (s : State) : Moves s s := ⟨.refl s, .refl s⟩

theorem Moves.trans (h : Moves s t) (g : Moves t u) : Moves s u := ⟨h.only.trans g.only, h.content.trans g.content⟩

theorem moves_emits (os : List Output) (h : Moves s t) : Moves s (emits os t) :=
  h.trans ⟨⟨t.flash, _, rfl⟩, .of_flash rfl⟩

theorem moves_dieOp (op : FlashOp) (bay : Nat) (m : Magazine) (no member : Nat) (h : Moves s t) :
    Moves s (dieOp op bay m no member t) := moves_emits _ h

/-- A flash with the same blocks, lost blocks, volumes and magazines. -/
theorem moves_flash {f : Flash} (h : Moves s t) (hb : f.blocks = t.flash.blocks := by rfl) (hl : f.lost = t.flash.lost := by rfl)
    (hv : f.volumes = t.flash.volumes := by rfl) (hm : f.magazines = t.flash.magazines := by rfl) : Moves s { t with flash := f } :=
  h.trans ⟨⟨f, t.out, rfl⟩, hb, hl, hv, congrArg _ hm⟩

theorem sameContent_flash {f : Flash} (h : SameContent s t) (hb : f.blocks = t.flash.blocks := by rfl)
    (hl : f.lost = t.flash.lost := by rfl) (hv : f.volumes = t.flash.volumes := by rfl)
    (hm : f.magazines = t.flash.magazines := by rfl) : SameContent s { t with flash := f } :=
  h.trans ⟨hb, hl, hv, congrArg _ hm⟩

/-- A step for each element of a list, each a move. -/
theorem moves_foldl {α : Type} {f : State → α → State} (hf : ∀ u x, Moves s u → Moves s (f u x)) (l : List α) (h : Moves s t) :
    Moves s (l.foldl f t) := foldl_preserves hf l h

/-- Changing a magazine's other fields changes neither its sn nor its spares. -/
theorem modMag_spares {sn : Nat} {f : Magazine → Magazine} (hsn : ∀ m, (f m).sn = m.sn) (hp : ∀ m, (f m).sparePct = m.sparePct)
    (s : State) : (modMag sn f s).flash.magazines.map sparesOf = s.flash.magazines.map sparesOf := by
  simp only [modMag, List.map_map]
  refine List.map_congr_left fun kv _ => ?_
  simp only [Function.comp_apply, sparesOf]
  split
  · rw [hsn, hp]
  · rfl

theorem moves_modMag (sn : Nat) {f : Magazine → Magazine} (h : Moves s t) (hsn : ∀ m, (f m).sn = m.sn := by intro _; rfl)
    (hp : ∀ m, (f m).sparePct = m.sparePct := by intro _; rfl) : Moves s (modMag sn f t) :=
  h.trans ⟨flashOnly_modMag sn f t, rfl, rfl, rfl, modMag_spares hsn hp t⟩

theorem moves_countFlash (sn n : Nat) (h : Moves s t) : Moves s (countFlash sn n t) := by
  unfold countFlash
  exact moves_modMag sn h

/-! ### Stripes -/

theorem moves_closeStripe (k : Nat) (h : Moves s t) : Moves s (closeStripe k t) := by
  unfold closeStripe
  split
  · split
    · exact h
    · exact moves_countFlash _ _ (moves_flash h)
  · exact h

theorem moves_holdWord (k : Nat) (w : FlashWord) (bs : Bytes) (h : Moves s t) : Moves s (holdWord k w bs t) := by
  unfold holdWord
  split
  · next st bay m _ _ =>
    have hop : ∀ (b : Prop) [Decidable b] (x y : Nat) (v : State), Moves s v →
        Moves s (if b then dieOp .program bay m x y v else v) := fun b _ x y v hv => by
      split
      · exact moves_dieOp _ _ _ _ _ hv
      · exact hv
    dsimp only
    split
    · exact moves_closeStripe _ (hop _ _ _ _ (moves_countFlash _ _ (moves_flash h)))
    · exact hop _ _ _ _ (moves_countFlash _ _ (moves_flash h))
  · exact h

theorem moves_openStripe {sn cls reserve : Nat} {slc : Bool} {avoid : Option Nat} {o : Nat × State}
    (ho : openStripe sn slc cls reserve avoid t = some o) (h : Moves s t) : Moves s o.2 := by
  unfold openStripe at ho
  split at ho
  · cases ho
    exact h
  · obtain ⟨bm, -, ho⟩ := Option.bind_eq_some_iff.mp ho
    obtain ⟨no, -, rfl⟩ := Option.map_eq_some_iff.mp ho
    exact moves_flash h

theorem moves_flashReads (keys : List Nat) (h : Moves s t) : Moves s (flashReads keys t) := by
  unfold flashReads
  refine moves_foldl (fun u key hu => ?_) keys h
  split
  · exact hu
  · split
    · split
      · exact hu
      · exact moves_dieOp _ _ _ _ _ hu
    · exact hu

theorem moves_foldBlock (sn key : Nat) (h : Moves s t) : Moves s (foldBlock sn key t) := by
  unfold foldBlock
  split
  · exact h
  · split
    · exact h
    · next o ho =>
      have hopen := moves_openStripe ho h
      exact moves_holdWord _ _ _ (moves_flash hopen)

theorem moves_foldBlocks (sn n : Nat) (h : Moves s t) : Moves s (foldBlocks sn n t) :=
  moves_foldl (fun _ _ hu => moves_foldBlock _ _ (moves_flashReads _ hu)) _ h

theorem moves_startCopies (sn cls : Nat) (avoid : Option Nat) (keys : List Nat) (h : Moves s t) :
    Moves s (startCopies sn cls avoid keys t) := by
  induction keys generalizing t with
  | nil => exact h
  | cons key keys ih =>
    unfold startCopies
    split
    · next src o _ ho =>
      have hopen := moves_openStripe ho h
      exact ih (moves_holdWord _ _ _ (moves_flash hopen))
    · exact ih h

theorem moves_eraseOps (k : Nat) (h : Moves s t) : Moves s (eraseOps k t) := by
  unfold eraseOps
  split
  · exact h
  · exact moves_foldl (fun u i hu => moves_dieOp _ _ _ _ _ hu) _ h

theorem moves_eraseEmpty (sn : Nat) (h : Moves s t) : Moves s (eraseEmpty sn t) := by
  unfold eraseEmpty
  split
  · exact h
  · exact moves_foldl (fun u k hu => moves_eraseOps k hu) _ (moves_flash h)

theorem moves_relocateStripe (sn k cls : Nat) (h : Moves s t) : Moves s (relocateStripe sn k cls t) :=
  moves_eraseEmpty _ (moves_startCopies _ _ _ _ (moves_flashReads _ h))

theorem moves_relocateWeak (h : Moves s t) : Moves s (relocateWeak t) := by
  unfold relocateWeak
  refine moves_foldl (fun u key hu => ?_) _ (moves_flash h)
  split
  · split
    · exact hu
    · exact moves_startCopies _ _ _ _ hu
  · exact hu

theorem moves_padOpen (h : Moves s t) : Moves s (padOpen t) := by
  unfold padOpen
  split
  · exact h
  · exact moves_foldl (fun u k hu => moves_closeStripe k hu) _ h

/-- Completing FLUSH commands changes no content. -/
theorem sameContent_completeFlushes (s : State) : SameContent s (completeFlushes s) := by
  unfold completeFlushes
  refine foldl_preserves (P := SameContent s) (fun u c hu => ?_) _ (moves_padOpen (.refl s)).content
  split
  · exact hu.trans (.of_flash rfl)
  · exact hu

/-! ### The thresholds (R301, R302) -/

@[simp] theorem thresholdCrossed_work (bay wear thr : Nat) (s : State) : (thresholdCrossed bay wear thr s).work = s.work := by
  simp [thresholdCrossed]

/-- Reports of thresholds, one after another, leave what the chapters work on. -/
theorem thresholds_work (bay wear : Nat) (l : List Nat) (s : State) :
    (l.foldl (fun t thr => thresholdCrossed bay wear thr t) s).work = s.work :=
  foldl_preserves (P := fun u => u.work = s.work) (fun u thr hu => (thresholdCrossed_work bay wear thr u).trans hu) l rfl

/-- Two states with the same spares find magazines with the same spares. -/
theorem sparePct_of_spares {sn : Nat} {x y : Nat × Magazine} (h : t.flash.magazines.map sparesOf = s.flash.magazines.map sparesOf)
    (hx : s.flash.magazines.find? (fun kv => kv.2.sn == sn) = some x) (hy : t.flash.magazines.find? (fun kv => kv.2.sn == sn) = some y) :
    y.2.sparePct = x.2.sparePct := by
  have hfind : ∀ l : Table Magazine,
      (l.map sparesOf).find? (fun v => v.2.1 == sn) = (l.find? fun kv => kv.2.sn == sn).map sparesOf := fun l => by
    rw [List.find?_map]
    rfl
  have heq := hfind t.flash.magazines
  rw [h, hfind s.flash.magazines, hx, hy] at heq
  exact (congrArg (fun o : Option (Nat × Nat × Nat) => (o.map fun v => v.2.2).getD 0) heq).symm

/-- A check that finds the spares of a formatted magazine unchanged only reports. -/
theorem wearCheck_work_of {sn : Nat} (h : ∀ x y, s.flash.magazines.find? (fun kv => kv.2.sn == sn) = some x →
    t.flash.magazines.find? (fun kv => kv.2.sn == sn) = some y → x.2.formatted = true → y.2.sparePct = x.2.sparePct) :
    (wearCheck sn s t).work = t.work := by
  unfold wearCheck
  split
  · next bay0 m0 bay m hx hy =>
    dsimp only
    split
    · next hf =>
      have heq : m.sparePct = m0.sparePct := h _ _ hx hy hf
      rw [if_neg (by omega), thresholds_work, thresholds_work]
    · rfl
  · rfl

theorem wearCheck_work (sn : Nat) (h : t.flash.magazines.map sparesOf = s.flash.magazines.map sparesOf) :
    (wearCheck sn s t).work = t.work := wearCheck_work_of fun _ _ hx hy _ => sparePct_of_spares h hx hy

/-- A state passes no threshold of its own. -/
theorem wearCheck_self (sn : Nat) (s : State) : wearCheck sn s s = s := by
  have hspares : ∀ a : Nat, ([50, 25, 10].filter fun t => decide (t < a ∧ a ≤ t)) = [] := fun a =>
    List.filter_eq_nil_iff.mpr fun t _ => by
      simp only [decide_eq_true_eq]
      omega
  have hwear : ∀ a : Nat, ([80, 90, 100].filter fun t => decide (a < t ∧ t ≤ a)) = [] := fun a =>
    List.filter_eq_nil_iff.mpr fun t _ => by
      simp only [decide_eq_true_eq]
      omega
  unfold wearCheck
  split
  · next bay0 m0 bay m hx hy =>
    cases hx.symm.trans hy
    dsimp only
    rw [hspares, hwear, List.foldl_nil, List.foldl_nil]
    split
    · exact if_neg (by omega)
    · rfl
  · rfl

theorem sameContent_wearCheck (sn : Nat) (h : SameContent s t) : SameContent s (wearCheck sn s t) :=
  h.trans (.of_flash (flash_of_work (wearCheck_work sn h.spares)))

/-! ### Writes (R288, R291) -/

theorem flashOnly_putBlock (k key cls : Nat) (bs : Bytes) (s : State) : FlashOnly s (putBlock k key cls bs s) := by
  have hput : FlashOnly s (putContent key (tput s.flash.home key k) bs s) := ⟨_, _, rfl⟩
  have hmag := hput.trans (flashOnly_modMag (stripeSn k) (fun m => { m with
    wsn := (((s.magOf (stripeSn k)).map fun bm => bm.2.wsn).getD 0 + 1) % 2 ^ 48 }) _)
  exact hmag.trans (moves_holdWord _ _ _ (.refl _)).only

theorem flashOnly_writeBlock (volume block cls : Nat) (bs : Bytes) (s : State) : FlashOnly s (writeBlock volume block cls bs s) := by
  unfold writeBlock
  split
  · exact .refl s
  · split
    · exact .refl s
    · split
      · exact ⟨_, _, rfl⟩
      · next o ho =>
        have hput := (moves_openStripe ho (.refl s)).only.trans (flashOnly_putBlock o.1 (blockKey volume block) cls (fitTo 4096 bs) o.2)
        exact hput.trans (flashOnly_modMag _ _ _)

theorem flashOnly_writeBlocks (volume cls b : Nat) (xs : List Bytes) (s : State) : FlashOnly s (writeBlocks volume cls b xs s) := by
  induction xs generalizing b s with
  | nil => exact .refl s
  | cons x xs ih => exact (flashOnly_writeBlock _ _ _ _ s).trans (ih _ _)

theorem flashOnly_writeBytes (volume block cls : Nat) (bs : Bytes) (s : State) : FlashOnly s (writeBytes volume block cls bs s) :=
  flashOnly_writeBlocks _ _ _ _ s

/-- The content of one block is new, and it is not lost. -/
structure Wrote (key : Nat) (bs : Bytes) (s t : State) : Prop where
  blocks : t.flash.blocks = tputD s.flash.blocks key bs zeroBlock
  lost : t.flash.lost = s.flash.lost.filter (· ≠ key)
  volumes : t.flash.volumes = s.flash.volumes
  spares : t.flash.magazines.map sparesOf = s.flash.magazines.map sparesOf

theorem wrote_putContent (key : Nat) (home : Table Nat) (bs : Bytes) (s : State) : Wrote key bs s (putContent key home bs s) :=
  ⟨rfl, rfl, rfl, rfl⟩

theorem Wrote.after {key : Nat} {bs : Bytes} (h : Wrote key bs s t) (g : SameContent t u) : Wrote key bs s u :=
  ⟨g.blocks.trans h.blocks, g.lost.trans h.lost, g.volumes.trans h.volumes, g.spares.trans h.spares⟩

theorem Wrote.before {key : Nat} {bs : Bytes} (g : SameContent s t) (h : Wrote key bs t u) : Wrote key bs s u :=
  ⟨h.blocks.trans (by rw [g.blocks]), h.lost.trans (by rw [g.lost]), h.volumes.trans g.volumes, h.spares.trans g.spares⟩

theorem wrote_putBlock (k key cls : Nat) (bs : Bytes) (s : State) : Wrote key bs s (putBlock k key cls bs s) := by
  unfold putBlock
  exact (wrote_putContent key (tput s.flash.home key k) bs s).after (moves_holdWord _ _ _ (moves_modMag _ (.refl _))).content

/-- Is a volume on a magazine that is in some bay? -/
def State.reaches (s : State) (volume : Nat) : Prop :=
  ∃ v, tget s.flash.volumes volume = some v ∧ (s.volMag v).isSome = true

theorem reaches_of_spares {volume : Nat} (hv : t.flash.volumes = s.flash.volumes)
    (hm : t.flash.magazines.map sparesOf = s.flash.magazines.map sparesOf) (h : s.reaches volume) : t.reaches volume := by
  obtain ⟨v, hvol, hmag⟩ := h
  refine ⟨v, hv ▸ hvol, ?_⟩
  have hany : ∀ u : State, (u.volMag v).isSome = (u.flash.magazines.map sparesOf).any fun x => x.2.1 == v.sn := fun u => by
    rw [State.volMag, List.isSome_find?, List.any_map]
    rfl
  rw [hany, hm, ← hany]
  exact hmag

theorem wrote_writeBlock {volume : Nat} (block cls : Nat) (bs : Bytes) (h : s.reaches volume) :
    Wrote (blockKey volume block) (fitTo 4096 bs) s (writeBlock volume block cls bs s) := by
  obtain ⟨v, hv, hm⟩ := h
  obtain ⟨⟨bay, m⟩, hm⟩ := Option.isSome_iff_exists.mp hm
  simp only [writeBlock, hv, hm]
  split
  · exact wrote_putContent _ _ _ s
  · next o ho =>
    exact .before (moves_openStripe ho (.refl s)).content
      ((wrote_putBlock _ _ _ _ _).after (moves_modMag _ (.refl _)).content)

/-! ### Reading back -/

theorem Wrote.block {key : Nat} {bs : Bytes} (h : Wrote key bs s t) : t.block key = bs := by
  rw [State.block, h.blocks, tgetD_tputD]

theorem Wrote.block_other {key k : Nat} {bs : Bytes} (h : Wrote key bs s t) (hk : k ≠ key) : t.block k = s.block k := by
  rw [State.block, h.blocks, tgetD_tputD_other _ _ _ hk, State.block]

theorem Wrote.not_lost {key : Nat} {bs : Bytes} (h : Wrote key bs s t) : key ∉ t.flash.lost := by simp [h.lost]

theorem Wrote.lost_other {key k : Nat} {bs : Bytes} (h : Wrote key bs s t) (hk : k ≠ key) : k ∈ t.flash.lost ↔ k ∈ s.flash.lost := by
  simp [h.lost, hk]

/-- The blocks of `n` from block `b` hold the pieces of `d` and are not lost; every other block is as it was. -/
def HoldsData (volume b n : Nat) (d : Bytes) (s t : State) : Prop :=
  (∀ i, i < n → t.block (blockKey volume (b + i)) = sub d (4096 * i) 4096 ∧ blockKey volume (b + i) ∉ t.flash.lost) ∧
  (∀ k, (k < blockKey volume b ∨ blockKey volume b + n ≤ k) → t.block k = s.block k ∧ (k ∈ t.flash.lost ↔ k ∈ s.flash.lost))

theorem holdsData_zero (volume b : Nat) (d : Bytes) (s : State) : HoldsData volume b 0 d s s :=
  ⟨fun i hi => absurd hi (Nat.not_lt_zero i), fun _ _ => ⟨rfl, Iff.rfl⟩⟩

theorem blockKey_add (volume b i : Nat) : blockKey volume (b + i) = blockKey volume b + i := by
  unfold blockKey
  omega

/-- Writing the first block and then the rest. -/
theorem holdsData_succ {volume b n : Nat} {d : Bytes} (h : Wrote (blockKey volume b) (sub d 0 4096) s t)
    (g : HoldsData volume (b + 1) n (d.drop 4096) t u) : HoldsData volume b (n + 1) d s u := by
  obtain ⟨hin, hout⟩ := g
  refine ⟨fun i hi => ?_, fun k hk => ?_⟩
  · cases i with
    | zero =>
      obtain ⟨hblock, hlost⟩ := hout (blockKey volume b) (.inl (by rw [blockKey_add]; omega))
      exact ⟨hblock.trans h.block, fun hl => h.not_lost (hlost.mp hl)⟩
    | succ i =>
      have hi' := hin i (by omega)
      rw [Nat.add_right_comm, sub, List.drop_drop, Nat.add_comm 4096, ← Nat.mul_succ] at hi'
      exact hi'
  · obtain ⟨hblock, hlost⟩ := hout k (by rw [blockKey_add]; omega)
    have hne : k ≠ blockKey volume b := by omega
    exact ⟨hblock.trans (h.block_other hne), hlost.trans (h.lost_other hne)⟩

theorem fitTo_take {n : Nat} {bs : Bytes} (h : n ≤ bs.length) : fitTo n (bs.take n) = bs.take n := by
  simp [fitTo, zeros, Nat.min_eq_left h]

theorem holdsData_writeBlocks (volume cls : Nat) (n b : Nat) (d : Bytes) (hd : d.length = n * 4096) (s : State) (h : s.reaches volume) :
    HoldsData volume b n d s (writeBlocks volume cls b (pieces 4096 n d) s) := by
  induction n generalizing b d s with
  | zero => exact holdsData_zero volume b d s
  | succ n ih =>
    have hne : d.isEmpty = false := by
      rw [List.isEmpty_eq_false_iff, ← List.length_pos_iff]
      omega
    have hw := wrote_writeBlock b cls (d.take 4096) h
    rw [fitTo_take (by omega)] at hw
    rw [pieces, if_neg (by simp [hne])]
    refine holdsData_succ hw (ih _ _ (by simp; omega) _ ?_)
    exact reaches_of_spares hw.volumes hw.spares h

theorem HoldsData.after {volume b n : Nat} {d : Bytes} (h : HoldsData volume b n d s t) (g : SameContent t u) :
    HoldsData volume b n d s u := by
  obtain ⟨hin, hout⟩ := h
  refine ⟨fun i hi => ?_, fun k hk => ?_⟩
  · rw [g.block, g.lost]
    exact hin i hi
  · rw [g.block, g.lost]
    exact hout k hk

theorem pieces_length_le (w n : Nat) (bs : Bytes) : (pieces w n bs).length ≤ n := by
  induction n generalizing bs with
  | zero => exact Nat.le_refl 0
  | succ n ih =>
    unfold pieces
    split
    · exact Nat.zero_le _
    · exact Nat.succ_le_succ (ih _)

/-- The blocks of data of whole blocks are its pieces. -/
theorem blocksOf_take {d : Bytes} {n : Nat} (hd : d.length = n * 4096) : (blocksOf d).take n = pieces 4096 n d := by
  have hn : ceilDiv d.length 4096 = n := by
    rw [ceilDiv, if_neg (by decide)]
    omega
  rw [blocksOf, hn, List.take_of_length_le (pieces_length_le _ _ _)]

/-! ### Trimmed blocks (R286) -/

/-- A filter that keeps every entry of a key leaves it. -/
theorem tget_tfilter_kept {α : Type} {t : Table α} {p : Nat → α → Bool} {n : Nat} (h : ∀ a, p n a = true) :
    tget (tfilter t p) n = tget t n := by
  induction t with
  | nil => rfl
  | cons kv t ih =>
    obtain ⟨k, v⟩ := kv
    by_cases hk : k = n
    · subst hk
      simp [tfilter, h, tget]
    · by_cases hp : p k v = true
      · rw [tfilter, List.filter_cons_of_pos (p := fun kv : Nat × α => p kv.1 kv.2) hp, tget, tget, if_neg hk, if_neg hk]
        exact ih
      · rw [tfilter, List.filter_cons_of_neg (p := fun kv : Nat × α => p kv.1 kv.2) hp, tget, if_neg hk]
        exact ih

theorem trimRange_block_in {volume block count i : Nat} (hi : i < count) :
    (trimRange volume block count s).block (blockKey volume (block + i)) = zeroBlock := by
  have hnone : tget (trimRange volume block count s).flash.blocks (blockKey volume (block + i)) = none :=
    tget_tfilter_none (p := fun k _ => !(decide (blockKey volume block ≤ k) && decide (k < blockKey volume block + count))) fun _ => by
      simp only [blockKey_add, Bool.not_eq_false', Bool.and_eq_true, decide_eq_true_eq]
      omega
  simp [State.block, tgetD, hnone]

theorem trimRange_block_out {volume block count k : Nat}
    (hk : k < blockKey volume block ∨ blockKey volume block + count ≤ k) : (trimRange volume block count s).block k = s.block k := by
  have hkept : tget (trimRange volume block count s).flash.blocks k = tget s.flash.blocks k :=
    tget_tfilter_kept (p := fun k _ => !(decide (blockKey volume block ≤ k) && decide (k < blockKey volume block + count))) fun _ => by
      simp only [Bool.not_eq_true', Bool.and_eq_false_iff, decide_eq_false_iff_not]
      omega
  simp only [State.block, tgetD, hkept]

/-! ### The commands and rows that only move blocks -/

/-- A row keeps the content when its operation does. -/
theorem sameContent_live {f : State → State} (hf : ∀ u, SameContent u (f u)) (h : live f s = .next t) : SameContent s t := by
  unfold live at h
  split at h
  · cases h
    exact hf s
  · cases h
    exact .refl s

theorem sameContent_runCmd (op pair cid : Nat) {f : Cmd → State → State} (hf : ∀ c u, SameContent u (f c u)) (s : State) :
    SameContent s (runCmd op pair cid f s) := by
  obtain hr | hr | hr | ⟨c, -, -, -, hr⟩ := runCmd_cases op pair cid f s
  · rw [hr]
    exact .refl s
  · rw [hr]
    exact .of_flash rfl
  · rw [hr]
    exact .of_flash rfl
  · rw [hr]
    exact hf c s

theorem sameContent_writeCmd (c : Cmd) (s : State) : SameContent s (writeCmd c s) := by
  unfold writeCmd withData
  dsimp only
  split_ifs
  · exact .of_flash rfl
  · exact .of_flash rfl
  · split
    · exact .of_flash rfl
    · exact .of_flash rfl

theorem sameContent_readCmd (pcieOk : Bool) (c : Cmd) (s : State) : SameContent s (readCmd pcieOk c s) := by
  have hreply : ∀ bs st r, SameContent s (replyStatus c pcieOk bs st r (readRun c.volume c.block c.count s)) := fun bs st r => by
    have hread : SameContent s (readRun c.volume c.block c.count s) := (moves_flashReads _ (.refl s)).content
    unfold replyStatus
    split
    · exact hread.trans (.of_flash rfl)
    · exact hread.trans (.of_flash rfl)
  unfold readCmd
  dsimp only
  split
  · exact .of_flash rfl
  · split
    · exact .of_flash rfl
    · split
      · exact .refl s
      · exact hreply _ _ _

theorem sameContent_flushCmd (c : Cmd) (s : State) : SameContent s (flushCmd c s) := by
  unfold flushCmd
  dsimp only
  split
  · exact .of_flash rfl
  · refine SameContent.trans (.of_flash ?_) (sameContent_completeFlushes _)
    rfl

theorem moves_foldSome (l : LongOp) (n : Nat) (h : Moves s t) : Moves s (foldSome l n t) := by
  unfold foldSome
  dsimp only
  split
  · exact h
  · exact moves_foldBlocks _ _ h

theorem sameContent_foldDone (l : LongOp) (s : State) : SameContent s (foldDone l s) := by
  unfold foldDone
  split
  · exact .of_flash rfl
  · split
    · exact .of_flash rfl
    · split
      · exact .of_flash rfl
      · have hfold := fun sn n => sameContent_wearCheck sn (moves_foldSome l n (.refl s)).content
        dsimp only
        split
        · exact (hfold _ _).trans (.of_flash rfl)
        · exact (hfold _ _).trans (.of_flash rfl)

theorem sameContent_runLanding {op pair cid : Nat} {target check : Cmd → State → Nat} {f : LongOp → State → State}
    (hf : ∀ l u, SameContent u (f l u)) (s : State) : SameContent s (runLanding op pair cid target check f s) := by
  refine sameContent_runCmd op pair cid (fun c u => ?_) s
  split
  · exact .of_flash rfl
  · next l _ =>
    split
    · exact SameContent.trans (t := dropLong l.handle u) (.of_flash rfl) (hf l _)
    · exact .refl u

theorem sameContent_backgroundFold (bay units : Nat) (s : State) : SameContent s (backgroundFold bay units s) := by
  have hweak := (moves_relocateWeak (.refl s)).content
  have hfold := fun sn n => hweak.trans (sameContent_wearCheck sn (moves_foldBlocks sn n (.refl (relocateWeak s))).content)
  unfold backgroundFold
  dsimp only
  split
  · exact hweak
  · split
    · exact hweak
    · split
      · exact hweak
      · split
        · exact sameContent_flash hweak
        · exact sameContent_flash (hfold _ _)

theorem sameContent_garbageCollection (bay group : Nat) (s : State) : SameContent s (garbageCollection bay group s) := by
  have hweak := (moves_relocateWeak (.refl s)).content
  have hmoved := fun sn k cls => hweak.trans (sameContent_wearCheck sn (moves_relocateStripe sn k cls (.refl (relocateWeak s))).content)
  unfold garbageCollection
  dsimp only
  split
  · exact hweak
  · split
    · exact hweak
    · split
      · exact hweak
      · split
        · exact sameContent_flash hweak
        · split
          · exact hweak
          · exact sameContent_flash (hmoved _ _ _)

theorem sameContent_staticWearLevelling (bay : Nat) (s : State) : SameContent s (staticWearLevelling bay s) := by
  unfold staticWearLevelling
  split
  · exact .refl s
  · split
    · split
      · exact .refl s
      · exact sameContent_wearCheck _ (moves_relocateStripe _ _ _ (.refl s)).content
    · exact .refl s

theorem sameContent_relocationSwitch (volume block : Nat) (s : State) : SameContent s (relocationSwitch volume block s) := by
  unfold relocationSwitch
  dsimp only
  split
  · exact .refl s
  · split
    · exact sameContent_wearCheck _ (moves_eraseEmpty _ (moves_flash (.refl s))).content
    · exact .refl s

end

end Sys2Proof.Machine

/-! ### The statement -/

namespace Sys2Proof.Machine.Blocks

/-- Settles O50: a write is one `Wrote` for each block, a TRIM filters its range out, and every other row keeps the content. -/
theorem blocksReadBack : Obligations.BlocksReadBack := by
  refine ⟨fun s t pair cid c d v m ha hc hdata hlen hv hm hroom h => ?_, fun s t pair cid c h hlo hvol hres hst ht => ?_,
    fun s t c pair cid ok mag n vol blk hc h => ?_⟩
  · cases (live_of_alive ha).symm.trans h
    rw [flashProgramComplete_last hc hroom, hdata, Option.getD_some, blocksOf_take hlen]
    have hwritten := holdsData_writeBlocks c.volume (c.p8 34) c.count c.block d hlen s ⟨v, hv, by simp [hm]⟩
    exact hwritten.after ((sameContent_completeFlushes _).trans (.of_flash rfl))
  · cases ((live_runCmd_of_ready trimCmd h).trans (congrArg _ (trimCmd_trims hlo hvol hres hst))).symm.trans ht
    exact ⟨fun i hi => trimRange_block_in (s := s) hi, fun k hk => trimRange_block_out (s := s) hk⟩
  · refine SameContent.block (s := s) (t := t) ?_
    simp only [List.mem_cons, List.not_mem_nil, or_false] at hc
    obtain rfl | rfl | rfl | rfl | rfl | rfl | rfl | rfl := hc
    · exact sameContent_live (sameContent_runCmd _ _ _ (sameContent_readCmd ok)) h
    · exact sameContent_live (sameContent_runCmd _ _ _ sameContent_writeCmd) h
    · exact sameContent_live (sameContent_runCmd _ _ _ sameContent_flushCmd) h
    · exact sameContent_live (sameContent_runLanding sameContent_foldDone) h
    · exact sameContent_live (sameContent_backgroundFold mag n) h
    · exact sameContent_live (sameContent_garbageCollection mag n) h
    · exact sameContent_live (sameContent_staticWearLevelling mag) h
    · exact sameContent_live (sameContent_relocationSwitch vol blk) h

end Sys2Proof.Machine.Blocks
end

section
/-! Proof of the statement about the three forms of REEL_APPEND (R72 to R75): each, once its checks pass, writes blocks, which touches the
flash alone, and puts one reel into the table. -/

namespace Sys2Proof.Machine

section
variable {s t : State}

theorem flashOnly_writeAt (volume off : Nat) (bs : Bytes) (h : FlashOnly s t) : FlashOnly s (writeAt volume off bs t) := by
  unfold writeAt
  split
  · exact h
  · exact (h.trans (moves_flashReads _ (.refl t)).only).trans (flashOnly_writeBytes _ _ _ _ _)

/-- The reels after an append: the one it names, and the others as they were. -/
def ReelPut (key : Nat) (r : Reel) (s t : State) : Prop :=
  tget t.cat.reels key = some r ∧ ∀ k, k ≠ key → tget t.cat.reels k = tget s.cat.reels k

theorem reelPut_putReel (key : Nat) (r : Reel) (h : t.cat = s.cat) : ReelPut key r s (putReel key r t) :=
  ⟨tget_tput _ _ _, fun k hk => by
    rw [← h]
    exact tget_tput_other _ _ hk⟩

theorem ReelPut.of_cat {key : Nat} {r : Reel} {u : State} (h : ReelPut key r s t) (hu : u.cat = t.cat) : ReelPut key r s u := by
  obtain ⟨hkey, hother⟩ := h
  exact ⟨by rw [hu, hkey], fun k hk => by rw [hu, hother k hk]⟩

section
variable {c : Cmd} {r : Reel}

theorem reelOpen_opens (hfields : c.openFields = true) (hbusy : s.reelBusy c = false)
    (hvol : thas s.flash.volumes c.reelVolume = true) (hnew : thas s.cat.reels c.reelKey = false) (hopen : s.openCount < 256)
    (hcount : s.reelCount c.reelVolume < 1048576) (hr : r = c.newReel s.tb (Config.fwRelease s.firmware))
    (hst : s.volStatus c.reelVolume r.start r.payloadOffset true = stOk) (hroom : s.hostRoom c.reelVolume r.payloadOffset = true) :
    ∃ u, reelOpen c s = finish c.pair c.cid stOk r.payloadOffset u ∧ ReelPut c.reelKey r s u := by
  subst hr
  have hlimits : ¬ (256 ≤ s.openCount ∨ 1048576 ≤ s.reelCount c.reelVolume) := by omega
  simp only [reelOpen, hfields, hbusy, hvol, hnew, hlimits, hst, hroom, Bool.not_true, Bool.or_false, Bool.false_eq_true, if_false]
  rw [if_neg (by simp)]
  exact ⟨_, rfl, (reelPut_putReel c.reelKey _ rfl).of_cat (flashOnly_writeBytes _ _ _ _ _).cat⟩

theorem reelSeal_seals (hr : tget s.cat.reels c.reelKey = some r) (hbusy : s.reelBusy c = false) (hsealed : r.sealed = false)
    (hbuf : c.exactBuf 48 = true) (hds : c.p16 38 = r.dataset)
    (hst : s.volStatus c.reelVolume r.start (r.nextUnit + 1) true = stOk) (hroom : s.hostRoom c.reelVolume 2 = true) :
    ∃ u, reelSeal true c s = finish c.pair c.cid stOk (r.nextUnit + 1) u ∧
      ReelPut c.reelKey { r with sealed := true, footer := r.nextUnit } s u := by
  have hhead : ¬ ((!c.exactBuf 48) = true ∨ c.p16 38 ≠ r.dataset) := by simp [hbuf, hds]
  unfold reelSeal
  simp only [hr, hbusy, hsealed, Bool.false_eq_true, if_false, if_neg hhead, hst, hroom, Bool.not_true, if_true, replyData]
  rw [if_neg (by simp)]
  refine ⟨_, rfl, (reelPut_putReel _ _ ?_).of_cat rfl⟩
  exact (flashOnly_writeBytes _ _ _ _ _).cat.trans
    ((moves_flashReads _ (.refl _)).only.cat.trans (flashOnly_writeBytes _ _ _ _ _).cat)

theorem reelSamples_adds {d : Bytes} {sls bl : List Bytes} {z : Nat} (hr : tget s.cat.reels c.reelKey = some r)
    (hbusy : s.reelBusy c = false) (hsealed : r.sealed = false) (hdata : c.hasData = true) (hds : c.p16 38 = r.dataset)
    (hd : c.data = some d) (hsls : sls = pieces 64 (c.p32 72) d) (hn : sls.length = c.p32 72)
    (hlen : d.length = roundUp (64 * c.p32 72 + (sls.map fun b => field b 20 4).sum) 4) (hdl : c.dataLen = d.length)
    (hgiven : slatesGiven r.dataset (r.first + r.slates) sls = true) (hcap : r.slates + c.p32 72 ≤ r.slateCap)
    (hbl : bl = (packSamples r.blocks (splitSamples sls (d.drop (64 * c.p32 72)))).closed.reverse)
    (hblocks : r.blocks + bl.length ≤ r.blockCap)
    (hz : z = (storeBlocks r.codec r.level (Config.fwRelease s.firmware) r.nextUnit bl).2.2)
    (hst : s.volStatus c.reelVolume r.start z true = stOk)
    (hroom : s.hostRoom c.reelVolume (z - r.nextUnit + 2 * c.p32 72 + 4) = true) :
    ∃ u, reelSamples c s = finish c.pair c.cid stOk (r.slates + c.p32 72 + (r.blocks + bl.length) * 2 ^ 32) u ∧
      ReelPut c.reelKey { r with slates := r.slates + c.p32 72, blocks := r.blocks + bl.length, nextUnit := z } s u := by
  subst hsls hbl hz
  have hform : ¬ ((pieces 64 (c.p32 72) d).length ≠ c.p32 72 ∨
      d.length ≠ roundUp (64 * c.p32 72 + ((pieces 64 (c.p32 72) d).map fun b => field b 20 4).sum) 4 ∨
      c.dataLen ≠ d.length ∨ (!slatesGiven r.dataset (r.first + r.slates) (pieces 64 (c.p32 72) d)) = true ∨
      r.slateCap < r.slates + c.p32 72) := by
    simp only [not_or, not_not, Nat.not_lt]
    exact ⟨hn, hlen, hdl, by simp [hgiven], hcap⟩
  have hhead : ¬ ((!c.hasData) = true ∨ c.p16 38 ≠ r.dataset) := by simp [hdata, hds]
  unfold reelSamples
  simp only [hr, hbusy, hsealed, Bool.false_eq_true, if_false, if_neg hhead, withData, hd, if_neg hform,
    if_neg (Nat.not_lt.mpr hblocks), hst, hroom, Bool.not_true, ne_eq, not_true_eq_false]
  refine ⟨_, rfl, reelPut_putReel _ _ ?_⟩
  exact (flashOnly_writeAt _ _ _ (flashOnly_writeAt _ _ _ (flashOnly_writeAt _ _ _ (.refl s)))).cat

end

end

end Sys2Proof.Machine

/-! ### The statement -/

namespace Sys2Proof.Machine.ReelAppend

/-- Settles O20: the row of each form runs its operation, which passes its checks. -/
theorem reelAppendCompletes : Obligations.ReelAppendCompletes := by
  refine ⟨fun s pair cid c r h hsub hfields hbusy hvol hnew hopen hcount hr hst hroom => ?_,
    fun s pair cid c r d sls bl z h hsub hr hbusy hsealed hdata hds hd hsls hn hlen hdl hgiven hcap hbl hblocks hz hst hroom => ?_,
    fun s pair cid c r h hsub hr hbusy hsealed hbuf hds hst hroom => ?_⟩
  · obtain ⟨u, hrun, hkey, hother⟩ := reelOpen_opens hfields hbusy hvol hnew hopen hcount hr hst hroom
    refine ⟨_, u, (live_runReel_of_ready reelOpen h hsub (by omega)).trans (congrArg _ hrun), rfl, hkey, ?_, ?_, ?_, hother⟩
    · rw [hr]
      rfl
    · rw [hr]
      rfl
    · rw [hr]
      rfl
  · obtain ⟨u, hrun, hkey, hother⟩ :=
      reelSamples_adds hr hbusy hsealed hdata hds hd hsls hn hlen hdl hgiven hcap hbl hblocks hz hst hroom
    exact ⟨_, u, (live_runReel_of_ready reelSamples h hsub (by omega)).trans (congrArg _ hrun), rfl, hkey, hother⟩
  · obtain ⟨u, hrun, hkey, hother⟩ := reelSeal_seals hr hbusy hsealed hbuf hds hst hroom
    exact ⟨_, u, (live_runReel_of_ready (reelSeal true) h hsub (by omega)).trans (congrArg _ hrun), rfl, hkey, hother⟩

end Sys2Proof.Machine.ReelAppend
end

section
/-! Proofs of the statements about the operations on a magazine (R293, R299, R300, R303, R309) and about magazines that come and go
(R279, R280, R307 to R311). -/

namespace Sys2Proof.Machine

/-! ### A sliced command that starts its operation (R58) -/

/-- The operation that a sliced command starts anew. -/
def Cmd.operation (c : Cmd) (target : Nat) : LongOp where
  opcode := c.opcode
  pair := c.pair
  target := target
  entry := c.entry
  data := c.data.getD []
  progress := 0
  paused := false
  handle := 0
  cid := c.cid
  removed := false

section
variable {s t : State} {op pair cid : Nat} {c : Cmd}

theorem enters_of_starts {target check : Nat} (h : Starts s op pair cid c target) (hcheck : check = stOk) :
    Enters s op pair cid c target check (c.operation target) := by
  obtain ⟨hready, hnew, hdata, hfree, hroom⟩ := h
  obtain ⟨d, hd⟩ := Option.ne_none_iff_exists'.mp hdata
  refine ⟨hready, ?_⟩
  simp only [State.longEnter, hnew, hcheck, hfree, hd, Bool.false_eq_true, if_false, ne_eq, not_true_eq_false,
    if_neg (Nat.not_le.mpr hroom)]
  simp [Cmd.operation, hd]

theorem live_runLong_of_starts {target check : Cmd → State → Nat} (f : LongOp → State → State)
    (h : Starts s op pair cid c (target c s)) (hcheck : check c s = stOk) :
    live (runLong op pair cid target check f) s = .next (f (c.operation (target c s)) (dropLong 0 s)) :=
  live_runLong_of_enters f (enters_of_starts h hcheck)

theorem live_runLanding_of_starts {target check : Cmd → State → Nat} (f : LongOp → State → State)
    (h : Starts s op pair cid c (target c s)) (hcheck : check c s = stOk) (hland : s.landing = true) :
    live (runLanding op pair cid target check f) s = .next (f (c.operation (target c s)) (dropLong 0 s)) := by
  obtain ⟨hready, henter⟩ := enters_of_starts h hcheck
  unfold runLanding
  rw [live_runCmd_of_ready _ hready]
  simp only [henter, hland, if_true]
  rfl

/-! ### Rules of the bays -/

variable {bay : Nat} {m : Magazine}

@[simp] theorem magPin_work (name : String) (bay setting : Nat) (s : State) : (magPin name bay setting s).work = s.work := rfl
@[simp] theorem magEvent_work (bay kind : Nat) (s : State) : (magEvent bay kind s).work = s.work := raiseEvent_work s _ _ _

@[simp] theorem showAmber_work (bay : Nat) (was s : State) : (showAmber bay was s).work = s.work := by
  unfold showAmber
  split
  · rfl
  · rfl

theorem modBay_flash (bay : Nat) (f : Magazine → Magazine) (s : State) :
    (modBay bay f s).flash = { s.flash with magazines := tmod s.flash.magazines bay f } := flash_of_work (showAmber_work bay s _)

theorem modBay_magazine (f : Magazine → Magazine) (hm : tget s.flash.magazines bay = some m) :
    tget (modBay bay f s).flash.magazines bay = some (f m) := by
  simp [modBay_flash, tget_tmod, hm]

/-! ### A unit that leaves service (R19) -/

theorem fireVector_gone (v : Nat) (s : State) : (fireVector v s).gone = s.gone := by
  unfold fireVector
  split
  · rfl
  · split
    · rfl
    · rfl

theorem signalEv_gone (e : BitVec 5) (s : State) : (signalEv e s).gone = s.gone := by
  unfold signalEv
  dsimp only
  split
  · rfl
  · exact fireVector_gone _ _

theorem raiseEvent_gone (code unit detail : Nat) (s : State) : (raiseEvent code unit detail s).gone = s.gone := by
  unfold raiseEvent
  dsimp only
  split
  · rfl
  · split
    · exact signalEv_gone _ _
    · exact signalEv_gone _ _

theorem logRecord_gone (type unit : Nat) (body : Bytes) (s : State) : (logRecord type unit body s).gone = s.gone := by
  obtain ⟨f, o, h⟩ := logRecord_eq type unit body s
  rw [h]

theorem mem_gone_leaveService (u : Nat) (s : State) : u ∈ (leaveService u s).gone := by
  unfold leaveService serviceEvent
  split
  · assumption
  · split
    · rw [raiseEvent_gone]
      exact List.mem_append_right _ (List.mem_singleton_self u)
    · exact List.mem_append_right _ (List.mem_singleton_self u)

theorem departService_outOfService (u : Nat) (s : State) : (departService u s).inService u = false := by
  have hgone : u ∈ (departService u s).gone := by
    unfold departService countRecord
    split
    · assumption
    · split
      · rw [logRecord_gone]
        exact mem_gone_leaveService u s
      · exact mem_gone_leaveService u s
  simp [State.inService, hgone]

theorem quiesce_magazine (hm : tget s.flash.magazines bay = some m) :
    tget (quiesce bay s).flash.magazines bay = some { m with quiescing := true } := by
  rw [quiesce, flash_of_work (departService_work _ _), flash_of_work (magPin_work _ _ _ _)]
  exact modBay_magazine _ hm

/-! ### MAGAZINE_FORMAT (R300) -/

theorem modMag_find {sn : Nat} {f : Magazine → Magazine} (hsn : ∀ m, (f m).sn = m.sn) (s : State) :
    (modMag sn f s).flash.magazines.find? (fun kv => kv.2.sn == sn) =
      (s.flash.magazines.find? fun kv => kv.2.sn == sn).map fun kv => (kv.1, f kv.2) := by
  have hpred : ((fun kv : Nat × Magazine => kv.2.sn == sn) ∘ fun kv => if kv.2.sn == sn then (kv.1, f kv.2) else kv) =
      fun kv => kv.2.sn == sn := by
    funext kv
    by_cases h : (kv.2.sn == sn) = true
    · simp only [Function.comp_apply, h, if_true, hsn]
    · simp only [Function.comp_apply, h]
      simpa using h
  rw [modMag, List.find?_map, hpred]
  cases hfind : s.flash.magazines.find? fun kv => kv.2.sn == sn with
  | none => rfl
  | some kv =>
    have hkv : (kv.2.sn == sn) = true := List.find?_some (p := fun kv : Nat × Magazine => kv.2.sn == sn) hfind
    simp only [Option.map_some, hkv, if_true]

theorem afterFormat_sn (m : Magazine) : m.afterFormat.sn = m.sn := by
  unfold Magazine.afterFormat
  split
  · rfl
  · rfl

theorem afterFormat_of_formatted (h : m.formatted = true) : m.afterFormat = m := by simp [Magazine.afterFormat, h]

/-- A state with every block of a magazine erased and the magazine formatted. -/
def formatted (sn : Nat) (s : State) : State := modMag sn Magazine.afterFormat (eraseAll sn s)

/-- A format counts one erase of every block. -/
def Magazine.countFormat (m : Magazine) : Magazine := { m with formats := m.formats + 1 }

/-- Formatting a formatted magazine leaves its spares: the check only reports. -/
theorem wearCheck_formatted_work (sn : Nat) (s : State) : (wearCheck sn s (formatted sn s)).work = (formatted sn s).work := by
  refine wearCheck_work_of fun x y hx hy hf => ?_
  have herase : (eraseAll sn s).flash.magazines.find? (fun kv => kv.2.sn == sn) = some (x.1, x.2.countFormat) :=
    (modMag_find (f := Magazine.countFormat) (fun _ => rfl) _).trans (congrArg _ hx)
  have hfind : (formatted sn s).flash.magazines.find? (fun kv => kv.2.sn == sn) = some (x.1, x.2.countFormat.afterFormat) := by
    rw [formatted, modMag_find afterFormat_sn, herase]
    rfl
  cases hfind.symm.trans hy
  exact congrArg Magazine.sparePct (afterFormat_of_formatted (m := x.2.countFormat) hf) |>.trans rfl

/-- After a format, nothing of the magazine is mapped and no volume has gone. -/
structure Emptied (sn : Nat) (s t : State) : Prop where
  stripes : ∀ kv ∈ t.flash.stripes, stripeSn kv.1 ≠ sn
  home : ∀ kv ∈ t.flash.home, stripeSn kv.2 ≠ sn
  volumes : t.flash.volumes = s.flash.volumes

theorem emptied_formatted (sn : Nat) (s : State) : Emptied sn s (formatted sn s) := by
  refine ⟨fun kv h => ?_, fun kv h => ?_, rfl⟩
  · have hm : (kv.1, kv.2) ∈ tfilter s.flash.stripes (fun k _ => stripeSn k != sn) := h
    exact bne_iff_ne.mp (mem_tfilter.mp hm).2
  · have hm : (kv.1, kv.2) ∈ tfilter s.flash.home (fun _ st => stripeSn st != sn) := h
    exact bne_iff_ne.mp (mem_tfilter.mp hm).2

theorem Emptied.of_flash {sn : Nat} {u : State} (h : Emptied sn s t) (hu : u.flash = t.flash) : Emptied sn s u :=
  ⟨by rw [hu]; exact h.stripes, by rw [hu]; exact h.home, by rw [hu]; exact h.volumes⟩

theorem afterFormat_userBlocks (m : Magazine) :
    m.afterFormat.userBlocks = if m.formatted then m.userBlocks else m.firstUserBlocks := by
  unfold Magazine.afterFormat
  split
  · rfl
  · rfl

theorem formatCheck_ok (hbay : c.p8 32 ≤ 7) (hm : tget s.flash.magazines (c.p8 32) = some m)
    (hst : m.state = 2 ∨ m.state = 3 ∨ m.state = 4) (hvol : s.volumesOn m.sn = []) : formatCheck c s = stOk := by
  unfold formatCheck
  rw [if_neg (by omega), State.magAt, hm]
  dsimp only
  rw [if_pos]
  rw [hvol]
  simpa [or_assoc] using hst

theorem formatDone_formats {l : LongOp} (hm : tget s.flash.magazines (byteAt l.entry 32) = some m) (hl : l.removed = false)
    (hi : s.flash.inhibit = false) : ∃ u, formatDone l s =
      finish l.pair l.cid stOk (if m.formatted then m.userBlocks else m.firstUserBlocks) u ∧ Emptied m.sn s u := by
  have hwork := wearCheck_formatted_work m.sn s
  simp only [formatDone, State.magAt, hm, hl, hi, Bool.false_eq_true, if_false]
  rw [afterFormat_userBlocks m]
  refine ⟨_, rfl, (emptied_formatted m.sn s).of_flash ?_⟩
  split
  · exact flash_of_work hwork
  · exact flash_of_work ((logRecord_work _ _ _ _).trans hwork)

/-! ### FOLD (R293) -/

theorem foldCheck_ok (hbay : c.p8 32 ≤ 7) (hpct : c.p8 33 ≤ 100) (hm : tget s.flash.magazines (c.p8 32) = some m)
    (hst : m.state = 3 ∨ m.state = 4) : foldCheck c s = stOk := by
  unfold foldCheck
  rw [if_neg (by omega), State.magAt, hm]
  dsimp only
  rw [if_pos (by simpa using hst)]

/-- The state after a FOLD has folded what it can, and reported it. -/
def folded (l : LongOp) (sn : Nat) (s : State) : State := wearCheck sn s (foldSome l (s.slcUsed sn) s)

theorem folded_blocks (l : LongOp) (sn : Nat) (s : State) : (folded l sn s).flash.blocks = s.flash.blocks :=
  (sameContent_wearCheck sn (moves_foldSome l _ (.refl s)).content).blocks

theorem foldDone_eq {l : LongOp} (hm : tget s.flash.magazines (byteAt l.entry 32) = some m) (hl : l.removed = false)
    (hi : s.flash.inhibit = false) :
    foldDone l s = if (folded l m.sn s).foldLeft (byteAt l.entry 32) (byteAt l.entry 33) m = 0 then
        finish l.pair l.cid stOk ((folded l m.sn s).foldResult l) (folded l m.sn s)
      else pauseLong l ((folded l m.sn s).foldResult l) (folded l m.sn s) := by
  simp only [foldDone, State.magAt, hm, hl, hi, Bool.false_eq_true, if_false]
  rfl

theorem foldSome_nothing {l : LongOp} {n : Nat} (hm : tget s.flash.magazines (byteAt l.entry 32) = some m)
    (hleft : s.foldLeft (byteAt l.entry 32) (byteAt l.entry 33) m = 0) : foldSome l n s = s := by
  simp [foldSome, State.magAt, hm, hleft, foldBlocks]

theorem foldResult_eq {l : LongOp} (hm : tget s.flash.magazines (byteAt l.entry 32) = some m) : s.foldResult l = s.slcUsed m.sn := by
  simp only [State.foldResult, State.magAt, hm]

/-! ### REBUILD (R299) -/

theorem rebuildCheck_ok {v : Volume} {b : Nat} (hvol : c.volume ≤ 127) (hform : eDataForm c.entry = 1)
    (hv : tget s.flash.volumes c.volume = some v) (hm : s.volMag v = some (b, m)) (ht : m.takesCommands = true)
    (hrange : c.p64 40 + s.rebuildCount c.entry ≤ v.blocks) : rebuildCheck c s = stOk := by
  unfold rebuildCheck
  rw [if_neg (by omega)]
  simp only [State.volStatus, hv, hm, ht, if_neg (Nat.not_lt.mpr hrange), Bool.false_and, Bool.false_eq_true, if_false, Bool.not_true]

section
variable {l : LongOp} {weak : List Nat}

theorem moves_rebuildScan (ok : Bool) (n : Nat) : Moves s (rebuildScan l ok weak n s).1 := by
  have hcopies : ∀ (ks : List Nat) (u : State), Moves s u →
      Moves s (ks.foldl (fun t k => startCopies (((tget s.flash.volumes (field l.entry 32 2)).map Volume.sn).getD 0) (s.blockClass k)
        none [k] t) u) := fun ks u hu => moves_foldl (fun _ _ hu => moves_startCopies _ _ _ _ hu) ks hu
  unfold rebuildScan
  dsimp only
  split
  · exact moves_emits _ (hcopies _ _ (moves_flashReads _ (.refl s)))
  · exact hcopies _ _ (moves_flashReads _ (.refl s))

/-- A scan of the whole range whose extents all fit. -/
theorem rebuildScan_whole (ok : Bool) (hl : l.progress = 0)
    (hroom : (extentsOf ((s.lostIn (field l.entry 32 2) (field l.entry 40 8) (s.rebuildCount l.entry)).map
      (field l.entry 40 8 + ·))).length ≤ eDataLen l.entry / 16) :
    (rebuildScan l ok weak (s.rebuildCount l.entry) s).2.2 = true ∧
    (rebuildScan l ok weak (s.rebuildCount l.entry) s).2.1.progress = s.rebuildCount l.entry +
      (extentsOf ((s.lostIn (field l.entry 32 2) (field l.entry 40 8) (s.rebuildCount l.entry)).map
        (field l.entry 40 8 + ·))).length * 2 ^ 40 := by
  unfold rebuildScan
  simp only [hl, Nat.zero_mod, Nat.zero_div, Nat.sub_zero, Nat.min_self, Nat.add_zero, Nat.zero_add, hroom, decide_true, if_true,
    List.take_of_length_le hroom, and_self]

theorem rebuildDone_completes {v : Volume} (hv : tget s.flash.volumes (field l.entry 32 2) = some v)
    (hm : (s.volMag v).isSome = true) (hgone : l.removed = false) (hi : s.flash.inhibit = false) (hl : l.progress = 0)
    (hroom : (extentsOf ((s.lostIn (field l.entry 32 2) (field l.entry 40 8) (s.rebuildCount l.entry)).map
      (field l.entry 40 8 + ·))).length ≤ eDataLen l.entry / 16) :
    rebuildDone true weak l s = finish l.pair l.cid stOk (s.rebuildCount l.entry +
      (extentsOf ((s.lostIn (field l.entry 32 2) (field l.entry 40 8) (s.rebuildCount l.entry)).map
        (field l.entry 40 8 + ·))).length * 2 ^ 40) (rebuildScan l true weak (s.rebuildCount l.entry) s).1 := by
  obtain ⟨x, hx⟩ := Option.isSome_iff_exists.mp hm
  obtain ⟨hfits, hprogress⟩ := rebuildScan_whole (weak := weak) true hl hroom
  simp only [rebuildDone, hv, hx, hgone, hi, Bool.false_eq_true, Bool.false_and, Bool.not_true, if_false, hfits, if_true, hprogress]

end

/-! ### Eject (R308, R309) -/

theorem magazineEject_quiesces (hm : tget s.flash.magazines (c.p8 32) = some m) (hst : m.state = 3 ∨ m.state = 4) :
    magazineEject c s = quiesce (c.p8 32) (markRunning c.pair c.cid (modBay (c.p8 32) (fun m =>
      { m with state := 5, prior := m.state, ejecting := true, ejectBy := some (c.pair, c.cid) }) s)) := by
  simp only [magazineEject, State.magAt, hm]
  rw [if_neg (by omega), if_neg (by omega)]

theorem powerOff_completes (hm : tget s.flash.magazines bay = some m) (hby : m.ejectBy = some (pair, cid)) :
    ∃ u, powerOff bay m s = finishPlain pair cid stOk u ∧ (tget u.flash.magazines bay).map Magazine.state = some 6 := by
  simp only [powerOff, hby]
  refine ⟨_, rfl, ?_⟩
  rw [flash_of_work (magPin_work _ _ _ _), flash_of_work (magPin_work _ _ _ _), flash_of_work (magEvent_work _ _ _),
    modBay_magazine _ hm]
  rfl

/-- A quiescing magazine, with no WRITE to its volumes in flight, is powered off or has its stripes closed. -/
theorem ejectPowerOff_eq (hm : tget s.flash.magazines bay = some m) (hst : m.state = 5) (hq : m.quiescing = true)
    (hi : s.flash.inhibit = false) (hw : ∀ c ∈ s.ken.cmds, (c.writing && s.writesTo m.sn c) = false) :
    ejectPowerOff bay s = if s.allVerified m.sn then powerOff bay m s else closeAll m.sn s := by
  have hnone : (s.ken.cmds.any fun c => c.writing && s.writesTo m.sn c) = false :=
    List.any_eq_false.mpr fun c hc => by simp [hw c hc]
  simp only [ejectPowerOff, State.magAt, hm, hst, hq, hi, hnone, Bool.not_false, and_self, if_true]

end

end Sys2Proof.Machine

/-! ### The statements -/

namespace Sys2Proof.Machine.Magazines

/-- Settles O19: each command starts its operation, which passes its checks and runs to its end. -/
theorem magazineOperationsComplete : Obligations.MagazineOperationsComplete := by
  refine ⟨fun s pair cid c m h hbay hm hst hvol hi => ?_, fun s pair cid c m h hbay hpct hm hst hi hland => ?_,
    fun s pair cid c v b m weak h hvol hform hv hm ht hrange hi hland _ hroom => ?_, fun s pair cid c m h hbay hm hst => ?_,
    fun s bay m pair cid ha hm hst hq hby hi hw hver => ?_, fun s pair cid c h => ⟨fun hbay hbuf => ?_, fun hbay hbuf => ?_⟩⟩
  · obtain ⟨u, hu, hempty⟩ := formatDone_formats (s := dropLong 0 s) (l := c.operation (magTarget c s)) hm rfl hi
    refine ⟨_, u, (live_runLong_of_starts (target := magTarget) formatDone h (formatCheck_ok hbay hm hst hvol)).trans (congrArg _ hu),
      rfl, hempty.stripes, hempty.home, fun v => ?_⟩
    rw [hempty.volumes]
    rfl
  · have hrun := live_runLanding_of_starts (target := magTarget) (check := foldCheck) foldDone h (foldCheck_ok hbay hpct hm hst) hland
    have hdone := foldDone_eq (s := dropLong 0 s) (l := c.operation (magTarget c s)) hm rfl hi
    refine ⟨fun hleft => ⟨_, dropLong 0 s, hrun, ?_, rfl, rfl⟩, _, folded (c.operation (magTarget c s)) m.sn (dropLong 0 s), hrun,
      folded_blocks _ _ _, fun hleft => ⟨_, hdone.trans (if_pos hleft)⟩, fun hleft =>
        ⟨_, c.operation (magTarget c s), hdone.trans (if_neg hleft), rfl, rfl⟩⟩
    have hnone : folded (c.operation (magTarget c s)) m.sn (dropLong 0 s) = dropLong 0 s := by
      rw [folded, foldSome_nothing (s := dropLong 0 s) (l := c.operation (magTarget c s)) hm hleft, wearCheck_self]
    rw [hdone, hnone, foldResult_eq (s := dropLong 0 s) (l := c.operation (magTarget c s)) hm]
    exact if_pos hleft
  · have hmoves := moves_rebuildScan (s := dropLong 0 s) (l := c.operation (rebuildTarget c s)) (weak := weak) true (s.rebuildCount c.entry)
    refine ⟨_, _, (live_runLanding_of_starts (target := rebuildTarget) (check := rebuildCheck) (rebuildDone true weak) h
      (rebuildCheck_ok hvol hform hv hm ht hrange) hland).trans (congrArg _ (rebuildDone_completes hv ?_ rfl hi rfl hroom)),
      hmoves.content.blocks, hmoves.content.lost, rfl⟩
    exact Option.isSome_iff_exists.mpr ⟨_, hm⟩
  · refine ⟨_, (live_runCmd_of_ready magazineEject h).trans (congrArg _ (magazineEject_quiesces hm hst)), ?_, ?_⟩
    · exact quiesce_magazine (s := markRunning c.pair c.cid _) (modBay_magazine _ hm)
    · exact departService_outOfService _ _
  · obtain ⟨u, hu, hoff⟩ := powerOff_completes hm hby
    exact ⟨_, u, (live_of_alive ha).trans (congrArg _ (ejectPowerOff_eq hm hst hq hi hw)), (if_pos hver).trans hu, hoff⟩
  · refine (live_runCmd_of_ready (wearReport true) h).trans (congrArg _ ?_)
    unfold wearReport
    rw [if_neg (by omega), if_neg (by simp [hbuf]; omega)]
    rfl
  · refine (live_runCmd_of_ready (wearReport true) h).trans (congrArg _ ?_)
    unfold wearReport
    rw [if_pos hbay, if_pos hbuf]
    rfl

/-- Settles O21: the row of each event takes the branch of its condition. -/
theorem magazinesComeAndGo : Obligations.MagazinesComeAndGo := by
  refine ⟨fun s bay ha hm hbay => ?_, fun s bay fault dies g rates i ha hbay hst => ?_, fun s bay dies g rates i ha hbay hst hg hr => ?_,
    fun s bay dies g rates i ha hbay hst => ?_, fun s bay m u ha hm hst hi hu => ?_, fun s bay m ha hm hst => ?_,
    fun s bay m ha hm hst hq => ?_, fun s bay m ha hm hst hq => ?_, fun s bay m ha hm hst hq hi hw => ?_,
    fun s bay m ha hm hst hq hi => ?_, fun s bay m ha hm hst => ?_, fun s bay m ha hm hp => ?_, fun s bay m ha hbay hm hst => ?_⟩
  · exact (live_of_alive ha).trans (congrArg _ (by simp [presenceRise, hm, hbay]))
  · refine (live_of_alive ha).trans (congrArg _ ?_)
    unfold insertionDebounce
    rw [if_neg (by simp [hbay]; omega)]
    rfl
  · refine (live_of_alive ha).trans (congrArg _ ?_)
    simp only [insertionDebounce]
    rw [if_neg (by simp [hbay]; omega), hg]
    simp only [Bool.not_true, Bool.false_eq_true, if_false]
    exact if_neg (by simpa using fun h0 => hr 0 h0 rfl)
  · refine (live_of_alive ha).trans (congrArg _ ?_)
    unfold insertionDebounce
    rw [if_neg (by simp [hbay]; omega)]
    rfl
  · subst hu
    refine (live_of_alive ha).trans (congrArg _ ?_)
    simp only [magazineReady, State.magAt, hm]
    rw [if_neg (by omega), hi]
    rfl
  · refine ⟨_, live_of_alive ha, ?_⟩
    simp only [attentionButton, State.magAt, hm, if_pos hst]
    rw [flash_of_work (magPin_work _ _ _ _), flash_of_work (magEvent_work _ _ _), modBay_magazine _ hm]
  · refine ⟨_, live_of_alive ha, ?_⟩
    simp only [attentionButton, State.magAt, hm]
    rw [if_neg (by omega), if_pos (by simp [hst, hq]), flash_of_work (magPin_work _ _ _ _), flash_of_work (magEvent_work _ _ _),
      modBay_magazine _ hm]
  · exact (live_of_alive ha).trans (congrArg _ (by simp [ejectWindowExpiry, State.magAt, hm, hst, hq, quiesce]))
  · exact (live_of_alive ha).trans (congrArg _ (ejectPowerOff_eq hm hst hq hi hw))
  · exact (live_of_alive ha).trans (congrArg _ (by simp [ejectInhibitTimeout, State.magAt, hm, hst, hq, hi]))
  · refine ⟨_, live_of_alive ha, ?_⟩
    simp only [surpriseRemoval, State.magAt, hm, if_neg hst]
    rw [flash_of_work (magPin_work _ _ _ _), flash_of_work (showAmber_work _ _ _)]
    exact ⟨tget_tdel _ _, tget_tdel _ _⟩
  · exact (live_of_alive ha).trans (congrArg _ (by simp [magazinePowerFault, State.magAt, hm, hp]))
  · exact (live_of_alive ha).trans (congrArg _ (by simp [safeRemoval, State.magAt, hm, hbay, hst, takeAway]))

end Sys2Proof.Machine.Magazines
end

section
/-! Proof of the statement about the events of the flash media (R292 to R298, R304 to R306): each operation, by the branches of its
conditions. -/

namespace Sys2Proof.Machine

section
variable {s : State} {bay : Nat} {m : Magazine}

/-! ### Reads and verification -/

theorem flashReadComplete_eq {volume block k b n member : Nat} {reads : List (Option FlashRead)} {v : Volume} {u : State}
    (hv : tget s.flash.volumes volume = some v) (hk : tget s.flash.home (blockKey volume block) = some k)
    (hm : s.volMag v = some (b, m))
    (hn : n = correction (((tget s.flash.stripes k).map fun st => !st.parity.isEmpty).getD false) volume block reads)
    (hmember : member = memberOf m.planes (s.wordIndex (blockKey volume block)))
    (hu : u = emits (retryOps b (m.flashPlace (k % 2 ^ 32) member) n) (modMag v.sn (fun m => m.countRead (histBucket n)) s)) :
    flashReadComplete volume block reads s =
      if n = 18 then recordErr
        (flashErr b (member / 2) 0x0301 clsContained (blockKey volume block) (m.dieOfMember (k % 2 ^ 32) member)
          (m.blockNo (k % 2 ^ 32)) (s.erases m k)) (loseBlocks b v.sn [blockKey volume block] u)
      else if 8 ≤ n then relocateWeak { u with flash := { u.flash with
        weak := if blockKey volume block ∈ u.flash.weak then u.flash.weak else u.flash.weak ++ [blockKey volume block] } }
      else u := by
  subst hn hmember hu
  simp only [flashReadComplete, hv, hk, hm]

theorem stripeVerify_passes {k b : Nat} {st : Stripe} (hst : tget s.flash.stripes k = some st)
    (hm : s.magOf (stripeSn k) = some (b, m)) (hclosed : st.closed = true) (hver : st.verified = false) {u : State}
    (hu : u = (List.range 16).foldl (fun (t : State) (i : Nat) => dieOp .read b m (k % 2 ^ 32) i t) s) :
    stripeVerify k [] s = completeFlushes (releaseParity (eraseEmpty (stripeSn k) (wearCheck (stripeSn k) s
      { u with flash := { u.flash with stripes := tput u.flash.stripes k { st with verified := true } } }))) := by
  subst hu
  have hnone : s.failedMembers b m [] = [] := rfl
  simp only [stripeVerify, hst, hm, hclosed, hver, hnone, Bool.not_false, Bool.and_self, if_true, List.foldl_nil]

theorem programFail_recovers {k die b : Nat} {st : Stripe} (hst : tget s.flash.stripes k = some st)
    (hm : s.magOf (stripeSn k) = some (b, m)) (hopen : st.closed = false)
    (hspare : tgetD m.sparesUsed (m.dieOfMember (k % 2 ^ 32) die) 0 < m.spares) :
    programFail k die none s = wearCheck (stripeSn k) s (recordErr
      (flashErr b (die / 2) 0x0302 clsCorrected (((s.wordsOn k m.planes [die]).map FlashWord.key).headD 0)
        (m.dieOfMember (k % 2 ^ 32) die) (m.blockNo (k % 2 ^ 32)) (s.erases m k))
      (rewriteWords k st.slc st.cls (s.wordsOn k m.planes [die]) (retireBlock k die s))) := by
  have hspares : ([die].filter fun x => decide (m.spares ≤ tgetD m.sparesUsed (m.dieOfMember (k % 2 ^ 32) x) 0)) = [] := by
    simpa using hspare
  simp only [programFail, hst, hm, hopen, Bool.false_eq_true, if_false, Option.toList_none, hspares, List.isEmpty_nil, Bool.not_true,
    List.foldl_cons, List.foldl_nil]

/-! ### Background work -/

section
variable {r : State} (hr : r = relocateWeak s) (hm : tget r.flash.magazines bay = some m) (hwork : r.mayWork m = true)
include hr hm hwork

section
variable {units : Nat} (hland : r.landing = true)
  (hfold : ∀ l ∈ r.ken.longOps, ¬ (l.opcode = 0x0307 ∧ l.target = uMagazine bay)) {start : Nat}
  (hstart : start = r.slcCapacity bay m * r.raw 0x07 bay 0x03 50 / 100)
include hland hfold hstart

/-- Background folding that is off stays off below its start. -/
theorem backgroundFold_off (hoff : m.sn ∉ r.flash.foldOn) (hlow : r.slcUsed m.sn < start) : backgroundFold bay units s = r := by
  subst hr hstart
  have hheld : ((relocateWeak s).ken.longOps.any fun l => l.opcode == 0x0307 && l.target == uMagazine bay) = false :=
    List.any_eq_false.mpr fun l hl => by simpa using hfold l hl
  simp only [backgroundFold, State.magAt, hm, hwork, hland, hheld, hoff, hlow, Bool.not_true, Bool.or_false, decide_true, decide_false,
    Bool.not_false, Bool.and_self, Bool.false_eq_true, if_false, if_true]

/-- Background folding that is on goes off at half its start, and folds down to it before. -/
theorem backgroundFold_on (hon : m.sn ∈ r.flash.foldOn) : backgroundFold bay units s =
    if r.slcUsed m.sn ≤ start / 2 then { r with flash := { r.flash with foldOn := r.flash.foldOn.filter (· ≠ m.sn) } }
    else wearCheck m.sn r (foldBlocks m.sn (min units (r.slcUsed m.sn - start / 2)) r) := by
  subst hr hstart
  have hheld : ((relocateWeak s).ken.longOps.any fun l => l.opcode == 0x0307 && l.target == uMagazine bay) = false :=
    List.any_eq_false.mpr fun l hl => by simpa using hfold l hl
  simp only [backgroundFold, State.magAt, hm, hwork, hland, hheld, hon, Bool.not_true, Bool.or_false, decide_true, Bool.false_eq_true,
    if_false, if_true, Bool.false_and, Bool.true_and, decide_eq_true_eq]

end

theorem garbageCollection_on {group : Nat} (hon : m.sn * 256 + group ∈ r.flash.gcOn) :
    garbageCollection bay group s =
      if r.raw 0x07 bay 0x05 24 ≤ r.freeInGroup m group then
        { r with flash := { r.flash with gcOn := r.flash.gcOn.filter (· ≠ m.sn * 256 + group) } }
      else match r.victimOf m group with
        | none => r
        | some k => wearCheck m.sn r (relocateStripe m.sn k (min 3 (((tget r.flash.stripes k).map Stripe.cls).getD 0 + 1)) r) := by
  subst hr
  simp only [garbageCollection, State.magAt, hm, hwork, hon, Bool.not_true, decide_true, Bool.false_eq_true, if_false, Bool.false_and,
    Bool.true_and, decide_eq_true_eq, if_true] <;> rfl

end

theorem staticWearLevelling_levels {k : Nat} (hm : tget s.flash.magazines bay = some m) (hwork : s.mayWork m = true)
    (hk : s.coldest m.sn = some k) (hspread : s.raw 0x07 bay 0x06 1000 < s.eraseMax m - s.eraseMin m) :
    staticWearLevelling bay s = wearCheck m.sn s (relocateStripe m.sn k 3 s) := by
  simp only [staticWearLevelling, State.magAt, hm, hwork, hk, hspread, decide_true, Bool.and_self, if_true]

theorem relocationSwitch_switches {volume block k : Nat} {st : Stripe} (hk : tget s.flash.copies (blockKey volume block) = some k)
    (hst : tget s.flash.stripes k = some st) (hclosed : st.closed = true) (hver : st.verified = true) :
    relocationSwitch volume block s = wearCheck (stripeSn k) s (eraseEmpty (stripeSn k)
      { s with flash := { s.flash with
        home := tput s.flash.home (blockKey volume block) k, copies := tdel s.flash.copies (blockKey volume block) } }) := by
  simp only [relocationSwitch, hk, hst, hclosed, hver, Option.map_some, Bool.and_self, Option.getD_some, if_true]

/-! ### Supply sag -/

theorem programInhibitSet_sets {pct : Nat} (hi : s.flash.inhibit = false) {u : State}
    (hu : u = failWrites (fun _ => true) stSupplyLow (failAppends (fun _ => true) stSupplyLow { s with flash := { s.flash with
      pwrWarn := true, railLow := decide (pct < s.inhibitPct) } })) :
    programInhibitSet true pct s = emit (.pin "WP#" 0) (raiseEvent 0x0006 uPackage (1 + 2 ^ 8)
      (bump 0x07 0x0100 0x03 { u with flash := { u.flash with inhibit := true } })) := by
  subst hu
  simp only [programInhibitSet, hi, Bool.true_or, Bool.not_false, Bool.and_self, if_true]

end

end Sys2Proof.Machine

/-! ### The statement -/

namespace Sys2Proof.Machine.FlashEvents

/-- Settles O22: each row runs its event's operation, whose branch its conditions choose. -/
theorem flashEventsWork : Obligations.FlashEventsWork := by
  refine ⟨fun s volume block reads v k b m n member u ha hv hk hm hn hmember hu => ?_, fun s k st b m u ha hst hm hclosed hver hu => ?_,
    fun s k die st b m hit u ha hst hm hopen hspare hhit hu => ?_, fun s r bay units m ha hr hm hwork hland hfold => ?_,
    fun s r bay group m k ha hr hm hwork hon => ⟨fun hfree => ?_, fun hfree hk => ?_⟩, fun s bay m k ha hm hwork hk hspread => ?_,
    fun s volume block k st ha hk hst hclosed hver => ?_, fun s ha => live_of_alive ha, fun s pct u ha hi hu => ?_,
    fun s u ha hi hu => ?_, fun s pct busy ha hlow => ?_⟩
  · have hrun := (live_of_alive ha).trans (congrArg _ (flashReadComplete_eq hv hk hm hn hmember hu))
    refine ⟨fun hlow => hrun.trans (congrArg _ ?_), fun hhigh hne => hrun.trans (congrArg _ ?_), fun heq => hrun.trans (congrArg _ ?_)⟩
    · rw [if_neg (by omega), if_neg (by omega)]
    · rw [if_neg hne, if_pos hhigh]
    · rw [if_pos heq]
  · exact (live_of_alive ha).trans (congrArg _ (stripeVerify_passes hst hm hclosed hver hu))
  · subst hhit hu
    exact (live_of_alive ha).trans (congrArg _ (programFail_recovers hst hm hopen hspare))
  · refine ⟨fun hoff hlow => (live_of_alive ha).trans (congrArg _ (backgroundFold_off hr hm hwork hland hfold rfl hoff hlow)),
      fun hon hlow => (live_of_alive ha).trans (congrArg _ ((backgroundFold_on hr hm hwork hland hfold rfl hon).trans (if_pos hlow))),
      fun hon hhigh => (live_of_alive ha).trans (congrArg _ ((backgroundFold_on hr hm hwork hland hfold rfl hon).trans
        (if_neg (Nat.not_le.mpr hhigh))))⟩
  · exact (live_of_alive ha).trans (congrArg _ ((garbageCollection_on hr hm hwork hon).trans (if_pos hfree)))
  · refine (live_of_alive ha).trans (congrArg _ ((garbageCollection_on hr hm hwork hon).trans ?_))
    rw [if_neg (Nat.not_le.mpr hfree), hk]
  · exact (live_of_alive ha).trans (congrArg _ (staticWearLevelling_levels hm hwork hk hspread))
  · exact (live_of_alive ha).trans (congrArg _ (relocationSwitch_switches hk hst hclosed hver))
  · exact (live_of_alive ha).trans (congrArg _ (programInhibitSet_sets hi hu))
  · subst hu
    exact (live_of_alive ha).trans (congrArg _ (by simp only [programInhibitClear, hi, if_true]))
  · exact (live_of_alive ha).trans (congrArg _ (if_pos hlow))

end Sys2Proof.Machine.FlashEvents
end

section
/-! Proofs of the statements about the catalog commands (R82 to R89) and about the loads of tables and models (R172, R212). -/

namespace Sys2Proof.Machine

section
variable {s : State} {c : Cmd} {l : LongOp}

/-! ### CATALOG_LOAD (R82, R83) -/

/-- Staging changes what is left of the operation's data and its progress alone. -/
theorem loadSome_op (l : LongOp) (n : Nat) (s : State) :
    (loadSome l n s).2.1.pair = l.pair ∧ (loadSome l n s).2.1.cid = l.cid ∧ (loadSome l n s).2.1.entry = l.entry := by
  unfold loadSome
  dsimp only
  split_ifs
  all_goals exact ⟨rfl, rfl, rfl⟩

theorem loadEnd_stages {g : Staged} (hg : tget s.cat.staged (field l.entry 32 2) = some g) (hlast : bitOf (byteAt l.entry 56) 1 = false) :
    loadEnd l s = finish l.pair l.cid stOk g.runs.length s := by
  simp only [loadEnd, hg, hlast, Bool.false_eq_true, if_false]

theorem loadEnd_commits {g : Staged} (hg : tget s.cat.staged (field l.entry 32 2) = some g) (hlast : bitOf (byteAt l.entry 56) 1 = true)
    (hwhole : ∃ sl rest, g.slices = sl :: rest ∧ sl.total = g.slices.length)
    (hroom : thas s.cat.committed (field l.entry 32 2) = true ∨ s.cat.committed.length < 4096)
    (hruns : s.runsWith (field l.entry 32 2) g ≤ 16777216) :
    loadEnd l s = finish l.pair l.cid stOk g.runs.length (commitLoad (field l.entry 32 2) g s) := by
  obtain ⟨sl, rest, hslices, htotal⟩ := hwhole
  have hall : ¬ (g.slices.length ≠ (g.slices.head?.map Slice.total).getD 0 ∨ g.slices.isEmpty = true) := by
    simp [hslices, htotal]
  have hfits : ((!thas s.cat.committed (field l.entry 32 2) && decide (4096 ≤ s.cat.committed.length)) ||
      decide (16777216 < s.runsWith (field l.entry 32 2) g)) = false := by
    obtain hthere | hlen := hroom
    · simp [hthere, hruns]
    · simp [hruns, hlen]
  simp only [loadEnd, hg, hlast, if_true, if_neg hall, hfits, Bool.false_eq_true, if_false]

/-- A load whose slices all parse ends by what it staged. -/
theorem loadDone_ends {r : Nat × LongOp × State} (hr : r = loadSome l l.data.length (noteDataset l s)) (hok : r.1 = stOk) :
    loadDone l s = loadEnd r.2.1 r.2.2 := by
  subst hr
  unfold loadDone
  dsimp only
  rw [if_neg (by simp [hok])]

/-! ### ROUTING_SUMMARY_LOAD (R85, R86) -/

section
variable {d : Bytes} {es : List Route} {total : Nat} (hd : c.data = some d) (hn : c.p32 48 ≠ 0) (hform : c.dataIs (16 * c.p32 48) = true)
  (hlen : d.length = 16 * c.p32 48) (hes : parseRoutes 0 (pieces 16 (c.p32 48) d) = some (es, total))
  (hthere : thas s.cat.committed (c.p16 32) = true ∨ thas s.cat.staged (c.p16 32) = true)
  (hsizes : s.sizesOf (c.p16 32) (c.p64 40) ≠ []) (hsize : ∀ n ∈ s.sizesOf (c.p16 32) (c.p64 40), n = total)
include hd hn hform hlen hes hthere hsizes hsize

theorem routingSummaryLoad_idle {sum : Summary} (hidle : s.datasetInUse (c.p16 32) = false)
    (hsum : sum = { fromBatch := 0, version := c.p64 40, size := total, entries := es })
    (hroom : s.routesWith (c.p16 32) [sum] ≤ 1048576) :
    routingSummaryLoad c s = finishPlain c.pair c.cid stOk (storeObject 4 (c.p16 32) sum.image
      { s with cat := { s.cat with summaries := tput s.cat.summaries (c.p16 32) [sum] } }) := by
  have hhead : ¬ (c.p32 48 = 0 ∨ (!c.dataIs (16 * c.p32 48)) = true ∨ d.length ≠ 16 * c.p32 48) := by simp [hn, hform, hlen]
  have hknown : (!thas s.cat.committed (c.p16 32) && !thas s.cat.staged (c.p16 32)) = false := by simpa [or_iff_not_imp_left] using hthere
  have hagree : ((s.sizesOf (c.p16 32) (c.p64 40)).any fun n => decide (n ≠ total)) = false :=
    List.any_eq_false.mpr fun n hmem => by simp [hsize n hmem]
  simp only [routingSummaryLoad, withData, hd, if_neg hhead, hes, hknown, Bool.false_eq_true, if_false, List.isEmpty_iff, hsizes, hagree,
    hidle, Bool.false_and, List.nil_append]
  rw [← hsum, if_neg (Nat.not_lt.mpr hroom), List.map_singleton, List.flatten_singleton, id]

theorem routingSummaryLoad_running {sum : Summary} {kept : List Summary} (hrun : s.datasetInUse (c.p16 32) = true)
    (hbatch : s.startedOf (c.p16 32) ≤ c.p64 56)
    (hsum : sum = { fromBatch := c.p64 56, version := c.p64 40, size := total, entries := es })
    (hkept : kept = (tgetD s.cat.summaries (c.p16 32) []).filter fun m => decide (m.fromBatch < c.p64 56))
    (hroom : s.routesWith (c.p16 32) (kept ++ [sum]) ≤ 1048576) :
    routingSummaryLoad c s = finishPlain c.pair c.cid stOk (staleSchedules (c.p16 32) (c.p64 56)
      (storeObject 4 (c.p16 32) ((kept ++ [sum]).map Summary.image).flatten
        { s with cat := { s.cat with summaries := tput s.cat.summaries (c.p16 32) (kept ++ [sum]) } })) := by
  subst hsum hkept
  have hhead : ¬ (c.p32 48 = 0 ∨ (!c.dataIs (16 * c.p32 48)) = true ∨ d.length ≠ 16 * c.p32 48) := by simp [hn, hform, hlen]
  have hknown : (!thas s.cat.committed (c.p16 32) && !thas s.cat.staged (c.p16 32)) = false := by simpa [or_iff_not_imp_left] using hthere
  have hagree : ((s.sizesOf (c.p16 32) (c.p64 40)).any fun n => decide (n ≠ total)) = false :=
    List.any_eq_false.mpr fun n hmem => by simp [hsize n hmem]
  simp only [routingSummaryLoad, withData, hd, if_neg hhead, hes, hknown, Bool.false_eq_true, if_false, List.isEmpty_iff, hsizes, hagree,
    hrun, Bool.true_and, if_true, decide_eq_true_eq, if_neg (Nat.not_lt.mpr hbatch), if_neg (Nat.not_lt.mpr hroom)]

end

/-! ### CATALOG_LOOKUP (R89) -/

theorem catalogLookup_answers {k : Catalog} {m : Summary} {own : Nat} {r : Run} (hbuf : c.exactBuf 32 = true)
    (hk : tget s.cat.committed (c.p16 32) = some k) (hi : c.p64 40 < k.size) (huser : s.newestUser (c.p16 32) = none)
    (hm : s.summaryFor (c.p16 32) (2 ^ 64) = some m) (hown : m.owner (c.p64 40) = some own) (hr : runOf k.runs (c.p64 40) = some r) :
    catalogLookup true c s = replyData c true (putLE 2 own ++ putLE 2 r.volume ++ putLE 4 r.reel
      ++ putLE 4 (r.slateBase + (c.p64 40 - r.first)) ++ zeros 4
      ++ putLE 8 (((tget s.cat.reels (reelKey r.volume r.reel)).map Reel.start).getD 0) ++ putLE 8 k.version) 1 id (tickFree s) := by
  simp only [catalogLookup, hbuf, hk, if_neg (Nat.not_le.mpr hi), huser, Option.map_none, Option.getD_none, hm, Option.bind_some, hown,
    Option.getD_some, hr, Option.isSome_some, if_true, Bool.not_true, Bool.false_eq_true, if_false]

/-! ### Tables and models (R172, R212) -/

theorem tableDone_loads {key : Nat} (hkey : key = s.ordOf l.pair l.cid * 8 + tableSlot l.cmd) (hload : tableUnload l.cmd = false)
    (hst : tableStatus (tableKind l.cmd) l.data = stOk) :
    tableDone l s = finish l.pair l.cid stOk (field l.data 56 4 + field l.data 8 4 * 2 ^ 32)
      (storeObject (if tableKind l.cmd = 0 then 17 else 18) key l.data { s with
        slots := if tableKind l.cmd = 0 then { s.slots with pendMerges := tput s.slots.pendMerges key (mergeImage l.data) }
          else { s.slots with pendAutomata := tput s.slots.pendAutomata key (automatonImage l.data) } }) := by
  subst hkey
  simp only [tableDone, hload, hst, Bool.false_eq_true, if_false, ne_eq, not_true_eq_false]
  split
  · rfl
  · rfl

theorem tableDone_unloads_merges (hunload : tableUnload l.cmd = true) (hkind : tableKind l.cmd = 0)
    (hthere : thas s.slots.merges (tableSlot l.cmd) = true) :
    tableDone l s = finishPlain l.pair l.cid stOk
      { s with slots := { s.slots with merges := tdel s.slots.merges (tableSlot l.cmd) } } := by
  simp only [tableDone, tableUnloadDone, hunload, hkind, hthere, if_true]

theorem tableDone_unloads_automata (hunload : tableUnload l.cmd = true) (hkind : tableKind l.cmd ≠ 0)
    (hthere : thas s.slots.automata (tableSlot l.cmd) = true) :
    tableDone l s = finishPlain l.pair l.cid stOk
      { s with slots := { s.slots with automata := tdel s.slots.automata (tableSlot l.cmd) } } := by
  simp only [tableDone, tableUnloadDone, hunload, if_neg hkind, hthere, if_true]

theorem modelDone_loads {key : Nat} (hkey : key = s.ordOf l.pair l.cid * 8 + modelSlot l.cmd) (hload : modelUnload l.cmd = false)
    (hok : packageOk l.data = true) (hroom : s.otherWeights (modelSlot l.cmd) + field l.data 32 8 ≤ 2 ^ 36) :
    modelDone l s = if packageSigned s.pow.modelCert l.data = true then
        finish l.pair l.cid stOk (field l.data 40 8) (storeObject 16 key l.data { s with
          slots := { s.slots with pendModels := tput s.slots.pendModels key (packageOf l.data) } })
      else refuse l.pair l.cid stSignature s := by
  subst hkey
  simp only [modelDone, hload, hok, Bool.not_true, Bool.false_eq_true, if_false, if_neg (Nat.not_lt.mpr hroom)]
  cases packageSigned s.pow.modelCert l.data with
  | true => rfl
  | false => rfl

theorem modelDone_unloads {k : Package} (hunload : modelUnload l.cmd = true) (hk : tget s.slots.models (modelSlot l.cmd) = some k) :
    modelDone l s = finish l.pair l.cid stOk k.packageId
      { s with slots := { s.slots with models := tdel s.slots.models (modelSlot l.cmd) } } := by
  simp only [modelDone, hunload, thas, hk, Option.isSome_some, Option.map_some, Option.getD_some, if_true]

end

end Sys2Proof.Machine

/-! ### The statements -/

namespace Sys2Proof.Machine.Loads

/-- Settles O25: the row of each command runs its operation, which passes its checks. -/
theorem catalogCommandsWork : Obligations.CatalogCommandsWork := by
  refine ⟨fun s pair cid c l r g h hr hok hg => ?_, fun s pair cid c d es total sum kept h hd hn hform hlen hes hthere hsizes hsize =>
    ⟨fun hidle hsum _ hroom => ?_, fun hrun hbatch hsum hkept hroom => ?_⟩, fun s pair cid c k m own r h hbuf hk hi huser hm hown hr => ?_⟩
  · obtain ⟨hpair, hcid, hentry⟩ := loadSome_op l l.data.length (noteDataset l (dropLong l.handle s))
    rw [← hr] at hpair hcid hentry
    have hrun : live (runLong 0x0100 pair cid catalogTarget catalogCheck loadDone) s = .next (loadEnd r.2.1 r.2.2) :=
      (live_runLong_of_enters loadDone h).trans (congrArg _ (loadDone_ends hr hok))
    rw [← hpair, ← hcid, ← hentry]
    rw [← hentry] at hg
    exact ⟨fun hlast => hrun.trans (congrArg _ (loadEnd_stages hg hlast)),
      fun hlast hwhole hroom hruns => hrun.trans (congrArg _ (loadEnd_commits hg hlast hwhole hroom hruns))⟩
  · exact (live_runCmd_of_ready routingSummaryLoad h).trans
      (congrArg _ (routingSummaryLoad_idle hd hn hform hlen hes hthere hsizes hsize hidle hsum hroom))
  · exact (live_runCmd_of_ready routingSummaryLoad h).trans
      (congrArg _ (routingSummaryLoad_running hd hn hform hlen hes hthere hsizes hsize hrun hbatch hsum hkept hroom))
  · exact (live_runCmd_of_ready (catalogLookup true) h).trans (congrArg _ (catalogLookup_answers hbuf hk hi huser hm hown hr))

/-- Settles O27: the row of each command runs the last slice of its operation, which passes its checks. -/
theorem tableAndModelLoadsWork : Obligations.TableAndModelLoadsWork := by
  refine ⟨fun s pair cid c l key h hkey => ?_, fun s pair cid c l key h hkey => ?_⟩
  · have hrun : live (runLong 0x0206 pair cid tableTarget tableCheck tableDone) s = .next (tableDone l (dropLong l.handle s)) :=
      live_runLong_of_enters tableDone h
    exact ⟨fun hload hst => hrun.trans (congrArg _ (tableDone_loads hkey hload hst)),
      fun hunload hkind hthere => hrun.trans (congrArg _ (tableDone_unloads_merges hunload hkind hthere)),
      fun hunload hkind hthere => hrun.trans (congrArg _ (tableDone_unloads_automata hunload hkind hthere))⟩
  · have hrun : live (runLong 0x0204 pair cid modelTarget modelCheck modelDone) s = .next (modelDone l (dropLong l.handle s)) :=
      live_runLong_of_enters modelDone h
    exact ⟨fun hload hok hroom => hrun.trans (congrArg _ (modelDone_loads hkey hload hok hroom)),
      fun k hunload hk => hrun.trans (congrArg _ (modelDone_unloads hunload hk))⟩

end Sys2Proof.Machine.Loads
end

section
/-! Proof of the statement about the pipeline commands (R130 to R144): what each accepted command does. -/

namespace Sys2Proof.Machine

section
variable {s : State} {c : Cmd} {p : Pipeline} {d : Bytes}

/-- A number that is one of two passes a check for either. -/
theorem not_isEither {x a b : Nat} (h : x = a ∨ x = b) : (!(x == a || x == b)) = false := by
  obtain rfl | rfl := h
  · simp
  · simp

theorem modPipe_pipe {pipe : Nat} (f : Pipeline → Pipeline) (hp : tget s.pipes pipe = some p) :
    tget (modPipe pipe f s).pipes pipe = some (f p) := by
  simp [modPipe, tget_tmod, hp]

/-! ### Declaration, start, stop -/

theorem pipelineDeclare_declares {k : Decl} (hnew : thas s.pipes (c.p8 32) = false) (hform : c.hasData = true) (hd : c.data = some d)
    (hlen : d.length = c.dataLen) (hk : parseDecl (c.p8 32) d = some k) (hvalid : k.valid = true)
    (hver : k.opcat = Config.opcatVersion s.firmware % 2 ^ 32) :
    pipelineDeclare c s = finishPlain c.pair c.cid stOk
      (storeObject 7 (c.p8 32) d { s with pipes := tput s.pipes (c.p8 32) (newPipeline k) }) := by
  simp only [pipelineDeclare, hnew, hform, withData, hd, if_neg (not_not.mpr hlen), hk, hvalid, if_neg (not_not.mpr hver), Bool.not_true,
    Bool.false_eq_true, if_false]

theorem pipelineStart_starts (hp : tget s.pipes (c.p8 32) = some p) (hst : s.startStatus (c.p8 32) p = stOk) :
    pipelineStart c s = finishPlain c.pair c.cid stOk (resetLock (c.p8 32) p.cursor
      (modPipe (c.p8 32) (fun _ => s.startedPipe (c.p8 32) p)
        (p.decl.datasets.foldl (fun t h => pruneSummaries h p.cursor t) s))) := by
  simp only [pipelineStart, hp, if_neg (not_not.mpr hst)]

section
variable (hp : tget s.pipes (c.p8 32) = some p) (hflags : c.p8 33 ≤ 1) (hnone : p.stop = none)
include hp hflags hnone

theorem pipelineStop_now (hst : p.state = 2 ∨ p.state = 3) (hnow : bitOf (c.p8 33) 0 = true ∨ (p.state = 2 ∧ c.p64 40 = 0)) :
    pipelineStop c s = finish c.pair c.cid stOk p.cursor (stopPipe (c.p8 32) 5 s) := by
  have hstate := not_isEither hst
  have himm : (bitOf (c.p8 33) 0 || (p.state == 2 && c.p64 40 == 0)) = true := by simpa using hnow
  simp only [pipelineStop, hp, if_neg (Nat.not_lt.mpr hflags), hnone, Option.isSome_none, hstate, himm, Bool.false_eq_true, if_false,
    if_true]

section
variable (hflag : bitOf (c.p8 33) 0 = false)
include hflag

theorem pipelineStop_next (hrun : p.state = 3) (hat : c.p64 40 = 0) :
    pipelineStop c s = markRunning c.pair c.cid (modPipe (c.p8 32) (fun q =>
      { q with state := 4, stop := some { pair := c.pair, cid := c.cid, at_ := p.cursor + 1, limits := false } }) s) := by
  simp only [pipelineStop, hp, if_neg (Nat.not_lt.mpr hflags), hnone, Option.isSome_none, hrun, hflag, hat, Bool.false_eq_true, if_false]
  simp

theorem pipelineStop_past (hst : p.state = 2 ∨ p.state = 3) (hat : c.p64 40 ≠ 0) (hpast : c.p64 40 ≤ p.cursor) :
    pipelineStop c s = refuse c.pair c.cid stPrecondition s := by
  have hstate := not_isEither hst
  simp only [pipelineStop, hp, if_neg (Nat.not_lt.mpr hflags), hnone, Option.isSome_none, hstate, hflag, Bool.false_or, Bool.false_eq_true,
    if_false]
  rw [if_neg (by simp [hat]), if_pos ⟨hat, hpast⟩]

theorem pipelineStop_at (hst : p.state = 2 ∨ p.state = 3) (hat : p.cursor < c.p64 40) :
    pipelineStop c s = markRunning c.pair c.cid (modPipe (c.p8 32) (fun q =>
      { q with state := 4, stop := some { pair := c.pair, cid := c.cid, at_ := c.p64 40, limits := true } })
      (discardFrom (c.p8 32) (c.p64 40) s)) := by
  have hstate := not_isEither hst
  have hne : c.p64 40 ≠ 0 := by omega
  simp only [pipelineStop, hp, if_neg (Nat.not_lt.mpr hflags), hnone, Option.isSome_none, hstate, hflag, Bool.false_or, Bool.false_eq_true,
    if_false]
  rw [if_neg (by simp [hne]), if_neg (by omega)]
  simp only [decide_true, hne, ne_eq, not_false_eq_true, if_false]

end

end

/-! ### Discarding samples leaves the pipelines -/

theorem notePeaks_pipes (hs : List Nat) (s : State) : (notePeaks hs s).pipes = s.pipes := by
  unfold notePeaks
  refine foldl_preserves (P := fun u : State => u.pipes = s.pipes) (fun u h hu => ?_) hs rfl
  split
  · unfold notePeak
    split
    · exact hu
    · exact hu
  · exact hu

theorem freeBuf_pipes (o : Option Nat) (s : State) : (freeBuf o s).pipes = s.pipes := by
  unfold freeBuf
  split
  · rfl
  · exact notePeaks_pipes _ s

theorem freeBufs_pipes (x : Sample) (s : State) : (freeBufs x s).pipes = s.pipes :=
  foldl_preserves (P := fun u : State => u.pipes = s.pipes) (fun u _ hu => (freeBuf_pipes _ u).trans hu) _
    ((freeBuf_pipes _ _).trans (freeBuf_pipes _ _))

theorem discardSamples_pipes (pipe : Nat) (out : Sample → Bool) (s : State) : (discardSamples pipe out s).pipes = s.pipes :=
  foldl_preserves (P := fun u : State => u.pipes = s.pipes) (fun u _ hu => (freeBufs_pipes _ u).trans hu) _ rfl

/-- Discarding from a batch on keeps the cursor, and no batch from there counts as started. -/
theorem discardFrom_pipe {pipe at_ : Nat} (hp : tget s.pipes pipe = some p) :
    ∃ q, tget (discardFrom pipe at_ s).pipes pipe = some q ∧ q.cursor = p.cursor ∧ q.started = min p.started at_ := by
  simp only [discardFrom, hp]
  exact ⟨_, modPipe_pipe _ ((congrArg (tget · pipe) (discardSamples_pipes _ _ s)).trans hp), rfl, rfl⟩

/-! ### Checkpoint and restore (R143, R144) -/

theorem pipelineCheckpoint_waits (ok : Bool) (hp : tget s.pipes (c.p8 32) = some p) (hbuf : c.exactBuf 160 = true) (hrun : p.state = 3) :
    pipelineCheckpoint ok c s = markRunning c.pair c.cid (modPipe (c.p8 32) (fun p =>
      { p with checkpoints := p.checkpoints ++ [(c.pair, c.cid, ok)] }) s) := by
  simp only [pipelineCheckpoint, hp, hbuf, hrun, Bool.not_true, Bool.false_eq_true, if_false, if_true]

theorem pipelineCheckpoint_writes (hp : tget s.pipes (c.p8 32) = some p) (hbuf : c.exactBuf 160 = true) (hrun : p.state ≠ 3) :
    pipelineCheckpoint true c s = replyData c true (s.checkpointRecord (c.p8 32) p) c.plainResult (setAnchor (c.p8 32)) s := by
  simp only [pipelineCheckpoint, checkpointDone, hp, hbuf, hrun, Bool.not_true, Bool.false_eq_true, if_false]

/-- Is a position of a batch below the cursor that a checkpoint record gives? -/
def belowCursor (s : State) (p : Pipeline) (d : Bytes) (k : Nat) : Bool :=
  decide (p.decl.nominalBatch (s.domain p.decl) (k / 2 ^ 47) (k % 2 ^ 47) < field d 112 8)

/-- A pipeline as a restore leaves it. -/
def restored (s : State) (pipe : Nat) (p : Pipeline) (d : Bytes) (q : Pipeline) : Pipeline := { q with
  cursor := field d 112 8
  boundary := field d 112 8
  started := field d 112 8
  schedules := []
  anchor := s.anchorStart pipe
  runs := q.runs.map fun kv => (kv.1, { kv.2 with
    writable := kv.2.ring.headD (field d 112 8) + ((tget q.consumers kv.1).map Consumer.buffers).getD 0 })
  shots := tfilter q.shots fun k _ => !belowCursor s p d k
  made := q.made.filter (belowCursor s p d) }

theorem pipelineRestore_restores (hp : tget s.pipes (c.p8 32) = some p) (hst : p.state = 1 ∨ p.state = 5) (hform : c.dataIs 160 = true)
    (hd : c.data = some d) (hok : s.restoreStatus (c.p8 32) p d = stOk) :
    pipelineRestore c s = finishPlain c.pair c.cid stOk (modPipe (c.p8 32) (restored s (c.p8 32) p d) s) := by
  have hstate := not_isEither hst
  simp only [pipelineRestore, hp, hstate, hform, withData, hd, if_neg (not_not.mpr hok), Bool.not_true, Bool.false_eq_true, if_false]
  rfl

/-! ### Shot records and consumers (R130, R134 to R136) -/

/-- A filter that keeps every entry. -/
theorem tfilter_of_all {α : Type} {t : Table α} {f : Nat → α → Bool} (h : ∀ k x, f k x = true) : tfilter t f = t :=
  List.filter_eq_self.mpr fun kv _ => h kv.1 kv.2

theorem shotRecordsLoad_template {x : Shot} (hp : tget s.pipes (c.p8 32) = some p) (hd : c.data = some d) (hkind : c.p8 33 = 0)
    (hform : c.dataIs 192 = true) (hrun : p.active = false) (hmode : p.decl.shotMode = 1)
    (hx : parseShot (d.take 128) (sub d 128 64) = some x) (hranges : x.rangesOk = true) :
    shotRecordsLoad c s = finishPlain c.pair c.cid stOk
      (storeShots (c.p8 32) (modPipe (c.p8 32) (fun p => { p with template := some x }) s)) := by
  simp only [shotRecordsLoad, hp, hkind, withData, hd, if_true]
  rw [if_neg (by simp [hform]), if_neg (by simp [hrun]), if_neg (by simp [hmode]), hx]
  dsimp only
  rw [if_pos hranges]

theorem shotRecordsLoad_records {rs : Table Shot} (hp : tget s.pipes (c.p8 32) = some p) (hd : c.data = some d) (hkind : c.p8 33 = 1)
    (hn : c.p32 36 ≠ 0) (hform : c.dataIs (128 * c.p32 36) = true) (hmode : p.decl.shotMode = 2) (hsched : p.schedules = [])
    (hmade : ∀ b ∈ pieces 128 (c.p32 36) d, shotKey b ∉ p.made) (hrs : parseShots (pieces 128 (c.p32 36) d) = some rs)
    (hdom : ∀ kv ∈ rs, kv.1 % 2 ^ 47 < s.domain p.decl ∧ kv.1 / 2 ^ 47 < p.decl.epochs)
    (hroom : (rs.foldl (fun t kv => tput t kv.1 kv.2) p.shots).length ≤ 16777216) :
    shotRecordsLoad c s = finishPlain c.pair c.cid stOk (storeShots (c.p8 32) (modPipe (c.p8 32)
      (fun q => { q with shots := rs.foldl (fun t kv => tput t kv.1 kv.2) p.shots }) s)) := by
  have hfresh : ((pieces 128 (c.p32 36) d).any fun b => decide (shotKey b ∈ p.made)) = false :=
    List.any_eq_false.mpr fun b hb => by simpa using hmade b hb
  have hinside : (rs.any fun kv => decide (s.domain p.decl ≤ kv.1 % 2 ^ 47) || decide (p.decl.epochs ≤ kv.1 / 2 ^ 47)) = false :=
    List.any_eq_false.mpr fun kv hkv => by
      obtain ⟨hpos, hepoch⟩ := hdom kv hkv
      simp only [Bool.or_eq_true, decide_eq_true_eq]
      omega
  simp only [shotRecordsLoad, hp, hkind, withData, hd]
  rw [if_neg (by simp [hform, hn]), if_neg (by simp), if_neg (by simp [hmode]), if_neg (by simp), hfresh, if_neg (by simp), hrs]
  dsimp only
  rw [hinside, if_neg (by simp), tfilter_of_all fun k x => by simp [Pipeline.schedule, hsched], if_neg (Nat.not_lt.mpr hroom)]

theorem consumerAttach_eq (hp : tget s.pipes (c.p8 32) = some p) (hflags : c.p8 33 ≤ 1) (hno : c.p16 34 ≤ 4095) (hrun : p.active = false)
    (hst : p.state ≠ 6) : consumerAttach c s =
      if bitOf (c.p8 33) 0 then
        if thas p.consumers (c.p16 34) then finishPlain c.pair c.cid stOk (modPipe (c.p8 32) (fun p =>
          { p with consumers := tdel p.consumers (c.p16 34), runs := tdel p.runs (c.p16 34) }) s)
        else refuse c.pair c.cid stPrecondition s
      else if !c.consumer.ok p.decl then refuse c.pair c.cid stInvalidField s
      else finishPlain c.pair c.cid stOk (modPipe (c.p8 32) (fun p =>
        { p with consumers := tput p.consumers (c.p16 34) c.consumer, runs := tdel p.runs (c.p16 34) }) s) := by
  simp only [consumerAttach, hp, if_neg (not_or.mpr ⟨Nat.not_lt.mpr hflags, Nat.not_lt.mpr hno⟩), hrun, if_neg hst, Bool.false_eq_true,
    if_false]

end

end Sys2Proof.Machine

/-! ### The statement -/

namespace Sys2Proof.Machine.PipelineCommands

/-- Settles O26: the row of each command runs its operation, whose branch its conditions choose. -/
theorem pipelineCommandsWork : Obligations.PipelineCommandsWork := by
  refine ⟨fun s pair cid c d k h hnew hform hd hlen hk hvalid hver => ?_, fun s pair cid c p h hp hst => ?_,
    fun s pair cid c p h hp hflags hnone hst => ⟨fun hnow => ?_, fun hflag hrun hat => ?_, fun hflag hat hpast => ?_, fun hflag hat => ?_⟩,
    fun s pair cid c p h hp hbuf => ⟨fun hrun => ?_, fun hrun => ?_⟩, fun s pair cid c p d h hp hst hform hd hok => ?_,
    fun s pair cid c p d h hp hd => ⟨fun x hkind hform hrun hmode hx hranges => ?_,
      fun rs hkind hn hform hmode hsched hmade hrs hdom hroom => ?_⟩,
    fun s pair cid c p h hp hflags hno hrun hst => ⟨fun hkind hok => ?_, fun hkind hthere => ?_, fun hkind hthere => ?_⟩⟩
  · exact (live_runCmd_of_ready pipelineDeclare h).trans (congrArg _ (pipelineDeclare_declares hnew hform hd hlen hk hvalid hver))
  · exact (live_runCmd_of_ready pipelineStart h).trans (congrArg _ (pipelineStart_starts hp hst))
  · exact (live_runCmd_of_ready pipelineStop h).trans (congrArg _ (pipelineStop_now hp hflags hnone hst hnow))
  · exact (live_runCmd_of_ready pipelineStop h).trans (congrArg _ (pipelineStop_next hp hflags hnone hflag hrun hat))
  · exact (live_runCmd_of_ready pipelineStop h).trans (congrArg _ (pipelineStop_past hp hflags hnone hflag hst hat hpast))
  · obtain ⟨q, hq, hcursor, hstarted⟩ := discardFrom_pipe (at_ := c.p64 40) hp
    exact ⟨_, _, (live_runCmd_of_ready pipelineStop h).trans (congrArg _ (pipelineStop_at hp hflags hnone hflag hst hat)),
      modPipe_pipe _ hq, rfl, rfl, hcursor, hstarted⟩
  · exact (live_runCmd_of_ready (pipelineCheckpoint true) h).trans (congrArg _ (pipelineCheckpoint_waits true hp hbuf hrun))
  · exact (live_runCmd_of_ready (pipelineCheckpoint true) h).trans (congrArg _ (pipelineCheckpoint_writes hp hbuf hrun))
  · refine ⟨_, _, (live_runCmd_of_ready pipelineRestore h).trans (congrArg _ (pipelineRestore_restores hp hst hform hd hok)),
      modPipe_pipe _ hp, rfl, rfl, rfl, rfl, fun k x hx => ?_⟩
    have hkept := (mem_tfilter (t := p.shots) (p := fun k _ => !belowCursor s p d k).mp hx).2
    simpa [belowCursor] using hkept
  · exact (live_runCmd_of_ready shotRecordsLoad h).trans
      (congrArg _ (shotRecordsLoad_template hp hd hkind hform hrun hmode hx hranges))
  · exact (live_runCmd_of_ready shotRecordsLoad h).trans
      (congrArg _ (shotRecordsLoad_records hp hd hkind hn hform hmode hsched hmade hrs hdom hroom))
  · refine (live_runCmd_of_ready consumerAttach h).trans (congrArg _ ((consumerAttach_eq hp hflags hno hrun hst).trans ?_))
    simp [hkind, hok, bitOf]
  · refine (live_runCmd_of_ready consumerAttach h).trans (congrArg _ ((consumerAttach_eq hp hflags hno hrun hst).trans ?_))
    simp [hkind, hthere, bitOf]
  · refine (live_runCmd_of_ready consumerAttach h).trans (congrArg _ ((consumerAttach_eq hp hflags hno hrun hst).trans ?_))
    simp [hkind, hthere, bitOf]

end Sys2Proof.Machine.PipelineCommands
end

section
/-! Proof of the statement about the fabric commands (chapters 13 to 15): what each accepted command does. -/

namespace Sys2Proof.Machine

section
variable {s : State} {c : Cmd} {d : Bytes}

/-! ### Topology and identities (R321 to R323) -/

theorem topologyLoad_applies (hform : c.dataIs 33056 = true) (hparams : topoParamsOk c = true) (hd : c.data = some d)
    (hports : (topoPorts d).all portEntryOk = true)
    (hroutes : (topoRoutes d).all (routeOk ((topoPorts d).map parsePortEntry)) = true)
    (hidle : s.fabricIdle = true ∨ (c.p16 32 = s.fab.nodeId ∧ (s.fab.loaded = false ∨ c.p16 34 = s.fab.timeRoot))) :
    topologyLoad c s = finishPlain c.pair c.cid stOk (applyTopology c d s) := by
  have hfree : ¬ ((c.p16 32 ≠ s.fab.nodeId ∨ (s.fab.loaded = true ∧ c.p16 34 ≠ s.fab.timeRoot)) ∧ (!s.fabricIdle) = true) := by
    rintro ⟨hchange, hbusy⟩
    obtain hidle | ⟨hnode, hroot⟩ := hidle
    · simp [hidle] at hbusy
    · obtain hne | ⟨hloaded, hne⟩ := hchange
      · exact hne hnode
      · obtain hnot | heq := hroot
        · simp [hnot] at hloaded
        · exact hne heq
  simp only [topologyLoad, hform, hparams, withData, hd, hports, hroutes, Bool.not_true, Bool.or_self, Bool.and_self, Bool.false_eq_true,
    if_false, if_neg hfree]

theorem peerIdentityLoad_applies (hlo : 1 ≤ c.p16 32) (hhi : c.p16 32 ≤ 8192) (hflags : c.p16 34 ≤ 1)
    (hform : c.dataIs (64 * c.p16 32) = true) (hd : c.data = some d) (hok : (pieces 64 8192 d).all identityEntryOk = true) {u : State}
    (hu : u = { s with fab := { s.fab with
      identities := (pieces 64 8192 d).foldl
        (fun (m : Table Bytes) (b : Bytes) => tput m (field b 0 2) (sub b 16 48))
        (if bitOf (c.p16 34) 0 then [] else s.fab.identities) } }) :
    peerIdentityLoad c s = finishPlain c.pair c.cid stOk
      ((List.range 18).foldl (fun (u : State) (i : Nat) => applyIdentity s.fab.identities i u) u) := by
  subst hu
  have hfields : ¬ (c.p16 32 = 0 ∨ 8192 < c.p16 32 ∨ 1 < c.p16 34 ∨ (!c.dataIs (64 * c.p16 32)) = true) := by
    simp only [hform, Bool.not_true, Bool.false_eq_true, or_false]
    omega
  simp only [peerIdentityLoad, if_neg hfields, withData, hd, hok, Bool.not_true, Bool.false_eq_true, if_false]

/-! ### Regions (R350, R352) -/

theorem regionRegister_registers {i : Nat} {g : Region} {u : State} (hparams : regionParamsOk c = true)
    (hform : c.dataIs (8 * regionPageCount c) = true) (hd : c.data = some d)
    (hpages : ∀ a ∈ (pieces 8 (regionPageCount c) d).map leVal, a % 2 ^ c.p8 52 = 0) (hi : s.freeIndex = some i)
    (hroom : s.regionPages + ((pieces 8 (regionPageCount c) d).map leVal).length ≤ 16777216)
    (hg : g = { gen := s.nextGen i, base := c.p64 32, length := c.p64 40, firstOffset := c.p32 48, pageLog2 := c.p8 52,
                access := c.p8 53, peer := c.p16 54, pages := (pieces 8 (regionPageCount c) d).map leVal, revoking := none })
    (hu : u = storeObject 8 i d (takeIndex s)) :
    regionRegister c s = finish c.pair c.cid stOk (i * 256 + g.gen)
      { u with rdma := { u.rdma with regions := tput u.rdma.regions i g, gens := tput u.rdma.gens i g.gen } } := by
  subst hg hu
  have hall : (((pieces 8 (regionPageCount c) d).map leVal).all fun a => a % 2 ^ c.p8 52 == 0) = true :=
    List.all_eq_true.mpr fun a ha => beq_iff_eq.mpr (hpages a ha)
  unfold regionRegister
  rw [if_neg (by simp [hparams, hform]), withData, hd]
  dsimp only
  rw [hall, if_neg (by simp), hi]
  dsimp only
  rw [if_neg (Nat.not_lt.mpr hroom)]

theorem regionRevoke_revokes {g : Region} (hg : tget s.rdma.regions (c.p32 32 / 256) = some g) (hgen : g.gen = c.p32 32 % 256)
    (hnone : g.revoking = none) :
    regionRevoke c s = markRunning c.pair c.cid (emit (.pcieRead 0 (g.pages.head?.getD 0) 4) { s with rdma := { s.rdma with
      regions := tput s.rdma.regions (c.p32 32 / 256) { g with revoking := some (c.pair, c.cid) } } }) := by
  simp only [regionRevoke, hg, if_neg (not_not.mpr hgen), hnone, Option.isSome_none, Bool.false_eq_true, if_false]

/-! ### Queue pairs (R357 to R359) -/

section
variable (hn : c.p32 32 ≠ 0) (hkind : c.p8 36 ≤ 2) (hlimit : c.p8 37 ≤ 15 ∨ c.p8 37 = 255) (hentry : c.p32 32 < s.raw 0x0B 0 0x03 0)
  (hnew : thas s.rdma.qps (c.p32 32) = false)
include hn hkind hlimit hentry hnew

theorem qpCreate_creates {slots : List Nat} {u : State} (hroom : createRoom (c.p8 36) s = some (slots, u)) :
    qpCreate c s = finishPlain c.pair c.cid stOk { u with rdma := { u.rdma with
      qps := tput u.rdma.qps (c.p32 32)
        { freshQp (c.p8 36) (if c.p8 37 = 255 then s.raw 0x0B 0 0x04 7 else c.p8 37) u.rdma.clock with slots := slots }
      clock := u.rdma.clock + 1 } } := by
  have hentries : s.raw 0x0B 0 0x03 0 ≠ 0 := by omega
  unfold qpCreate
  dsimp only
  rw [if_neg (by simp only [if_neg hentries]; omega), if_neg (by simp [hentries, hnew]), hroom]

theorem qpCreate_waits (hroom : createRoom (c.p8 36) s = none) : qpCreate c s = s := by
  have hentries : s.raw 0x0B 0 0x03 0 ≠ 0 := by omega
  unfold qpCreate
  dsimp only
  rw [if_neg (by simp only [if_neg hentries]; omega), if_neg (by simp [hentries, hnew]), hroom]

end

/-- QP_MODIFY of an existing queue pair whose fields are good runs its action. -/
theorem qpModify_acts {action : Nat} {f : Cmd → Nat → Qp → State → State} {q : Qp} (hparam : qpParam c = true)
    (hq : tget s.rdma.qps (c.p32 32) = some q) (haction : c.p8 36 = action) (hle : action ≤ 3)
    (hdata : if action = 3 then c.exactBuf 64 = true else c.noData = true)
    (hready : action = 0 → c.p16 38 ≤ 8191 ∧ c.p32 40 < 2 ^ 20 ∧ c.p32 44 < 2 ^ 24 ∧ c.p32 48 < 2 ^ 24) :
    qpModify action f c s = f c (c.p32 32) q s := by
  subst haction
  have hfields : ¬ ((!qpParam c) = true ∨ (c.p8 36 = 3 ∧ (!c.exactBuf 64) = true) ∨ (c.p8 36 ≠ 3 ∧ (!c.noData) = true)
      ∨ (c.p8 36 = 0 ∧ (8191 < c.p16 38 ∨ 2 ^ 20 ≤ c.p32 40 ∨ 2 ^ 24 ≤ c.p32 44 ∨ 2 ^ 24 ≤ c.p32 48))) := by
    rintro (h | ⟨h3, h⟩ | ⟨h3, h⟩ | ⟨h0, h⟩)
    · simp [hparam] at h
    · rw [if_pos h3] at hdata
      simp [hdata] at h
    · rw [if_neg h3] at hdata
      simp [hdata] at h
    · have := hready h0
      omega
  unfold qpModify
  dsimp only
  rw [if_neg (Nat.not_lt.mpr hle), if_neg (not_not.mpr rfl), if_neg hfields, hq]

theorem qpReady_readies {n : Nat} {q : Qp} (hst : q.state = 0) (hcontrol : q.kind ≠ 1 ∨ s.controlQp (c.p16 38) = none) :
    qpReady c n q s = finishPlain c.pair c.cid stOk (modQp n (fun q =>
      { q with state := 1, remoteNode := c.p16 38, remoteQp := c.p32 40, postPsn := c.p32 44, sndPsn := c.p32 44
               unacked := c.p32 44, expected := c.p32 48 }) s) := by
  unfold qpReady
  rw [if_neg]
  rintro (h | ⟨hkind, h⟩)
  · exact h hst
  · obtain hne | hnone := hcontrol
    · exact hne hkind
    · simp [hnone] at h

theorem qpToReset_resets {n : Nat} {q : Qp} (hst : q.state ≠ 0) (hbusy : s.qpBusy n q = false) :
    qpToReset c n q s = finishPlain c.pair c.cid stOk (resetQp n q s) := by
  simp only [qpToReset, if_neg hst, hbusy, Bool.false_eq_true, if_false]

theorem qpToError_errs {n : Nat} {q : Qp} (hst : q.state = 1) (hbusy : s.qpBusy n q = false) :
    qpToError c n q s = finishPlain c.pair c.cid stOk (qpError n q.unacked 0 none s) := by
  simp only [qpToError, if_neg (not_not.mpr hst), hbusy, Bool.false_eq_true, if_false]

theorem qpDestroy_destroys {q : Qp} {u : State} (hparam : qpParam c = true) (hq : tget s.rdma.qps (c.p32 32) = some q)
    (hbusy : s.qpBusy (c.p32 32) q = false)
    (hu : u = q.slots.foldl (fun (t : State) (h : Nat) => freeChain h t) (resetQp (c.p32 32) q s)) :
    qpDestroy c s = finishPlain c.pair c.cid stOk { u with rdma := { u.rdma with qps := tdel u.rdma.qps (c.p32 32) } } := by
  subst hu
  simp only [qpDestroy, hparam, hq, hbusy, Bool.not_true, Bool.false_eq_true, if_false]

/-! ### Call sheets and policers (R369, R374) -/

theorem callSheetLoad_clears (hport : c.p8 32 ≤ 17) (hflags : c.p8 33 = 1) (hn : c.p16 34 = 0) (hdata : c.noData = true) :
    callSheetLoad c s = finishPlain c.pair c.cid stOk { s with shaper := { s.shaper with
      active := tdel s.shaper.active (c.p8 32), pending := tdel s.shaper.pending (c.p8 32)
      gateOpen := tdel s.shaper.gateOpen (c.p8 32) } } := by
  unfold callSheetLoad
  dsimp only
  rw [if_neg (by omega), hflags, if_pos (by decide), if_neg (by simp [hn, hdata])]

theorem callSheetLoad_loads (hport : c.p8 32 ≤ 17) (hflags : c.p8 33 = 0) (hlo : 1 ≤ c.p16 34) (hhi : c.p16 34 ≤ 256)
    (hmin : 1000 ≤ c.p32 36) (hmax : c.p32 36 ≤ 1000000000) (hform : c.dataIs (8 * c.p16 34) = true) (hd : c.data = some d)
    (hok : s.sheetOk (c.p8 32) (c.p32 36) d = true) :
    callSheetLoad c s = finishPlain c.pair c.cid stOk { s with shaper := { s.shaper with
      pending := tput s.shaper.pending (c.p8 32) { cycle := c.p32 36, base := c.p64 40, activateAt := c.p64 48
                                                   entries := sheetEntries d } } } := by
  unfold callSheetLoad
  dsimp only
  rw [if_neg (by omega), hflags, if_neg (by decide),
    if_neg (by simp only [hform, Bool.not_true, Bool.false_eq_true, or_false]; omega), withData, hd]
  dsimp only
  rw [hok, if_neg (by simp)]

end

end Sys2Proof.Machine

/-! ### The statement -/

namespace Sys2Proof.Machine.FabricCommands

/-- Settles O28: the row of each command runs its operation, which passes its checks. -/
theorem fabricCommandsWork : Obligations.FabricCommandsWork := by
  refine ⟨fun s pair cid c d h hform hparams hd hports hroutes hidle => ?_,
    fun s pair cid c d u h hlo hhi hflags hform hd hok hu => ?_, fun s pair cid c d i g u h hparams hform hd hpages hi hroom hg hu => ?_,
    fun s pair cid c g h hg hgen hnone => ?_, fun s i g pair cid ha hg hrev => ?_,
    fun s pair cid c h hn hkind hlimit hentry hnew => ⟨fun slots u hroom => ?_, fun hroom => ?_⟩,
    fun s pair cid c q h hparam hq => ⟨fun haction hdata hnode hqp hsq hrq hst hcontrol => ?_, fun haction hdata hst hbusy => ?_,
      fun haction hdata hst hbusy => ?_, fun haction hbuf => ?_⟩,
    fun s pair cid c q u h hparam hq hbusy hu => ?_,
    fun s pair cid c h hport => ⟨fun hflags hn hdata => ?_, fun d hflags hlo hhi hmin hmax hform hd hok => ?_⟩,
    fun s pair cid c h hdest hen hlo hhi hrlo hrhi => ?_, fun s pair cid c q h hok hq => ?_⟩
  · exact (live_runCmd_of_ready topologyLoad h).trans (congrArg _ (topologyLoad_applies hform hparams hd hports hroutes hidle))
  · exact (live_runCmd_of_ready peerIdentityLoad h).trans (congrArg _ (peerIdentityLoad_applies hlo hhi hflags hform hd hok hu))
  · exact (live_runCmd_of_ready regionRegister h).trans
      (congrArg _ (regionRegister_registers hparams hform hd hpages hi hroom hg hu))
  · exact (live_runCmd_of_ready regionRevoke h).trans (congrArg _ (regionRevoke_revokes hg hgen hnone))
  · exact (live_of_alive ha).trans (congrArg _ (by simp only [revokeDrain, hg, hrev]))
  · exact (live_runCmd_of_ready qpCreate h).trans (congrArg _ (qpCreate_creates hn hkind hlimit hentry hnew hroom))
  · exact (live_runCmd_of_ready qpCreate h).trans (congrArg _ (qpCreate_waits hn hkind hlimit hentry hnew hroom))
  · exact (live_runCmd_of_ready (qpModify 0 qpReady) h).trans (congrArg _
      ((qpModify_acts hparam hq haction (by omega) hdata fun _ => ⟨hnode, hqp, hsq, hrq⟩).trans (qpReady_readies hst hcontrol)))
  · exact (live_runCmd_of_ready (qpModify 1 qpToReset) h).trans (congrArg _
      ((qpModify_acts hparam hq haction (by omega) hdata (by omega)).trans (qpToReset_resets hst hbusy)))
  · exact (live_runCmd_of_ready (qpModify 2 qpToError) h).trans (congrArg _
      ((qpModify_acts hparam hq haction (by omega) hdata (by omega)).trans (qpToError_errs hst hbusy)))
  · exact (live_runCmd_of_ready _ h).trans (congrArg _ (qpModify_acts hparam hq haction (by omega) hbuf (by omega)))
  · exact (live_runCmd_of_ready qpDestroy h).trans (congrArg _ (qpDestroy_destroys hparam hq hbusy hu))
  · exact (live_runCmd_of_ready callSheetLoad h).trans (congrArg _ (callSheetLoad_clears hport hflags hn hdata))
  · exact (live_runCmd_of_ready callSheetLoad h).trans
      (congrArg _ (callSheetLoad_loads hport hflags hlo hhi hmin hmax hform hd hok))
  · refine (live_runCmd_of_ready shaperFlowSet h).trans (congrArg _ (shaperFlowSet_sets ?_))
    unfold FlowOutOfRange
    omega
  · subst hq
    refine (live_runCmd_of_ready policerSet h).trans (congrArg _ ?_)
    simp only [policerSet, hok, Bool.not_true, Bool.false_eq_true, if_false]

end Sys2Proof.Machine.FabricCommands
end

section
/-! SUPPORT and SETTLED: the link events (O29). -/

namespace Sys2Proof.Machine

/-! ### Training -/

section
variable {s : State} {port node pp lanes : Nat}

theorem portAdvance_detect (h : (s.port port).state = 1) :
    portAdvance port node pp lanes s = portTo port 2 0 (s.peerOf port) s := by
  simp only [portAdvance, h]

theorem portAdvance_lock (h : (s.port port).state = 2) :
    portAdvance port node pp lanes s = portTo port 3 0 (s.peerOf port) s := by
  simp only [portAdvance, h]

theorem lanesOk_iff (e : PortEntry) : e.lanesOk lanes = true ↔ lanes = 4 ∨ (lanes = 2 ∧ e.minLanes = 2) := by
  simp [PortEntry.lanesOk]

theorem portAdvance_lanes (h : (s.port port).state = 3) (hok : (s.portEntry port).lanesOk lanes = true) :
    portAdvance port node pp lanes s = sendControl port ctlParam s.fab.nodeId
      (portTo port 4 0 (s.peerOf port) (modPort port (fun p => { p with lanes := lanes }) s)) := by
  simp only [portAdvance, h, hok, if_true]

theorem portAdvance_param (h : (s.port port).state = 4) :
    portAdvance port node pp lanes s = endParam port node pp s := by
  simp only [portAdvance, h]

theorem endParam_of_peer (hnode : node = (s.portEntry port).peerNode) (hpp : pp = (s.portEntry port).peerPort) :
    endParam port node pp s = sendIdentity port (portTo port 5 0 node
      (modPort port (fun p => { p with credits := allCredits, peer := node }) s)) :=
  if_neg (not_or.mpr ⟨not_not.mpr hnode, not_not.mpr hpp⟩)

theorem endParam_of_other (h : ¬ (node = (s.portEntry port).peerNode ∧ pp = (s.portEntry port).peerPort)) :
    endParam port node pp s = portTo port 8 7 (node % 65536) s :=
  if_pos (not_and_or.mp h)

theorem portAdvance_time (h : (s.port port).state = 6) (hprobed : (s.port port).probed = true) :
    portAdvance port node pp lanes s = enterActive port s := by
  simp only [portAdvance, h, hprobed, if_true]

/-! ### Failures and retraining -/

theorem boundExpiry_fails (hlo : 1 ≤ (s.port port).state) (hhi : (s.port port).state ≤ 6) :
    boundExpiry port s = portTo port 8 1 (s.peerOf port) s :=
  if_pos ⟨hlo, hhi⟩

theorem portRetry_retrains (h : (s.port port).state = 8) : portRetry port s = portTo port 1 0 (s.peerOf port) s :=
  if_pos h

theorem replayLimit_lockLost (h : (s.port port).state = 7) :
    replayLimit port true s = portTo port 1 4 (s.peerOf port) s :=
  if_pos ⟨h, .inl rfl⟩

theorem replayLimit_counted (h : (s.port port).state = 7) :
    replayLimit port false s =
      if s.raw 0x09 port 0x0C 64 < (s.port port).replays then portTo port 1 3 (s.peerOf port) s else s := by
  simp only [replayLimit, h, State.replaysPassed, decide_eq_true_eq, Bool.false_eq_true, false_or, true_and, if_false, retrain]

theorem peerDisabled_fails (hlo : 3 ≤ (s.port port).state) (hhi : (s.port port).state ≤ 7) :
    peerDisabled port s = portTo port 8 5 (s.peerOf port) s :=
  if_pos ⟨hlo, hhi⟩

theorem identityExchange_ends (h : (s.port port).state = 5) (nonce key sig : Bytes) :
    identityExchange port nonce key sig s =
      if s.identityOk port nonce key sig = true then startProbes port (portTo port 6 0 (s.peerOf port) s)
      else failPort port 2 (recordErr (plainErr (uPort port) 0x0402 clsContained 2 (uPort port) 0 0) s) := by
  simp only [identityExchange, h, true_or, if_true]

theorem timeReady_probes (h : (s.port port).state = 7) (hport : port = s.fab.timePort) :
    timeReady port s = startProbes port s :=
  if_pos ⟨h, hport⟩

/-! ### Flits (R315, R317, R329) -/

variable {f : Flit}

theorem linked_of_le (hlo : 4 ≤ (s.port port).state) (hhi : (s.port port).state ≤ 7) : s.linked port = true :=
  decide_eq_true ⟨hlo, hhi⟩

theorem flitIn_of_not_replay (hlink : s.linked port = true) (h : ¬ (f.type = 6 ∧ f.crcOk = true)) :
    flitIn port f s = afterFlit port (receiveFlit port f s) := by
  simp only [flitIn, hlink, if_true, if_neg h]

theorem flitIn_of_replay (hlink : s.linked port = true) (htype : f.type = 6) (hcrc : f.crcOk = true) :
    flitIn port f s = afterFlit port (resend port (field f.payload 0 2) (receiveFlit port f s)) := by
  simp only [flitIn, hlink, htype, hcrc, and_self, if_true]

theorem receiveFlit_idle (hcrc : f.crcOk = true) (htype : f.type = 0) :
    receiveFlit port f s = takeAck port f s := by
  simp only [receiveFlit, hcrc, htype, if_true]

theorem receiveFlit_inTurn (hcrc : f.crcOk = true) (htype : f.type ≠ 0) (hseq : f.seq = (s.port port).rxSeq) :
    receiveFlit port f s = acceptFlit port f (takeAck port f s) := by
  simp only [receiveFlit, hcrc, if_true, if_neg htype, if_pos hseq]

theorem receiveFlit_outOfTurn (hcrc : f.crcOk = true) (htype : f.type ≠ 0) (hseq : f.seq ≠ (s.port port).rxSeq) :
    receiveFlit port f s = askReplay port (takeAck port f s) := by
  simp only [receiveFlit, hcrc, if_true, if_neg htype, if_neg hseq]

theorem receiveFlit_damaged (hcrc : f.crcOk = false) (hstomped : f.stomped = false) :
    receiveFlit port f s = askReplay port (stompOn port f (bump 0x09 port 0x05 s)) := by
  simp only [receiveFlit, hcrc, hstomped, Bool.false_eq_true, false_and, if_false]

/-! ### Time probes (R331) -/

variable {p : Probe} {ps : List Probe}

theorem timeProbe_answers (h : (s.port port).state = 6 ∨ (s.port port).state = 7) (ht : p.t4 = 0) :
    timeProbe port p s = sendControl port ctlReply p.t1 s := by
  simp only [timeProbe, if_pos h, if_pos ht]

theorem timeProbe_gathers (h : (s.port port).state = 6 ∨ (s.port port).state = 7) (ht : p.t4 ≠ 0)
    (hps : tget s.fab.probes port = some ps) (hlen : ps.length < 3) :
    timeProbe port p s = { s with fab := { s.fab with probes := tput s.fab.probes port (ps ++ [p]) } } := by
  simp only [timeProbe, if_pos h, if_neg ht, hps]
  exact if_neg (by simp; omega)

theorem timeProbe_ends (h : (s.port port).state = 6 ∨ (s.port port).state = 7) (ht : p.t4 ≠ 0)
    (hps : tget s.fab.probes port = some ps) (hlen : 3 ≤ ps.length) :
    timeProbe port p s = probesDone port (ps ++ [p]) s := by
  simp only [timeProbe, if_pos h, if_neg ht, hps]
  exact if_pos (by simp; omega)

/-- The row of a port the part has runs its operation. -/
theorem live_port {f : State → State} (ha : s.alive = true) (hport : port < 18) :
    live (whenB (isPort port) f) s = .next (f s) :=
  live_whenB ha (decide_eq_true hport)

end

end Sys2Proof.Machine

/-! ### The statement -/

namespace Sys2Proof.Machine.LinkEvents

/-- Settles O29: the row of each event runs its operation on the port, in the state that the event acts in. -/
theorem linkEventsWork : Obligations.LinkEventsWork := by
  refine ⟨fun s port node pp lanes p ha hport hp => ?_, fun s port f ha hport hlo hhi => ?_, fun s ha => live_of_alive ha,
    fun s port p ha hport hst => ?_⟩
  · subst hp
    exact ⟨fun h => (live_port ha hport).trans (congrArg _ (portAdvance_detect h)),
      fun h => (live_port ha hport).trans (congrArg _ (portAdvance_lock h)),
      fun h hok => (live_port ha hport).trans (congrArg _ (portAdvance_lanes h ((lanesOk_iff _).mpr hok))),
      fun h hnode hpp => (live_port ha hport).trans (congrArg _ ((portAdvance_param h).trans (endParam_of_peer hnode hpp))),
      fun h hother => (live_port ha hport).trans (congrArg _ ((portAdvance_param h).trans (endParam_of_other hother))),
      fun h hprobed => (live_port ha hport).trans (congrArg _ (portAdvance_time h hprobed)),
      fun hlo hhi => (live_port ha hport).trans (congrArg _ (boundExpiry_fails hlo hhi)),
      fun h => (live_port ha hport).trans (congrArg _ (portRetry_retrains h)),
      fun h => (live_port ha hport).trans (congrArg _ (replayLimit_lockLost h)),
      fun h => (live_port ha hport).trans (congrArg _ (replayLimit_counted h)),
      fun hlo hhi => (live_port ha hport).trans (congrArg _ (peerDisabled_fails hlo hhi)),
      fun h nonce key sig => (live_port ha hport).trans (congrArg _ (identityExchange_ends h nonce key sig)),
      fun h htime => (live_port ha hport).trans (congrArg _ (timeReady_probes h htime))⟩
  · have hlink := linked_of_le hlo hhi
    refine ⟨fun htype hcrc => ?_, fun htype h6 hcrc hseq => ?_, fun htype h6 hcrc hseq => ?_, fun hcrc hstomped => ?_,
      fun htype hcrc hseq => ?_⟩
    · refine (live_port ha hport).trans (congrArg _ ((flitIn_of_not_replay hlink (by omega)).trans ?_))
      rw [receiveFlit_idle hcrc htype]
    · refine (live_port ha hport).trans (congrArg _ ((flitIn_of_not_replay hlink (by omega)).trans ?_))
      rw [receiveFlit_inTurn hcrc htype hseq]
    · refine (live_port ha hport).trans (congrArg _ ((flitIn_of_not_replay hlink (by omega)).trans ?_))
      rw [receiveFlit_outOfTurn hcrc htype hseq]
    · refine (live_port ha hport).trans (congrArg _ ((flitIn_of_not_replay hlink (by simp [hcrc])).trans ?_))
      rw [receiveFlit_damaged hcrc hstomped]
    · refine (live_whenB ha (by simp [isPort, hport, htype])).trans (congrArg _ ((flitIn_of_replay hlink htype hcrc).trans ?_))
      rw [receiveFlit_inTurn hcrc (by omega) hseq]
  · exact ⟨fun ht => (live_port ha hport).trans (congrArg _ (timeProbe_answers hst ht)),
      fun ps ht hps hlen => (live_port ha hport).trans (congrArg _ (timeProbe_gathers hst ht hps hlen)),
      fun ps ht hps hlen => (live_port ha hport).trans (congrArg _ (timeProbe_ends hst ht hps hlen))⟩

end Sys2Proof.Machine.LinkEvents
end

section
/-! SUPPORT and SETTLED: the transport events (O30). -/

namespace Sys2Proof.Machine

/-! ### Work requests (R342, R353) -/

section
variable {s : State} {n : Nat} {q : Qp}

/-- A request on a READY queue pair whose context is resident takes its PSNs, and goes when it may. -/
theorem postWork_posts {kind addr key : Nat} {data : Bytes} {len batch : Nat} (hq : tget s.rdma.qps n = some q)
    (hsends : kindSends q.kind kind = true) (hstate : q.state = 1) (hres : q.resident = true) :
    postWork n kind addr key data len batch s = kickQp n (touchQp n (modQp n (fun x =>
      { x with
        wrs := x.wrs ++ [{ id := q.nextWr, kind := kind, addr := addr, key := key, data := data, len := len, psn := q.postPsn
                           psns := psnsOf kind len, naks := 0, got := 0, batch := batch }]
        nextWr := x.nextWr + 1, postPsn := psnAdd x.postPsn (psnsOf kind len), resident := true }) s)) := by
  simp only [postWork, hq, hsends, hstate, hres, Bool.not_true, Bool.false_eq_true, if_false, OfNat.one_ne_ofNat, if_true,
    Bool.true_or]

/-- In ERROR a request completes at once. -/
theorem postWork_error {kind addr key : Nat} {data : Bytes} {len batch : Nat} (hq : tget s.rdma.qps n = some q)
    (hsends : kindSends q.kind kind = true) (hstate : q.state = 2) :
    postWork n kind addr key data len batch s = completeWr n
      { id := q.nextWr, kind := kind, addr := addr, key := key, data := data, len := len, psn := q.postPsn
        psns := psnsOf kind len, naks := 0, got := 0, batch := batch } stQpError 0
      (modQp n (fun x => { x with nextWr := x.nextWr + 1 }) s) := by
  simp only [postWork, hq, hsends, hstate, Bool.not_true, Bool.false_eq_true, if_false, if_true]

theorem execWorkRequestPost_row {kind key len : Nat} {addr : BitVec 64} {data : Bytes} (ha : s.alive = true)
    (hg : s.going = true) :
    exec (.workRequestPost n kind addr key data len) s =
      .next (postWork n kind addr.toNat key data (if kind = 1 ∨ kind = 4 then data.length else len) 0 s) :=
  live_whenB ha hg

/-! ### Packets that reach their queue pair (R344, R371) -/

variable {p : Packet}

theorem police_off {vc : Nat} (hmode : (s.policer p.srcNode).mode = 0) : police vc p s = (s, true, none) := by
  simp only [police, hmode, if_true]

/-- A whole packet from a sender without a policer reaches its queue pair. -/
theorem receivePacket_admits {port vc op : Nat} (hup : (s.port port).state = 7) (hicrc : p.icrc = p.icrcOf)
    (hmode : (s.policer p.srcNode).mode = 0) (hop : p.opcode = op) :
    receivePacket port vc op p s = admitPacket port p s := by
  simp only [receivePacket, hup, hop, hicrc, police_off hmode, ne_eq, not_true, or_self, if_false, if_true, ite_self]

theorem admitPacket_resident (hq : tget s.rdma.qps p.destQp = some q) (hres : q.resident = true) :
    admitPacket port p s = processPacket p.destQp p s := by
  simp only [admitPacket, hq, hres, if_true]

theorem touchQp_qps (hq : tget s.rdma.qps n = some q) :
    tget (touchQp n s).rdma.qps n = some { q with lru := s.rdma.clock } := by
  simp only [touchQp, modQp, tget_tmod, hq, Option.map_some]

theorem processPacket_ack (hq : tget s.rdma.qps n = some q) (hop : p.opcode = 0x10) :
    processPacket n p s = takeAckPacket p (touchQp n s) := by
  simp only [processPacket, touchQp_qps hq, hop, if_true]

theorem processPacket_nak (hq : tget s.rdma.qps n = some q) (hop : p.opcode = 0x11) :
    processPacket n p s = takeNakPacket p (touchQp n s) := by
  simp only [processPacket, touchQp_qps hq, hop, Nat.reduceEqDiff, if_false, if_true]

theorem processPacket_readResp (hq : tget s.rdma.qps n = some q) (hop : p.opcode = 3) :
    processPacket n p s = takeReadResp p (touchQp n s) := by
  simp only [processPacket, touchQp_qps hq, hop, Nat.reduceEqDiff, if_false, if_true]

theorem processPacket_request (hq : tget s.rdma.qps n = some q) (h3 : p.opcode ≠ 3) (h10 : p.opcode ≠ 0x10)
    (h11 : p.opcode ≠ 0x11) : processPacket n p s = respond n { q with lru := s.rdma.clock } p (touchQp n s) := by
  simp only [processPacket, touchQp_qps hq, if_neg h3, if_neg h10, if_neg h11]

theorem psnDiff_self (a : Nat) : psnDiff a a = 0 := by
  simp only [psnDiff]
  omega

theorem respond_inSequence (hstate : q.state = 1) (htakes : kindTakes q.kind p.opcode = true) (hseq : q.expected = p.psn) :
    respond n q p s = performPacket n q p s := by
  simp only [respond, hstate, htakes, hseq, psnDiff_self, OfNat.one_ne_ofNat, one_ne_zero, Bool.not_true, Bool.false_eq_true,
    if_false, if_true]

theorem respond_duplicate (hstate : q.state = 1) (htakes : kindTakes q.kind p.opcode = true)
    (hdup : 2 ^ 23 ≤ psnDiff q.expected p.psn) : respond n q p s = duplicatePacket n p s := by
  unfold respond
  rw [if_neg (by omega), if_neg (by omega), if_neg (by simp [htakes])]
  dsimp only
  rw [if_neg (by omega), if_pos hdup]

/-! ### What a packet in sequence does (R344, R348, R351) -/

theorem performPacket_write {g : Region} (hop : p.opcode = 1) (hkey : s.keyCheck p = some g) :
    performPacket n q p s = performedOne n p.ackReq (advanceE n 1 (performWrite p g s)) := by
  simp only [performPacket, hop, hkey, if_true]

theorem performPacket_writeRefused (hop : p.opcode = 1) (hkey : s.keyCheck p = none) :
    performPacket n q p s = keyRefuse n q p s := by
  simp only [performPacket, hop, hkey, if_true]

theorem performPacket_read {g : Region} (hop : p.opcode = 2) (hkey : s.keyCheck p = some g) :
    performPacket n q p s =
      performedOne n p.ackReq (performRead p g (advanceE n (ceilDiv p.msgLen packetData) s)) := by
  simp only [performPacket, hop, hkey, Nat.reduceEqDiff, if_false, if_true]

theorem performPacket_send (hop : p.opcode = 4) (hslots : q.slotsUsed < 8) :
    performPacket n q p s = performedOne n p.ackReq
      (advanceE n 1 (modQp n (fun q => { q with inbox := q.inbox ++ [p.data] }) s)) := by
  simp only [performPacket, hop, Nat.reduceEqDiff, if_false, if_true, if_neg (Nat.not_le.mpr hslots)]

theorem performPacket_flush (hop : p.opcode = 5) (hkind : q.kind ≠ 2) :
    performPacket n q p s = performedOne n true (advanceE n 1 s) := by
  simp only [performPacket, hop, Nat.reduceEqDiff, if_false, if_neg hkind]

theorem performPacket_flushBehindWrites (hop : p.opcode = 5) (hkind : q.kind = 2) :
    performPacket n q p s = modQp n (fun x => { x with flushes := x.flushes ++ [p.psn], nakSent := false })
      (advanceE n 1 (emit (.pcieRead 0 0 4) s)) := by
  simp only [performPacket, hop, Nat.reduceEqDiff, if_false, hkind, if_true]

theorem keyRefuse_now (hflush : q.flushes = []) : keyRefuse n q p s = keyFail p s := by
  simp only [keyRefuse, hflush, List.isEmpty_nil, if_true]

theorem keyRefuse_behind (hflush : q.flushes ≠ []) :
    keyRefuse n q p s = modQp n (fun x => { x with behind := x.behind.or (some p) }) s := by
  simp only [keyRefuse, List.isEmpty_eq_false_iff.mpr hflush, Bool.false_eq_true, if_false]

theorem duplicatePacket_acks (hop : p.opcode ≠ 2) : duplicatePacket n p s = sendAck n s :=
  if_neg hop

theorem readReqIn_ofData {port vc : Nat} (hdata : p.data ≠ []) : readReqIn port vc p [] s = receivePacket port vc 2 p s :=
  if_neg fun h => hdata h.2

/-! ### Timers, the context fetch and the visibility read (R345, R346, R348, R354, R356) -/

theorem ackTimer_acks (hq : tget s.rdma.qps n = some q) (howed : 0 < q.ackOwed) : ackTimer n s = sendAck n s := by
  simp only [ackTimer, hq, if_pos howed]

theorem retryTimer_retries (hq : tget s.rdma.qps n = some q) (hstate : q.state = 1) (hun : q.unacked ≠ q.sndPsn)
    (hwait : q.waiting = false) (hg : s.going = true) : retryTimer n s = retryFrom n q.unacked s := by
  simp only [retryTimer, hq]
  exact if_pos ⟨hstate, hun, by simp [hwait], hg⟩

theorem retryFrom_resends {psn : Nat} (hq : tget s.rdma.qps n = some q) (hlim : q.retries < q.retryLimit) :
    retryFrom n psn s =
      kickQp n (bump 0x0B 0 0x0C (modQp n (fun x => { x with retries := x.retries + 1, sndPsn := psn }) s)) := by
  simp only [retryFrom, hq, if_neg (show ¬ q.retryLimit < q.retries + 1 by omega)]

theorem retryFrom_fails {psn : Nat} (hq : tget s.rdma.qps n = some q) (hlim : q.retryLimit ≤ q.retries) :
    retryFrom n psn s = qpError n q.unacked q.lastSyn (some stRetryExceeded) s := by
  simp only [retryFrom, hq, if_pos (show q.retryLimit < q.retries + 1 by omega)]

theorem backoffExpiry_resumes (hq : tget s.rdma.qps n = some q) (hwait : q.waiting = true) (hg : s.going = true) :
    backoffExpiry n s = kickQp n (modQp n (fun q => { q with waiting := false }) s) := by
  simp only [backoffExpiry, hq, hwait, hg, and_self, if_true]

theorem makeRoom_of_room (h : s.residentCount < 16384) : makeRoom s = (s, true) :=
  if_pos h

theorem contextArrives_resumes {port : Nat} (hq : tget s.rdma.qps n = some q) (hf : (port, n) ∈ s.rdma.fetches)
    (hroom : s.residentCount < 16384) (hheld : q.held = []) :
    contextArrives port n s = kickQp n (modQp n (fun q => { q with resident := true, held := [], refusedPsn := none })
      { s with rdma := { s.rdma with fetches := s.rdma.fetches.erase (port, n) } }) := by
  simp only [contextArrives, if_pos hf, makeRoom_of_room hroom, hq, hheld, Bool.not_true, Bool.false_eq_true, if_false,
    Option.map_some, Option.getD_some, List.foldl_nil]

theorem visibilityRead_acks (hq : tget s.rdma.qps n = some q) (hflush : q.flushes ≠ []) (hbehind : q.behind = none) :
    visibilityRead n s = sendAck n (modQp n (fun q => { q with flushes := q.flushes.drop 1 }) s) := by
  simp only [visibilityRead, hq, hbehind, List.isEmpty_eq_false_iff.mpr hflush, Bool.false_eq_true, if_false]

end

end Sys2Proof.Machine

/-! ### The statement -/

namespace Sys2Proof.Machine.TransportEvents

section
variable {s : State} {port vc op : Nat} {p : Packet} {q : Qp}

/-- A packet of a sender without a policer runs on its resident queue pair. -/
theorem receivePacket_processes (hup : (s.port port).state = 7) (hicrc : p.icrc = p.icrcOf)
    (hmode : (s.policer p.srcNode).mode = 0) (hq : tget s.rdma.qps p.destQp = some q) (hres : q.resident = true)
    (hop : p.opcode = op) : receivePacket port vc op p s = processPacket p.destQp p s :=
  (receivePacket_admits hup hicrc hmode hop).trans (admitPacket_resident hq hres)

/-- A request in sequence, on a queue pair that takes it, is performed. -/
theorem processPacket_performs (hq : tget s.rdma.qps p.destQp = some q) (hst : q.state = 1) (hop : p.opcode ≤ 5)
    (h3 : p.opcode ≠ 3) (htakes : kindTakes q.kind p.opcode = true) (hseq : q.expected = p.psn) :
    processPacket p.destQp p s =
      performPacket p.destQp { q with lru := s.rdma.clock } p (touchQp p.destQp s) :=
  (processPacket_request hq h3 (by omega) (by omega)).trans (respond_inSequence hst htakes hseq)

end

/-- Settles O30: the row of each event runs its operation; a packet passes the checks before its queue pair. -/
theorem transportEventsWork : Obligations.TransportEventsWork := by
  refine ⟨fun s n kind addr key data len q w ha hg hq hsends hw => ?_, fun s port vc p q u ha hup hicrc hmode hq hres hst hu => ?_,
    fun s n q ha hq => ?_⟩
  · subst hw
    exact ⟨fun hstate hres => (execWorkRequestPost_row ha hg).trans (congrArg _ (postWork_posts hq hsends hstate hres)),
      fun hstate => (execWorkRequestPost_row ha hg).trans (congrArg _ (postWork_error hq hsends hstate))⟩
  · subst hu
    have hrow {op : Nat} {t : State} (hop : p.opcode = op) (h : processPacket p.destQp p s = t) :
        ∀ vc, live (receivePacket port vc op p) s = .next t := fun vc =>
      (live_of_alive ha).trans (congrArg _ ((receivePacket_processes hup hicrc hmode hq hres hop).trans h))
    have hperf {op : Nat} {t : State} (hop : p.opcode = op) (hle : op ≤ 5) (h3 : op ≠ 3)
        (htakes : kindTakes q.kind op = true) (hseq : q.expected = p.psn)
        (h : performPacket p.destQp { q with lru := s.rdma.clock } p (touchQp p.destQp s) = t) :
        ∀ vc, live (receivePacket port vc op p) s = .next t :=
      hrow hop ((processPacket_performs hq hst (hop ▸ hle) (hop ▸ h3) (hop ▸ htakes) hseq).trans h)
    refine ⟨fun hop hkind _ hseq => ⟨fun g hg => ?_, fun hg hflush => ?_, fun hg hflush => ?_⟩,
      fun g hop hkind _ hseq hdata hg => ?_, fun hop hkind _ hseq hslots => ?_, fun hop hkind _ hseq => ?_,
      fun hop hkind _ hseq => ?_, fun hop hkind hdup => ?_, fun hop => ?_, fun hop => ?_, fun hop => ?_⟩
    · exact hperf hop (by decide) (by decide) (by rw [hkind]; rfl) hseq (performPacket_write hop hg) vc
    · exact hperf hop (by decide) (by decide) (by rw [hkind]; rfl) hseq
        ((performPacket_writeRefused hop hg).trans (keyRefuse_now hflush)) vc
    · exact hperf hop (by decide) (by decide) (by rw [hkind]; rfl) hseq
        ((performPacket_writeRefused hop hg).trans (keyRefuse_behind hflush)) vc
    · have hin : live (readReqIn port vc p []) s = live (receivePacket port vc 2 p) s := by
        rw [live_of_alive ha, live_of_alive ha, readReqIn_ofData hdata]
      exact hin.trans (hperf hop (by decide) (by decide) (by rw [hkind]; rfl) hseq (performPacket_read hop hg) vc)
    · exact hperf hop (by decide) (by decide) (by rw [hkind]; rfl) hseq (performPacket_send hop hslots) vc
    · exact hperf hop (by decide) (by decide) (by rw [hkind]; rfl) hseq
        (performPacket_flush hop (show q.kind ≠ 2 by omega)) vc
    · exact hperf hop (by decide) (by decide) (by rw [hkind]; rfl) hseq (performPacket_flushBehindWrites hop hkind) vc
    · exact hrow hop ((processPacket_request hq (by omega) (by omega) (by omega)).trans
        ((respond_duplicate hst (by rw [hop]; exact hkind ▸ rfl) hdup).trans (duplicatePacket_acks (by omega)))) vc
    · exact hrow hop (processPacket_ack hq hop) 2
    · exact hrow hop (processPacket_nak hq hop) 2
    · exact hrow hop (processPacket_readResp hq hop) 2
  · exact ⟨fun howed => (live_of_alive ha).trans (congrArg _ (ackTimer_acks hq howed)),
      fun hst hun hwait hg hlim => (live_of_alive ha).trans
        (congrArg _ ((retryTimer_retries hq hst hun hwait hg).trans (retryFrom_resends hq hlim))),
      fun hst hun hwait hg hlim => (live_of_alive ha).trans
        (congrArg _ ((retryTimer_retries hq hst hun hwait hg).trans (retryFrom_fails hq hlim))),
      fun hwait hg => (live_of_alive ha).trans (congrArg _ (backoffExpiry_resumes hq hwait hg)),
      fun port hf hroom hheld => (live_of_alive ha).trans (congrArg _ (contextArrives_resumes hq hf hroom hheld)),
      fun hflush hbehind => (live_of_alive ha).trans (congrArg _ (visibilityRead_acks hq hflush hbehind))⟩

end Sys2Proof.Machine.TransportEvents
end

section
/-! SUPPORT and SETTLED: the shaper events (O31). -/

namespace Sys2Proof.Machine

/-! ### The timing wheel (R363, R364) -/

theorem mem_slotInsert (x y : Nat × Nat × Packet) (l : List (Nat × Nat × Packet)) :
    y ∈ slotInsert x l ↔ y = x ∨ y ∈ l := by
  induction l with
  | nil => simp [slotInsert]
  | cons z zs ih =>
    unfold slotInsert
    split
    · simp
    · simp only [List.mem_cons, ih]
      exact or_left_comm

theorem mem_foldl_slotInsert (y : Nat × Nat × Packet) (l acc : List (Nat × Nat × Packet)) :
    y ∈ l.foldl (fun acc x => slotInsert x acc) acc ↔ y ∈ l ∨ y ∈ acc := by
  induction l generalizing acc with
  | nil => simp
  | cons x xs ih =>
    rw [List.foldl_cons, ih, mem_slotInsert, List.mem_cons, or_left_comm, or_assoc]

theorem mem_dueOf (now : Nat) (w : List (Nat × Nat × Packet)) (y : Nat × Nat × Packet) :
    y ∈ dueOf now w ↔ y ∈ w ∧ y.1 ≤ now := by
  simp [dueOf, mem_foldl_slotInsert]

/-- A later state of the wheel: the time is the same, and nothing left a queue of the shaper. -/
structure SlotsGrow (s t : State) : Prop where
  now : t.shaper.wheelNow = s.shaper.wheelNow
  wheel : ∀ x ∈ s.shaper.wheel, x ∈ t.shaper.wheel
  ready : ∀ x ∈ s.shaper.ready, x ∈ t.shaper.ready
  overflow : ∀ x ∈ s.shaper.overflow, x ∈ t.shaper.overflow

namespace SlotsGrow

theorem refl (s : State) : SlotsGrow s s := ⟨rfl, fun _ h => h, fun _ h => h, fun _ h => h⟩

theorem trans {s t u : State} (h : SlotsGrow s t) (g : SlotsGrow t u) : SlotsGrow s u :=
  ⟨g.now.trans h.now, fun x hx => g.wheel x (h.wheel x hx), fun x hx => g.ready x (h.ready x hx),
    fun x hx => g.overflow x (h.overflow x hx)⟩

end SlotsGrow

theorem slotsGrow_placeSlot (slot d : Nat) (p : Packet) (s : State) : SlotsGrow s (placeSlot slot d p s) := by
  unfold placeSlot
  split
  · exact ⟨rfl, fun _ h => h, fun _ h => List.mem_append_left _ h, fun _ h => h⟩
  · split
    · exact ⟨rfl, fun _ h => List.mem_append_left _ h, fun _ h => h, fun _ h => h⟩
    · exact ⟨rfl, fun _ h => h, fun _ h => h, fun _ h => List.mem_append_left _ h⟩

/-- A packet within the horizon goes to the wheel or to the ready queue. -/
theorem placeSlot_places {slot d : Nat} {p : Packet} {s : State} (h : slot < s.shaper.wheelNow + 8192) :
    (slot, d, p) ∈ (placeSlot slot d p s).shaper.wheel ∨ (d, p) ∈ (placeSlot slot d p s).shaper.ready := by
  unfold placeSlot
  split
  · exact .inr (List.mem_append_right _ (List.mem_singleton_self _))
  · simp only
    exact .inl (List.mem_append_right _ (List.mem_singleton_self _))

/-- Place the packets of a list, in order. -/
def placeAll (l : List (Nat × Nat × Packet)) (s : State) : State :=
  l.foldl (fun (t : State) (x : Nat × Nat × Packet) => placeSlot x.1 x.2.1 x.2.2 t) s

theorem slotsGrow_placeAll (l : List (Nat × Nat × Packet)) (s : State) : SlotsGrow s (placeAll l s) := by
  induction l generalizing s with
  | nil => exact .refl s
  | cons x xs ih => exact (slotsGrow_placeSlot x.1 x.2.1 x.2.2 s).trans (ih _)

theorem placeAll_places {x : Nat × Nat × Packet} {l : List (Nat × Nat × Packet)} {s : State} (hx : x ∈ l)
    (h : x.1 < s.shaper.wheelNow + 8192) : x ∈ (placeAll l s).shaper.wheel ∨ x.2 ∈ (placeAll l s).shaper.ready := by
  induction l generalizing s with
  | nil => exact absurd hx List.not_mem_nil
  | cons y ys ih =>
    have hgrow := slotsGrow_placeAll ys (placeSlot y.1 y.2.1 y.2.2 s)
    rcases List.mem_cons.mp hx with rfl | hx
    · exact (placeSlot_places h).imp (hgrow.wheel _) (hgrow.ready _)
    · exact ih hx (by rw [(slotsGrow_placeSlot y.1 y.2.1 y.2.2 s).now]; exact h)

/-- What an overflow slot leaves in the overflow level stays there, and what it takes is placed. -/
theorem overflowTick_slots (s : State) : (overflowTick s).shaper.wheelNow = s.shaper.wheelNow ∧
    ∀ x ∈ s.shaper.overflow, (s.shaper.wheelNow / 8192 < x.1 / 8192 → x ∈ (overflowTick s).shaper.overflow) ∧
      (x.1 / 8192 ≤ s.shaper.wheelNow / 8192 →
        x ∈ (overflowTick s).shaper.wheel ∨ x.2 ∈ (overflowTick s).shaper.ready) := by
  have hgrow := slotsGrow_placeAll (s.shaper.overflow.filter fun x => decide (x.1 / 8192 ≤ s.shaper.wheelNow / 8192))
    { s with shaper := { s.shaper with
        overflow := s.shaper.overflow.filter fun x => !decide (x.1 / 8192 ≤ s.shaper.wheelNow / 8192) } }
  refine ⟨hgrow.now, fun x hx => ⟨fun hlater => ?_, fun hdue => ?_⟩⟩
  · exact hgrow.overflow x (List.mem_filter.mpr ⟨hx, by simpa using hlater⟩)
  · exact placeAll_places (List.mem_filter.mpr ⟨hx, by simpa using hdue⟩) (by dsimp only; omega)

/-! ### Call sheets and gates (R366, R369, R376) -/

section
variable {s : State} {port : Nat}

theorem activateSheet_activates {h : Sheet} (hp : tget s.shaper.pending port = some h) (hat : h.activateAt ≤ s.tb)
    (hcur : thas (s.port port).cur 3 = false) :
    activateSheet port s = { s with shaper := { s.shaper with
      active := tput s.shaper.active port h, pending := tdel s.shaper.pending port } } := by
  simp only [activateSheet, hp, hat, hcur, Bool.not_false, and_self, if_true]

theorem activateSheet_of_none (hp : tget s.shaper.pending port = none) : activateSheet port s = s := by
  simp only [activateSheet, hp]

theorem gateCross_closes (hnow : s.gateNow port = false) (hwas : tgetD s.shaper.gateOpen port true = true) :
    gateCross port s = bumpBy 0x0D port 0x04 ((s.vc3Own port).length + (s.vc3Relayed port).length) (bump 0x0D port 0x05
      { s with shaper := { s.shaper with gateOpen := tputD s.shaper.gateOpen port false true } }) := by
  simp only [gateCross, hnow, hwas, Bool.not_false, Bool.and_self, if_true]

theorem gateCross_stays (hnow : s.gateNow port = false) (hwas : tgetD s.shaper.gateOpen port true = false) :
    gateCross port s = { s with shaper := { s.shaper with gateOpen := tputD s.shaper.gateOpen port false true } } := by
  simp only [gateCross, hnow, hwas, Bool.false_and, Bool.false_eq_true, if_false]

/-! ### Messages on VC3 (R327, R367, R370) -/

/-- An own message may start where no relayed one waits. -/
theorem vc3Start_own (hp : tget s.shaper.pending port = none) (hst : (s.port port).state = 7)
    (hcur : thas (s.port port).cur 3 = false) (hg : s.going = true) (hrel : s.vc3Relayed port = []) :
    vc3Start port false s = startOwn port s := by
  simp only [vc3Start, activateSheet_of_none hp, hst, hcur, hg, hrel, Bool.not_false, and_self, if_true, Bool.false_eq_true,
    if_false, List.isEmpty_nil, true_or]

theorem startOwn_starts {d : Nat} {p : Packet}
    (hfind : (s.vc3Own port).find? (fun x => s.fits port x.2.flitCount) = some (d, p)) :
    startOwn port s = pumpPort port 512 (modPort port (fun q =>
      { q with
        cur := tput q.cur 3 { source := 0, vc := 3, dest := d, flits := messageFlits 3 d (routeHops (s.route d)) p.bytes }
        turns := tput q.turns 3 0 })
      (flowSent d p { s with shaper := { s.shaper with ready := s.shaper.ready.erase (d, p) } })) := by
  simp only [startOwn, hfind]

theorem relayedTurn_of_noOwn (hown : s.vc3Own port = []) : s.relayedTurn port = true := by
  simp only [State.relayedTurn, hown, List.any_nil, Bool.and_false, Bool.not_false, Bool.true_or]

/-- A relayed message starts where no own one waits and it fits its window. -/
theorem vc3Start_relayed (hp : tget s.shaper.pending port = none) (hst : (s.port port).state = 7)
    (hcur : thas (s.port port).cur 3 = false) (hrel : s.vc3Relayed port ≠ []) (hown : s.vc3Own port = [])
    (hfits : s.fits port 64 = true) : vc3Start port true s = pumpAll (startNext port 3 s) := by
  simp only [vc3Start, activateSheet_of_none hp, hst, hcur, List.isEmpty_eq_false_iff.mpr hrel, relayedTurn_of_noOwn hown,
    startRelayed, hfits, Bool.not_false, and_self, if_true]

end

end Sys2Proof.Machine

/-! ### The statement -/

namespace Sys2Proof.Machine.ShaperEvents

/-- Settles O31: the wheel's queues by membership, and the row of each port event by its operation. -/
theorem shaperEventsWork : Obligations.ShaperEventsWork := by
  refine ⟨fun s ha => ⟨wheelTick s, live_of_alive ha, rfl, fun x => ?_, fun y => ?_⟩,
    fun s ha => ⟨overflowTick s, live_of_alive ha, overflowTick_slots s⟩,
    fun s port h ha hport hp hat hcur => (live_port ha hport).trans (congrArg _ (activateSheet_activates hp hat hcur)),
    fun s port ha hport hnow => ⟨fun hwas => (live_port ha hport).trans (congrArg _ (gateCross_closes hnow hwas)),
      fun hwas => (live_port ha hport).trans (congrArg _ (gateCross_stays hnow hwas))⟩,
    fun s port d p ha hport hp hst hcur => ⟨fun hg hrel hfind => (live_port ha hport).trans
        (congrArg _ ((vc3Start_own hp hst hcur hg hrel).trans (startOwn_starts hfind))),
      fun hrel hown hfits => (live_port ha hport).trans (congrArg _ (vc3Start_relayed hp hst hcur hrel hown hfits))⟩⟩
  · simp [wheelTick]
  · simp [wheelTick, mem_dueOf, and_assoc]

end Sys2Proof.Machine.ShaperEvents
end

section
/-! SUPPORT and SETTLED: the engine queues, faults and votes (O34). -/

namespace Sys2Proof.Machine

section
variable {s : State} {k : Nat} {e : Entry} {c : Completion} {x : Sample} {p : Pipeline}

/-! ### Issue and repeat (R122, R149) -/

/-- A ready sample whose queue serves and has room, and whose buffer is there, has its next entry placed. -/
theorem issueEntry_places {key : Nat} {t : Site} {u : State}
    (hu : u = enterSample (key / 2 ^ 63) (key / 2 ^ 47 % 2 ^ 16) (key % 2 ^ 47) s)
    (hx : tget u.eng.samples key = some x) (hp : tget u.pipes x.pipeline = some p) (hslate : x.slate ≠ [])
    (hphase : x.phase = .ready) (hst : p.state = 3) (hfetch : x.fetches = 0) (hslot : x.awaitsSlot p.decl = false)
    (hsite : x.site p.decl = some t) (heng : opEngine t.op = k / 1024) (hk : k % 1024 < queueCount (k / 1024))
    (hserves : u.engineServes (k / 1024) (k % 1024) = true) (hqueues : u.servingQueues (k / 1024) ≠ [])
    (hroom : (u.queue k).entries.length < queueRoom (k / 1024))
    (hout : needsOut t.op = true → (if needsOut t.op then u.spareBuf x.pipeline else none) ≠ none) :
    issueEntry key k s = placeEntry p x t k (if needsOut t.op then u.spareBuf x.pipeline else none) u := by
  have hbuf : (needsOut t.op && (if needsOut t.op then u.spareBuf x.pipeline else none).isNone) = false := by
    cases h : needsOut t.op
    · rfl
    · simpa [h, Option.isSome_iff_ne_none] using hout h
  subst hu
  simp only [issueEntry, hx, hp, hphase, hst, hslot, hsite, heng, hfetch, hserves, hbuf, List.isEmpty_eq_false_iff.mpr hslate,
    List.isEmpty_eq_false_iff.mpr hqueues, ne_eq, not_true, decide_false, beq_self_eq_true, Bool.true_or, Bool.not_true,
    Bool.or_false, Bool.false_eq_true, if_false, Bool.false_and, false_and, zero_ne_one, or_false, false_or,
    if_neg (show ¬ (queueCount (k / 1024) ≤ k % 1024 ∨ queueRoom (k / 1024) ≤ ((enterSample (key / 2 ^ 63)
      (key / 2 ^ 47 % 2 ^ 16) (key % 2 ^ 47) s).queue k).entries.length) by omega)]

theorem fetchRepeat_repeats {key i : Nat} {t : Site} {b : Nat} (hx : tget s.eng.samples key = some x)
    (hp : tget s.pipes x.pipeline = some p) (hi : i = p.decl.fetchSites.findIdx (fun t => t.op == 0x0101))
    (ht : p.decl.fetchSites[i]? = some t) (hb : s.spareBuf x.pipeline = some b) (hphase : x.phase = .completed)
    (heng : k / 1024 = 1) (hk : k % 1024 < 32) (hserves : s.engineServes 1 (k % 1024) = true)
    (hroom : (s.queue k).entries.length < queueRoom 1) (hother : s.queueUnit k ≠ x.failUnit) :
    fetchRepeat key k s =
      placeEntry p { x with opIdx := i, fetches := 1, data := [], inBuf := none, outBuf := none } t k (some b)
        (modSample key (fun _ => { x with opIdx := i, fetches := 1, data := [], inBuf := none, outBuf := none })
          (freeBufs x s)) := by
  subst hi
  simp only [fetchRepeat, hx, hp, ht, hb, hphase, heng, hserves, ne_eq, not_true, Bool.not_true, Bool.false_eq_true, false_or,
    or_false, hother, if_neg (show ¬ (32 ≤ k % 1024 ∨ queueRoom 1 ≤ (s.queue k).entries.length) by omega)]

/-! ### The oldest completion (R121) -/

section
variable {cs : List Completion} {es : List Entry} {flips : Bytes} {s2 : State}
  (hcs : (s.queue k).completions = c :: cs) (hes : (s.queue k).entries = e :: es) (hcode : c.code ≠ 5)
  (hs2 : s2 = traceEntry k e c (countRun (s.entryUnit k e) (countEntry e c
    (((s.sampleFor k e).map fun y => y.data.length).getD 0)
    (modQueue k (fun q => { q with completions := cs, entries := es }) s))))
include hcs hes hcode hs2

theorem engineCompletion_memory (hmem : e.isMemory = true) :
    engineCompletion k flips s = memoryOutcome e c (s.entryUnit k e) s2 := by
  subst hs2
  simp only [engineCompletion, hcs, hes, if_neg hcode, hmem, if_true]

theorem engineCompletion_outcome (hmem : e.isMemory = false) (hx : s.sampleFor k e = some x) (hphase : x.phase ≠ .discarded)
    (hcause : c.cause ≠ 21) (hinput : (readsInput e && x.inputFails flips) = false) :
    engineCompletion k flips s = outcome x e c (s.entryUnit k e) (faultCured x.record e s2) := by
  subst hs2
  simp only [engineCompletion, hcs, hes, if_neg hcode, hmem, hx, if_neg hphase, hinput, if_neg hcause, Bool.false_eq_true,
    if_false]

theorem engineCompletion_transit (hmem : e.isMemory = false) (hx : s.sampleFor k e = some x) (hphase : x.phase ≠ .discarded)
    (hreads : readsInput e = true) (hinput : x.inputFails flips = true) :
    engineCompletion k flips s = transit x e (s.entryUnit k e) s2 := by
  subst hs2
  simp only [engineCompletion, hcs, hes, if_neg hcode, hmem, hx, if_neg hphase, hreads, hinput, Bool.and_self, Bool.false_eq_true,
    if_false, if_true]

theorem engineCompletion_discarded (hmem : e.isMemory = false) (hx : s.sampleFor k e = some x) (hphase : x.phase = .discarded) :
    engineCompletion k flips s = dropSample x.key (freeBufs x (faultCured x.record e s2)) := by
  subst hs2
  simp only [engineCompletion, hcs, hes, if_neg hcode, hmem, hx, hphase, Bool.false_eq_true, if_false, if_true]

end

/-! ### Engine faults (R388) -/

/-- The first fault of an entry leaves it to be tried again on the same unit. -/
theorem engineFault_first {cause : Nat} (hcur : s.current k = some e) (hatt : e.attempts = 0)
    (hdepth : atDepth (s.entryRecord k e) = false) :
    engineFault cause k s = modQueue k (fun q => { q with
      entries := q.entries.set (s.queue k).completions.length { e with
        attempts := 1, fault := cause, first := s.entryUnit k e } }) s := by
  simp only [engineFault, hcur, hatt, hdepth, zero_ne_one, false_and, if_false, if_true, Nat.zero_add, Bool.not_false,
    and_self]

/-! ### Votes (R390 to R392) -/

theorem startVote_asks {slot2 : Nat} {cs : List Completion} {es : List Entry} {u : State}
    (hcs : (s.queue k).completions = c :: cs) (hes : (s.queue k).entries = e :: es) (hcode : c.code = 5)
    (hfree : ∀ v ∈ s.eng.votes, v.queue ≠ k) (hslot : slot2 ∈ s.secondCores (s.slotOf (k % 1024)))
    (hu : u = traceEntry k e c (countRun (s.entryUnit k e)
      (countEntry e c (((s.sampleFor k e).map fun y => y.data.length).getD 0) s))) :
    startVote k slot2 s = bump 0x0F (dieOf (uSlot (s.slotOf (k % 1024)))) 0x07
      (modQueue k (fun q => { q with entries := e.recompute :: es }) { u with eng := { u.eng with votes := u.eng.votes ++
        [{ queue := k, seq := c.seq, asked := slot2, results := [(s.slotOf (k % 1024), c.result)] }] } }) := by
  have hall : (s.eng.votes.all fun v => v.queue != k) = true := List.all_eq_true.mpr fun v hv => by simpa using hfree v hv
  subst hu
  simp only [startVote, hcs, List.head?_cons, hes, hcode, hall, hslot, and_self, if_true]

theorem countRun_votes (unit : Nat) (s : State) : (countRun unit s).eng.votes = s.eng.votes := by
  unfold countRun
  split <;> rfl

theorem countRun_queue (unit k : Nat) (s : State) : (countRun unit s).queue k = s.queue k := by
  unfold countRun
  split <;> rfl

theorem countRun_mayThird (unit a b core : Nat) (s : State) : (countRun unit s).mayThird a b core = s.mayThird a b core := by
  unfold countRun
  split <;> rfl

section
variable {v : Vote} {es : List Entry} {r1 r2 : Nat × Bytes} {result : Bytes}
  (hes : (s.queue k).entries = e :: es) (hv : (s.eng.votes.find? fun v => v.queue == k) = some v)
include hes hv

theorem voteResult_agrees (hres : v.results = [r1]) :
    voteResult k r1.2 v.asked s =
      dropVote k (modOldest k (fun c => c.withResult r1.2) (countRun (uSlot v.asked) s)) := by
  simp only [voteResult, countRun_votes, hv, countRun_queue, hes, List.head?_cons, hres, ne_eq, not_true, if_false, if_true]

theorem voteResult_differs (hres : v.results = [r1]) (hne : result ≠ r1.2) :
    voteResult k result v.asked s = { countRun (uSlot v.asked) s with
      eng := { (countRun (uSlot v.asked) s).eng with votes := s.eng.votes.map fun w =>
        if w.queue = k then { w with results := w.results ++ [(v.asked, result)] } else w } } := by
  simp only [voteResult, countRun_votes, hv, countRun_queue, hes, List.head?_cons, hres, ne_eq, not_true, if_false, if_neg hne]

section
variable {core : Nat} {u : State} (hres : v.results = [r1, r2]) (hthird : s.mayThird r1.1 r2.1 core = true)
  (hu : u = countRun (uSlot core) s)
include hres hthird hu

theorem voteResult_settles1 : voteResult k r1.2 core s =
    dissent (u.entryRecord k e) r2.1 r2.1 core 2 e (dropVote k (modOldest k (fun c => c.withResult r1.2) u)) := by
  subst hu
  simp only [voteResult, countRun_votes, hv, countRun_queue, hes, List.head?_cons, hres, countRun_mayThird, hthird, Bool.not_true,
    Bool.false_eq_true, if_false, if_true]

theorem voteResult_settles2 (hne : r2.2 ≠ r1.2) : voteResult k r2.2 core s =
    dissent (u.entryRecord k e) r1.1 r2.1 core 1 e (dropVote k (modOldest k (fun c => c.withResult r2.2) u)) := by
  subst hu
  simp only [voteResult, countRun_votes, hv, countRun_queue, hes, List.head?_cons, hres, countRun_mayThird, hthird, Bool.not_true,
    Bool.false_eq_true, if_false, if_true, if_neg hne]

theorem voteResult_threeWay (h1 : result ≠ r1.2) (h2 : result ≠ r2.2) :
    voteResult k result core s = dropVote k (threeWay k r1.1 r2.1 e u) := by
  subst hu
  simp only [voteResult, countRun_votes, hv, countRun_queue, hes, List.head?_cons, hres, countRun_mayThird, hthird, Bool.not_true,
    Bool.false_eq_true, if_false, if_neg h1, if_neg h2]

end

end

theorem suspectClear_clears {unit q : Nat} (h : tget s.eng.suspects unit = some (q, 1))
    (hruns : 65536 ≤ tgetD s.eng.runs unit 0) : suspectClear unit s =
      { s with eng := { s.eng with suspects := tdel s.eng.suspects unit, runs := tdel s.eng.runs unit } } := by
  simp only [suspectClear, h, hruns, and_self, if_true]

/-! ### A full sink ring (R263) -/

section
variable {pipe inst head : Nat} {b : Bytes} {t : State} (hp : tget s.pipes pipe = some p) (hb : b = p.decl.paramsAt inst)
  (hfull : s.sinkFull (sinkKey pipe inst) b = true)
  (ht : t = emit (.pcieRead 0 (sinkAddr b + 8) 8) { s with eng := { s.eng with
    sinks := tput s.eng.sinks (sinkKey pipe inst) ((tgetD s.eng.sinks (sinkKey pipe inst) (0, 0)).1, head) } })
include hp hb hfull ht

theorem sinkHeadPoll_noneWaits (hw : (t.eng.sinkWait.find? fun w => t.sinksTo w.1 (sinkKey pipe inst)) = none) :
    sinkHeadPoll pipe inst head true s = t := by
  subst hb ht
  simp only [sinkHeadPoll, hp, hfull, if_true, hw]

theorem sinkHeadPoll_drains {w : Nat × Bytes}
    (hw : (t.eng.sinkWait.find? fun w => t.sinksTo w.1 (sinkKey pipe inst)) = some w) :
    sinkHeadPoll pipe inst head true s = drainSink (sinkKey pipe inst) b sinkWork t.eng.sinkWait t := by
  subst hb ht
  simp only [sinkHeadPoll, hp, hfull, if_true, hw, Bool.true_or]

end

end

end Sys2Proof.Machine

/-! ### The statement -/

namespace Sys2Proof.Machine.EngineQueues

/-- Settles O34: the row of each event runs its operation, in the case that the clause's conditions pick. -/
theorem engineQueuesWork : Obligations.EngineQueuesWork := by
  refine ⟨fun s key k x p t out u ha hg hu hx hp hslate hphase hst hfetch hslot hsite heng hk hserves hqueues hroom hout hbuf => ?_,
    fun s k flips c cs e es s2 ha hg hcs hes hcode hs2 => ⟨fun hmem => ?_, fun x hmem hx hphase hcause hinput => ?_,
      fun x hmem hx hphase hreads hinput => ?_, fun x hmem hx hphase => ?_⟩,
    fun s key k x p i t b y ha hg hx hp hi ht hb hphase heng hk hserves hroom hother hy => ?_,
    fun s k e ha hg hcur hatt hdepth => ⟨?_, ?_, fun a => ?_⟩,
    fun s k slot2 c cs e es u ha hg hcs hes hcode hfree hslot hu => ?_,
    fun s k e es v ha hg hes hv => ⟨fun r1 hres => ?_, fun r1 result hres hne => ?_,
      fun r1 r2 core u hres hthird hu => ⟨?_, fun hne => ?_, fun result h1 h2 => ?_⟩⟩,
    fun s unit q ha h hruns => (live_of_alive ha).trans (congrArg _ (suspectClear_clears h hruns)),
    fun s pipe inst head p b w t ha hg hp hb hfull ht => ⟨fun hw => ?_, fun hw => ?_⟩⟩
  · subst hout
    exact (live_going ha hg).trans (congrArg _
      (issueEntry_places hu hx hp hslate hphase hst hfetch hslot hsite heng hk hserves hqueues hroom hbuf))
  · exact (live_going ha hg).trans (congrArg _ (engineCompletion_memory hcs hes hcode hs2 hmem))
  · exact (live_going ha hg).trans (congrArg _ (engineCompletion_outcome hcs hes hcode hs2 hmem hx hphase hcause hinput))
  · exact (live_going ha hg).trans (congrArg _ (engineCompletion_transit hcs hes hcode hs2 hmem hx hphase hreads hinput))
  · exact (live_going ha hg).trans (congrArg _ (engineCompletion_discarded hcs hes hcode hs2 hmem hx hphase))
  · subst hy
    exact (live_going ha hg).trans (congrArg _ (fetchRepeat_repeats hx hp hi ht hb hphase heng hk hserves hroom hother))
  · exact (live_going ha hg).trans (congrArg _ (engineFault_first hcur hatt hdepth))
  · exact (live_going ha hg).trans (congrArg _ (engineFault_first hcur hatt hdepth))
  · exact live_going ha hg
  · exact (live_going ha hg).trans (congrArg _ (startVote_asks hcs hes hcode hfree hslot hu))
  · exact (live_going ha hg).trans (congrArg _ (voteResult_agrees hes hv hres))
  · exact (live_going ha hg).trans (congrArg _ (voteResult_differs hes hv hres hne))
  · exact (live_going ha hg).trans (congrArg _ (voteResult_settles1 hes hv hres hthird hu))
  · exact (live_going ha hg).trans (congrArg _ (voteResult_settles2 hes hv hres hthird hu hne))
  · exact (live_going ha hg).trans (congrArg _ (voteResult_threeWay hes hv hres hthird hu h1 h2))
  · exact (live_going ha hg).trans (congrArg _ (sinkHeadPoll_noneWaits hp hb hfull ht hw))
  · exact (live_going ha hg).trans (congrArg _ (sinkHeadPoll_drains hp hb hfull ht hw))

end Sys2Proof.Machine.EngineQueues
end

section
/-! SUPPORT and SETTLED: position schedules and the buffer pool (O35). -/

namespace Sys2Proof.Machine

/-! ### Schedules (R103 to R105) -/

section
variable {s : State} {pipe epoch : Nat} {p : Pipeline}

theorem buildSchedule_builds {beside gone : List Schedule} {e : Schedule} {r : Schedule × State}
    (hp : tget s.pipes pipe = some p) (hmay : s.mayBuild p epoch = true) (hnone : p.schedule epoch = none)
    (hbeside : beside = p.schedulesBeside epoch)
    (he : e = Schedule.mk epoch 0 (s.ownedPositions pipe p.decl epoch) true false [] [] [] [])
    (hgone : gone = p.schedules.filter (fun x => beside.all fun y => y.epoch != x.epoch))
    (hr : r = placeSchedule (s.domain p.decl) e (modPipe pipe (fun q => { q with schedules := beside }) (dropMoved gone s))) :
    buildSchedule pipe epoch s = modPipe pipe (fun q => { q with schedules := beside ++ [r.1] }) r.2 := by
  subst hr he hgone hbeside
  simp only [buildSchedule, hp, hmay, hnone, if_true, Option.map_none, Option.getD_none]

/-- A built schedule stands, and a STARTING pipeline whose cursor lies in its epoch is RUNNING. -/
theorem scheduleComplete_stands {e : Schedule} (hp : tget s.pipes pipe = some p) (he : p.schedule epoch = some e)
    (hact : p.active = true) (hbuilt : e.built = true) (hcomplete : e.complete = false) :
    tget (scheduleComplete pipe epoch s).pipes pipe = some { p.freeShots e with
      schedules := p.schedules.map fun x => if x.epoch = epoch then { x with complete := true } else x
      state := if p.state = 2 ∧ epoch = s.cursorEpoch p then 3 else p.state } := by
  simp only [scheduleComplete, hp, he, hact, hbuilt, hcomplete, Bool.not_false, Bool.and_self, if_true, modPipe, tget_tmod,
    Option.map_some]
  rfl

/-- A window computed again holds the fresh positions, -/
theorem mem_renewed_same {e : Schedule} {window : Nat} {fresh : List Nat} {n : Nat} (h : windowOf n = window) :
    n ∈ (e.renewed window fresh).positions ↔ n ∈ fresh := by
  simp [Schedule.renewed, h]

/-- and the other windows what they held. -/
theorem mem_renewed_other {e : Schedule} {window : Nat} {fresh : List Nat} {n : Nat} (h : windowOf n ≠ window)
    (hfresh : ∀ m ∈ fresh, windowOf m = window) : n ∈ (e.renewed window fresh).positions ↔ n ∈ e.positions := by
  have hnot : n ∉ fresh := fun hn => h (hfresh n hn)
  rcases Nat.lt_or_gt_of_ne h with hlt | hgt
  · simp [Schedule.renewed, hnot, hlt, Nat.le_of_lt hlt]
  · simp [Schedule.renewed, hnot, hgt, Nat.le_of_lt hgt]

section
variable {e : Schedule} {window : Nat} {fresh : List Nat} (hp : tget s.pipes pipe = some p) (he : p.schedule epoch = some e)
  (hact : p.active = true) (hbuilt : e.built = true)
  (hfresh : fresh = (s.ownedPositions pipe p.decl epoch).filter (fun n => windowOf n == window))
include hp he hact hbuilt hfresh

theorem windowRebuild_writes {x : Schedule} {u : State} (hw : writeWindow (e.renewed window fresh) window s = some (x, u)) :
    windowRebuild pipe epoch window none s = modPipe pipe (fun q => { q with
      schedules := q.schedules.map fun y => if y.epoch = epoch then x else y }) u := by
  subst hfresh
  simp only [windowRebuild, hp, he, hact, hbuilt, Bool.and_self, if_true, hw]

theorem windowRebuild_waits (hw : writeWindow (e.renewed window fresh) window s = none) :
    windowRebuild pipe epoch window none s = s := by
  subst hfresh
  simp only [windowRebuild, hp, he, hact, hbuilt, Bool.and_self, if_true, hw]

end

end

/-! ### Allocation (R268, R270, R271) -/

section
variable {s : State} {w : PoolWait} {filling hs : List Nat}

theorem mayServe_own (hcopy : w.copyOf = none) : s.mayServe w filling = s.canServe w filling := by
  simp only [State.mayServe, hcopy]
  split
  · next h => exact h.symm
  · next h => exact h.symm

theorem grantWait_own (hcopy : w.copyOf = none) : grantWait w hs s = grantBufs w.owner w.cls hs s := by
  simp only [grantWait, hcopy]

theorem allocBufs_grants (hok : w.ok = true) (hcopy : w.copyOf = none) (hserve : s.canServe w filling = some hs)
    (hahead : s.noneAhead w = true) : allocBufs w filling s = grantBufs w.owner w.cls hs s := by
  simp only [allocBufs, hok, mayServe_own hcopy, hserve, hahead, grantWait_own hcopy, if_true]

theorem allocBufs_waits (hok : w.ok = true) (hcopy : w.copyOf = none)
    (h : s.canServe w filling = none ∨ s.noneAhead w = false) : allocBufs w filling s =
      bump 0x06 w.owner 0x07 { countWait w s with pool := { s.pool with waits := s.pool.waits ++ [w] } } := by
  simp only [allocBufs, hok, mayServe_own hcopy, if_true]
  rcases h with h | h
  · rw [h]
  · rw [h]
    cases s.canServe w filling <;> rfl

/-- The row of an allocation that is no copy makes this request. -/
theorem poolAlloc_row (ha : s.alive = true) (hg : s.going = true) (hcopy : w.copyOf = none) :
    exec (.poolAlloc w.owner w.cls w.stack w.bytes w.sample w.stage w.op filling) s =
      .next (allocBufs w filling (tracePool w.stack w.owner w.stage w.op s)) := by
  obtain ⟨owner, cls, stack, bytes, sample, stage, op, copyOf⟩ := w
  cases hcopy
  exact live_going ha hg

theorem allocGrant_grants {cls stack : Nat} (hw : s.nextWaiter cls = some w)
    (hserve : s.mayServe { w with stack := stack } filling = some hs) : allocGrant cls stack filling s =
      grantWait w hs { s with pool := { s.pool with waits := s.pool.waits.erase w } } := by
  simp only [allocGrant, hw, hserve]

end

/-! ### FREE, SHARE, ADD and RELEASE (R275 to R277) -/

section
variable {s u : State} {h owner stage op caller cause : Nat} {f : PoolEntry → State → State} {e : PoolEntry}
  (hu : u = tracePool (bufStack h) owner stage op s)

section
include hu

theorem onBuffer_runs (hok : u.handleOk h = true) (he : tget u.pool.entries h = some e) :
    onBuffer h owner stage op caller cause f s = f e u := by
  subst hu
  simp only [onBuffer, hok, he, Bool.not_true, Bool.false_eq_true, if_false]

theorem onBuffer_free (hok : u.handleOk h = true) (he : tget u.pool.entries h = none) :
    onBuffer h owner stage op caller cause f s = poolFault h owner stage op caller cause u := by
  subst hu
  simp only [onBuffer, hok, he, Bool.not_true, Bool.false_eq_true, if_false]

theorem onBuffer_invalid (hok : u.handleOk h = false) :
    onBuffer h owner stage op caller cause f s = poolFault h owner stage op caller 0x020E u := by
  subst hu
  simp only [onBuffer, hok, Bool.not_false, if_true]

end

variable {n : Nat} {filling : List Nat} (hlo : 2 ≤ n) (hhi : n ≤ 65535) (href : e.ref = none)

section
include hlo hhi href

theorem shareBuf_shares (hroom : s.refsUsed (bufStack h) < 131072) : shareBuf h n stage op filling e s =
    modBuf h (fun e => { e with ref := some (s.freeRef (bufStack h)) }) (setRef (bufStack h) (s.freeRef (bufStack h)) n s) := by
  simp only [shareBuf, href, Option.isSome_none, Bool.false_eq_true, or_false, if_neg (show ¬ (n < 2 ∨ 65535 < n) by omega),
    if_pos hroom, setRef]

theorem shareBuf_copies (hfull : 131072 ≤ s.refsUsed (bufStack h)) : shareBuf h n stage op filling e s =
    copyReaders h e.owner stage op filling (n - 1) (bumpBy 0x06 0x0100 0x04 (n - 1) s) := by
  simp only [shareBuf, href, Option.isSome_none, Bool.false_eq_true, or_false, if_neg (show ¬ (n < 2 ∨ 65535 < n) by omega),
    if_neg (Nat.not_lt.mpr hfull)]

end

variable {i : Nat}

theorem addBuf_adds {k : Nat} (href : e.ref = some i) :
    addBuf h k e s = setRef (bufStack h) i (s.refCount (bufStack h) i + k) s := by
  simp only [addBuf, href]

theorem releaseBuf_lowers (href : e.ref = some i) (hcount : 2 ≤ s.refCount (bufStack h) i) :
    releaseBuf h e s = setRef (bufStack h) i (s.refCount (bufStack h) i - 1) s := by
  simp only [releaseBuf, href, if_neg (show ¬ s.refCount (bufStack h) i ≤ 1 by omega)]

theorem releaseBuf_frees (href : e.ref = some i) (hcount : s.refCount (bufStack h) i ≤ 1) :
    releaseBuf h e s = freeChain h s := by
  simp only [releaseBuf, href, if_pos hcount]

end

end Sys2Proof.Machine

/-! ### The statement -/

namespace Sys2Proof.Machine.SchedulesAndPool

/-- Settles O35: the row of each event runs its operation, on the buffer where it names one. -/
theorem schedulesAndPoolWork : Obligations.SchedulesAndPoolWork := by
  refine ⟨fun s pipe epoch p ha hg hp => ⟨fun beside e gone r hmay hnone hbeside he hgone hr => ?_,
      fun e he hact hbuilt hcomplete => ?_, fun e window fresh he hact hbuilt hfresh => ⟨fun n hn => ?_, fun n hn => ?_, fun x u hw => ?_, fun hw => ?_⟩⟩,
    fun s w filling u ha hg hok hcopy hu => ⟨fun hs hserve hahead => ?_, fun h => ?_⟩,
    fun s cls stack filling w hs ha hg hw hserve => ?_,
    fun s h owner stage op caller filling u ha hg hu => ⟨fun e hok he => ⟨?_, fun n hlo hhi href hroom => ?_,
        fun n hlo hhi href hfull => ?_, fun i k href => ?_, fun i href hcount => ?_, fun i href hcount => ?_⟩,
      fun hok he => ⟨?_, fun n => ?_, fun k => ?_, ?_⟩, fun hok => ?_⟩⟩
  · exact (live_going ha hg).trans (congrArg _ (buildSchedule_builds hp hmay hnone hbeside he hgone hr))
  · exact ⟨_, _, live_going ha hg, scheduleComplete_stands hp he hact hbuilt hcomplete, rfl, rfl⟩
  · rw [mem_renewed_same hn, hfresh, List.mem_filter]
    simp [hn]
  · subst hfresh
    exact mem_renewed_other hn fun m hm => eq_of_beq (List.mem_filter.mp hm).2
  · exact (live_going ha hg).trans (congrArg _ (windowRebuild_writes hp he hact hbuilt hfresh hw))
  · exact (live_going ha hg).trans (congrArg _ (windowRebuild_waits hp he hact hbuilt hfresh hw))
  · subst hu
    exact (poolAlloc_row ha hg hcopy).trans (congrArg _ (allocBufs_grants hok hcopy hserve hahead))
  · subst hu
    exact (poolAlloc_row ha hg hcopy).trans (congrArg _ (allocBufs_waits hok hcopy h))
  · exact (live_going ha hg).trans (congrArg _ (allocGrant_grants hw hserve))
  · exact (live_going ha hg).trans (congrArg _ (onBuffer_runs hu hok he))
  · exact (live_going ha hg).trans (congrArg _ ((onBuffer_runs hu hok he).trans (shareBuf_shares hlo hhi href hroom)))
  · exact (live_going ha hg).trans (congrArg _ ((onBuffer_runs hu hok he).trans (shareBuf_copies hlo hhi href hfull)))
  · exact (live_going ha hg).trans (congrArg _ ((onBuffer_runs hu hok he).trans (addBuf_adds href)))
  · exact (live_going ha hg).trans (congrArg _ ((onBuffer_runs hu hok he).trans (releaseBuf_lowers href hcount)))
  · exact (live_going ha hg).trans (congrArg _ ((onBuffer_runs hu hok he).trans (releaseBuf_frees href hcount)))
  · exact (live_going ha hg).trans (congrArg _ (onBuffer_free hu hok he))
  · exact (live_going ha hg).trans (congrArg _ (onBuffer_free hu hok he))
  · exact (live_going ha hg).trans (congrArg _ (onBuffer_free hu hok he))
  · exact (live_going ha hg).trans (congrArg _ (onBuffer_free hu hok he))
  · exact (live_going ha hg).trans (congrArg _ (onBuffer_invalid hu hok))

end Sys2Proof.Machine.SchedulesAndPool
end

section
/-! SUPPORT and SETTLED: delivery (O36). -/

namespace Sys2Proof.Machine

/-! ### Writing a sample and its notices (R217, R232) -/

section
variable {s : State} {p : Pipeline} {k : Consumer} {pipe c b : Nat}

/-- A writable batch is not one that the cursor has passed. -/
theorem cursor_le_of_mayWrite (h : s.mayWrite pipe p c b = true) : p.cursor ≤ b := by
  unfold State.mayWrite at h
  simp only [Bool.and_eq_true, decide_eq_true_eq] at h
  exact h.1.1.2

theorem neverDelivered_direct {epoch : Nat} (hledger : p.decl.ledger = false) (hb : p.cursor ≤ b) :
    s.neverDelivered p epoch b = false := by
  simp only [State.neverDelivered, hledger, Bool.false_and, Bool.or_false, decide_eq_false_iff_not, Nat.not_lt, hb]

theorem wholeBatch_direct (hledger : p.decl.ledger = false) : p.wholeBatch b = true := by
  simp only [Pipeline.wholeBatch, hledger, Bool.not_false, Bool.or_true, Bool.true_or]

/-- A finished sample of a direct pipeline is written where its batch is writable. -/
theorem slotWrite_writes {key sl : Nat} {x : Sample} (hkey : key < seqBase) (hx : tget s.eng.samples key = some x)
    (hp : tget s.pipes x.pipeline = some p) (hphase : x.phase = .done) (hledger : p.decl.ledger = false)
    (hpacks : p.decl.packs x.cls = false) (hslot : x.slot = some sl) (hcons : p.consumerOf sl = some (c, k))
    (hmay : s.mayWrite x.pipeline p c x.batch = true) :
    slotWrite key s = writeSample x.pipeline p c k x x.batch sl s := by
  simp only [slotWrite, if_neg (Nat.not_le.mpr hkey), hx, hp, hphase, hpacks, hslot, hcons, hmay,
    neverDelivered_direct hledger (cursor_le_of_mayWrite hmay), wholeBatch_direct hledger, ne_eq, not_true, Bool.false_and,
    Bool.and_self, Bool.false_eq_true, if_false, if_true]

section
variable (hp : tget s.pipes pipe = some p) (hk : tget p.consumers c = some k)
include hp hk

theorem slotNoticeSend_flushed (hflushed : s.flushed k b = true) :
    slotNoticeSend pipe c b stFlushed s = sendReady false pipe c b (markReady pipe c b s) := by
  simp only [slotNoticeSend, hp, Option.bind_some, hk, hflushed, if_true]

theorem slotNoticeSend_failed {status : Nat} (hstatus : status ≠ stFlushed) : slotNoticeSend pipe c b status s =
    modRun pipe c (fun r => { r with held := tdel r.held b, heldPieces := tdel r.heldPieces b }) s := by
  simp only [slotNoticeSend, hp, Option.bind_some, hk, if_neg hstatus]

end

end

/-! ### Messages that arrive (R222 to R224, R231 to R236) -/

section
variable {s u : State} {m : Message} {p : Pipeline} {k : Consumer}

theorem takeSlots_takes (hp : tget s.pipes m.pipeline = some p) (hk : tget p.consumers m.consumer = some k)
    (hhere : s.assembles m.pipeline k = true) : takeSlots m s = (parseSlots m.body).foldl
      (fun (t : State) (e : Nat × Nat) => takeSlot m.pipeline m.consumer m.index e t) s := by
  simp only [takeSlots, hp, Option.bind_some, hk, hhere, if_true]

theorem spanReportIn_takes (hu : u = freeSlot m s) (hacc : u.accepts m 3 = true) (hp : tget u.pipes m.pipeline = some p)
    (hledger : p.decl.ledger = true) (hhere : u.ledgerHere m.pipeline p (m.index % 2 ^ 48) = true)
    (hsender : m.sender ∉ (p.span (m.index / 2 ^ 48) (m.index % 2 ^ 48)).doneFrom) :
    spanReportIn m s = takeReport m.pipeline (m.index / 2 ^ 48) (m.index % 2 ^ 48) m.sender (parseReport m.body)
      (lastReport m.value m.count ((tgetD (p.span (m.index / 2 ^ 48) (m.index % 2 ^ 48)).reports m.sender []).length
        + (parseReport m.body).length)) u := by
  subst hu
  simp only [spanReportIn, hp, hacc, hledger, hhere, hsender, decide_false, Bool.not_false, Bool.and_self, if_true]

/-- A part of a span's result that is not its last gathers. -/
theorem spanResultTake_gathers (hacc : s.accepts m 4 = true) (hp : tget s.pipes m.pipeline = some p)
    (hledger : p.decl.ledger = true) (hres : (p.span (m.index / 2 ^ 48) (m.index % 2 ^ 48)).result = false)
    (hend : (parseResult m.body).2 = none) :
    spanResultTake m s = modSpan m.pipeline (m.index / 2 ^ 48) (m.index % 2 ^ 48)
      (fun r => { r with skips := (p.span (m.index / 2 ^ 48) (m.index % 2 ^ 48)).skips ++ (parseResult m.body).1 }) s := by
  simp only [spanResultTake, hp, hacc, hledger, hres, hend, Bool.not_false, Bool.and_self, if_true]

theorem placementTake_places (hacc : s.accepts m 5 = true) (hp : tget s.pipes m.pipeline = some p) :
    placementTake m s = (pieces 16 m.count m.body).foldl (fun (t : State) (b : Bytes) =>
      takePlacement m.pipeline (m.index / 2 ^ 48) (m.index % 2 ^ 48) p.decl b t) s := by
  simp only [placementTake, hp, hacc, if_true]

theorem spanFetchStart_starts {pipe epoch span : Nat} (hp : tget s.pipes pipe = some p) (hact : p.active = true)
    (hledger : p.decl.ledger = true) (hepoch : epoch < p.decl.epochs) (hspan : span < spansIn (s.domain p.decl))
    (hmay : p.mayFetch epoch span = true) :
    spanFetchStart pipe epoch span s = modSpan pipe epoch span (fun r => { r with started := true }) s := by
  simp only [spanFetchStart, hp, hact, hledger, hepoch, hspan, hmay, decide_true, Bool.and_self, if_true]

end

/-! ### Release and HEAD (R234, R236) -/

section
variable {s : State} {p : Pipeline} {k : Consumer} {r : ConsRun} {pipe c : Nat}

/-- A consumer's delivery state after a change of it is the changed one. -/
theorem modRun_run {f : ConsRun → ConsRun} {q : Pipeline} {x : ConsRun} (hq : tget (modRun pipe c f s).pipes pipe = some q)
    (hx : tget q.runs c = some x) : ∃ x0, x = f x0 := by
  simp only [modRun, modPipe, tget_tmod, Option.map_eq_some_iff] at hq
  obtain ⟨q0, -, rfl⟩ := hq
  simp only [tget_tmod, Option.map_eq_some_iff] at hx
  obtain ⟨x0, -, rfl⟩ := hx
  exact ⟨x0, rfl⟩

variable (hp : tget s.pipes pipe = some p) (hk : tget p.consumers c = some k) (hr : tget p.runs c = some r)
include hp hk hr

/-- The release of a batch moves the consumer's delivery state on before it is told and the cursor follows. -/
theorem batchRelease_releases (hmay : s.mayRelease pipe p k r = true) :
    ∃ u, batchRelease pipe c s = moveCursor pipe (sendRelease pipe c r.oldest u) ∧
      ∀ q, tget u.pipes pipe = some q → ∀ x, tget q.runs c = some x →
        x.oldest = r.oldest + 1 ∧ x.tail = r.tail + 1 ∧ x.ring = r.ring ++ [r.oldest] := by
  simp only [batchRelease, hp, hk, hr, hmay, if_true]
  refine ⟨_, rfl, fun q hq x hx => ?_⟩
  rw [pipes_of_work (traceRecord_work ..)] at hq
  obtain ⟨x0, rfl⟩ := modRun_run hq hx
  exact ⟨rfl, rfl, rfl⟩

theorem headReadTimer_reads (hact : p.active = true) (hhere : s.assembles pipe k = true) (hring : r.ring ≠ [])
    (hstop : r.stopped = false) :
    headReadTimer pipe c s = postWork k.qp 2 (k.ringAddr + 8) k.ringKey [] 8 r.oldest s := by
  simp only [headReadTimer, hp, hk, hr, hact, hhere, List.isEmpty_eq_false_iff.mpr hring, hstop, Bool.not_false, Bool.and_self,
    if_true]

/-- A HEAD among the released batches moves the window on; where no batch becomes writable by it, no node is told. -/
theorem headReadComplete_moves {head : Nat} (hact : p.active = true) (hhere : s.assembles pipe k = true)
    (hstop : r.stopped = false) (hlo : r.head ≤ head) (hhi : head ≤ r.tail)
    (hsame : (r.ring.drop (head - r.head)).headD r.oldest + k.buffers ≤ r.writable) :
    headReadComplete pipe c head s = lowWaterCheck pipe c (modRun pipe c (fun x => { x with
      head := head, ring := r.ring.drop (head - r.head)
      writable := (r.ring.drop (head - r.head)).headD r.oldest + k.buffers }) s) := by
  simp only [headReadComplete, hp, hk, hr, hact, hhere, hstop, hlo, hhi, and_self, decide_true, Bool.not_false, Bool.and_self,
    if_true, if_neg (Nat.not_lt.mpr hsame)]

end

end Sys2Proof.Machine

/-! ### The statement -/

namespace Sys2Proof.Machine.Delivery

/-- A message that arrives whole is taken, its receive slot free. -/
theorem live_taken {s u : State} {m : Message} {kind : Nat} {f : State → State} (ha : s.alive = true) (hg : s.going = true)
    (hu : u = freeSlot m s) (hacc : u.accepts m kind = true) :
    live (whenB s.going fun t => let u := freeSlot m t; if u.accepts m kind then f u else u) s = .next (f u) := by
  subst hu
  exact (live_going ha hg).trans (congrArg _ (if_pos hacc))

/-- One that the node takes whole also goes to its lockstep shadow. -/
theorem live_forwarded {s u : State} {m : Message} {kind : Nat} {f : State → State} (ha : s.alive = true) (hg : s.going = true)
    (hu : u = freeSlot m s) (hacc : s.accepts m kind = true) :
    live (whenB s.going fun t => whenB (t.accepts m kind) (forwardToShadow m) (f (freeSlot m t))) s =
      .next (forwardToShadow m (f u)) := by
  subst hu
  refine (live_going ha hg).trans ?_
  rw [hacc, whenB_true]

/-- Settles O36: the row of each event runs its operation, in the case that the clause's conditions pick. -/
theorem deliveryWorks : Obligations.DeliveryWorks := by
  refine ⟨fun s key x p sl c k ha hg hkey hx hp hphase hledger hpacks hslot hcons hmay => ?_,
    fun s pipe c b p k ha hg hp hk => ⟨fun hflushed => ?_, live_going ha hg, fun status hstatus => ?_⟩,
    fun s m u ha hg hu => ⟨fun p k hacc hp hk hhere => ?_, fun hacc => live_taken ha hg hu hacc,
      fun hacc => live_taken ha hg hu hacc, fun p es hacc hp hledger hhere hsender hes => ?_,
      fun p hacc hacc' hp hledger hres hend => ?_, fun p hacc hacc' hp => ?_⟩,
    fun s pipe epoch span p ha hg hp => ⟨fun hact hledger hepoch hspan hmay => ?_, live_going ha hg⟩,
    fun s pipe c p k r ha hg hp hk hr => ⟨fun hmay => ?_, fun hact hhere hring hstop => ?_,
      fun head hact hhere hstop hlo hhi hsame => ?_⟩⟩
  · exact (live_going ha hg).trans (congrArg _ (slotWrite_writes hkey hx hp hphase hledger hpacks hslot hcons hmay))
  · exact (live_going ha hg).trans (congrArg _ (slotNoticeSend_flushed hp hk hflushed))
  · exact (live_going ha hg).trans (congrArg _ (slotNoticeSend_failed hp hk hstatus))
  · exact (live_taken ha hg hu hacc).trans (congrArg _ (takeSlots_takes hp hk hhere))
  · subst hes
    exact (live_going ha hg).trans (congrArg _ (spanReportIn_takes hu hacc hp hledger hhere hsender))
  · exact (live_forwarded ha hg hu hacc).trans
      (congrArg _ (congrArg _ (spanResultTake_gathers hacc' hp hledger hres hend)))
  · exact (live_forwarded ha hg hu hacc).trans (congrArg _ (congrArg _ (placementTake_places hacc' hp)))
  · exact (live_going ha hg).trans (congrArg _ (spanFetchStart_starts hp hact hledger hepoch hspan hmay))
  · obtain ⟨u, hrun, hafter⟩ := batchRelease_releases hp hk hr hmay
    exact ⟨_, u, (live_going ha hg).trans (congrArg _ hrun), rfl, hafter⟩
  · exact (live_going ha hg).trans (congrArg _ (headReadTimer_reads hp hk hr hact hhere hring hstop))
  · exact (live_going ha hg).trans (congrArg _ (headReadComplete_moves hp hk hr hact hhere hstop hlo hhi hsame))

end Sys2Proof.Machine.Delivery
end

section
/-! SUPPORT and SETTLED: lockstep and the clapper (O37). -/

namespace Sys2Proof.Machine

/-! ### Lockstep (R426 to R432) -/

section
variable {s u : State} {c : Cmd} {m : Message} {k : Lockstep} {p : Pipeline} {kind role : Nat} {f : Lockstep → State → State}

theorem lockstepConfig_sets (hp : tget s.pipes (c.p8 32) = some p) (hact : p.active = false)
    (hqp : s.controlQp (c.p16 34) ≠ none) (hrole : c.p8 33 ≤ 2) (hloss : c.p8 38 ≤ 1) (hdrive : c.p8 39 ≤ 1)
    (htime : c.p16 40 ≤ 10000) (hnode : c.p8 33 = 1 → c.p16 36 = s.fab.nodeId) :
    lockstepConfig c s = finishPlain c.pair c.cid stOk
      { s with lock := tput s.lock (c.p8 32) { lockOf c with lowest := p.cursor } } := by
  have hbad : ¬ (2 < c.p8 33 ∨ 1 < c.p8 38 ∨ 1 < c.p8 39 ∨ 10000 < c.p16 40 ∨ (c.p8 33 = 1 ∧ c.p16 36 ≠ s.fab.nodeId)) := by
    rintro (h | h | h | h | ⟨h1, hne⟩)
    · omega
    · omega
    · omega
    · omega
    · exact hne (hnode h1)
  simp only [lockstepConfig, hp, hact, Option.isNone_eq_false_iff.mpr (Option.isSome_iff_ne_none.mpr hqp), Bool.false_eq_true,
    if_false, if_neg hbad]

/-- A lockstep message that the member of its role takes acts on the lockstep, its receive slot free. -/
theorem live_lockIn (ha : s.alive = true) (hg : s.going = true) (hu : u = freeSlot m s) (hk : tget u.lock m.pipeline = some k)
    (hacc : u.lockAccepts m kind role = true) : live (whenB s.going (lockIn kind role m f)) s = .next (f k u) := by
  subst hu
  refine (live_going ha hg).trans (congrArg _ ?_)
  simp only [lockIn, hk, hacc, if_true]

theorem lockstepTimeout_goesOn {pipe : Nat} (hk : tget s.lock pipe = some k) (hp : tget s.pipes pipe = some p)
    (hact : p.active = true) (hstate : k.lsState = 1) (hlate : s.partnerLate k = true) (hrole : k.role = 1)
    (hloss : k.onLoss = 1) : lockstepTimeout pipe s =
      releaseHeld pipe (fun _ => true) (raiseEvent 0x0007 0 (0xFFFFF + pipe * 2 ^ 20 + 5 * 2 ^ 24)
        (modLock pipe (fun k => { k with lsState := 3 }) s)) := by
  simp only [lockstepTimeout, hk, hp, hact, hstate, hlate, hrole, hloss, Option.map_some, Option.getD_some, ne_eq, not_true,
    one_ne_zero, Bool.not_true, Bool.false_eq_true, or_self, if_false, and_self, if_true]

end

/-! ### The clapper (R433 to R435) -/

section
variable {s : State} {pair cid action : Nat} {c : Cmd} {f : Cmd → State → State}

/-- CLAPPER commands run in a freeze too. -/
theorem clapperCmd_runs (hc : s.findCmd pair cid = some c) (hop : c.opcode = 0x0506) (hstart : s.mayStart c = true)
    (hfatal : s.ken.fatal = false) (haction : c.p8 32 = action) (hle : action ≤ 2) :
    clapperCmd action pair cid f s = f c s := by
  have hserves : s.serves 0x0506 c.entry = true := by simp [State.serves, servedFrozen]
  have hpick : min (c.p8 32) 3 % 3 = action := by omega
  simp only [clapperCmd, runCmd, hc, hop, hstart, hfatal, hserves, hpick, beq_self_eq_true, Bool.and_self, Bool.not_true,
    Bool.and_false, Bool.false_eq_true, if_false, if_true, if_neg (show ¬ 2 < c.p8 32 by omega)]

theorem freezeAt_later (hfrozen : s.ken.frozen = false) (hat : s.tb < c.p64 40) :
    freezeAt c s = finishPlain c.pair c.cid stOk { s with clap := { s.clap with at_ := some (c.p64 40) } } := by
  simp only [freezeAt, hfrozen, Bool.false_eq_true, if_false, if_neg (Nat.not_le.mpr hat)]

theorem freezeAt_passed (hfrozen : s.ken.frozen = false) (hat : c.p64 40 ≤ s.tb) : freezeAt c s =
    finishPlain c.pair c.cid stOk (enterFreeze 1 false { s with clap := { s.clap with at_ := none } }) := by
  simp only [freezeAt, hfrozen, Bool.false_eq_true, if_false, if_pos hat]

theorem clapperRelease_now (hfrozen : s.ken.frozen = true) (hheld : s.clap.held = none) (harm : s.raw 0x12 0 0x01 0 = 0) :
    clapperRelease false c s = finishPlain c.pair c.cid stOk
      (releaseFreeze (driveBall false { s with clap := { s.clap with released := true } })) := by
  simp only [clapperRelease, hfrozen, hheld, harm, Bool.not_true, Option.isSome_none, Bool.false_eq_true, or_false, if_false,
    if_true]

theorem clapperRelease_held (hfrozen : s.ken.frozen = true) (hheld : s.clap.held = none) (harm : s.raw 0x12 0 0x01 0 ≠ 0) :
    clapperRelease false c s = markRunning c.pair c.cid
      (let u := driveBall false { s with clap := { s.clap with released := true } }
      { u with clap := { u.clap with held := some (c.pair, c.cid) } }) := by
  simp only [clapperRelease, hfrozen, hheld, Bool.not_true, Option.isSome_none, Bool.false_eq_true, or_false, if_false, if_neg harm]

theorem execClapperPinAssert_armed (ha : s.alive = true) (harm : s.raw 0x12 0 0x01 0 = 1) :
    execClapperPinAssert s = .next (enterFreeze 2 false { s with clap := { s.clap with ballLow := true } }) := by
  rw [execClapperPinAssert, live_of_alive ha]
  exact congrArg _ (if_pos harm)

theorem execClapperPinDeassert_releases (ha : s.alive = true) (hheld : s.clap.held = some (pair, cid)) :
    execClapperPinDeassert s =
      .next (finishPlain pair cid stOk (releaseFreeze { s with clap := { s.clap with ballLow := false } })) := by
  simp only [execClapperPinDeassert, live_of_alive ha, hheld]

theorem execClapperAtReached_freezes {a : Nat} (ha : s.alive = true) (hat : s.clap.at_ = some a) (hle : a ≤ s.tb) :
    execClapperAtReached s = .next (enterFreeze 1 false { s with clap := { s.clap with at_ := none } }) := by
  simp only [execClapperAtReached, live_of_alive ha, hat, if_pos hle]

end

end Sys2Proof.Machine

/-! ### The statement -/

namespace Sys2Proof.Machine.LockstepAndClapper

/-- Settles O37: a partner's message is taken by `live_lockIn`, and the clapper's commands run in a freeze too. -/
theorem lockstepAndClapperWork : Obligations.LockstepAndClapperWork := by
  refine ⟨fun s pair cid c p h hp hact hqp hrole hloss hdrive htime hnode => ?_,
    fun s m u k ha hg hu hk => ⟨fun hacc hmatched hstate => ?_, fun hacc hmatched => ?_, fun hacc => live_lockIn ha hg hu hk hacc,
      fun p all hacc hsearch hp hall hcount => ?_, fun hacc => live_lockIn ha hg hu hk hacc,
      fun p e hacc hsearch hp he => ?_, fun hacc => ⟨_, _, _, live_lockIn ha hg hu hk hacc⟩, fun hacc hpipe hkind => ?_,
      fun hacc hpipe hkind => ?_⟩,
    fun s pipe k p ha hg hk hp hact hstate hlate hrole hloss => ?_,
    fun s pair cid c ha hc hop hstart hfatal => ⟨fun haction => ?_, fun haction hfrozen hat => ?_, fun haction hfrozen hat => ?_,
      fun haction hfrozen hheld harm => ?_, fun haction hfrozen hheld harm => ?_⟩,
    fun s ha => ⟨fun harm => ?_, fun pair cid hheld => ?_, fun a hat hle => ?_⟩⟩
  · exact (live_runCmd_of_ready lockstepConfig h).trans
      (congrArg _ (lockstepConfig_sets hp hact hqp hrole hloss hdrive htime hnode))
  · refine (live_lockIn ha hg hu hk hacc).trans (congrArg _ (if_neg ?_))
    simp [hmatched, hstate]
  · refine (live_lockIn ha hg hu hk hacc).trans (congrArg _ (if_neg ?_))
    simp [hmatched]
  · subst hall
    refine (live_lockIn ha hg hu hk hacc).trans (congrArg _ ?_)
    simp only [hsearch, hp, ne_eq, not_true, if_false, if_pos hcount]
  · subst he
    refine (live_lockIn ha hg hu hk hacc).trans (congrArg _ ?_)
    simp only [hsearch, hp, ne_eq, not_true, or_self, if_false]
  · refine (live_lockIn ha hg hu hk hacc).trans (congrArg _ ?_)
    simp only [hpipe, hkind, ne_eq, not_true, if_false, if_true]
  · refine (live_lockIn ha hg hu hk hacc).trans (congrArg _ ?_)
    simp only [hpipe, hkind, ne_eq, not_true, Nat.reduceEqDiff, if_false, if_true]
  · exact (live_going ha hg).trans (congrArg _ (lockstepTimeout_goesOn hk hp hact hstate hlate hrole hloss))
  · exact (live_of_alive ha).trans (congrArg _ (clapperCmd_runs hc hop hstart hfatal haction (by decide)))
  · exact (live_of_alive ha).trans
      (congrArg _ ((clapperCmd_runs hc hop hstart hfatal haction (by decide)).trans (freezeAt_later hfrozen hat)))
  · exact (live_of_alive ha).trans
      (congrArg _ ((clapperCmd_runs hc hop hstart hfatal haction (by decide)).trans (freezeAt_passed hfrozen hat)))
  · exact (live_of_alive ha).trans
      (congrArg _ ((clapperCmd_runs hc hop hstart hfatal haction (by decide)).trans (clapperRelease_now hfrozen hheld harm)))
  · exact (live_of_alive ha).trans
      (congrArg _ ((clapperCmd_runs hc hop hstart hfatal haction (by decide)).trans (clapperRelease_held hfrozen hheld harm)))
  · exact execClapperPinAssert_armed ha harm
  · exact execClapperPinDeassert_releases ha hheld
  · exact execClapperAtReached_freezes ha hat hle

end Sys2Proof.Machine.LockstepAndClapper
end

section
/-! SUPPORT and SETTLED: the words of stack memory, what changes them and what does not, and stack memory's rows (O38). -/

namespace Sys2Proof.Machine

/-! ### What leaves every word (R21, R248 to R256, R273) -/

section
variable (s : State)

/-- What keeps the work of the part keeps the words. -/
theorem words_of_work {s t : State} (h : t.work = s.work) : t.mem.words = s.mem.words := by
  rw [mem_of_work h]

theorem notePeak_words (o cls : Nat) : (notePeak o cls s).mem.words = s.mem.words := by
  unfold notePeak
  split <;> rfl

theorem notePeaks_words (hs : List Nat) : (notePeaks hs s).mem.words = s.mem.words := by
  refine foldl_keeps (fun t : State => t.mem.words) (fun t h => ?_) hs s
  split
  · exact notePeak_words _ _ _
  · rfl

theorem freeChain_words (h : Nat) : (freeChain h s).mem.words = s.mem.words := notePeaks_words s _

theorem freeBuf_words (o : Option Nat) : (freeBuf o s).mem.words = s.mem.words := by
  cases o with
  | none => rfl
  | some h => exact freeChain_words s h

theorem freeBufs_words (x : Sample) : (freeBufs x s).mem.words = s.mem.words :=
  (foldl_keeps (fun t : State => t.mem.words) (fun t h => freeBuf_words t (some h)) x.modelBufs _).trans
    ((freeBuf_words _ _).trans (freeBuf_words _ _))

theorem remake_words (x : Sample) : (remake x s).mem.words = s.mem.words := by
  unfold remake
  split
  · rfl
  · exact freeBufs_words s x

theorem dropStackBufs_words (stack : Nat) : (dropStackBufs stack s).mem.words = s.mem.words := notePeaks_words s _

theorem loseScheduleStack_words (stack : Nat) : (loseScheduleStack stack s).mem.words = s.mem.words := rfl

theorem remakeIn_words (stack : Nat) : (remakeIn stack s).mem.words = s.mem.words :=
  foldl_keeps (fun t : State => t.mem.words) (fun t _ => remake_words t _) _ s

theorem requeue_words (k : Nat) : (requeue k s).mem.words = s.mem.words :=
  (foldl_keeps (fun t : State => t.mem.words) (f := fun (t : State) (e : Entry) =>
    modSample e.sample (fun x => if x.place = some (k, e.seq) then { x with phase := .ready, place := none } else x) t)
    (fun _ _ => rfl) _ _).trans rfl

theorem noteRetired_words (u cause parent : Nat) : (noteRetired u cause parent s).mem.words = s.mem.words := by
  unfold noteRetired
  split
  · rfl
  · exact words_of_work (logRecord_work ..)

theorem retireStack_words (stack cause : Nat) : (retireStack stack cause s).mem.words = s.mem.words := by
  unfold retireStack
  split
  · dsimp only
    rw [foldl_keeps (fun t : State => t.mem.words) (f := fun (t : State) (i : Nat) => requeue (queueKey 1 (stack * 4 + i)) t)
      fun t _ => requeue_words t _]
    rw [loseScheduleStack_words, dropStackBufs_words, remakeIn_words, words_of_work (recordErrOn_work ..), noteRetired_words]
  · rfl

@[simp] theorem noteStreak_words (bad : Bool) (stack idx : Nat) : (noteStreak bad stack idx s).mem.words = s.mem.words := by
  unfold noteStreak
  dsimp only
  split
  · split
    · exact retireStack_words _ _ _
    · rfl
  · rfl

@[simp] theorem wordRecord_words (cause cls stack idx sym : Nat) (rd : Reader) :
    (wordRecord cause cls stack idx sym rd s).mem.words = s.mem.words :=
  words_of_work (recordErrOn_work ..)

@[simp] theorem channelRecord_words (cause cls stack idx : Nat) (rd : Reader) :
    (channelRecord cause cls stack idx rd s).mem.words = s.mem.words :=
  words_of_work (recordErrOn_work ..)

theorem notePersist_words (stack idx : Nat) : (notePersist stack idx s).mem.words = s.mem.words := by
  unfold notePersist
  dsimp only
  split
  · rfl
  · split
    · exact retireStack_words _ _ _
    · rfl

@[simp] theorem remapWord_words (stack idx sym : Nat) (poisoned : Bool) :
    (remapWord stack idx sym poisoned s).mem.words = s.mem.words := by
  unfold remapWord
  dsimp only
  split
  · rfl
  · split
    · exact words_of_work ((tickFree_work _).trans (logRecord_work ..)) |>.trans rfl
    · split
      · refine (notePersist_words _ _ _).trans ?_
        split
        · rfl
        · exact wordRecord_words ..
      · split
        · rfl
        · exact wordRecord_words ..

@[simp] theorem damageObjects_words (stack idx : Nat) : (damageObjects stack idx s).mem.words = s.mem.words := rfl

@[simp] theorem loseScheduleWord_words (stack idx : Nat) : (loseScheduleWord stack idx s).mem.words = s.mem.words := rfl

@[simp] theorem misdirect_words (stack idx : Nat) (rd : Reader) : (misdirect stack idx rd s).mem.words = s.mem.words :=
  (noteStreak_words ..).trans (channelRecord_words ..)

@[simp] theorem used_words (f : WordFault) : (f.used s).mem.words = s.mem.words := by
  unfold WordFault.used
  split <;> rfl

/-! ### What the completion of an entry leaves (R252, R388) -/

@[simp] theorem putCompletion_words (k : Nat) (e : Entry) (c : Completion) :
    (putCompletion k e c s).mem.words = s.mem.words := rfl

@[simp] theorem faultRecord_words (h : Option (Nat × Nat)) (e : Entry) (cls flags : Nat) :
    (faultRecord h e cls flags s).mem.words = s.mem.words :=
  words_of_work (recordErr_work ..)

@[simp] theorem engineFault_words (cause k : Nat) : (engineFault cause k s).mem.words = s.mem.words := by
  unfold engineFault
  split
  · rfl
  · extract_lets i first others h again e s1 s2 seq s3 s4
    have h3 : s3.mem.words = s.mem.words := faultRecord_words s1 h e clsContained 2
    have h4 : s4.mem.words = s.mem.words := by
      simp only [s4]
      split <;> exact h3
    split
    · rfl
    · split
      · rfl
      · exact h4

@[simp] theorem settleMerge_words (k : Nat) : (settleMerge k s).1.mem.words = s.mem.words := by
  obtain ⟨m, hm, -⟩ := settleMerge_eq k s
  rw [hm]

@[simp] theorem completeEntry_words (k : Nat) (e : Entry) (c : Completion) :
    (completeEntry k e c s).mem.words = s.mem.words := by
  unfold completeEntry
  dsimp only
  split
  · exact settleMerge_words s k
  · exact (engineFault_words _ _ _).trans (settleMerge_words s k)

@[simp] theorem poisonReader_words (r stack idx : Nat) : (poisonReader r stack idx s).mem.words = s.mem.words := by
  unfold poisonReader
  split
  · rfl
  · split
    · rfl
    · split
      · exact completeEntry_words ..
      · rfl

end

/-! ### An access that meets no error (R248, R254) -/

section
variable {s : State} {stack idx off : Nat} {bs data : Bytes} {rd : Reader}

theorem faultAt_nil : faultAt [] stack idx = WordFault.clean := rfl

theorem outcomeAt_clean : s.outcomeAt stack idx WordFault.clean = contentOutcome (s.word stack idx) := rfl

theorem clean_used : WordFault.clean.used s = s := rfl

theorem decodeWord_data (h : s.word stack idx = some (.data bs)) :
    decodeWord stack idx .clean rd s = (noteStreak false stack idx s, some bs) := by
  simp only [decodeWord, outcomeAt_clean, h, contentOutcome, clean_used]

theorem decodeWord_uninitialised (h : s.word stack idx = none) : decodeWord stack idx .clean rd s =
    (wordRecord 0x0206 clsContained stack idx 0xFFFF rd (bump 0x05 stack 0x08 (noteStreak false stack idx s)), none) := by
  simp only [decodeWord, outcomeAt_clean, h, contentOutcome, clean_used]

theorem decodeWord_poison (h : s.word stack idx = some .poison) : decodeWord stack idx .clean rd s =
    (wordRecord 0x0207 clsContained stack idx 0xFFFF rd (noteStreak false stack idx s), none) := by
  simp only [decodeWord, outcomeAt_clean, h, contentOutcome, clean_used]

theorem readWord_data (h : s.word stack idx = some (.data bs)) :
    readWord stack idx [] rd s = (noteStreak false stack idx s, some bs) := by
  simp only [readWord, faultAt_nil, decodeWord_data h, Option.isSome_some, if_true]

/-- A word of the pool area has no copy and lies in no schedule. -/
theorem readWord_pool (hpool : 34 * 2 ^ 24 ≤ idx) (fs : List (Nat × WordFault)) :
    readWord stack idx fs rd s = decodeWord stack idx (faultAt fs stack idx) rd s := by
  have harea : wordArea idx = 2 := by simp only [wordArea, if_neg (show ¬ idx < 26 * 2 ^ 24 by omega), if_neg (Nat.not_lt.mpr hpool)]
  simp only [readWord, harea, OfNat.ofNat_ne_zero, OfNat.ofNat_ne_one, if_false, ite_self]

theorem servingStack_pool (hpool : 34 * 2 ^ 24 ≤ idx) : s.servingStack stack idx = stack := by
  have harea : wordArea idx = 2 := by simp only [wordArea, if_neg (show ¬ idx < 26 * 2 ^ 24 by omega), if_neg (Nat.not_lt.mpr hpool)]
  simp [State.servingStack, harea]

theorem codeWordRead_pool {reader : Nat} (hserves : s.wordServes stack idx = true) (hpool : 34 * 2 ^ 24 ≤ idx)
    {r : State × Option Bytes} (hr : decodeWord stack idx .clean (s.readerOf reader) s = r) :
    codeWordRead stack idx [] reader s = if r.2.isNone then poisonReader reader stack idx r.1 else r.1 := by
  subst hr
  simp only [codeWordRead, servingStack_pool hpool, hserves, if_true, readWord_pool hpool, faultAt_nil]

theorem writeWord_whole {f : WordFault} (hoff : off = 0) (hlen : data.length = 64) :
    writeWord stack idx off data f rd s = (setWord stack idx (.data data) s, true) :=
  if_pos ⟨hoff, hlen⟩

theorem writeWord_narrow {f : WordFault} (hlen : data.length ≠ 64) :
    writeWord stack idx off data f rd s = narrowWrite stack idx off data f rd s :=
  if_neg fun h => hlen h.2

theorem narrowWrite_data (h : s.word stack idx = some (.data bs)) : narrowWrite stack idx off data .clean rd s =
    (setWord stack idx (.data (patch bs off data)) (noteStreak false stack idx s), true) := by
  simp only [narrowWrite, outcomeAt_clean, h, contentOutcome, clean_used]

theorem narrowWrite_uninitialised (h : s.word stack idx = none) : narrowWrite stack idx off data .clean rd s =
    (setWord stack idx (.data (patch (zeros 64) off data)) (noteStreak false stack idx s), true) := by
  simp only [narrowWrite, outcomeAt_clean, h, contentOutcome, clean_used]

theorem narrowWrite_poison (h : s.word stack idx = some .poison) : narrowWrite stack idx off data .clean rd s =
    (wordRecord 0x0207 clsContained stack idx 0xFFFF rd (noteStreak false stack idx s), false) := by
  simp only [narrowWrite, outcomeAt_clean, h, contentOutcome, clean_used]

theorem codeWordWrite_writes {f : WordFault} {writer : Nat} (hserves : s.wordServes stack idx = true)
    (hfits : off + data.length ≤ 64) (hstack : s.servingStack stack idx = stack) {r : State × Bool}
    (hr : writeWord stack idx off data f (s.readerOf writer) s = r) :
    codeWordWrite stack idx off data f writer s = if r.2 then r.1 else poisonReader writer stack idx r.1 := by
  subst hr
  simp only [codeWordWrite, hstack, hserves, hfits, and_self, if_true]

/-! ### The scrubber (R257) -/

theorem scrubWord_data (h : s.word stack idx = some (.data bs)) : scrubWord stack idx .clean s = noteStreak false stack idx s := by
  simp only [scrubWord, outcomeAt_clean, h, contentOutcome, clean_used]

theorem scrubStep_steps {f : WordFault} (hserves : s.wordServes stack 0 = true) (hpass : s.passCovers stack = false)
    (hnext : s.raw 0x05 stack 0x03 0 + 1 < 2 ^ 30) : scrubStep stack f s =
      setRaw 0x05 stack 0x03 (s.raw 0x05 stack 0x03 0 + 1) (scrubWord stack (s.raw 0x05 stack 0x03 0) f s) := by
  simp only [scrubStep, hserves, hpass, Bool.not_false, Bool.and_self, if_true, if_neg (Nat.ne_of_lt hnext), Nat.mod_eq_of_lt hnext]

end

end Sys2Proof.Machine

/-! ### The statement -/

namespace Sys2Proof.Machine.StackMemory

/-- Settles O38: each row runs its operation on the word, by what the word holds. -/
theorem stackMemoryWorks : Obligations.StackMemoryWorks := by
  refine ⟨fun s stack idx reader ha hserves hpool => ⟨fun bs h => ?_, fun h => ?_, fun h => ?_⟩,
    fun s stack idx off data writer ha hserves hfits hstack => ⟨fun hlen => ?_, fun bs hlen h => ?_, fun hlen h => ?_, fun hlen h => ?_⟩,
    fun s stack bs ha hserves hpass hnext h => ?_, fun s pair cid c l errs r h hr => ?_, fun s pair cid c l r h hr => ?_⟩
  · exact (live_of_alive ha).trans (congrArg _ (codeWordRead_pool hserves hpool (decodeWord_data h)))
  · exact (live_of_alive ha).trans (congrArg _ (codeWordRead_pool hserves hpool (decodeWord_uninitialised h)))
  · exact (live_of_alive ha).trans (congrArg _ (codeWordRead_pool hserves hpool (decodeWord_poison h)))
  · exact (live_of_alive ha).trans (congrArg _ (codeWordWrite_writes hserves hfits hstack (writeWord_whole (by omega) hlen)))
  · exact (live_of_alive ha).trans (congrArg _ (codeWordWrite_writes hserves hfits hstack
      ((writeWord_narrow hlen).trans (narrowWrite_data h))))
  · exact (live_of_alive ha).trans (congrArg _ (codeWordWrite_writes hserves hfits hstack
      ((writeWord_narrow hlen).trans (narrowWrite_uninitialised h))))
  · exact (live_of_alive ha).trans (congrArg _ (codeWordWrite_writes hserves hfits hstack
      ((writeWord_narrow hlen).trans (narrowWrite_poison h))))
  · refine (live_of_alive ha).trans (congrArg _ ((scrubStep_steps hserves hpass hnext).trans ?_))
    rw [scrubWord_data h]
  · subst hr
    exact live_runLong_of_enters (scrubDone errs) h
  · subst hr
    exact live_runLong_of_enters fillDone h

end Sys2Proof.Machine.StackMemory
end

section
/-! SUPPORT and SETTLED: what is written to stack memory reads back, and no other word changes (O51). -/

namespace Sys2Proof.Machine

/-! ### Which words an access may change (R245, R248, R254) -/

/-- The word with key `w` holds in `t` what it held in `s`. -/
def KeepsWord (w : Nat) (s t : State) : Prop := tget t.mem.words w = tget s.mem.words w

/-- The key `w` is neither that of a word nor, in the table area, that of its copy in the other half. -/
def AwayFrom (w stack idx : Nat) : Prop := w ≠ wordKey stack idx ∧ (wordArea idx = 0 → w ≠ wordKey (otherHalf stack) idx)

namespace KeepsWord

theorem of_words {w : Nat} {s t : State} (h : t.mem.words = s.mem.words) : KeepsWord w s t := congrArg (tget · w) h

theorem refl {w : Nat} (s : State) : KeepsWord w s s := rfl

theorem trans {w : Nat} {s t u : State} (h : KeepsWord w s t) (g : KeepsWord w t u) : KeepsWord w s u := Eq.trans g h

theorem set {w stack idx : Nat} {s t : State} (h : KeepsWord w s t) (hne : w ≠ wordKey stack idx) (c : WordContent) :
    KeepsWord w s (setWord stack idx c t) :=
  (tget_tput_other _ _ hne).trans h

end KeepsWord

section
variable {w stack idx : Nat} (s : State)

section
variable (hne : w ≠ wordKey stack idx)
include hne

theorem keepsWord_correctWord (sym : Nat) (bs : Bytes) (again : List Nat) (rd : Reader) :
    KeepsWord w s (correctWord stack idx sym bs again rd s) := by
  have hrecord : KeepsWord w s (channelRecord 0x0201 clsCorrected stack idx rd (bump 0x05 stack 0x05 s)) :=
    .of_words (channelRecord_words (bump 0x05 stack 0x05 s) 0x0201 clsCorrected stack idx rd)
  have hset := hrecord.set hne (.data bs)
  unfold correctWord
  dsimp only
  split
  · exact hset
  · exact hset.trans (.of_words (remapWord_words ..))

theorem keepsWord_poisonWord (cause : Nat) (again : List Nat) (rd : Reader) :
    KeepsWord w s (poisonWord cause stack idx again rd s) := by
  have hrecord : KeepsWord w s (wordRecord cause clsContained stack idx 0xFFFF rd (bump 0x05 stack 0x06 s)) :=
    .of_words (wordRecord_words (bump 0x05 stack 0x06 s) cause clsContained stack idx 0xFFFF rd)
  have hset := hrecord.set hne .poison
  unfold poisonWord
  dsimp only
  split
  · exact hset
  · exact hset.trans (.of_words (remapWord_words ..))

/-- A decode changes no word but its own. -/
theorem keepsWord_decodeWord (f : WordFault) (rd : Reader) : KeepsWord w s (decodeWord stack idx f rd s).1 := by
  have hused : KeepsWord w s (f.used s) := .of_words (used_words s f)
  unfold decodeWord
  dsimp only
  split
  · exact hused.trans (.of_words (noteStreak_words ..))
  · exact (hused.trans (.of_words (noteStreak_words ..))).trans (keepsWord_correctWord _ hne ..)
  · exact (hused.trans (keepsWord_poisonWord _ hne ..)).trans (.of_words (noteStreak_words ..))
  · exact hused.trans (.of_words (misdirect_words ..))
  · exact hused.trans (.of_words ((wordRecord_words ..).trans (noteStreak_words ..)))
  · exact hused.trans (.of_words ((wordRecord_words ..).trans (noteStreak_words ..)))

theorem keepsWord_narrowWrite (off : Nat) (data : Bytes) (f : WordFault) (rd : Reader) :
    KeepsWord w s (narrowWrite stack idx off data f rd s).1 := by
  have hused : KeepsWord w s (f.used s) := .of_words (used_words s f)
  unfold narrowWrite
  dsimp only
  split
  · exact (hused.trans (.of_words (noteStreak_words ..))).set hne _
  · exact ((hused.trans (.of_words (noteStreak_words ..))).trans (keepsWord_correctWord _ hne ..)).set hne _
  · exact (hused.trans (.of_words (noteStreak_words ..))).set hne _
  · exact hused.trans (.of_words ((wordRecord_words ..).trans (noteStreak_words ..)))
  · exact (hused.trans (keepsWord_poisonWord _ hne ..)).trans (.of_words (noteStreak_words ..))
  · exact hused.trans (.of_words (misdirect_words ..))

/-- A write into a word changes no other. -/
theorem keepsWord_writeWord (off : Nat) (data : Bytes) (f : WordFault) (rd : Reader) :
    KeepsWord w s (writeWord stack idx off data f rd s).1 := by
  unfold writeWord
  split
  · exact (KeepsWord.refl s).set hne _
  · exact keepsWord_narrowWrite s hne off data f rd

/-- The scrubber changes no word but the one it takes. -/
theorem keepsWord_scrubWord (f : WordFault) : KeepsWord w s (scrubWord stack idx f s) := by
  have hused : KeepsWord w s (f.used s) := .of_words (used_words s f)
  unfold scrubWord
  dsimp only
  split
  · exact hused.trans (.of_words (noteStreak_words ..))
  · exact (hused.trans (.of_words (noteStreak_words ..))).trans (keepsWord_correctWord _ hne ..)
  · exact (hused.trans (keepsWord_poisonWord _ hne ..)).trans (.of_words (noteStreak_words ..))
  · exact hused.trans (.of_words (misdirect_words ..))
  · exact hused.trans (.of_words (noteStreak_words ..))
  · exact hused.trans (.of_words (noteStreak_words ..))

end

/-- A read changes no word but its own and, in the table area, its copy. -/
theorem keepsWord_readWord (h : AwayFrom w stack idx) (fs : List (Nat × WordFault)) (rd : Reader) :
    KeepsWord w s (readWord stack idx fs rd s).1 := by
  obtain ⟨hown, hcopy⟩ := h
  have hread := keepsWord_decodeWord s hown (faultAt fs stack idx) rd
  unfold readWord
  dsimp only
  split
  · exact hread
  · split
    · next harea =>
      have hother := hread.trans (keepsWord_decodeWord _ (hcopy harea) (faultAt fs (otherHalf stack) idx) rd)
      split
      · split
        · exact (hother.set hown _).trans (.of_words (wordRecord_words ..))
        · exact hother.trans (.of_words (damageObjects_words ..))
      · exact hread.trans (.of_words (damageObjects_words ..))
    · split
      · exact hread.trans (.of_words (loseScheduleWord_words ..))
      · exact hread

theorem otherHalf_otherHalf (h : stack < 8) : otherHalf (otherHalf stack) = stack := by
  simp only [otherHalf]
  omega

/-- The word that serves an access is the one named or its copy. -/
theorem AwayFrom.serving (h : AwayFrom w stack idx) (hstack : stack < 8) : AwayFrom w (s.servingStack stack idx) idx := by
  unfold State.servingStack
  split
  · next hserve =>
    have harea : wordArea idx = 0 := by
      simp only [Bool.and_eq_true, decide_eq_true_eq] at hserve
      exact hserve.1
    refine ⟨h.2 harea, fun _ => ?_⟩
    rw [otherHalf_otherHalf hstack]
    exact h.1
  · exact h

theorem keepsWord_codeWordRead (h : AwayFrom w stack idx) (hstack : stack < 8) (fs : List (Nat × WordFault)) (reader : Nat) :
    KeepsWord w s (codeWordRead stack idx fs reader s) := by
  unfold codeWordRead
  dsimp only
  split
  · have hread := keepsWord_readWord s (h.serving s hstack) fs (s.readerOf reader)
    split
    · exact hread.trans (.of_words (poisonReader_words ..))
    · exact hread
  · exact .refl s

theorem keepsWord_codeWordWrite (h : AwayFrom w stack idx) (hstack : stack < 8) (off : Nat) (data : Bytes) (f : WordFault)
    (writer : Nat) : KeepsWord w s (codeWordWrite stack idx off data f writer s) := by
  unfold codeWordWrite
  dsimp only
  split
  · have hwrite := keepsWord_writeWord s (h.serving s hstack).1 off data f (s.readerOf writer)
    split
    · exact hwrite
    · exact hwrite.trans (.of_words (poisonReader_words ..))
  · exact .refl s

theorem keepsWord_scrubStep {f : WordFault} (h : w ≠ wordKey stack (s.raw 0x05 stack 0x03 0)) :
    KeepsWord w s (scrubStep stack f s) := by
  unfold scrubStep
  dsimp only
  split
  · split
    · exact keepsWord_scrubWord s h f
    · exact keepsWord_scrubWord s h f
  · exact .refl s

end

/-! ### Ranges (R243, R254) -/

/-- One code word of a read of a range. -/
def readStep (s : State) (a : Nat) (fs : List (Nat × WordFault)) (rd : Reader) (r : Access) (w : Nat × Nat × Nat) : Access :=
  if r.failed.isSome then r
  else
    let stack := s.servingStack (addrStack a) w.1
    let x := readWord stack w.1 fs rd r.state
    match x.2 with
    | some bs => { state := x.1, bytes := r.bytes ++ sub bs w.2.1 w.2.2, failed := none }
    | none => { state := x.1, bytes := r.bytes, failed := some (wordKey stack w.1) }

/-- One code word of a write of a range. -/
def writeStep (s : State) (narrow : Bool) (a : Nat) (fs : List (Nat × WordFault)) (rd : Reader) (r : Access)
    (w : Nat × Nat × Nat) : Access :=
  if r.failed.isSome then r
  else
    let stack := s.servingStack (addrStack a) w.1
    let part := r.bytes.take w.2.2
    let data := if !narrow && w.2.1 = 0 && wordArea w.1 = 2 then fitTo 64 part else part
    let x := writeWord stack w.1 w.2.1 data (faultAt fs stack w.1) rd r.state
    { state := x.1, bytes := r.bytes.drop w.2.2, failed := if x.2 then none else some (wordKey stack w.1) }

section
variable {s : State} {narrow : Bool} {a n w : Nat} {bs : Bytes} {fs : List (Nat × WordFault)} {rd : Reader}

theorem readStack_eq : readStack a n fs rd s =
    (wordsOf (addrOff a) n).foldl (readStep s a fs rd) { state := s, bytes := [], failed := none } := rfl

theorem writeStack_eq : writeStack narrow a bs fs rd s =
    (wordsOf (addrOff a) bs.length).foldl (writeStep s narrow a fs rd) { state := s, bytes := bs, failed := none } := rfl

theorem addrStack_lt (a : Nat) : addrStack a < 8 := Nat.mod_lt _ (by decide)

/-- A fold over words that each leave the word `w` leaves it. -/
theorem keepsWord_foldl {f : Access → Nat × Nat × Nat → Access} {l : List (Nat × Nat × Nat)}
    (hf : ∀ r, ∀ x ∈ l, KeepsWord w r.state (f r x).state) (r : Access) : KeepsWord w r.state (l.foldl f r).state := by
  induction l generalizing r with
  | nil => exact .refl _
  | cons x l ih =>
    exact (hf r x (List.mem_cons_self ..)).trans (ih (fun r y hy => hf r y (List.mem_cons_of_mem _ hy)) (f r x))

theorem keepsWord_readStep {x : Nat × Nat × Nat} (haway : AwayFrom w (addrStack a) x.1) (r : Access) :
    KeepsWord w r.state (readStep s a fs rd r x).state := by
  unfold readStep
  split
  · exact .refl _
  · have hread := keepsWord_readWord r.state (haway.serving s (addrStack_lt a)) fs rd
    dsimp only
    split
    · exact hread
    · exact hread

theorem keepsWord_writeStep {x : Nat × Nat × Nat} (haway : AwayFrom w (addrStack a) x.1) (r : Access) :
    KeepsWord w r.state (writeStep s narrow a fs rd r x).state := by
  unfold writeStep
  split
  · exact .refl _
  · exact keepsWord_writeWord r.state (haway.serving s (addrStack_lt a)).1 _ _ _ rd

theorem keepsWord_readStack (h : Apart w a n) : KeepsWord w s (readStack a n fs rd s).state := by
  have hfold := keepsWord_foldl (w := w) (f := readStep s a fs rd) (l := wordsOf (addrOff a) n)
    (fun r x hx => keepsWord_readStep (h x hx) r) { state := s, bytes := [], failed := none }
  rwa [← readStack_eq] at hfold

/-- A write of a range changes only its code words and, in the table area, their copies. -/
theorem keepsWord_writeStack (h : Apart w a bs.length) : KeepsWord w s (writeStack narrow a bs fs rd s).state := by
  have hfold := keepsWord_foldl (w := w) (f := writeStep s narrow a fs rd) (l := wordsOf (addrOff a) bs.length)
    (fun r x hx => keepsWord_writeStep (h x hx) r) { state := s, bytes := bs, failed := none }
  rwa [← writeStack_eq] at hfold

/-! ### Memory commands (R260, R261) -/

variable {c : Bytes} {m : MemArgs}

theorem keepsWord_toDest {total : Nat} {result : Option Nat} (h : Apart w a bs.length) :
    KeepsWord w s (toDest narrow a bs total result m s).state := by
  have hwrite : KeepsWord w s (writeStack narrow a bs m.faults m.reader s).state := keepsWord_writeStack h
  unfold toDest
  split
  · exact .refl s
  · dsimp only
    split
    · exact hwrite
    · exact hwrite

theorem keepsWord_withResultWord {r : MemRun} (h : ∀ a, mResult c = some a → Apart w a 8) :
    KeepsWord w r.state (withResultWord c m r).state := by
  unfold withResultWord
  dsimp only
  split
  · exact .refl _
  · next hres =>
    split
    · exact .refl _
    · exact keepsWord_toDest (by rw [putLE_length]; exact h _ hres)

theorem repeated_length (n pattern : Nat) : (repeated n pattern).length = n := by
  simp only [repeated, List.length_take, List.length_flatten, List.map_replicate, List.sum_replicate, putLE_length, smul_eq_mul]
  omega

theorem keepsWord_memFill (h : Apart w (mDst c) (mLen c)) : KeepsWord w s (memFill c m s).state :=
  keepsWord_toDest (by rw [repeated_length]; exact h)

/-- The code words of a range. -/
theorem mem_wordsOf {off n : Nat} {x : Nat × Nat × Nat} (hx : x ∈ wordsOf off n) :
    n ≠ 0 ∧ off / 64 ≤ x.1 ∧ x.1 ≤ (off + n - 1) / 64 := by
  unfold wordsOf at hx
  split at hx
  · exact absurd hx List.not_mem_nil
  · next hn =>
    obtain ⟨i, hi, rfl⟩ := List.mem_map.mp hx
    have hlt := List.mem_range.mp hi
    exact ⟨hn, Nat.le_add_right _ _, by dsimp only; omega⟩

theorem exists_mem_wordsOf {off n i : Nat} (hn : n ≠ 0) (hlo : off / 64 ≤ i) (hhi : i ≤ (off + n - 1) / 64) :
    ∃ x ∈ wordsOf off n, x.1 = i := by
  unfold wordsOf
  rw [if_neg hn]
  refine ⟨_, List.mem_map.mpr ⟨i - off / 64, List.mem_range.mpr (by omega), rfl⟩, ?_⟩
  dsimp only
  omega

/-- A shorter range has no other code words. -/
theorem apart_mono {k : Nat} (h : Apart w a n) (hk : k ≤ n) : Apart w a k := fun x hx => by
  obtain ⟨hk0, hlo, hhi⟩ := mem_wordsOf hx
  obtain ⟨y, hy, hyx⟩ := exists_mem_wordsOf (n := n) (by omega) hlo (hhi.trans (Nat.div_le_div_right (by omega)))
  rw [← hyx]
  exact h y hy

theorem readStep_bytes_length (r : Access) (x : Nat × Nat × Nat) :
    (readStep s a fs rd r x).bytes.length ≤ r.bytes.length + x.2.2 := by
  unfold readStep
  split
  · exact Nat.le_add_right _ _
  · dsimp only
    split
    · simp only [List.length_append, sub, List.length_take]
      omega
    · exact Nat.le_add_right _ _

/-- A read of a range gives no more bytes than it asks for: word by word, they lie below the end of the word. -/
theorem readStack_bytes_length : (readStack a n fs rd s).bytes.length ≤ n := by
  rw [readStack_eq]
  unfold wordsOf
  split
  · exact Nat.zero_le _
  · generalize hoff : addrOff a = off
    suffices h : ∀ k, (((List.range k).map fun i =>
        (off / 64 + i, max off ((off / 64 + i) * 64) - (off / 64 + i) * 64,
          min (off + n) ((off / 64 + i) * 64 + 64) - max off ((off / 64 + i) * 64))).foldl (readStep s a fs rd)
        { state := s, bytes := [], failed := none }).bytes.length ≤ min (off + n) ((off / 64 + k) * 64) - off by
      refine (h _).trans ?_
      omega
    intro k
    induction k with
    | zero => exact Nat.zero_le _
    | succ k ih =>
      rw [List.range_succ, List.map_append, List.foldl_append]
      refine (readStep_bytes_length _ _).trans ?_
      dsimp only
      omega

theorem keepsWord_memCopy (hsrc : Apart w (mSrc c) (mLen c)) (hdst : Apart w (mDst c) (mLen c)) :
    KeepsWord w s (memCopy c m s).state := by
  have hlen := readStack_bytes_length (s := s) (a := mSrc c) (n := mLen c) (fs := m.faults) (rd := m.reader)
  have hread : KeepsWord w s (readStack (mSrc c) (mLen c) m.faults m.reader s).state := keepsWord_readStack hsrc
  unfold memCopy withSource
  split
  · exact .refl s
  · dsimp only
    split
    · exact hread
    · split
      · exact hread
      · exact hread.trans (keepsWord_toDest (apart_mono hdst hlen))

/-- The fields below byte 56 of a command are those of its first 56 bytes. -/
theorem field_of_take {d : Bytes} (h : c.take 56 = d.take 56) {off k : Nat} (hfit : off + k ≤ 56) :
    field c off k = field d off k := by
  have hsub (x : Bytes) : sub x off k = sub (x.take 56) off k := by
    simp only [sub, List.drop_take, List.take_take, Nat.min_eq_left (show k ≤ 56 - off by omega)]
  rw [field, field, hsub c, hsub d, h]

/-- A memory command changes only words that its operation and its result word change. -/
theorem keepsWord_runMemory {mop k : Nat} {cmd d : Bytes} {f : Bytes → MemArgs → State → MemRun} (hd : d = fitTo 64 cmd)
    (hf : ∀ c m t, c.take 56 = d.take 56 → KeepsWord w t (f c m t).state) (hres : ∀ a, mResult d = some a → Apart w a 8) :
    KeepsWord w s (runMemory mop k cmd fs f s) := by
  subst hd
  unfold runMemory
  extract_lets q waits fresh s1
  have h1 : KeepsWord w s s1 := by
    simp only [s1]
    split
    · exact .refl s
    · exact .refl s
  split
  · exact .refl s
  · split
    · exact h1
    · next e _ =>
      split
      · next hsame =>
        simp only [Bool.and_eq_true, beq_iff_eq] at hsame
        have hresult : mResult e.raw = mResult (fitTo 64 cmd) := by
          rw [mResult, mResult, mDst, mDst, field_of_take hsame.2 (show 52 + 4 ≤ 56 by decide),
            field_of_take hsame.2 (show 16 + 8 ≤ 56 by decide)]
        have hrun := (h1.trans (hf e.raw { faults := fs, reader := s1.readerOf k } s1 hsame.2)).trans
          (keepsWord_withResultWord (c := e.raw) (m := { faults := fs, reader := s1.readerOf k }) (by rw [hresult]; exact hres))
        refine hrun.trans (.of_words ((completeEntry_words ..).trans ?_))
        split
        · exact words_of_work ((tickFree_work _).trans (recordErr_work ..))
        · rfl
      · exact h1

/-! ### Whole words read back (R254) -/

/-- The code words of an aligned range. -/
theorem wordsOf_aligned {off n : Nat} (hoff : off % 64 = 0) (hn : n % 64 = 0) :
    wordsOf off n = (List.range' (off / 64) (n / 64)).map fun i => (i, 0, 64) := by
  unfold wordsOf
  split
  · next h0 => simp [h0]
  · rw [List.range'_eq_map_range, List.map_map, show (off + n - 1) / 64 + 1 - off / 64 = n / 64 by omega]
    refine List.map_congr_left fun i hi => ?_
    have hlt := List.mem_range.mp hi
    have hlo : max off ((off / 64 + i) * 64) = (off / 64 + i) * 64 := by omega
    have hhi : min (off + n) ((off / 64 + i) * 64 + 64) = (off / 64 + i) * 64 + 64 := by omega
    simp only [Function.comp_apply, hlo, hhi, Nat.sub_self, Nat.add_sub_cancel_left]

theorem servingStack_of_inService {stack idx : Nat} (h : s.inService (uStack stack) = true) :
    s.servingStack stack idx = stack := by
  simp [State.servingStack, h]

section
variable {r : Access} {i : Nat} (hserves : s.inService (uStack (addrStack a)) = true) (hok : r.failed = none)
include hserves hok

theorem writeStep_whole (hlen : 64 ≤ r.bytes.length) : writeStep s narrow a [] rd r (i, 0, 64) =
    { state := setWord (addrStack a) i (.data (r.bytes.take 64)) r.state, bytes := r.bytes.drop 64, failed := none } := by
  have hdata : (r.bytes.take 64).length = 64 := by rw [List.length_take]; omega
  simp only [writeStep, hok, Option.isSome_none, Bool.false_eq_true, if_false, servingStack_of_inService hserves, fitTo_take hlen,
    ite_self, writeWord_whole rfl hdata, if_true]

theorem readStep_whole {part : Bytes} (hword : r.state.word (addrStack a) i = some (.data part)) (hlen : part.length = 64) :
    readStep s a [] rd r (i, 0, 64) =
      { state := noteStreak false (addrStack a) i r.state, bytes := r.bytes ++ part, failed := none } := by
  have hsub : sub part 0 64 = part := by simp [sub, ← hlen]
  simp only [readStep, hok, Option.isSome_none, Bool.false_eq_true, if_false, servingStack_of_inService hserves,
    readWord_data hword, hsub]

end

/-- Whole words are all written, each with its bytes; the words before them stay, and no unit leaves service. -/
theorem writeWords_whole (hserves : s.inService (uStack (addrStack a)) = true) (n i : Nat) (r : Access) (hok : r.failed = none)
    (hlen : r.bytes.length = 64 * n) {q : Access}
    (hq : q = ((List.range' i n).map fun i => (i, 0, 64)).foldl (writeStep s narrow a [] rd) r) :
    q.failed = none ∧ q.state.gone = r.state.gone ∧
      (∀ j < i, q.state.word (addrStack a) j = r.state.word (addrStack a) j) ∧
      ∀ j < n, q.state.word (addrStack a) (i + j) = some (.data ((r.bytes.drop (64 * j)).take 64)) := by
  induction n generalizing i r with
  | zero =>
    subst hq
    exact ⟨hok, rfl, fun _ _ => rfl, fun j hj => absurd hj (Nat.not_lt_zero j)⟩
  | succ n ih =>
    rw [List.range'_succ, List.map_cons, List.foldl_cons, writeStep_whole hserves hok (by omega)] at hq
    obtain ⟨hfail, hgone, hbefore, hwords⟩ := ih (i + 1) _ rfl (by rw [List.length_drop]; omega) hq
    refine ⟨hfail, hgone, fun j hj => ?_, fun j hj => ?_⟩
    · have hne : wordKey (addrStack a) j ≠ wordKey (addrStack a) i := by
        simp only [wordKey]
        omega
      exact (hbefore j (by omega)).trans (setWord_word_other (h := hne) ..)
    · cases j with
      | zero => exact (hbefore i (Nat.lt_succ_self i)).trans (setWord_word ..)
      | succ j =>
        rw [show i + (j + 1) = i + 1 + j by omega, hwords j (by omega), List.drop_drop, show 64 + 64 * j = 64 * (j + 1) by omega]

/-- Words that hold bytes give them all. -/
theorem readWords_whole (hserves : s.inService (uStack (addrStack a)) = true) (n i : Nat) (r : Access) (bs : Bytes)
    (hok : r.failed = none) (hlen : bs.length = 64 * n)
    (hwords : ∀ j < n, r.state.word (addrStack a) (i + j) = some (.data ((bs.drop (64 * j)).take 64))) {q : Access}
    (hq : q = ((List.range' i n).map fun i => (i, 0, 64)).foldl (readStep s a [] rd) r) :
    q.failed = none ∧ q.bytes = r.bytes ++ bs := by
  induction n generalizing i r bs with
  | zero =>
    subst hq
    exact ⟨hok, by simp [List.eq_nil_of_length_eq_zero (show bs.length = 0 by omega)]⟩
  | succ n ih =>
    have hfirst : r.state.word (addrStack a) i = some (.data (bs.take 64)) := hwords 0 (Nat.succ_pos n)
    rw [List.range'_succ, List.map_cons, List.foldl_cons,
      readStep_whole hserves hok hfirst (by rw [List.length_take]; omega)] at hq
    have hrest : ∀ j < n, (noteStreak false (addrStack a) i r.state).word (addrStack a) (i + 1 + j) =
        some (.data (((bs.drop 64).drop (64 * j)).take 64)) := fun j hj => by
      rw [List.drop_drop, show 64 + 64 * j = 64 * (j + 1) by omega, ← hwords (j + 1) (by omega),
        show i + 1 + j = i + (j + 1) by omega]
      rfl
    obtain ⟨hfail, hbytes⟩ := ih (i + 1)
      { state := noteStreak false (addrStack a) i r.state, bytes := r.bytes ++ bs.take 64, failed := none } (bs.drop 64) rfl
      (by rw [List.length_drop]; omega) hrest hq
    exact ⟨hfail, hbytes.trans (by simp [List.append_assoc])⟩

end

end Sys2Proof.Machine

/-! ### The statement -/

namespace Sys2Proof.Machine.WordsReadBack

/-- A row whose operation leaves a word leaves it, also in a part whose clocks do not run. -/
theorem keepsWord_live {w : Nat} {s t : State} {f : State → State} (hf : KeepsWord w s (f s)) (h : live f s = .next t) :
    KeepsWord w s t := by
  unfold live at h
  split at h
  · cases h
    exact hf
  · cases h
    exact .refl s

theorem keepsWord_whenB {w : Nat} {s : State} {b : Bool} {f : State → State} (hf : KeepsWord w s (f s)) :
    KeepsWord w s (whenB b f s) := by
  cases b
  · exact .refl s
  · exact hf

/-- Settles O51: the words of an aligned range one after another, and a frame for every access. -/
theorem wordsReadBack : Obligations.WordsReadBack := by
  refine ⟨fun s narrow a bs rd rd2 u hoff hlen _ hserves hu => ?_, fun s narrow a bs fs rd w h => keepsWord_writeStack h,
    fun s t stack idx fs f reader off data w hstack hne hcopy => ⟨fun h => ?_, fun h => ?_⟩, fun s t stack f w hne h => ?_,
    fun s t k cmd fs d w hd hdst hres => ⟨fun h => ?_, fun hsrc h => ?_⟩⟩
  · have hwords := wordsOf_aligned hoff hlen
    have hn : bs.length = 64 * (bs.length / 64) := by omega
    obtain ⟨hwrite, hgone, -, hheld⟩ := writeWords_whole (narrow := narrow) (rd := rd) hserves (bs.length / 64) (addrOff a / 64)
      { state := s, bytes := bs, failed := none } rfl hn rfl
    rw [← hwords, ← writeStack_eq] at hwrite hgone hheld
    rw [← hu] at hgone hheld
    have hserves' : u.inService (uStack (addrStack a)) = true := by rw [State.inService, hgone]; exact hserves
    obtain ⟨hread, hbytes⟩ := readWords_whole (rd := rd2) hserves' (bs.length / 64) (addrOff a / 64)
      { state := u, bytes := [], failed := none } bs rfl hn hheld rfl
    rw [← hwords, ← readStack_eq] at hread hbytes
    exact ⟨hwrite, hread, hbytes⟩
  · exact keepsWord_live (keepsWord_codeWordRead s ⟨hne, hcopy⟩ hstack fs reader) h
  · exact keepsWord_live (keepsWord_codeWordWrite s ⟨hne, hcopy⟩ hstack off data f reader) h
  · exact keepsWord_live (keepsWord_scrubStep s hne) h
  · have hfill (c : Bytes) (m : MemArgs) (u : State) (hc : c.take 56 = d.take 56) : KeepsWord w u (memFill c m u).state := by
      refine keepsWord_memFill ?_
      rw [mDst, mLen, field_of_take hc (show 16 + 8 ≤ 56 by decide), field_of_take hc (show 24 + 4 ≤ 56 by decide)]
      exact hdst
    have hrow : live (whenB s.going (runMemory 0x02 k cmd fs memFill)) s = .next t := h
    exact keepsWord_live (keepsWord_whenB (keepsWord_runMemory hd hfill hres)) hrow
  · have hcopy (c : Bytes) (m : MemArgs) (u : State) (hc : c.take 56 = d.take 56) : KeepsWord w u (memCopy c m u).state := by
      refine keepsWord_memCopy ?_ ?_
      · rw [mSrc, mLen, field_of_take hc (show 8 + 8 ≤ 56 by decide), field_of_take hc (show 24 + 4 ≤ 56 by decide)]
        exact hsrc
      · rw [mDst, mLen, field_of_take hc (show 16 + 8 ≤ 56 by decide), field_of_take hc (show 24 + 4 ≤ 56 by decide)]
        exact hdst
    have hrow : live (whenB s.going (runMemory 0x01 k cmd fs memCopy)) s = .next t := h
    exact keepsWord_live (keepsWord_whenB (keepsWord_runMemory hd hcopy hres)) hrow

end Sys2Proof.Machine.WordsReadBack
end

section
/-! SUPPORT and SETTLED: the commands and rows of observability: error rings, counters, trace, dailies, logbook, fatal stop (O39). -/

namespace Sys2Proof.Machine

section
variable {s : State} {c : Cmd}

/-! ### Replies (R46) -/

/-- With PCIe up, the data are laid out on the host's buffers and the command finishes. -/
theorem replyData_of_pcieOk (bs : Bytes) (result : Nat) (after : State → State) :
    replyData c true bs result after s = finish c.pair c.cid stOk result
      (after (emits ((layOut (hostBuffers c.entry c.list) bs).map fun p => .pcieWrite (s.dataVia c.pair) p.1 p.2) s)) := rfl

/-! ### ERROR_RING_READ (R385) -/

/-- Operands that ERROR_RING_READ refuses. -/
def RingReadOutOfRange (c : Cmd) : Prop :=
  (11 < c.p8 32 ∧ c.p8 32 ≠ 0xFF) ∨ c.p16 34 = 0 ∨ 768 < c.p16 34 ∨ 1 < c.p8 33 ∨ !c.minBuf (64 * c.p16 34)

theorem ringReadInRange (hdie : c.p8 32 ≤ 11 ∨ c.p8 32 = 255) (hlow : 1 ≤ c.p16 34) (hhigh : c.p16 34 ≤ 768)
    (hbuf : c.minBuf (64 * c.p16 34) = true) (hflags : c.p8 33 ≤ 1) : ¬ RingReadOutOfRange c := by
  unfold RingReadOutOfRange
  rw [hbuf]
  simp only [Bool.not_true, Bool.false_eq_true, or_false]
  omega

/-- A read that peeks answers what the rings hold and changes none of them. -/
theorem errorRingRead_peek (h : ¬ RingReadOutOfRange c) (hpeek : c.p8 33 = 1) {out : List ErrRec} {all : Nat}
    (hout : out = (s.ringRecords (c.p8 32)).take (c.p16 34))
    (hall : all = ((diesOf (c.p8 32)).map fun d => (s.ringOf d).recs.length).sum) :
    errorRingRead true [] c s = finish c.pair c.cid stOk
      (out.length + Nat.min all 0xFFFF * 2 ^ 16
        + Nat.min ((diesOf (c.p8 32)).map fun d => (s.ringOf d).discards).sum 0xFFFF * 2 ^ 32)
      (emits ((layOut (hostBuffers c.entry c.list) (out.map fun r => r.readOut []).flatten).map fun p =>
        .pcieWrite (s.dataVia c.pair) p.1 p.2) s) := by
  have hbit : bitOf (c.p8 33) 0 = true := by rw [hpeek]; decide
  unfold RingReadOutOfRange at h
  subst hout hall
  rw [errorRingRead, if_neg h]
  simp only [replyData_of_pcieOk, hbit, if_true]

/-- A read that does not peek also takes what it wrote out of the rings. -/
theorem errorRingRead_take (h : ¬ RingReadOutOfRange c) (htake : c.p8 33 = 0) {out : List ErrRec} {all : Nat}
    (hout : out = (s.ringRecords (c.p8 32)).take (c.p16 34))
    (hall : all = ((diesOf (c.p8 32)).map fun d => (s.ringOf d).recs.length).sum) :
    errorRingRead true [] c s = finish c.pair c.cid stOk
      (out.length + Nat.min (all - out.length) 0xFFFF * 2 ^ 16
        + Nat.min ((diesOf (c.p8 32)).map fun d => (s.ringOf d).discards).sum 0xFFFF * 2 ^ 32)
      ((diesOf (c.p8 32)).foldl (fun (u : State) (d : Nat) => emptyOut out d u) (emits ((layOut (hostBuffers c.entry c.list)
        (out.map fun r => r.readOut []).flatten).map fun p => .pcieWrite (s.dataVia c.pair) p.1 p.2) s)) := by
  have hbit : bitOf (c.p8 33) 0 = false := by rw [htake]; decide
  unfold RingReadOutOfRange at h
  subst hout hall
  rw [errorRingRead, if_neg h]
  simp only [replyData_of_pcieOk, hbit, Bool.false_eq_true, if_false]

/-! ### COUNTERS_READ and TRACE_CONFIG (R436, R440) -/

/-- A read of a declared pipeline's counters that does not clear them writes one record for each of its rows. -/
theorem countersRead_of_pipe {p : Pipeline} (hpipe : c.p8 32 ≤ 15) (hflags : c.p8 33 = 0) (hp : tget s.pipes (c.p8 32) = some p)
    (hbuf : c.minBuf (128 * (p.decl.counterRows (c.p8 32)).length) = true) :
    countersRead true c s = finish c.pair c.cid stOk (p.decl.counterRows (c.p8 32)).length (emits
      ((layOut (hostBuffers c.entry c.list) ((p.decl.counterRows (c.p8 32)).map (s.counterRecord (c.p8 32))).flatten).map fun p =>
        .pcieWrite (s.dataVia c.pair) p.1 p.2) s) := by
  have hbit : bitOf (c.p8 33) 0 = false := by rw [hflags]; decide
  unfold countersRead
  dsimp only
  rw [if_neg (by omega), if_neg (show ¬ c.p8 32 = 0xFF by omega), hp]
  simp only [Option.map_some, hbuf, Bool.not_true, Bool.false_eq_true, if_false, replyData_of_pcieOk, hbit]

/-- A TRACE_CONFIG in range starts the trace ring anew. -/
theorem traceConfig_restarts (hlow : 10 ≤ c.p8 32) (hhigh : c.p8 32 ≤ 24) (hflags : c.p8 33 ≤ 1) (haligned : c.p64 40 % 4096 = 0) :
    traceConfig c s = finishPlain c.pair c.cid stOk (setRaw 0x12 0 0x06 0 { s with obs := { s.obs with
      traceOn := !bitOf (c.p8 33) 0, traceLog2 := c.p8 32, traceKinds := c.p32 36, traceAddr := c.p64 40, traceTail := 0
      traceHead := 0, traceSeq := 0 } }) :=
  if_neg (by omega)

/-! ### The logbook (R443) -/

/-- With no permanent record discarded, the front record is appended and the overflow queue moves up. -/
theorem logbookWrite_of_cons {r : LogRec} {rest : List LogRec} (hqueue : s.obs.logQueue = r :: rest)
    (hdropped : s.obs.permDropped = 0) :
    logbookWrite s = appendLog false r { s with obs := { s.obs with
      logQueue := rest ++ s.obs.logOver.take 1, logOver := s.obs.logOver.drop 1 } } := by
  simp only [logbookWrite, hqueue, hdropped, if_true]

/-! ### The fatal stop (R383, R417) -/

/-- A part that has not stopped records the error and disables every port. -/
theorem fatalStop_of_running (die cause : Nat) (linkUp : Bool) (h : s.ken.fatal = false) :
    fatalStop die cause linkUp s = (List.range 18).foldl (fun (t : State) (i : Nat) => disablePort i 0 linkUp t)
      (recordErrOn die (plainErr (uDie die) cause clsPackageFatal 0 0 0 0) s) := by
  simp only [fatalStop, h, Bool.false_eq_true, if_false]

end

end Sys2Proof.Machine

/-! ### The statement -/

namespace Sys2Proof.Machine.Observability

/-- Settles O39: each row runs its operation (`live_runCmd_of_ready`, `live_runLong_of_enters`, `live_whenB`), and the operation's own
lemma says what it leaves. -/
theorem observabilityWorks : Obligations.ObservabilityWorks := by
  refine ⟨fun s pair cid c out all h hdie hlow hhigh hbuf hout hall => ⟨fun hpeek => ?_, fun htake => ?_⟩,
    fun s pair cid c p rs h hpipe hflags hp hrs hbuf => ?_,
    fun s pair cid c h hlow hhigh hflags haligned => ?_,
    fun s pair cid c l u h hu => ?_,
    fun s pair cid c l r h hr => ?_,
    fun s ha hstage => live_whenB ha (decide_eq_true hstage),
    fun s r rest ha hqueue hdropped => (live_of_alive ha).trans (congrArg _ (logbookWrite_of_cons hqueue hdropped)),
    fun s die cause up ha hcause hfatal => ?_⟩
  · exact (live_runCmd_of_ready _ h).trans
      (congrArg _ (errorRingRead_peek (ringReadInRange hdie hlow hhigh hbuf hpeek.le) hpeek hout hall))
  · have hflags : c.p8 33 ≤ 1 := htake.trans_le (Nat.zero_le 1)
    exact (live_runCmd_of_ready _ h).trans
      (congrArg _ (errorRingRead_take (ringReadInRange hdie hlow hhigh hbuf hflags) htake hout hall))
  · subst hrs
    exact (live_runCmd_of_ready _ h).trans (congrArg _ (countersRead_of_pipe hpipe hflags hp hbuf))
  · exact (live_runCmd_of_ready _ h).trans (congrArg _ (traceConfig_restarts hlow hhigh hflags haligned))
  · subst hu
    exact live_runLong_of_enters _ h
  · subst hr
    exact live_runLong_of_enters _ h
  · have hb : (cause == 0x0602 || cause == 0x0603 || cause == 0x0604) = true := by
      simpa [or_assoc] using hcause
    exact (live_whenB ha hb).trans (congrArg _ (fatalStop_of_running die cause up hfatal))

end Sys2Proof.Machine.Observability
end

section
/-! SUPPORT and SETTLED: the in-field test: rotation, takeover, requalification, suspects and the commands (O40). -/

namespace Sys2Proof.Machine

section
variable {s : State} {c : Cmd}

/-! ### The rotation (R402, R403) -/

/-- A part that goes on has not stopped. -/
theorem fatal_of_going (h : s.going = true) : s.ken.fatal = false := by
  simp only [State.going, Bool.and_eq_true, Bool.not_eq_true'] at h
  exact h.1

/-- In a cluster of the rotation, the interval makes the slot tested longest ago due. -/
theorem rotationDue_of_oldest {k i : Nat} {temp : Int} (henabled : s.raw 0x10 k 0x01 1 ≠ 0) (hserves : s.inService (uCluster k) = true)
    (hslot : s.oldestSlot k = some i) : rotationDue k temp s = coreTestDue i 0 noParent temp s := by
  simp only [rotationDue, henabled, hserves, hslot, Bool.not_true, Bool.false_eq_true, or_self, if_false]

/-- What lets a due core slot be tested at once, or released for its test: none of R402's reasons to wait holds. -/
structure MayTest (s : State) (i : Nat) (temp : Int) : Prop where
  running : s.ken.fatal = false
  untested : s.testing (uSlot i) = false
  noTakeover : thas s.ftest.pendingTakeover (i / 5) = false
  spare : s.spareOf (i / 5) ≠ none
  cool : temp < 760
  allowed : s.dieAllows (dieOf (uSlot i)) = true
  first : s.waitsBehind (i / 5) = false

/-- With no reason to wait, the spare is tested and any other slot waits for its takeover. -/
theorem coreTestDue_of_mayTest {i trigger parent : Nat} {temp : Int} (h : MayTest s i temp) :
    coreTestDue i trigger parent temp s =
      if s.coreState i = 1 then startTest (s.newTest (uSlot i) trigger parent s.extended false temp) (leaveWait (i / 5) s)
      else leaveWait (i / 5) { s with ftest := { s.ftest with
        pendingTakeover := tput s.ftest.pendingTakeover (i / 5) { slot := i, temp := temp, trigger := trigger, parent := parent } } } := by
  obtain ⟨hrunning, huntested, hnone, hspare, hcool, hallowed, hfirst⟩ := h
  have hsp : (s.spareOf (i / 5)).isNone = false := Option.isNone_eq_false_iff.mpr (Option.isSome_iff_ne_none.mpr hspare)
  simp only [coreTestDue, hrunning, huntested, hnone, hsp, hallowed, hfirst, Bool.false_eq_true, Bool.not_true, Bool.or_self, or_self,
    if_false, if_neg (Int.not_le.mpr hcool)]

/-- A deferred or waiting test is tried again as one that falls due. -/
theorem deferralRetry_of_deferred {k : Nat} {temp : Int} (h : k ∈ s.ftest.deferred ∨ k ∈ s.ftest.waiting) :
    deferralRetry k temp s =
      rotationDue k temp { s with ftest := { s.ftest with deferred := s.ftest.deferred.filter (· ≠ k) } } :=
  if_pos h

/-! ### Takeover (R401) -/

/-- Where the flushed cluster has a takeover pending and a spare free for it, the spare takes the identity and the slot is tested. -/
theorem takeover_of_free {k sp l : Nat} {d : TestDue} (s0 : State) (hs : s = s0.coreFlushed k) (hgoing : s.going = true)
    (hd : tget s.ftest.pendingTakeover k = some d) (hsp : s.spareOf k = some sp) (hl : s.identityOf d.slot = some l)
    (hfree : s.takeoverFree sp l = true) {u : State}
    (hu : u = takeIdentity l sp { s with ftest := { s.ftest with pendingTakeover := tdel s.ftest.pendingTakeover k } }) :
    takeover k s0 = startTest (u.newTest (uSlot d.slot) d.trigger d.parent u.extended false d.temp) u := by
  simp only [takeover, ← hs, hd, hsp, hl, hgoing, hfree, Bool.and_self, if_true, hu]

/-! ### The end of a test (R406) -/

/-- The test in progress of the unit is the one that ends. -/
theorem testComplete_of_find {o : TestOut} {t : TestRun} (h : (s.ftest.tests.find? fun t => t.unit == o.unit) = some t) :
    testComplete o s = finishTest t o (decide (t.unit / 4096 = 3) && (s.identityOf (t.unit % 4096)).isSome) s := by
  simp only [testComplete, h]

/-! ### Requalification (R407, R408) -/

/-- What lets a requalifying slot be retested now: it requalifies, the temperature is near that of the failed test, and the die allows
another test. -/
structure MayRetest (s : State) (i : Nat) (temp : Int) (q : Requal) : Prop where
  running : s.ken.fatal = false
  requalifying : s.coreState i = 3
  passes : tget s.ftest.passes i = some q
  above : temp - q.failed.tempStart ≤ 24
  below : q.failed.tempStart - temp ≤ 24
  allowed : s.dieAllows (dieOf (uSlot i)) = true

/-- A retest that may run keeps its record; a second pass returns the slot, a first is counted, a failure retires the slot. -/
theorem requalRetest_of_mayRetest {i : Nat} {temp : Int} {o x : TestOut} {q : Requal} {t : TestRun} {u : State}
    (h : MayRetest s i temp q) (hx : x = { o with unit := uSlot i, repeatFails := true })
    (ht : t = { q.failed with trigger := 3, tbStart := s.tb, tempStart := temp })
    (hu : u = countTest (uSlot i) (s.outcomeOf x) (keepRecord (s.testRecord t x (s.outcomeOf x)) s)) :
    requalRetest i temp false o s =
      if s.outcomeOf x = 0 then
        if 1 ≤ q.count then
          enterService (uSlot i) (becomeSpare i { u with ftest := { u.ftest with passes := tdel u.ftest.passes i } })
        else { u with ftest := { u.ftest with passes := tput u.ftest.passes i { q with count := 1 } } }
      else retireUnit (uSlot i) q.failed.parent (raiseEvent 0x000A (uSlot i) (uSlot i + s.outcomeOf x * 2 ^ 16) u) := by
  obtain ⟨hrunning, hstate, hq, habove, hbelow, hallowed⟩ := h
  have hp (d : Requal) : tgetD s.ftest.passes i d = q := by rw [tgetD, hq, Option.getD_some]
  subst hx ht hu
  simp only [requalRetest, hp, hrunning, hstate, hallowed, habove, hbelow, and_self, decide_true, Bool.true_or, Bool.not_true,
    Bool.false_eq_true, ne_eq, not_true_eq_false, or_self, if_false]

/-! ### Suspects (R408) -/

/-- A suspect unit in service that is no core is tested in place. -/
theorem suspectTest_of_unit {u : Nat} {temp : Int} {v : Nat × Nat} (hsuspect : tget s.eng.suspects u = some v)
    (hserves : s.inService u = true) (huntested : s.testing u = false) (hrunning : s.ken.fatal = false) (hcore : u / 4096 ≠ 3) :
    suspectTest u temp s = startTest (s.newTest u 1 v.1 false true temp) s := by
  simp only [suspectTest, hsuspect, hserves, huntested, hrunning, hcore, Bool.not_true, Bool.or_self, Bool.false_eq_true, if_false]

/-! ### The commands (R409, R413, R415) -/

theorem rotationInRange (hmask : c.p16 32 ≠ 0) (henable : c.p8 34 ≤ 1) (hlow : 1 ≤ c.p16 36) (hhigh : c.p16 36 ≤ 168) :
    ¬ RotationOutOfRange c := by
  unfold RotationOutOfRange
  omega

/-- A read of test results takes the records it writes and answers how many, and how many were replaced before. -/
theorem testResults_takes (hlow : 1 ≤ c.p16 32) (hhigh : c.p16 32 ≤ 256) (hflags : c.p8 34 = 0)
    (hbuf : c.minBuf (64 * c.p16 32) = true) {out : List TestRec} (hout : out = s.ftest.records.take (c.p16 32)) {t : State}
    (ht : t = emits ((layOut (hostBuffers c.entry c.list) (out.map TestRec.bytes).flatten).map fun p =>
      .pcieWrite (s.dataVia c.pair) p.1 p.2) s) :
    testResults true c s = finish c.pair c.cid stOk (out.length + Nat.min s.ftest.replaced 0xFFFF * 2 ^ 16)
      { t with ftest := { t.ftest with records := t.ftest.records.drop (c.p16 32), replaced := 0 } } := by
  have hbit : bitOf (c.p8 34) 0 = false := by rw [hflags]; decide
  subst hout ht
  unfold testResults
  dsimp only
  rw [if_neg (by rw [hbuf]; simp only [Bool.not_true, Bool.false_eq_true, or_false]; omega)]
  simp only [replyData_of_pcieOk, hbit, Bool.false_eq_true, if_false]

/-- UNIT_RETIRE retires a unit that it may, and that is not retired yet. -/
theorem unitRetire_of_may (hmay : mayRetire (c.p16 32) = true) (hnew : c.p16 32 ∉ s.ftest.retired) :
    unitRetire c s = finishPlain c.pair c.cid stOk (retireUnit (c.p16 32) noParent s) := by
  simp only [unitRetire, hmay, hnew, Bool.not_true, Bool.false_eq_true, if_false]

end

end Sys2Proof.Machine

/-! ### The statement -/

namespace Sys2Proof.Machine.FieldTestRows

/-- Settles O40: each row runs its operation, and the operation's own lemma says what it leaves: `coreTestDue_of_mayTest` of a test that
falls due, `takeover_of_free` of one that waited, `requalRetest_of_mayRetest` of a retest. -/
theorem fieldTestWorks : Obligations.FieldTestWorks := by
  refine ⟨fun s k temp i ha hgoing henabled hserves hslot hk huntested hnone hspare hcool hallowed hfirst => ?_,
    fun s k temp ha h => (live_of_alive ha).trans (congrArg _ (deferralRetry_of_deferred h)),
    fun s0 s k d sp l u ha hs hgoing hd hsp hl hfree hu =>
      (live_of_alive ha).trans (congrArg _ (takeover_of_free s0 hs hgoing hd hsp hl hfree hu)),
    fun s o t ha h => (live_of_alive ha).trans (congrArg _ (testComplete_of_find h)),
    fun s i temp o q x t u ha hrunning hstate hq habove hbelow hallowed hx ht hu => ?_,
    fun s u temp v ha hsuspect hserves huntested hrunning hcore =>
      (live_of_alive ha).trans (congrArg _ (suspectTest_of_unit hsuspect hserves huntested hrunning hcore)),
    fun s pair cid c h hmask henable hlow hhigh =>
      (live_runCmd_of_ready _ h).trans (congrArg _ (testRotationSet_sets (rotationInRange hmask henable hlow hhigh))),
    fun s pair cid c l outs temp r h hr => ?_,
    fun s pair cid c out h hlow hhigh hflags hbuf hout => ?_,
    fun s pair cid c h hmay hnew => (live_runCmd_of_ready _ h).trans (congrArg _ (unitRetire_of_may hmay hnew))⟩
  · subst hk
    have hdue := (rotationDue_of_oldest (temp := temp) henabled hserves hslot).trans
      (coreTestDue_of_mayTest ⟨fatal_of_going hgoing, huntested, hnone, hspare, hcool, hallowed, hfirst⟩)
    have hrow : exec (.rotationTestDue (i / 5) temp) s = .next (rotationDue (i / 5) temp s) := live_of_alive ha
    rw [hrow, hdue]
    exact ⟨fun hspareSlot => by rw [if_pos hspareSlot], fun hother => by rw [if_neg hother]⟩
  · have hrow : exec (.requalificationRetest i temp false o) s = .next (requalRetest i temp false o s) := live_of_alive ha
    rw [hrow, requalRetest_of_mayRetest ⟨hrunning, hstate, hq, habove, hbelow, hallowed⟩ hx ht hu]
    refine ⟨fun hpass hsecond => ?_, fun hpass hfirst => ?_, fun hfail => ?_⟩
    · rw [if_pos hpass, if_pos hsecond]
    · rw [if_pos hpass, if_neg (by omega)]
    · rw [if_neg hfail]
  · subst hr
    exact live_runLong_of_enters _ h
  · exact ⟨_, (live_runCmd_of_ready _ h).trans (congrArg _ (testResults_takes hlow hhigh hflags hbuf hout rfl)), rfl, rfl, rfl, rfl⟩

end Sys2Proof.Machine.FieldTestRows
end
